-- ==== Sys2Proof/Word.lean ====
section
/-! DEFINITION. The words of the machine: bytes, halfwords and the 64-bit scalar word (00_scope.md, helpers). -/

namespace Sys2Proof

/-- A byte of memory. -/
abbrev Byte := BitVec 8

/-- A 64-bit scalar register or memory word. -/
abbrev Word := BitVec 64

end Sys2Proof
end

