-- ==== Sys2Proof/Machine/Flags.lean ====
section
/-! DEFINITION. The arithmetic flags of FFLAGS and the rounding modes of RMODE (R31). -/

namespace Sys2Proof.Machine

/-- The seven sticky flags of FFLAGS (R31): IDZ, IOV, NV, DZ, OF, UF, NX from bit 6 down. -/
abbrev Flags := BitVec 7

def flNone : Flags := 0
/-- Inexact. -/
def flNX : Flags := 1
/-- Underflow. -/
def flUF : Flags := 2
/-- Overflow. -/
def flOF : Flags := 4
/-- Floating divide by zero. -/
def flDZ : Flags := 8
/-- Invalid operation. -/
def flNV : Flags := 16
/-- Integer overflow or saturation. -/
def flIOV : Flags := 32
/-- Integer divide by zero. -/
def flIDZ : Flags := 64

/-- A flag raised under a condition. -/
def flagIf (c : Bool) (f : Flags) : Flags := if c then f else 0

/-- RMODE.RM (R31). -/
inductive Rounding where
  | rne | rtz | rdn | rup
  deriving DecidableEq, Repr

/-- The arithmetic controls an instruction takes from RMODE (R31): the rounding and SAT8. -/
structure RMode where
  rm : Rounding
  sat8 : Bool
  deriving DecidableEq, Repr

/-- The fields of the register RMODE (R31). -/
def RMode.ofBits (v : BitVec 3) : RMode :=
  { rm := match v.toNat % 4 with
      | 0 => .rne
      | 1 => .rtz
      | 2 => .rdn
      | _ => .rup
    sat8 := v.getLsbD 2 }

/-- Round to nearest, whatever RMODE says (R34); no 8-bit format is produced under it. -/
def rneMode : RMode := { rm := .rne, sat8 := true }

end Sys2Proof.Machine
end

