-- ==== Sys2Proof/Syntax.lean ====
section
/-! DEFINITION. The steps of the Syfold S96 as syntax: the encoded instructions of Aslin with their operands (R54 to R69)
and the operations and events of the device's units.  Nothing here has a meaning; Machine/Dispatch.lean gives it. -/

namespace Sys2Proof

/-- A scalar register s0 to s31 (R58). -/
abbrev SReg := Fin 32
/-- A vector register v0 to v31 (R58). -/
abbrev VReg := Fin 32
/-- A mask register m0 to m15 (R58). -/
abbrev MReg := Fin 16
/-- An accumulator tile z0 to z3 (R58). -/
abbrev ZReg := Fin 4

/-- The formats of R28, in the order of their codes 0x0 to 0xE; code 0xF is reserved. -/
inductive Fmt where
  | i8 | i16 | i32 | i64 | f16 | bf16 | f32 | e4m3 | e5m2 | cb4 | cf16 | cbf16 | cf32 | ci16 | e8m0
  deriving DecidableEq, Repr

/-- The code of a format (R28). -/
def Fmt.code : Fmt → Nat
  | .i8 => 0 | .i16 => 1 | .i32 => 2 | .i64 => 3 | .f16 => 4 | .bf16 => 5 | .f32 => 6 | .e4m3 => 7 | .e5m2 => 8
  | .cb4 => 9 | .cf16 => 10 | .cbf16 => 11 | .cf32 => 12 | .ci16 => 13 | .e8m0 => 14

/-- The format of a code; only codes below 15 are asked for (R28). -/
def Fmt.ofCode : Nat → Fmt
  | 0 => .i8 | 1 => .i16 | 2 => .i32 | 3 => .i64 | 4 => .f16 | 5 => .bf16 | 6 => .f32 | 7 => .e4m3 | 8 => .e5m2
  | 9 => .cb4 | 10 => .cf16 | 11 => .cbf16 | 12 => .cf32 | 13 => .ci16 | _ => .e8m0

/-- The mask and format qualification of an XQ word (R56, R62): the mask register with its inverse bit, and the format
override. -/
structure Qual where
  mask : Option (MReg × Bool) := none
  fo : Option Fmt := none
  deriving DecidableEq, Repr

/-- How many XQ words the qualification takes in the canonical encoding (R74). -/
def Qual.xqCount (q : Qual) : Nat := (q.mask.isSome || q.fo.isSome).toNat

/-- An Ethernet frame as a headrace port receives it (R255): its bytes from the destination address on, less the frame
check sequence, and whether that sequence was right. -/
structure EthFrame where
  /-- The part of a split port (R256). -/
  part : Nat
  bytes : List Byte
  fcsOk : Bool
  deriving DecidableEq, Repr

/-- A unit with a time counter of its own (R13). -/
inductive TimeUnit where
  | cluster (k : Nat)
  | slice (s : Nat)
  deriving DecidableEq, Repr

/-- An image the boot ROM verifies (R429): the kernel of a service core, or the micro-kernel of the compute cores. -/
inductive ImageUnit where
  | service (s : Nat)
  | microKernel
  deriving DecidableEq, Repr

/-- What an SRAM scrubber reads (R427, R428): an 8-byte word of a core array or a cluster scratchpad by its place / 8, a beat of a
vector register of a context, a word of a core's tiles, a Governor's record by its job, or an entry of a table. -/
inductive ScrubTarget where
  | word (w : Nat)
  | vreg (cx beat : Nat)
  | tile (core w : Nat)
  | job (h : Nat)
  | tag (core t : Nat)
  | weir (w : Nat)
  | barrier (core b : Nat)
  | footprint (i : Nat)
  deriving DecidableEq, Repr

/-- A unit that can be power-gated (R358, R423). -/
inductive GateUnit where
  | core (c : Nat)
  | quad (c : Nat) (q : Nat)
  | matrix (c : Nat)
  | engine (e : Nat)
  | cluster (k : Nat)
  deriving DecidableEq, Repr

/-- A host CXL.mem access to the HDM window (R384, R385), at an offset from the decoder base. -/
inductive HostAccess where
  | read (off : Nat) (len : Nat) (excl : Bool)
  | write (off : Nat) (bytes : List Byte)
  deriving DecidableEq, Repr

/-- The read-modify-write of an atomic (R213). -/
inductive AmoOp where
  | add | and | or | xor | min | max | minn | maxn | swp | cas
  deriving DecidableEq, Repr

/-- What a memory request of the twin asks for (R391): bytes read, bytes written, or an atomic of R213 on a word. -/
inductive TwinOp where
  | read (len : Nat)
  | write (bytes : List Byte)
  | amo (op : AmoOp) (size : Nat) (b c : Word)
  deriving DecidableEq, Repr

/-- A word of memory the twin opens to a tenant of this device (R391, R392): base, size in bytes, tenant and rights. -/
structure TwinGrant where
  base : Nat
  size : Nat
  owner : Nat
  r : Bool
  w : Bool
  deriving DecidableEq, Repr

/-- An active message that the twin sends to a core of this device (R306). -/
structure TwinMsg where
  reply : Bool
  /-- A reply that uses the slot its request reserved here (R304). -/
  right : Bool
  tenant : Nat
  deadline : Word
  /-- The sending core as seen here, 128 to 223. -/
  src : Nat
  core : Nat
  tag : Nat
  payload : List Word
  deriving DecidableEq, Repr

/-- Where an arriving active message comes from: the messages in flight, or the twin. -/
inductive AmSource where
  | sent (i : Nat)
  | twin (m : TwinMsg)
  deriving DecidableEq, Repr

/-- A message that a unit of the twin sends on ENG to a core of this device (R302, R306). -/
structure TwinEng where
  tenant : Nat
  deadline : Word
  core : Nat
  tag : Nat
  payload : List Word
  deriving DecidableEq, Repr

/-- Where a delivery on ENG comes from: the packets in flight, or the twin. -/
inductive EngIn where
  | sent (i : Nat)
  | twin (m : TwinEng)
  deriving DecidableEq, Repr

/-- Where an empty release comes from (R304, R306): the releases in flight, or the twin, for a slot of an owner on a core. -/
inductive ReleaseSource where
  | sent (i : Nat)
  | twin (core owner : Nat)
  deriving DecidableEq, Repr

/-- A Gaussian message: order, precision elements row by row and information elements as cf32, tenant, launch group and
deadline (R51, R176, R184). -/
structure GaussMsg where
  order : Nat
  lam : List Nat
  eta : List Nat
  tenant : Nat
  group : Nat
  deadline : Word
  src : Nat
  /-- The mailbox address word (R179). -/
  core : Nat
  index : Nat
  deriving DecidableEq, Repr

/-- Where an arriving Gaussian message comes from. -/
inductive GmSource where
  | sent (i : Nat)
  | twin (m : GaussMsg)
  deriving DecidableEq, Repr

/-- What waits with a deadline without having started (R289, R305): a job by its handle, or an entry of a core's inboxes. -/
inductive QueuedRef where
  | job (h : Nat)
  | handler (core i : Nat)
  deriving DecidableEq, Repr

/-- A memory request of the twin (R391, R392): the tenant it carries, the address in this device, and the operation. -/
structure TwinAccess where
  tenant : Nat
  addr : Nat
  op : TwinOp
  deriving DecidableEq, Repr


/-- Every step of the part: one constructor for each row of spec/opcode_table.json.  The first 276 are the encoded
instructions, the others the operations and events of the units (spec/95_what_each_step_holds.md). -/
inductive Instr where
  /-- R95: Writes the 64-bit wrapping sum of registers a and b to d. -/
  | add (d : SReg) (a : SReg) (b : SReg)
  /-- R95: Writes a minus b, wrapping, to d. -/
  | sub (d : SReg) (a : SReg) (b : SReg)
  /-- R95: Writes the bitwise AND of a and b to d. -/
  | and (d : SReg) (a : SReg) (b : SReg)
  /-- R95: Writes the bitwise OR of a and b to d. -/
  | or (d : SReg) (a : SReg) (b : SReg)
  /-- R95: Writes the bitwise XOR of a and b to d. -/
  | xor (d : SReg) (a : SReg) (b : SReg)
  /-- R95: Shifts a left by bits 5:0 of b into d. -/
  | sll (d : SReg) (a : SReg) (b : SReg)
  /-- R95: Adds a signed immediate to a and writes d. -/
  | addi (d : SReg) (a : SReg) (imm : Int)
  /-- R95: Loads a signed immediate into d. -/
  | li (d : SReg) (imm : Int)
  /-- R97: Loads 64 bits from a plus a scaled unsigned displacement into d, as a class S load. -/
  | ldd (d : SReg) (a : SReg) (imm : Nat)
  /-- R97: Stores register d as 64 bits at a plus a scaled displacement, as a class S store. -/
  | std (d : SReg) (a : SReg) (imm : Nat)
  /-- R98: Branches by a halfword offset when d is zero. -/
  | beqz (d : SReg) (off : Int)
  /-- R98: Branches by a halfword offset when d is not zero. -/
  | bnez (d : SReg) (off : Int)
  /-- R98: Writes the link address to d and jumps to the PC-relative target. -/
  | jal (d : SReg) (off : Int)
  /-- R95: Copies register a to d. -/
  | mov (d : SReg) (a : SReg)
  /-- R98: Jumps to the address in a after writing the link to d, or raises MISALIGNED for an odd target. -/
  | jalr (d : SReg) (a : SReg)
  /-- R95: Writes the bitwise complement of a to d. -/
  | not (d : SReg) (a : SReg)
  /-- R95: Writes 0 minus a to d. -/
  | neg (d : SReg) (a : SReg)
  /-- R99: Sets VTYPE to the format and VL to min(a, VLMAX), writing VL to d. -/
  | setvl (d : SReg) (a : SReg) (fmt : Fmt)
  /-- R95: Logical right shift of a by bits 5:0 of b. -/
  | srl (d : SReg) (a : SReg) (b : SReg)
  /-- R95: Arithmetic right shift of a by bits 5:0 of b. -/
  | sra (d : SReg) (a : SReg) (b : SReg)
  /-- R95: Left shift of a by an unsigned immediate. -/
  | slli (d : SReg) (a : SReg) (amt : Nat)
  /-- R95: Logical right shift of a by an unsigned immediate. -/
  | srli (d : SReg) (a : SReg) (amt : Nat)
  /-- R95: Arithmetic right shift of a by an unsigned immediate. -/
  | srai (d : SReg) (a : SReg) (amt : Nat)
  /-- R96: Writes the low 64 bits of a times b. -/
  | mul (d : SReg) (a : SReg) (b : SReg)
  /-- R96: Writes the high 64 bits of the signed product. -/
  | mulh (d : SReg) (a : SReg) (b : SReg)
  /-- R96: Writes the high 64 bits of the unsigned product. -/
  | mulhn (d : SReg) (a : SReg) (b : SReg)
  /-- R96: Writes the signed truncated quotient under R41 and ORs IDZ or IOV into FFLAGS. -/
  | div (d : SReg) (a : SReg) (b : SReg)
  /-- R96: Writes the unsigned quotient under R41. -/
  | divn (d : SReg) (a : SReg) (b : SReg)
  /-- R96: Writes the signed remainder under R41. -/
  | rem (d : SReg) (a : SReg) (b : SReg)
  /-- R96: Writes the unsigned remainder under R41. -/
  | remn (d : SReg) (a : SReg) (b : SReg)
  /-- R95: Writes 1 if a is less than b signed, else 0. -/
  | slt (d : SReg) (a : SReg) (b : SReg)
  /-- R95: Writes 1 if a is less than b unsigned, else 0. -/
  | sltn (d : SReg) (a : SReg) (b : SReg)
  /-- R95: ANDs a with a signed immediate. -/
  | andi (d : SReg) (a : SReg) (imm : Int)
  /-- R95: ORs a with a signed immediate. -/
  | ori (d : SReg) (a : SReg) (imm : Int)
  /-- R95: XORs a with a signed immediate. -/
  | xori (d : SReg) (a : SReg) (imm : Int)
  /-- R95: Writes the signed minimum of a and b. -/
  | min (d : SReg) (a : SReg) (b : SReg)
  /-- R95: Writes the signed maximum of a and b. -/
  | max (d : SReg) (a : SReg) (b : SReg)
  /-- R95: Writes the unsigned minimum of a and b. -/
  | minn (d : SReg) (a : SReg) (b : SReg)
  /-- R95: Writes the unsigned maximum of a and b. -/
  | maxn (d : SReg) (a : SReg) (b : SReg)
  /-- R95: Counts leading zero bits of a. -/
  | clz (d : SReg) (a : SReg)
  /-- R95: Counts trailing zero bits of a. -/
  | ctz (d : SReg) (a : SReg)
  /-- R95: Counts the one bits of a. -/
  | popc (d : SReg) (a : SReg)
  /-- R95: Sign-extends the low 8, 16 or 32 bits of a. -/
  | sext (d : SReg) (a : SReg) (w : Fin 3)
  /-- R95: Zero-extends the low 8, 16 or 32 bits of a. -/
  | zext (d : SReg) (a : SReg) (w : Fin 3)
  /-- R95: Replaces bits 63:48 of a with a 16-bit immediate given in two XI words. -/
  | lih (d : SReg) (a : SReg) (imm : Nat)
  /-- R98: Writes the PC-relative target address to d without transfer. -/
  | addpc (d : SReg) (off : Int)
  /-- R95: Writes a plus b shifted left by the XR amount C. -/
  | addsl (d : SReg) (a : SReg) (b : SReg) (c : Fin 32)
  /-- R95: Writes a if register C is non-zero, else b. -/
  | select (d : SReg) (a : SReg) (b : SReg) (c : SReg)
  /-- R98: Branches when d equals a. -/
  | beq (d : SReg) (a : SReg) (off : Int)
  /-- R98: Branches when d differs from a. -/
  | bne (d : SReg) (a : SReg) (off : Int)
  /-- R98: Branches when d is less than a, signed. -/
  | blt (d : SReg) (a : SReg) (off : Int)
  /-- R98: Branches when d is at least a, signed. -/
  | bge (d : SReg) (a : SReg) (off : Int)
  /-- R98: Branches when d is less than a, unsigned. -/
  | bltn (d : SReg) (a : SReg) (off : Int)
  /-- R98: Branches when d is at least a, unsigned. -/
  | bgen (d : SReg) (a : SReg) (off : Int)
  /-- R100: Counts down rc by VL, advances up to four pointers, sets the next VL and branches while elements remain. -/
  | loopsm (rc : SReg) (p : SReg) (np : Fin 4) (off : Int)
  /-- R101: Reads a state register by 8-bit index into d, waiting where R92 requires. -/
  | get (d : SReg) (idx : Byte)
  /-- R101: Writes a state register by index under R90 and R91, taking effect for the next instruction. -/
  | set (a : SReg) (idx : Byte)
  /-- R102: Writes the local cluster TNS to d at issue. -/
  | time (d : SReg)
  /-- R103: Writes the selected outstanding-operation, cycle or instret counter to d. -/
  | rdcnt (d : SReg) (sel : Fin 7)
  /-- R105: Waits until the outstanding-operation counters are at or below the limits, then raises a pending MX_FAULT. -/
  | waitc (ld : Fin 16) (st : Fin 16) (cp : Fin 16) (mx : Fin 16) (en : Fin 16)
  /-- R116: Adds vector elements, wrapping or rounding. -/
  | vadd (vd : VReg) (va : VReg) (vb : VReg) (q : Qual)
  /-- R116: Subtracts vector elements. -/
  | vsub (vd : VReg) (va : VReg) (vb : VReg) (q : Qual)
  /-- R116: Multiplies vector elements. -/
  | vmul (vd : VReg) (va : VReg) (vb : VReg) (q : Qual)
  /-- R116: Multiply-accumulates into vd with one rounding. -/
  | vmac (vd : VReg) (va : VReg) (vb : VReg) (q : Qual)
  /-- R118: Signed or floating minimum per element. -/
  | vmin (vd : VReg) (va : VReg) (vb : VReg) (q : Qual)
  /-- R118: Signed or floating maximum per element. -/
  | vmax (vd : VReg) (va : VReg) (vb : VReg) (q : Qual)
  /-- R116: Unsigned minimum per element. -/
  | vminn (vd : VReg) (va : VReg) (vb : VReg) (q : Qual)
  /-- R116: Unsigned maximum per element. -/
  | vmaxn (vd : VReg) (va : VReg) (vb : VReg) (q : Qual)
  /-- R116: Bitwise AND per element. -/
  | vand (vd : VReg) (va : VReg) (vb : VReg) (q : Qual)
  /-- R116: Bitwise OR per element. -/
  | vor (vd : VReg) (va : VReg) (vb : VReg) (q : Qual)
  /-- R116: Bitwise XOR per element. -/
  | vxor (vd : VReg) (va : VReg) (vb : VReg) (q : Qual)
  /-- R116: Left shift per element. -/
  | vsll (vd : VReg) (va : VReg) (vb : VReg) (q : Qual)
  /-- R116: Logical right shift per element. -/
  | vsrl (vd : VReg) (va : VReg) (vb : VReg) (q : Qual)
  /-- R116: Arithmetic right shift per element. -/
  | vsra (vd : VReg) (va : VReg) (vb : VReg) (q : Qual)
  /-- R116: Signed integer or correctly rounded floating division per element. -/
  | vdiv (vd : VReg) (va : VReg) (vb : VReg) (q : Qual)
  /-- R116: Unsigned division per element. -/
  | vdivn (vd : VReg) (va : VReg) (vb : VReg) (q : Qual)
  /-- R116: Signed remainder per element. -/
  | vrem (vd : VReg) (va : VReg) (vb : VReg) (q : Qual)
  /-- R116: Unsigned remainder per element. -/
  | vremn (vd : VReg) (va : VReg) (vb : VReg) (q : Qual)
  /-- R116: Saturating signed add per element, setting IOV on clamp. -/
  | vadds (vd : VReg) (va : VReg) (vb : VReg) (q : Qual)
  /-- R116: Saturating signed subtract per element. -/
  | vsubs (vd : VReg) (va : VReg) (vb : VReg) (q : Qual)
  /-- R117: Fixed-point multiply with rounding and saturation. -/
  | vmulhq (vd : VReg) (va : VReg) (vb : VReg) (q : Qual)
  /-- R116: Absolute value per element. -/
  | vabs (vd : VReg) (va : VReg) (q : Qual)
  /-- R116: Negation per element. -/
  | vneg (vd : VReg) (va : VReg) (q : Qual)
  /-- R46: Faithful reciprocal approximation per element. -/
  | vrcp (vd : VReg) (va : VReg) (q : Qual)
  /-- R46: Faithful reciprocal square root per element. -/
  | vrsqrt (vd : VReg) (va : VReg) (q : Qual)
  /-- R46: Faithful base-2 exponential per element. -/
  | vexp2 (vd : VReg) (va : VReg) (q : Qual)
  /-- R46: Faithful base-2 logarithm per element. -/
  | vlog2 (vd : VReg) (va : VReg) (q : Qual)
  /-- R116: Correctly rounded square root per element. -/
  | vsqrt (vd : VReg) (va : VReg) (q : Qual)
  /-- R119: Writes a one-hot class code per floating element. -/
  | vclass (vd : VReg) (va : VReg) (q : Qual)
  /-- R119: Multiplies each element by a power of two given by vb. -/
  | vscale (vd : VReg) (va : VReg) (vb : VReg) (q : Qual)
  /-- R120: Sets mask bits where elements are equal. -/
  | vceq (md : MReg) (va : VReg) (vb : VReg) (q : Qual)
  /-- R120: Sets mask bits where elements differ. -/
  | vcne (md : MReg) (va : VReg) (vb : VReg) (q : Qual)
  /-- R120: Sets mask bits where x is less than y. -/
  | vclt (md : MReg) (va : VReg) (vb : VReg) (q : Qual)
  /-- R120: Sets mask bits where x is at most y. -/
  | vcle (md : MReg) (va : VReg) (vb : VReg) (q : Qual)
  /-- R120: Unsigned less-than compare into a mask. -/
  | vcltn (md : MReg) (va : VReg) (vb : VReg) (q : Qual)
  /-- R120: Unsigned less-or-equal compare into a mask. -/
  | vclen (md : MReg) (va : VReg) (vb : VReg) (q : Qual)
  /-- R120: Compares elements for equality with a signed immediate. -/
  | vceqi (md : MReg) (va : VReg) (imm : Int) (q : Qual)
  /-- R120: Compares elements less than a signed immediate. -/
  | vclti (md : MReg) (va : VReg) (imm : Int) (q : Qual)
  /-- R121: ANDs mask bits governing elements below VL. -/
  | mand (md : MReg) (ma : MReg) (mb : MReg)
  /-- R121: ORs mask bits. -/
  | mor (md : MReg) (ma : MReg) (mb : MReg)
  /-- R121: XORs mask bits. -/
  | mxor (md : MReg) (ma : MReg) (mb : MReg)
  /-- R121: Inverts mask bits. -/
  | mnot (md : MReg) (ma : MReg)
  /-- R122: Writes the number of set mask bits to a scalar register at completion. -/
  | mcnt (d : SReg) (ma : MReg)
  /-- R122: Writes 1 if any mask bit is set. -/
  | many (d : SReg) (ma : MReg)
  /-- R122: Writes the index of the lowest set mask bit or all ones. -/
  | mfirst (d : SReg) (ma : MReg)
  /-- R123: Copies vector elements. -/
  | vmv (vd : VReg) (va : VReg) (q : Qual)
  /-- R123: Fills elements with the low bits of a scalar. -/
  | vsplat (vd : VReg) (a : SReg) (q : Qual)
  /-- R123: Extracts one element into a scalar register at completion. -/
  | vext (d : SReg) (va : VReg) (b : SReg) (fo : Option Fmt)
  /-- R123: Inserts a scalar into one element. -/
  | vins (vd : VReg) (a : SReg) (b : SReg) (fo : Option Fmt)
  /-- R123: Slides elements up by a scalar offset. -/
  | vslideup (vd : VReg) (va : VReg) (b : SReg) (q : Qual)
  /-- R123: Slides elements down by a scalar offset, filling zeros past VLMAX. -/
  | vslidedn (vd : VReg) (va : VReg) (b : SReg) (q : Qual)
  /-- R123: Permutes elements by an index vector. -/
  | vperm (vd : VReg) (va : VReg) (vb : VReg) (q : Qual)
  /-- R124: Packs active elements to the front and sets VL to their count at completion. -/
  | vcompress (vd : VReg) (va : VReg) (q : Qual)
  /-- R123: Scatters consecutive source elements to active positions. -/
  | vexpand (vd : VReg) (va : VReg) (q : Qual)
  /-- R123: Writes the count of active elements below each index. -/
  | viota (vd : VReg) (q : Qual)
  /-- R123: Writes each element's index. -/
  | vid (vd : VReg) (q : Qual)
  /-- R123: Selects va or vb per element by the mask. -/
  | vmerge (vd : VReg) (va : VReg) (vb : VReg) (q : Qual)
  /-- R125: Sums active elements in the pairwise tree into element 0. -/
  | vredsum (vd : VReg) (va : VReg) (q : Qual)
  /-- R125: Maximum of active elements into element 0. -/
  | vredmax (vd : VReg) (va : VReg) (q : Qual)
  /-- R125: Minimum of active elements into element 0. -/
  | vredmin (vd : VReg) (va : VReg) (q : Qual)
  /-- R127: Converts elements to the target format under R35 and R36. -/
  | vcvt (vd : VReg) (va : VReg) (tf : Fmt) (q : Qual)
  /-- R129: Computes block scales of source blocks into a scale register. -/
  | vqscale (vd : VReg) (va : VReg) (g : Fin 16) (sf : Fmt) (q : Qual)
  /-- R129: Quantises source elements with their block scales. -/
  | vquant (vd : VReg) (va : VReg) (vb : VReg) (sf : Fmt) (q : Qual)
  /-- R129: Dequantises scaled elements to f16, bf16 or f32. -/
  | vdeq (vd : VReg) (va : VReg) (vb : VReg) (tf : Fmt) (q : Qual)
  /-- R130: Decodes cb4 codes to bf16 through a codebook. -/
  | vcblk (vd : VReg) (va : VReg) (cb : Fin 2) (q : Qual)
  /-- R128: Widens the lower half of a register. -/
  | vwidenlo (vd : VReg) (va : VReg) (u : Fin 2) (q : Qual)
  /-- R128: Widens the upper half of a register. -/
  | vwidenhi (vd : VReg) (va : VReg) (u : Fin 2) (q : Qual)
  /-- R128: Narrows two wide registers into one. -/
  | vnarrow (vd : VReg) (va : VReg) (vb : VReg) (tf : Fmt) (q : Qual)
  /-- R137: Complex addition per element. -/
  | vcadd (vd : VReg) (va : VReg) (vb : VReg) (q : Qual)
  /-- R137: Complex subtraction per element. -/
  | vcsub (vd : VReg) (va : VReg) (vb : VReg) (q : Qual)
  /-- R137: Complex multiplication with one rounding per component. -/
  | vcmul (vd : VReg) (va : VReg) (vb : VReg) (q : Qual)
  /-- R137: Multiplies by the conjugate of vb. -/
  | vcmulj (vd : VReg) (va : VReg) (vb : VReg) (q : Qual)
  /-- R137: Complex multiply-accumulate. -/
  | vcmac (vd : VReg) (va : VReg) (vb : VReg) (q : Qual)
  /-- R137: Complex conjugate multiply-accumulate. -/
  | vcmacj (vd : VReg) (va : VReg) (vb : VReg) (q : Qual)
  /-- R137: Conjugates each element. -/
  | vconj (vd : VReg) (va : VReg) (q : Qual)
  /-- R137: Multiplies each element by i to the power k. -/
  | vcrot (vd : VReg) (va : VReg) (k : Fin 4) (q : Qual)
  /-- R137: Squared magnitude of each element. -/
  | vcabs2 (vd : VReg) (va : VReg) (q : Qual)
  /-- R137: Scales each element by the real part of vb. -/
  | vcscale (vd : VReg) (va : VReg) (vb : VReg) (q : Qual)
  /-- R140: Conjugate dot product summed in the tree into element 0. -/
  | vcdot (vd : VReg) (va : VReg) (vb : VReg) (q : Qual)
  /-- R137: Keeps the real part of each element. -/
  | vcreal (vd : VReg) (va : VReg) (q : Qual)
  /-- R137: Swaps real and imaginary parts. -/
  | vcswap (vd : VReg) (va : VReg) (q : Qual)
  /-- R137: Correctly rounded magnitude of each element. -/
  | vcmag (vd : VReg) (va : VReg) (q : Qual)
  /-- R138: Saturating Q15 complex multiply-accumulate on ci16. -/
  | vcmacs (vd : VReg) (va : VReg) (vb : VReg) (q : Qual)
  /-- R142: Radix-2 butterflies within a register. -/
  | vbfly2 (vd : VReg) (va : VReg) (b : SReg) (vt : VReg) (q : Qual)
  /-- R142: Radix-3 butterflies within a register. -/
  | vbfly3 (vd : VReg) (va : VReg) (b : SReg) (vt : VReg) (q : Qual)
  /-- R142: Radix-4 butterflies within a register. -/
  | vbfly4 (vd : VReg) (va : VReg) (b : SReg) (vt : VReg) (q : Qual)
  /-- R142: Radix-5 butterflies within a register. -/
  | vbfly5 (vd : VReg) (va : VReg) (b : SReg) (vt : VReg) (q : Qual)
  /-- R141: Generates twiddle factors by exponent pattern. -/
  | vtwid (vd : VReg) (a : SReg) (b : SReg) (q : Qual)
  /-- R144: Applies a mixed-radix digit reversal per block. -/
  | vdrev (vd : VReg) (va : VReg) (b : SReg) (q : Qual)
  /-- R145: Transposes blocks of R by C elements. -/
  | vtrans (vd : VReg) (va : VReg) (b : SReg) (q : Qual)
  /-- R146: Batched small complex matrix product. -/
  | vmgmul (vd : VReg) (va : VReg) (vb : VReg) (q : Qual)
  /-- R146: Batched product with the conjugate transpose of vb. -/
  | vmgmulh (vd : VReg) (va : VReg) (vb : VReg) (q : Qual)
  /-- R146: Batched matrix-vector product. -/
  | vmgmv (vd : VReg) (va : VReg) (vb : VReg) (q : Qual)
  /-- R147: Batched Hermitian Cholesky factor on the Schur unit with pivot guard. -/
  | vhchol (vd : VReg) (va : VReg) (q : Qual)
  /-- R148: Batched Hermitian inverse by sweep on the Schur unit. -/
  | vhinv (vd : VReg) (va : VReg) (q : Qual)
  /-- R149: Batched Schur complement eliminating index p. -/
  | vschur (vd : VReg) (va : VReg) (p : Fin 4) (q : Qual)
  /-- R149: Applies the Schur elimination of index p to a vector batch. -/
  | vschurv (vd : VReg) (va : VReg) (vb : VReg) (p : Fin 4) (q : Qual)
  /-- R147: Batched Hermitian solve through the Cholesky factor. -/
  | vhsolve (vd : VReg) (va : VReg) (vb : VReg) (q : Qual)
  /-- R146: Batched exact conjugate transpose. -/
  | vmgtr (vd : VReg) (va : VReg) (q : Qual)
  /-- R146: Adds a scalar f32 to each diagonal real part. -/
  | vhreg (vd : VReg) (va : VReg) (b : SReg) (q : Qual)
  /-- R156: Queues a write of GEOM, STRIDE or SSTRIDE after checking the operand. -/
  | mxcfg (n : Fin 16) (a : SReg)
  /-- R162: Queues a tile multiply-accumulate into an accumulator. -/
  | mma (z : ZReg) (a : SReg) (b : SReg)
  /-- R162: Queues a tile multiply that first clears the result region. -/
  | mmaz (z : ZReg) (a : SReg) (b : SReg)
  /-- R164: Queues clearing of a whole tile. -/
  | mxzero (z : ZReg)
  /-- R164: Queues a store of the M by N tile region to scratchpad. -/
  | mxst (z : ZReg) (a : SReg) (b : SReg)
  /-- R164: Queues a load of the M by N tile region from scratchpad. -/
  | mxld (z : ZReg) (a : SReg) (b : SReg)
  /-- R164: Queues a load of a codebook, or its reset contents for address 0. -/
  | mxldcb (cb : Fin 2) (a : SReg)
  /-- R165: Moves accumulator elements into a vector register, row by row as rows become ready. -/
  | vmovz (vd : VReg) (z : ZReg) (b : SReg) (q : Qual)
  /-- R165: Moves vector elements into an accumulator tile. -/
  | vmovtoz (z : ZReg) (va : VReg) (b : SReg) (q : Qual)
  /-- R171: Saves the matrix unit to a save area for a trap handler and resets it. -/
  | mxpark (a : SReg)
  /-- R171: Restores the matrix unit from a save area. -/
  | mxunpark (a : SReg)
  /-- R157: Queues a write of the scale bases SA and SB. -/
  | mxscale (a : SReg) (b : SReg)
  /-- R167: Queues a write of the SHARE multicast word. -/
  | mxshare (a : SReg)
  /-- R169: Waits for an empty command queue and reads matrix status or configuration, clearing status for selector 8. -/
  | mxstat (d : SReg) (sel : Fin 9)
  /-- R184: Sends the Gaussian message in a register pair to a mailbox, updating an optional shadow. -/
  | gsend (d : SReg) (vp : VReg) (b : SReg)
  /-- R184: Sends only when the residual against the shadow exceeds GTAU. -/
  | gsendc (d : SReg) (vp : VReg) (b : SReg)
  /-- R186: Reads a mailbox atomically into a register pair. -/
  | gld (vp : VReg) (a : SReg) (b : SReg)
  /-- R187: Adds a range of mailboxes to the message in a pair. -/
  | gsum (vp : VReg) (a : SReg)
  /-- R187: Adds a range of mailboxes except one, forming the cavity. -/
  | gsumx (vp : VReg) (a : SReg)
  /-- R188: Damps one message pair towards another. -/
  | gdamp (vp : VReg) (vq : VReg) (b : SReg)
  /-- R192: Writes the tenant's mailbox table descriptor MBTAB on the core. -/
  | gcfg (n : Fin 16) (a : SReg)
  /-- R189: Marginalises a message onto kept indices on the Schur unit. -/
  | gmarg (vp : VReg) (vq : VReg) (b : SReg)
  /-- R189: Embeds a lower-order message at kept indices. -/
  | gembed (vp : VReg) (vq : VReg) (b : SReg)
  /-- R190: Converts a message to moment form, covariance and mean. -/
  | gmean (vp : VReg) (vq : VReg)
  /-- R193: Reads mailbox statistics, clearing DROPS for selector 8. -/
  | gstat (d : SReg) (sel : Fin 16)
  /-- R209: Loads a sign-extended byte. -/
  | lb (d : SReg) (a : SReg) (imm : Nat)
  /-- R209: Loads a zero-extended byte. -/
  | lbn (d : SReg) (a : SReg) (imm : Nat)
  /-- R209: Loads a sign-extended halfword. -/
  | lh (d : SReg) (a : SReg) (imm : Nat)
  /-- R209: Loads a zero-extended halfword. -/
  | lhn (d : SReg) (a : SReg) (imm : Nat)
  /-- R209: Loads a sign-extended word. -/
  | lw (d : SReg) (a : SReg) (imm : Nat)
  /-- R209: Loads a zero-extended word. -/
  | lwn (d : SReg) (a : SReg) (imm : Nat)
  /-- R209: Stores a byte. -/
  | sb (d : SReg) (a : SReg) (imm : Nat)
  /-- R209: Stores a halfword. -/
  | sh (d : SReg) (a : SReg) (imm : Nat)
  /-- R209: Stores a word. -/
  | sw (d : SReg) (a : SReg) (imm : Nat)
  /-- R209: Loads 64 bits at a plus b. -/
  | ldx (d : SReg) (a : SReg) (b : SReg)
  /-- R209: Stores 64 bits at a plus b. -/
  | stx (d : SReg) (a : SReg) (b : SReg)
  /-- R210: Prefetches a line into L1 or L2 by hint, affecting timing only. -/
  | pref (hint : Fin 3) (a : SReg) (imm : Nat)
  /-- R211: Writes back and invalidates every copy of a line. -/
  | cflush (a : SReg)
  /-- R211: Invalidates every copy of a line, discarding dirty data. -/
  | cinv (a : SReg)
  /-- R213: Atomic add returning the old value. -/
  | amoadd (d : SReg) (a : SReg) (b : SReg) (w32 : Bool)
  /-- R213: Atomic AND returning the old value. -/
  | amoand (d : SReg) (a : SReg) (b : SReg) (w32 : Bool)
  /-- R213: Atomic OR returning the old value. -/
  | amoor (d : SReg) (a : SReg) (b : SReg) (w32 : Bool)
  /-- R213: Atomic XOR returning the old value. -/
  | amoxor (d : SReg) (a : SReg) (b : SReg) (w32 : Bool)
  /-- R213: Atomic signed minimum. -/
  | amomin (d : SReg) (a : SReg) (b : SReg) (w32 : Bool)
  /-- R213: Atomic signed maximum. -/
  | amomax (d : SReg) (a : SReg) (b : SReg) (w32 : Bool)
  /-- R213: Atomic unsigned minimum. -/
  | amominn (d : SReg) (a : SReg) (b : SReg) (w32 : Bool)
  /-- R213: Atomic unsigned maximum. -/
  | amomaxn (d : SReg) (a : SReg) (b : SReg) (w32 : Bool)
  /-- R213: Atomic swap. -/
  | amoswp (d : SReg) (a : SReg) (b : SReg) (w32 : Bool)
  /-- R213: Atomic compare-and-swap with the new value in C. -/
  | amocas (d : SReg) (a : SReg) (b : SReg) (c : SReg) (w32 : Bool)
  /-- R233: 64-bit load with acquire order at device scope. -/
  | ldaq (d : SReg) (a : SReg)
  /-- R233: 64-bit store with release order after draining older work. -/
  | strl (d : SReg) (a : SReg)
  /-- R229: Waits until older accesses of the named classes are performed at the scope before later ones. -/
  | fence (before : Fin 16) (after : Fin 16) (scope : Fin 5)
  /-- R217: Unit-stride vector load after a probe pass. -/
  | vld (vd : VReg) (a : SReg) (q : Qual)
  /-- R217: Unit-stride vector store. -/
  | vst (vd : VReg) (a : SReg) (q : Qual)
  /-- R217: Strided vector load. -/
  | vlds (vd : VReg) (a : SReg) (b : SReg) (q : Qual)
  /-- R217: Strided vector store. -/
  | vsts (vd : VReg) (a : SReg) (b : SReg) (q : Qual)
  /-- R217: Indexed vector gather. -/
  | vldx (vd : VReg) (a : SReg) (vb : VReg) (amt : Fin 7) (q : Qual)
  /-- R217: Indexed vector scatter. -/
  | vstx (vd : VReg) (a : SReg) (vb : VReg) (amt : Fin 7) (q : Qual)
  /-- R217: Loads one element and broadcasts it. -/
  | vldb (vd : VReg) (a : SReg) (q : Qual)
  /-- R218: Atomic add of each active element to its indexed address. -/
  | vamoadd (vd : VReg) (a : SReg) (vb : VReg) (amt : Fin 7) (q : Qual)
  /-- R219: Fault-first vector load that truncates VL at the first failing element above 0. -/
  | vldff (vd : VReg) (a : SReg) (q : Qual)
  /-- R246: Requests a stream strip copy, granting within the budget and setting VL to the grant. -/
  | scopy (sn : SReg) (sd : SReg) (ss : SReg) (sc : SReg) (fo : Option Fmt)
  /-- R247: Loads a pattern register from a 32-byte descriptor. -/
  | spat (n : Fin 8) (a : SReg)
  /-- R248: Issues a row-patterned stream copy under a pattern register. -/
  | sstrm (n : Fin 8) (sd : SReg) (ss : SReg)
  /-- R249: Waits until the masked chunk-map bits are set. -/
  | swaitm (a : SReg) (b : SReg)
  /-- R249: Reads the masked chunk-map bits. -/
  | stestm (d : SReg) (a : SReg) (b : SReg)
  /-- R249: Clears masked chunk-map bits. -/
  | sclrm (a : SReg) (b : SReg)
  /-- R252: Takes the next filled flume slot, waiting unless NB. -/
  | flpop (d : SReg) (a : SReg)
  /-- R252: Releases a popped flume slot, freeing slots in ring order. -/
  | flrel (a : SReg) (b : SReg)
  /-- R252: Claims a free flume slot for a software producer. -/
  | flpush (d : SReg) (a : SReg)
  /-- R252: Marks a claimed slot filled, advancing FILL and posting weir arrivals. -/
  | fldone (a : SReg) (b : SReg)
  /-- R260: Checks a command block, takes a footprint entry and sends the command to a coding engine inbox. -/
  | ecmd (d : SReg) (a : SReg)
  /-- R264: Cancels the job's unstarted engine commands with a tag. -/
  | ecancel (d : SReg) (a : SReg)
  /-- R265: Reads a per-tenant engine statistic. -/
  | estat (d : SReg) (a : SReg) (sel : Fin 7)
  /-- R292: Launches a launch record's children, placing slices on clusters. -/
  | spawn (d : SReg) (a : SReg)
  /-- R293: Waits for outstanding work, then ends the job with release, weir arrival and resource freeing. -/
  | jend
  /-- R294: Writes the time remaining to the deadline. -/
  | jdead (d : SReg)
  /-- R294: Makes the job's deadline earlier, never later. -/
  | jtight (d : SReg) (a : SReg)
  /-- R295: Extracts one WID level field under the job's layout. -/
  | jwid (d : SReg) (a : SReg) (lvl : Fin 6)
  /-- R295: Writes the job's placement and handle word. -/
  | jself (d : SReg)
  /-- R296: Abandons the executing job or a live descendant by handle. -/
  | jabort (d : SReg) (a : SReg)
  /-- R295: Reads a selected job property. -/
  | jinfo (d : SReg) (sel : Fin 8)
  /-- R301: Sends an active-message request on AREQ, reserving a reply slot. -/
  | msendrq (d : SReg) (a : SReg) (p : SReg) (n : Fin 9)
  /-- R301: Sends an active-message reply on ARSP. -/
  | msendrp (d : SReg) (a : SReg) (p : SReg) (n : Fin 9)
  /-- R300: Programs a route tag from a 16-byte record. -/
  | mtag (d : SReg) (a : SReg) (mx : Fin 2)
  /-- R300: Enables the route tags in a mask. -/
  | men (a : SReg)
  /-- R300: Disables the route tags in a mask. -/
  | mdis (a : SReg)
  /-- R300: Reads the pending bits of the tenant's tags. -/
  | mpend (d : SReg)
  /-- R300: Discards inbox entries, completion entries and triggers of masked tags. -/
  | mclr (d : SReg) (a : SReg)
  /-- R308: Arms a weir with a count and packet, capturing the armer's identity. -/
  | warm (d : SReg) (a : SReg) (b : SReg) (c : SReg)
  /-- R308: Adds to an armed weir's count. -/
  | wpost (d : SReg) (a : SReg) (b : SReg)
  /-- R309: Sends a weighted arrival to a weir as a release. -/
  | wsig (a : SReg) (b : SReg)
  /-- R307: Reads a weir's state word. -/
  | wstat (d : SReg) (a : SReg)
  /-- R312: Initialises a barrier's participant count. -/
  | binit (d : SReg) (a : SReg) (b : SReg)
  /-- R312: Sends one arrival to a barrier on ENG as a release. -/
  | barrive (a : SReg)
  /-- R312: Waits until a barrier's generation moves on or it errs. -/
  | bwait (d : SReg) (a : SReg) (b : SReg)
  /-- R312: Arrives at a local barrier and waits for the phase. -/
  | bsync (d : SReg) (a : SReg)
  /-- R313: Opens a launch group with a completion word. -/
  | qopen (d : SReg) (a : SReg) (b : SReg)
  /-- R313: Puts an open launch group into CLOSING. -/
  | qclose (d : SReg) (a : SReg)
  /-- R313: Reads launch-group state or totals. -/
  | qstat (d : SReg) (a : SReg) (sel : Fin 6)
  /-- R354: Raises SOFTWARE_TRAP with the immediate. -/
  | trap (imm : Nat)
  /-- R323: Returns from the handler to the trapping instruction. -/
  | tret
  /-- R323: Returns from the handler past the trapping instruction. -/
  | tretSkip
  /-- R355: Sends a service call to the service core of the slice homing the argument block. -/
  | svc (d : SReg) (a : SReg) (b : SReg)
  /-- R356: Reads Sluice Table window information. -/
  | gateinfo (d : SReg) (sel : Fin 7)
  /-- R357: Reads a tenant, reservation or device energy meter. -/
  | enmtr (d : SReg) (a : SReg) (kind : Fin 3)
  /-- R358: Power-gates a unit unless it holds work. -/
  | pgateGate (d : SReg) (a : SReg)
  /-- R358: Ungates a unit. -/
  | pgateUngate (d : SReg) (a : SReg)
  /-- R358: Queries whether a unit is gated. -/
  | pgateQuery (d : SReg) (a : SReg)
  /-- R359: Abandons the context's job and logs HALT. -/
  | halt (a : SReg)
  /-- R361: Squashes, drains and saves another context, stopping it. -/
  | ctxsave (d : SReg) (a : SReg) (b : SReg)
  /-- R361: Loads a stopped context's image and resumes it. -/
  | ctxload (d : SReg) (a : SReg) (b : SReg)
  /-- R362: Invalidates translations device-wide and waits for in-flight uses. -/
  | tlbinv (a : SReg) (b : SReg)
  /-- R363: Waits without issue slots until a given TNS. -/
  | idle (a : SReg)
  /-- R354: Raises BREAKPOINT with the immediate. -/
  | brk (imm : Byte)
  /-- R364: Runs reservation admission on a descriptor for the context's tenant. -/
  | rsvadd (d : SReg) (a : SReg)
  /-- R111: A queued vector instruction begins its probe pass and can no longer be discarded. -/
  | vectorStart (cx : Nat)
  /-- R112: A vector-queue instruction completes, writing any scalar result, VL change and flags. -/
  | vectorComplete (cx : Nat)
  /-- R85: Load or atomic data return to the destination register or saved image, decrementing CNTLD. -/
  | scalarLoadReturn (cx : Nat) (idx : Nat)
  /-- R104: A store is performed at its place and CNTST falls. -/
  | storePerformed (cx : Nat) (idx : Nat)
  /-- R161: A matrix command begins in queue order, checking ranges and recording faults. -/
  | mxCmdBegin (core : Nat)
  /-- R166: A tile row reaches its final value and its ready bit sets. -/
  | mxRowReady (core : Nat) (z : ZReg) (row : Nat)
  /-- R161: A matrix command completes and CNTMX falls. -/
  | mxCmdComplete (core : Nat)
  /-- R167: After 256 cycles without a full share group the command reads B alone. -/
  | mxShareTimeout (core : Nat)
  /-- R290: A waiting instruction's condition becomes true and the context runs on. -/
  | waitSatisfied (cx : Nat)
  /-- R363: The local time reaches an IDLE's target and the wait ends. -/
  | idleExpire (cx : Nat)
  /-- R287: A running RT job's local time reaches its deadline, demoting or abandoning it. -/
  | deadlineComparator (cx : Nat)
  /-- R288: After the job's writes are performed, the abandon word is stored and an ABORT arrival sent. -/
  | abandonAction (h : Nat)
  /-- R289: A queued, held or saved RT job's deadline passes and it is abandoned at once. -/
  | queuedDeadlinePass (q : QueuedRef)
  /-- R277: At O plus nP the Governor of cluster 0 launches the root record and resets the budget. -/
  | reservationRelease (r : Nat)
  /-- R278: Every 1 µs consumed budget is updated and jobs beyond Q are held. -/
  | budgetUpdate
  /-- R284: The Governor makes one dispatch decision for one owner in round-robin order. -/
  | governorDispatch (k : Nat)
  /-- R286: Every 2 µs each Governor publishes BE counts and sends surplus BE jobs to neighbours. -/
  | loadAveraging (k : Nat)
  /-- R286: A moved BE job arrives at the neighbour Governor. -/
  | jobMoveArrive (idx : Nat)
  /-- R305: An active message reaches its destination and is accepted, refused or answered NOTAG. -/
  | amArrival (m : AmSource)
  /-- R301: The answer reaches the sender, writing the status and freeing the outbox entry. -/
  | amAnswer (idx : Nat)
  /-- R304: An empty ARSP release frees a reserved reply slot. -/
  | emptyRelease (r : ReleaseSource)
  /-- R302: An ENG delivery takes a completion entry at its destination, or is dropped for a foreign tag. -/
  | engDelivery (m : EngIn)
  /-- R181: The merge unit folds an arriving Gaussian message into its mailbox or drops it. -/
  | gmsgMerge (m : GmSource)
  /-- R309: An arrival decrements or overflows a weir's count. -/
  | weirArrival (idx : Nat)
  /-- R310: The fired weir makes its launch, engine command or message packet under the captured identity. -/
  | weirPacketMake (idx : Nat)
  /-- R312: An arrival decrements a barrier and advances its generation at zero. -/
  | barrierArrival (idx : Nat)
  /-- R315: At each SWEEP multiple the clusters report idleness and totals to cluster 0. -/
  | sweep
  /-- R315: The ended open group sends its completion message or weir arrival. -/
  | groupCompletionSend (g : Nat)
  /-- R260: An engine command reaches the inbox and is accepted or refused. -/
  | engineCmdArrive (idx : Nat)
  /-- R260: The engine's answer reaches the issuer, writing the status and CNTEN. -/
  | engineAnswer (idx : Nat)
  /-- R262: The engine runs layered min-sum LDPC decoding. -/
  | ldpcDecode (e : Nat)
  /-- R262: The engine runs LDPC encoding. -/
  | ldpcEncode (e : Nat)
  /-- R262: The engine runs CRC-aided list polar decoding. -/
  | polarDecode (e : Nat)
  /-- R262: The engine runs polar encoding. -/
  | polarEncode (e : Nat)
  /-- R262: The engine de-interleaves and accumulates LLRs with optional HARQ combining. -/
  | rateDematch (e : Nat)
  /-- R262: The engine rate-matches coded bits. -/
  | rateMatch (e : Nat)
  /-- R262: The engine checks a CRC. -/
  | crcCheck (e : Nat)
  /-- R263: A command completes with a status, header and message or weir arrival. -/
  | engineCompletion (e : Nat)
  /-- R241: The stream engine serves one 512-byte chunk of a tenant in round-robin order. -/
  | streamChunkServe (k : Nat) (idx : Nat)
  /-- R246: A chunk's last byte is written, its map bit sets and its budget returns. -/
  | chunkDone (k : Nat) (idx : Nat)
  /-- R255: A headrace port receives and classifies an Ethernet frame. -/
  | ethFrameReceive (port : Nat) (frame : EthFrame)
  /-- R256: A row's close time passes and it closes with erasures and LATE set. -/
  | rowCloseTimeout (port : Nat) (g : Nat)
  /-- R258: A closed row is written into its flume slot, or waits in the overrun buffer. -/
  | rowSlotFill (port : Nat) (g : Nat)
  /-- R258: A buffered row fills the slot freed by an FLREL. -/
  | overrunRowFill (port : Nat) (g : Nat)
  /-- R255: The port sends C-plane frames placed in its transmit ring. -/
  | cplaneTransmit (port : Nat) (put : Option EthFrame)
  /-- R336: A cluster or slice enters a new Sluice Table window and switches windowed resources. -/
  | windowStart (u : TimeUnit)
  /-- R340: From E minus 64 ns no dispatch, loan or resume for the outgoing owner. -/
  | edgeGuard (core : Nat)
  /-- R341: The save and restore end and the incoming owner may be dispatched. -/
  | edgeSwapComplete (core : Nat)
  /-- R341: A gated core is powered 2 µs before its next owned window. -/
  | coreRepower (core : Nat)
  /-- R349: An idle core is lent to a beneficiary chosen by deficit round robin. -/
  | loanStart (core : Nat)
  /-- R351: A loan ends at window end or a donor RT job, saving the borrower. -/
  | loanEnd (core : Nat)
  /-- R337: At EPOCH the windowed parts of a newly loaded table take force. -/
  | tableEpoch
  /-- R368: A service call reaches the service core and is queued or refused. -/
  | svcCallArrive (idx : Nat)
  /-- R355: The service core's answer reaches the caller and CNTEN falls. -/
  | svcAnswer (idx : Nat)
  /-- R366: A kernel instance forwards work on another slice's pages as an owner 62 call. -/
  | internalCall (sl : Nat) (dst : Nat) (ws : List Word)
  /-- R372: Service function returning the TNS. -/
  | nop (sl : Nat)
  /-- R372: Service function running reservation admission. -/
  | rsvAdd (sl : Nat)
  /-- R372: Service function removing a reservation. -/
  | rsvRemove (sl : Nat)
  /-- R372: Service function reading and optionally clearing a counter. -/
  | counter (sl : Nat)
  /-- R376: Maps a host memory range as a faulting object. -/
  | mapObject (sl : Nat)
  /-- R379: Harvests and unmaps a host object. -/
  | unmapObject (sl : Nat)
  /-- R378: Copies an object's dirty pages back to the host. -/
  | harvest (sl : Nat)
  /-- R378: Periodic harvest of an AUTO object every PERIOD. -/
  | harvestAuto (t : Nat) (obj : Nat)
  /-- R377: Serves a fault queue entry by copying a host page and installing its leaf. -/
  | objectFaultServe (sl : Nat)
  /-- R380: Binds a host launch queue to a control block. -/
  | queueBind (sl : Nat)
  /-- R380: Unbinds a host launch queue after reading pending records. -/
  | queueUnbind (sl : Nat)
  /-- R337: Loads a Sluice Table, abandoning all jobs and resetting owned objects. -/
  | tableLoad (sl : Nat)
  /-- R372: Clears tenants' quarantine. -/
  | quarClear (sl : Nat)
  /-- R372: Sets the launch-group sweep interval. -/
  | sweepSet (sl : Nat)
  /-- R352: Places the sluice log ring. -/
  | logSet (sl : Nat)
  /-- R373: Loads scratchpad parts, tags and flume layouts of a linked image for a tenant. -/
  | imageLoad (sl : Nat)
  /-- R250: Programs a flume descriptor. -/
  | flumeSet (sl : Nat)
  /-- R372: Configures a headrace alignment group. -/
  | groupSet (sl : Nat)
  /-- R372: Clears link-loss poison on host lines. -/
  | poisonClear (sl : Nat)
  /-- R386: Flips a window page's bias, back-invalidating host copies for device bias. -/
  | biasSet (sl : Nat)
  /-- R372: Sets the link-loss dump region. -/
  | linkDump (sl : Nat)
  /-- R392: Sets a twin export entry. -/
  | twinExport (sl : Nat)
  /-- R374: Opens a debug session on a tenant. -/
  | debugOpen (sl : Nat)
  /-- R374: Closes a session, resuming stopped contexts. -/
  | debugClose (sl : Nat)
  /-- R374: Reads a stopped context's image. -/
  | debugRead (sl : Nat)
  /-- R374: Loads an image into a stopped context. -/
  | debugWrite (sl : Nat)
  /-- R374: Resumes a stopped context at or past its BRK. -/
  | debugResume (sl : Nat)
  /-- R381: A host doorbell write makes the Governor read and launch or refuse queue records. -/
  | hlqdb (q : Nat) (tail : Nat)
  /-- R383: A host write requests a bias flip of a device page. -/
  | biasreq (v : Word)
  /-- R383: A host write sends one arrival to the configured weir. -/
  | hostsig
  /-- R383: A service-core write sets the HOSTSIG weir id. -/
  | hostsigw (v : Word)
  /-- R383: A write to a register with no behaviour of its own. -/
  | registerWrite (off : Nat) (v : Word)
  /-- R385: A host CXL.mem read or write to the HDM window, updating bias and the snoop filter. -/
  | hostMemAccess (acc : HostAccess)
  /-- R388: A host snoop of a host-homed line is answered from L2. -/
  | hostSnoop (line : Nat) (excl : Bool)
  /-- R389: Loss of the host link invalidates, poisons and dumps host lines. -/
  | hostLinkDown
  /-- R390: The twin port is paired and TWIN READY sets. -/
  | twinPair (grants : List TwinGrant)
  /-- R394: Loss of the twin link unpairs the devices and drops or refuses traffic. -/
  | twinLinkDown
  /-- R429: The host reads signed measurements through the DOE mailbox. -/
  | spdmMeasurements
  /-- R430: Supplies rise on a cold start with VDDAON first. -/
  | powerOn
  /-- R419: Device reset returns registers and state to their reset values. -/
  | deviceReset
  /-- R429: The boot ROM verifies and measures a kernel image. -/
  | bootImageVerify (u : ImageUnit) (image : List Byte) (good : Bool)
  /-- R420: An LPDDR 6 channel finishes training, making its slice ready when all four are. -/
  | channelTrained (c : Nat) (units : Nat)
  /-- R420: A cluster finishes initialising its arrays. -/
  | clusterReady (k : Nat)
  /-- R419: A headrace port is trained and receiving. -/
  | headracePortReady (port : Nat)
  /-- R268: The servo first locks and sets the time counters. -/
  | ptpFirstLock (t : Nat)
  /-- R268: The servo loses lock and counters run in holdover. -/
  | ptpLockLoss
  /-- R268: The servo locks again and PTP READY sets. -/
  | ptpLockRegained
  /-- R421: The clock moves to another DVFS step over 20 µs. -/
  | dvfsStepChange (step : Nat)
  /-- R426: Modelled power is compared with the cap each 1 ms and BE work throttled. -/
  | powerCapCheck
  /-- R425: Energy meters update every 1 µs from activity models. -/
  | energyMeterUpdate
  /-- R423: A unit finishes ungating after its ungate time. -/
  | ungateComplete (u : GateUnit)
  /-- R424: With everything gated and no mesh traffic for 10 µs the device enters the Still state. -/
  | stillEnter
  /-- R424: An access ends self-refresh on its channel after 2 µs. -/
  | channelWake (c : Nat)
  /-- R427: The slice scrub engine scrubs LPDDR 6 within its reserved share. -/
  | lpddrScrub (sl : Nat) (w : Nat)
  /-- R427: An array scrubber checks its SRAM on dedicated port cycles. -/
  | sramScrub (x : ScrubTarget)
  /-- R63: A fetched chain whose page, major, sub-opcode, prefixes or fields are not assigned or not legal raises ILLEGAL_INSTRUCTION with nothing of it taking effect. -/
  | illegalInstruction
  /-- R63: A fifth consecutive prefix word raises PREFIX_CHAIN at the first of the five. -/
  | prefixChain
  /-- R61: A word of a chain faults on fetch and the instruction takes PAGE_FAULT_EXEC or PROTECTION. -/
  | fetchFault (exec : Bool) (va : Word)
  /-- R389: The host link comes up again, ending the state in which every host address is treated as poisoned. -/
  | hostLinkUp
  /-- R391: A load, store or atomic from the twin reaches this device and is performed at its home slice. -/
  | twinMemoryAccess (acc : TwinAccess)
  /-- R384: The service cores apply HB and HS from the signed platform configuration at bring-up, setting the HDM window. -/
  | hdmWindowSet (hb : Nat) (hs : Nat)
  deriving DecidableEq, Repr

end Sys2Proof
end

