-- ==== Sys2Proof/Machine/Float.lean ====
section
/-! DEFINITION. Floating-point values, their encodings and the one rounding function (R19 to R23, R34 to R36).
Every operation computes exactly in the rationals and rounds once. -/

namespace Sys2Proof.Machine

/-- The floating-point component formats of R19. -/
inductive FFmt where
  | f32 | f16 | bf16 | e4m3 | e5m2
  deriving DecidableEq, Repr

/-- Width in bits (R19). -/
def FFmt.width : FFmt → Nat
  | .f32 => 32 | .f16 => 16 | .bf16 => 16 | .e4m3 => 8 | .e5m2 => 8
/-- Fraction bits (R19). -/
def FFmt.fracBits : FFmt → Nat
  | .f32 => 23 | .f16 => 10 | .bf16 => 7 | .e4m3 => 3 | .e5m2 => 2
/-- Exponent bias (R19). -/
def FFmt.bias : FFmt → Nat
  | .f32 => 127 | .f16 => 15 | .bf16 => 127 | .e4m3 => 7 | .e5m2 => 15
/-- The encoding of the largest finite value, without its sign (R19). -/
def FFmt.maxEnc : FFmt → Nat
  | .f32 => 0x7F7FFFFF | .f16 => 0x7BFF | .bf16 => 0x7F7F | .e4m3 => 0x7E | .e5m2 => 0x7B
/-- The canonical NaN (R19, R20). -/
def FFmt.nanEnc : FFmt → Nat
  | .f32 => 0x7FC00000 | .f16 => 0x7E00 | .bf16 => 0x7FC0 | .e4m3 => 0x7F | .e5m2 => 0x7E
/-- e4m3 has no infinities (R19). -/
def FFmt.hasInf : FFmt → Bool
  | .e4m3 => false
  | _ => true
/-- The exponent of the smallest normal value (R19). -/
def FFmt.emin (f : FFmt) : Int := 1 - (f.bias : Int)
/-- The sign bit's weight. -/
def FFmt.signBit (f : FFmt) : Nat := 2 ^ (f.width - 1)

/-- A decoded floating-point operand: a NaN, quiet or signalling; an infinity; or a finite value with the sign that a zero
carries (for a non-zero value the sign is the value's own). -/
inductive FV where
  | nan (signalling : Bool)
  | inf (neg : Bool)
  | fin (neg : Bool) (v : Rat)
  deriving DecidableEq, Repr

/-- 2 to a whole power, exactly. -/
def pow2 (e : Int) : Rat := if 0 ≤ e then ((2 ^ e.toNat : Nat) : Rat) else mkRat 1 (2 ^ (-e).toNat)

/-- |x| for a rational. -/
def ratAbs (x : Rat) : Rat := if x < 0 then -x else x

/-- floor(log2 x) for x > 0. -/
def floorLog2 (x : Rat) : Int :=
  let e : Int := (Nat.log2 x.num.toNat : Int) - (Nat.log2 x.den : Int)
  if pow2 e ≤ x then e else e - 1

/-- The value of an encoding (R19, R20). -/
def decodeF (f : FFmt) (bits : Nat) : FV :=
  let neg := bits / f.signBit % 2 == 1
  let mag := bits % f.signBit
  let m := f.fracBits
  if mag ≤ f.maxEnc then
    let e := mag / 2 ^ m
    let frac := mag % 2 ^ m
    let a : Rat :=
      if e = 0 then (frac : Rat) * pow2 (f.emin - m)
      else ((2 ^ m + frac : Nat) : Rat) * pow2 ((e : Int) - f.bias - m)
    .fin neg (if neg then -a else a)
  else if f.hasInf && mag == f.maxEnc + 1 then .inf neg
  else .nan (f.hasInf && mag / 2 ^ (m - 1) % 2 == 0)

/-- The sign of a value. -/
def FV.neg : FV → Bool
  | .nan _ => false
  | .inf n => n
  | .fin n v => if v = 0 then n else decide (v < 0)

/-- R20: consuming a signalling NaN sets NV. -/
def FV.snanFlag : FV → Flags
  | .nan true => flNV
  | _ => 0

def FV.isNaN : FV → Bool
  | .nan _ => true
  | _ => false

/-- A finite value with the zero's sign taken from it. -/
def FV.ofRat (zeroNeg : Bool) (v : Rat) : FV := .fin zeroNeg v

/-- Where a positive number lies between multiples of a quantum: the multiple at or below it, how the rest compares with
half a quantum, and whether it is zero. -/
structure Cut where
  n : Nat
  half : Ordering
  exact : Bool
  deriving DecidableEq, Repr

/-- The cut of a rational x ≥ 0 at quantum 2^q. -/
def cutRat (x : Rat) (q : Int) : Cut :=
  let y := x * pow2 (-q)
  let n := y.num.toNat / y.den
  let r := y.num.toNat % y.den
  { n := n, half := compare (2 * r) y.den, exact := r == 0 }

/-- Newton's iteration for the whole square root, with fuel. -/
def isqrtLoop : Nat → Nat → Nat → Nat
  | 0, _, x => x
  | k + 1, n, x =>
    let y := (x + n / x) / 2
    if y < x then isqrtLoop k n y else x

/-- The whole square root of n. -/
def isqrt (n : Nat) : Nat := if n = 0 then 0 else isqrtLoop (Nat.log2 n + 2) n (2 ^ (Nat.log2 n / 2 + 1))

/-- The cut of the square root of a rational x ≥ 0 at quantum 2^q. -/
def cutSqrt (x : Rat) (q : Int) : Cut :=
  let y := x * pow2 (-2 * q)
  let n := isqrt (y.num.toNat / y.den)
  { n := n
    half := compare (4 * y.num.toNat) ((2 * n + 1) * (2 * n + 1) * y.den)
    exact := n * n * y.den == y.num.toNat }

/-- floor(log2 of the square root of x) for x > 0. -/
def floorLog2Sqrt (x : Rat) : Int := floorLog2 x / 2

/-- The rounded multiple of the quantum (IEEE 754 directions; neg is the sign of the number cut). -/
def Cut.round (c : Cut) (rm : Rounding) (neg : Bool) : Nat :=
  if c.exact then c.n
  else
    match rm with
    | .rne =>
      match c.half with
      | .lt => c.n
      | .gt => c.n + 1
      | .eq => if c.n % 2 = 0 then c.n else c.n + 1
    | .rtz => c.n
    | .rdn => if neg then c.n + 1 else c.n
    | .rup => if neg then c.n else c.n + 1

/-- What an overflow delivers (R21, R22, R36): infinity, or the largest finite value where the rounding stops there; the
8-bit formats with SAT8 saturate, and e4m3 without it gives its NaN. -/
def overflowBits (f : FFmt) (m : RMode) (neg : Bool) : Nat :=
  let sign := if neg then f.signBit else 0
  let toInf := match m.rm with
    | .rne => true
    | .rtz => false
    | .rdn => neg
    | .rup => !neg
  if !toInf then sign + f.maxEnc
  else
    match f with
    | .e4m3 => if m.sat8 then sign + f.maxEnc else f.nanEnc
    | .e5m2 => if m.sat8 then sign + f.maxEnc else sign + f.maxEnc + 1
    | _ => sign + f.maxEnc + 1

/-- Rounds a non-zero number of sign neg, given floor(log2 |x|) and its cuts: the encoding and the flags OF, UF, NX (R22). -/
def roundCuts (f : FFmt) (m : RMode) (neg : Bool) (e : Int) (cut : Int → Cut) : Nat × Flags :=
  let sign := if neg then f.signBit else 0
  let mb : Int := f.fracBits
  let q := (if e < f.emin then f.emin else e) - mb
  let c := cut q
  let n := c.round m.rm neg
  let enc := (q + mb - f.emin).toNat * 2 ^ f.fracBits + n
  if enc > f.maxEnc then (overflowBits f m neg, flOF ||| flNX)
  else
    let tiny := decide (e < f.emin) &&
      !(decide (e = f.emin - 1) && decide ((cut (e - mb)).round m.rm neg = 2 ^ (f.fracBits + 1)))
    (sign + enc, flagIf (!c.exact) (flNX ||| flagIf tiny flUF))

/-- rnd(x, f): the one rounding of an exact value (R21, R22).  zeroNeg is the sign of an exact zero. -/
def rnd (f : FFmt) (m : RMode) (zeroNeg : Bool) (x : Rat) : Nat × Flags :=
  if x = 0 then (if zeroNeg then f.signBit else 0, 0)
  else roundCuts f m (decide (x < 0)) (floorLog2 (ratAbs x)) (cutRat (ratAbs x))

/-- The encoding of an exact result: NaN is canonical (R20), infinities are exact where the format has them, and the 8-bit
formats follow R36. -/
def encodeF (f : FFmt) (m : RMode) : FV → Nat × Flags
  | .nan _ => (f.nanEnc, 0)
  | .fin z v => rnd f m z v
  | .inf neg =>
    let sign := if neg then f.signBit else 0
    match f with
    | .e4m3 => if m.sat8 then (sign + f.maxEnc, flNX) else (f.nanEnc, flNV)
    | .e5m2 => if m.sat8 then (sign + f.maxEnc, flNX) else (sign + f.maxEnc + 1, 0)
    | _ => (sign + f.maxEnc + 1, 0)

/-- R35, R36: conversion to a floating format; a signalling NaN sets NV. -/
def cvtToF (f : FFmt) (m : RMode) (x : FV) : Nat × Flags :=
  let (b, fl) := encodeF f m x
  (b, fl ||| x.snanFlag)

/-- Rounds a rational to an integer by RM; also whether it was inexact. -/
def roundInt (rm : Rounding) (x : Rat) : Int × Bool :=
  let c := cutRat (ratAbs x) 0
  let n := c.round rm (decide (x < 0))
  (if x < 0 then -(n : Int) else n, !c.exact)

/-- R35: floating to integer between two bounds. -/
def cvtToInt (lo hi : Int) (rm : Rounding) : FV → Int × Flags
  | .nan _ => (0, flNV)
  | .inf neg => (if neg then lo else hi, flNV)
  | .fin _ v =>
    let (n, inexact) := roundInt rm v
    if n < lo then (lo, flNV) else if n > hi then (hi, flNV) else (n, flagIf inexact flNX)

/-- R23: the value of an e8m0 encoding. -/
def decodeE8m0 (e : Nat) : FV := if e = 255 then .nan false else .fin false (pow2 ((e : Int) - 127))

/-- R35: floating to e8m0. -/
def cvtToE8m0 (rm : Rounding) : FV → Nat × Flags
  | .nan s => (255, flagIf s flNV)
  | .inf _ => (255, flNV)
  | .fin _ v =>
    if v = 0 then (0, flUF ||| flNX)
    else
      let a := ratAbs v
      let k := floorLog2 a
      let exact := decide (a = pow2 k)
      let up := !exact && (match rm with
        | .rne =>
          match compare a (mkRat 3 2 * pow2 k) with
          | .lt => false
          | .gt => true
          | .eq => (k + 127) % 2 != 0
        | .rtz => false
        | .rdn => false
        | .rup => true)
      let k' := if up then k + 1 else k
      if k' < -127 then (0, flUF ||| flNX)
      else if k' > 127 then (254, flOF ||| flNX)
      else ((k' + 127).toNat, flagIf (!exact) flNX)

/-- An exact product in the extended reals; 0 times an infinity is invalid (R20). -/
def mulV : FV → FV → FV × Flags
  | .nan _, _ => (.nan false, 0)
  | _, .nan _ => (.nan false, 0)
  | .inf a, .inf b => (.inf (a != b), 0)
  | .inf a, .fin z v => if v = 0 then (.nan false, flNV) else (.inf (a != (FV.fin z v).neg), 0)
  | .fin z v, .inf b => if v = 0 then (.nan false, flNV) else (.inf ((FV.fin z v).neg != b), 0)
  | .fin z v, .fin y w => (.fin ((FV.fin z v).neg != (FV.fin y w).neg) (v * w), 0)

/-- The negation of a value; exact. -/
def FV.negate : FV → FV
  | .nan s => .nan s
  | .inf n => .inf (!n)
  | .fin z v => .fin (!z) (-v)

/-- |x|. -/
def FV.absV : FV → FV
  | .nan s => .nan s
  | .inf _ => .inf false
  | .fin _ v => .fin false (ratAbs v)

/-- The exact sum of terms in the extended reals: infinities of both signs are invalid (R20).  zneg is the sign of an exact
zero sum; a sum of negative zeros alone is −0 in every mode. -/
def sumV (zneg : Bool) (ts : List FV) : FV × Flags :=
  let hasP := ts.any fun t => t == .inf false
  let hasN := ts.any fun t => t == .inf true
  if hasP && hasN then (.nan false, flNV)
  else if ts.any FV.isNaN then (.nan false, 0)
  else if hasP then (.inf false, 0)
  else if hasN then (.inf true, 0)
  else
    let r := ts.foldl (fun (a : Rat) t => match t with
      | .fin _ v => a + v
      | _ => a) 0
    (.fin (zneg || ts.all (fun t => t.neg)) r, 0)

/-- Whether an exact zero sum of opposite terms is −0: only under RDN (IEEE 754, R43). -/
def zeroNegUnder (rm : Rounding) : Bool := decide (rm = .rdn)

/-- IEEE 754's sign of the exact zero sum of two operands: their common sign, else by the rounding. -/
def addZeroNeg (rm : Rounding) (a b : FV) : Bool := if a.neg == b.neg then a.neg else zeroNegUnder rm

/-- An IEEE sum of two operands of a format, rounded once. -/
def addF (f : FFmt) (m : RMode) (a b : FV) : Nat × Flags :=
  let (s, fl) := sumV (addZeroNeg m.rm a b) [a, b]
  let (r, fl') := encodeF f m s
  (r, fl ||| fl' ||| a.snanFlag ||| b.snanFlag)

/-- An IEEE product. -/
def mulF (f : FFmt) (m : RMode) (a b : FV) : Nat × Flags :=
  let (p, fl) := mulV a b
  let (r, fl') := encodeF f m p
  (r, fl ||| fl' ||| a.snanFlag ||| b.snanFlag)

/-- IEEE's fused c + a × b, rounded once. -/
def fmaF (f : FFmt) (m : RMode) (c a b : FV) : Nat × Flags :=
  let (p, fp) := mulV a b
  let (s, fl) := sumV (addZeroNeg m.rm c p) [c, p]
  let (r, fl') := encodeF f m s
  (r, fp ||| fl ||| fl' ||| a.snanFlag ||| b.snanFlag ||| c.snanFlag)

/-- IEEE division (R46: correctly rounded, with DZ for a finite non-zero value over zero and NV for 0/0 and ∞/∞). -/
def divF (f : FFmt) (m : RMode) (a b : FV) : Nat × Flags :=
  let sn := a.snanFlag ||| b.snanFlag
  let neg := a.neg != b.neg
  match a, b with
  | .nan _, _ => (f.nanEnc, sn)
  | _, .nan _ => (f.nanEnc, sn)
  | .inf _, .inf _ => (f.nanEnc, flNV)
  | .inf _, .fin _ _ => encodeF f m (.inf neg)
  | .fin _ _, .inf _ => encodeF f m (.fin neg 0)
  | .fin _ v, .fin _ w =>
    if w = 0 then
      if v = 0 then (f.nanEnc, flNV)
      else
        let (r, fl) := encodeF f m (.inf neg)
        (r, fl ||| flDZ)
    else rnd f m neg (v / w)

/-- IEEE square root (R46). -/
def sqrtF (f : FFmt) (m : RMode) (a : FV) : Nat × Flags :=
  match a with
  | .nan s => (f.nanEnc, flagIf s flNV)
  | .inf neg => if neg then (f.nanEnc, flNV) else encodeF f m (.inf false)
  | .fin z v =>
    if v = 0 then (if z then f.signBit else 0, 0)
    else if v < 0 then (f.nanEnc, flNV)
    else roundCuts f m false (floorLog2Sqrt v) (cutSqrt v)

/-- a < b and a = b in the order of the extended reals; NaNs are not asked for. -/
def compareV (a b : FV) : Ordering :=
  match a, b with
  | .inf true, .inf true => .eq
  | .inf false, .inf false => .eq
  | .inf n, _ => if n then .lt else .gt
  | _, .inf n => if n then .gt else .lt
  | .fin _ v, .fin _ w => compare v w
  | _, _ => .eq

end Sys2Proof.Machine
end

