-- ==== Sys2Proof/Machine/ComplexVal.lean ====
section
/-! DEFINITION. Exact values with the flags they raised, and complex values: what the complex, small-matrix and Gaussian
instructions compute with before they round (R43, R147 to R150). -/

namespace Sys2Proof.Machine

/-- An exact extended real with the flags raised on the way. -/
structure EV where
  v : FV
  fl : Flags
  deriving DecidableEq, Repr

/-- A consumed operand; a signalling NaN sets NV (R20). -/
def EV.of (x : FV) : EV := { v := x, fl := x.snanFlag }
def EV.zero : EV := { v := .fin false 0, fl := 0 }
def EV.one : EV := { v := .fin false 1, fl := 0 }
def EV.mul (a b : EV) : EV := let r := mulV a.v b.v; { v := r.1, fl := r.2 ||| a.fl ||| b.fl }
def EV.neg (a : EV) : EV := { a with v := a.v.negate }

/-- An exact sum; the sign of an exact zero follows R43. -/
def EV.sum (rm : Rounding) (ts : List EV) : EV :=
  let r := sumV (zeroNegUnder rm) (ts.map (·.v))
  { v := r.1, fl := r.2 ||| (ts.foldl (fun f t => f ||| t.fl) 0) }

/-- An exact quotient with the special results of IEEE 754 (R150). -/
def EV.div (a b : EV) : EV :=
  let fl := a.fl ||| b.fl
  let neg := a.v.neg != b.v.neg
  match a.v, b.v with
  | .nan _, _ => { v := .nan false, fl := fl }
  | _, .nan _ => { v := .nan false, fl := fl }
  | .inf _, .inf _ => { v := .nan false, fl := fl ||| flNV }
  | .inf _, .fin _ _ => { v := .inf neg, fl := fl }
  | .fin _ _, .inf _ => { v := .fin neg 0, fl := fl }
  | .fin _ x, .fin _ y =>
    if y = 0 then
      if x = 0 then { v := .nan false, fl := fl ||| flNV } else { v := .inf neg, fl := fl ||| flDZ }
    else { v := .fin neg (x / y), fl := fl }

/-- The value rounded to a format; its encoding is roundTrip's. -/
def EV.rnd (f : FFmt) (m : RMode) (a : EV) : EV :=
  let r := encodeF f m a.v
  { v := decodeF f r.1, fl := a.fl ||| r.2 }

/-- The correctly rounded square root. -/
def EV.sqrt (f : FFmt) (m : RMode) (a : EV) : EV :=
  let r := sqrtF f m a.v
  { v := decodeF f r.1, fl := a.fl ||| r.2 }

/-- The encoding of a value that the format holds. -/
def EV.bits (f : FFmt) (a : EV) : Nat := (encodeF f rneMode a.v).1

/-- A complex value. -/
structure CV where
  re : EV
  im : EV
  deriving DecidableEq, Repr

def CV.zero : CV := { re := .zero, im := .zero }
def CV.conj (a : CV) : CV := { a with im := a.im.neg }
def CV.neg (a : CV) : CV := { re := a.re.neg, im := a.im.neg }
/-- The terms of the real and of the imaginary part of a product (R43). -/
def CV.reTerms (a b : CV) : List EV := [a.re.mul b.re, (a.im.mul b.im).neg]
def CV.imTerms (a b : CV) : List EV := [a.re.mul b.im, a.im.mul b.re]
/-- An exact product. -/
def CV.mul (rm : Rounding) (a b : CV) : CV := { re := .sum rm (a.reTerms b), im := .sum rm (a.imTerms b) }
/-- c plus a sum of products, exactly. -/
def CV.addProducts (rm : Rounding) (c : List CV) (ps : List (CV × CV)) : CV :=
  { re := .sum rm (c.map (·.re) ++ ps.flatMap fun p => p.1.reTerms p.2)
    im := .sum rm (c.map (·.im) ++ ps.flatMap fun p => p.1.imTerms p.2) }
/-- A division by a real value, component by component (R150). -/
def CV.divReal (a : CV) (r : EV) : CV := { re := a.re.div r, im := a.im.div r }
def CV.rnd (f : FFmt) (m : RMode) (a : CV) : CV := { re := a.re.rnd f m, im := a.im.rnd f m }
def CV.flags (a : CV) : Flags := a.re.fl ||| a.im.fl
/-- The element of a complex value (R27). -/
def CV.bits (f : FFmt) (a : CV) : Nat := a.re.bits f + a.im.bits f * 2 ^ f.width
/-- An element read (R27). -/
def CV.ofBits (f : FFmt) (x : Nat) : CV :=
  { re := .of (decodeF f (x % 2 ^ f.width)), im := .of (decodeF f (x / 2 ^ f.width % 2 ^ f.width)) }

end Sys2Proof.Machine
end

