-- ==== Sys2Proof/Machine/SmallMatrix.lean ====
section
/-! DEFINITION. Matrices of order 1 to 4 in f32: the eliminations of the Schur unit and their pivot guard (R48 to R50, R147
to R149). -/

namespace Sys2Proof.Machine

/-- A square matrix by rows; entries outside read 0. -/
abbrev CMat := List (List CV)
abbrev CVec := List CV

def CMat.at (a : CMat) (i j : Nat) : CV := (a.getD i []).getD j .zero
def CVec.at (v : CVec) (i : Nat) : CV := List.getD v i .zero
def CMat.make (k : Nat) (f : Nat → Nat → CV) : CMat := (List.range k).map fun i => (List.range k).map fun j => f i j
def CVec.make (k : Nat) (f : Nat → CV) : CVec := (List.range k).map f
/-- R49: the matrix read from its diagonal and lower triangle. -/
def CMat.hermitian (k : Nat) (a : CMat) : CMat :=
  CMat.make k fun i j =>
    if i = j then { re := (a.at i i).re, im := .zero } else if j < i then a.at i j else (a.at j i).conj

/-- The controls of the pivot guard and of rounding (R50). -/
structure Guard where
  m : RMode
  eps : EV
  regular : Bool
  deriving DecidableEq, Repr

/-- R50: the pivot in use, and whether it was bad.  The flags of a computed pivot stay; a signalling NaN that PIVEPS replaces
is an operand that nothing consumes (R20; DEDUCED, assumption 77). -/
def Guard.check (g : Guard) (p : EV) : EV × Bool :=
  let ok := !p.v.isNaN && !g.eps.v.isNaN && compareV p.v g.eps.v == .gt
  let seen := if p.v = .nan true then 0 else p.fl
  if ok then (p, false) else (if g.regular then { g.eps with fl := g.eps.fl ||| seen } else p, true)

/-- The rows of the factor L so far, and whether a pivot was bad. -/
structure Factor where
  l : CMat
  bad : Bool
  deriving DecidableEq, Repr

/-- Row i of the factor, column by column up to j (R147): given the finished rows above and the row so far. -/
def cholEntry (g : Guard) (a : CMat) (rows : CMat) (row : CVec) (i j : Nat) : CV :=
  let acc := CV.addProducts g.m.rm [a.at i j] ((List.range j).map fun l => ((row.at l).neg, (rows.at j l).conj))
  (acc.divReal (rows.at j j).re).rnd .f32 g.m

/-- The diagonal of row i (R147): the pivot, guarded, and its root. -/
def cholDiag (g : Guard) (a : CMat) (row : CVec) (i : Nat) : CV × Bool :=
  let ts := (List.range i).flatMap fun l =>
    [((row.at l).re.mul (row.at l).re).neg, ((row.at l).im.mul (row.at l).im).neg]
  let p := (EV.sum g.m.rm ((a.at i i).re :: ts)).rnd .f32 g.m
  let (p, bad) := g.check p
  ({ re := p.sqrt .f32 g.m, im := .zero }, bad)

/-- One more row of the factor: the entries of R147 depend only on finished rows and on the row itself. -/
def cholRow (g : Guard) (a : CMat) (k : Nat) (f : Factor) (i : Nat) : Factor :=
  let row := (List.range i).foldl (fun (r : CVec) j => r ++ [cholEntry g a f.l r i j]) []
  let (d, bad) := cholDiag g a row i
  { l := f.l ++ [row ++ [d] ++ List.replicate (k - i - 1) CV.zero], bad := f.bad || bad }

/-- VHCHOL's factor (R147). -/
def cholesky (g : Guard) (k : Nat) (a : CMat) : Factor :=
  (List.range k).foldl (cholRow g a k) { l := [], bad := false }

/-- VHSOLVE's two substitutions (R147). -/
def cholSolve (g : Guard) (k : Nat) (l : CMat) (b : CVec) : CVec :=
  let y := (List.range k).foldl (fun (y : CVec) i =>
    let acc := CV.addProducts g.m.rm [b.at i] ((List.range i).map fun t => ((l.at i t).neg, y.at t))
    y ++ [(acc.divReal (l.at i i).re).rnd .f32 g.m]) []
  (List.range k).foldl (fun (x : CVec) n =>
    let i := k - 1 - n
    let acc := CV.addProducts g.m.rm [y.at i]
      ((List.range n).map fun t => ((l.at (i + 1 + t) i).conj.neg, x.at t))
    (acc.divReal (l.at i i).re).rnd .f32 g.m :: x) []

/-- Whether a formula of R148 or R149 meets no infinite or NaN operand and no zero divisor (R150). -/
def plainParts (ts : List EV) (v : EV) : Bool :=
  (v :: ts).all (fun t => match t.v with | .fin _ _ => true | _ => false) && v.v != .fin false 0 && v.v != .fin true 0

/-- t / v: an exact zero takes R43's sign (R146), a special result the one of IEEE 754 (R150). -/
def quotPart (rm : Rounding) (t v : EV) : EV := if plainParts [t] v then .sum rm [t.div v] else t.div v

/-- x less the terms of a product over v: exactly, or term by term as the formula is written (R150). -/
def elimPart (rm : Rounding) (x : EV) (ts : List EV) (v : EV) : EV :=
  if plainParts (x :: ts) v then .sum rm (x :: ts.map fun t => (t.div v).neg) else .sum rm [x, ((EV.sum rm ts).div v).neg]

/-- A complex value over a real one, rounded once. -/
def quotTerm (g : Guard) (a : CV) (v : EV) : CV :=
  ({ re := quotPart g.m.rm a.re v, im := quotPart g.m.rm a.im v } : CV).rnd .f32 g.m

/-- x − a·b / v of R148 and R149, rounded once. -/
def elimTerm (g : Guard) (x a b : CV) (v : EV) : CV :=
  ({ re := elimPart g.m.rm x.re (a.reTerms b) v, im := elimPart g.m.rm x.im (a.imTerms b) v } : CV).rnd .f32 g.m

/-- +0 in the place of a value: the flags of forming that value stay (R32, R49, R150). -/
def EV.cleared (a : EV) : EV := { EV.zero with fl := a.fl }

/-- One sweep of VHINV (R148). -/
def sweep (g : Guard) (k : Nat) (s : CMat × Bool) (p : Nat) : CMat × Bool :=
  let m := s.1
  let (v, bad) := g.check (m.at p p).re
  (CMat.make k fun i j =>
    if i = p ∧ j = p then { re := (EV.one.div v).rnd .f32 g.m, im := (m.at p p).im.cleared }
    else if j = p then quotTerm g (m.at i p).neg v
    else if i = p then quotTerm g (m.at p j) v
    else elimTerm g (m.at i j) (m.at i p) (m.at p j) v, s.2 || bad)

/-- VHINV's sweeps (R148); the inverse is written whole from the lower triangle. -/
def sweeps (g : Guard) (k : Nat) (a : CMat) : CMat × Bool :=
  (List.range k).foldl (sweep g k) (a.hermitian k, false)

/-- VSCHUR p (R149). -/
def schur (g : Guard) (k p : Nat) (a : CMat) : CMat × Bool :=
  let h := a.hermitian k
  let (v, bad) := g.check (h.at p p).re
  let r := CMat.make k fun i j =>
    if i = p ∨ j = p then .zero
    else elimTerm g (h.at i j) (h.at i p) (h.at p j) v
  (CMat.make k fun i j =>
    if i = p ∨ j = p then .zero
    else if i = j then { re := (r.at i i).re, im := (r.at i i).im.cleared }
    else if j < i then r.at i j else (r.at j i).conj, bad)

/-- VSCHURV p (R149). -/
def schurVec (g : Guard) (k p : Nat) (a : CMat) (b : CVec) : CVec × Bool :=
  let h := a.hermitian k
  let (v, bad) := g.check (h.at p p).re
  (CVec.make k fun i => if i = p then .zero else elimTerm g (b.at i) (h.at i p) (b.at p) v, bad)

end Sys2Proof.Machine
end

