-- ==== Sys2Proof/Config.lean ====
section
/-! DEFINITION. What the spec leaves open or gives to another document, as constants without a body: no proof can see
their values, so a claim holds whatever they are (notes/assumptions/2.md, 10.md to 14.md). -/

namespace Sys2Proof.Config

/-- A free yes-or-no, drawn by number from State.sched.draws. -/
opaque freeBit : Nat → Bool

/-- A free number, drawn by number from State.sched.draws. -/
opaque freeNat : Nat → Nat

/-- How many nanoseconds of the distributed reference pass in the step of a number (R13 gives no relation). -/
opaque elapsed : Nat → Nat

/-- How many cycles of the arithmetic clock pass in the step of a number (R3, R103). -/
opaque cycles : Nat → Nat

/-- Which of the cached copies that differ from their homes, by place in State.stale, a cache evicts in the step of a number, if any
(R201 gives no replacement). -/
opaque evicted : Nat → Option Nat

/-- How far a counter reads ahead of the distributed reference; taken modulo 9, so within 8 ns (R13). -/
opaque skew : Nat → Nat

/-- The four approximation instructions of R46. -/
inductive Approx where
  | exp2 | log2 | rcp | rsqrt
  deriving DecidableEq, Repr

/-- R46: between two neighbouring results the device changes from the lower to the upper at a fixed input, given here for an
operation, a format by its width and fraction bits, a sign and the lower result's encoding; the choice is monotone by this form. -/
opaque approxTurn : Approx → (width frac : Nat) → Bool → Nat → Rat

/-- R47: which of the values within 1 ulp a twiddle of an N that is no power of two takes, by N, exponent, component and
the format's width and fraction bits. -/
opaque twiddleChoice : Nat → Nat → Bool → (width frac : Nat) → Nat

/-- TS 38.212's base graphs, which R262 names and the spec does not hold: whether graph bg (false BG1) has an entry in a row
and column, with its circular shift for a lifting size. -/
opaque baseShift : (bg : Bool) → (zc row col : Nat) → Option Nat

/-- The parameters of a polar command (R262). -/
structure Polar where
  k : Nat
  e : Nat
  l : Nat
  crc : Nat
  iil : Bool
  npc : Nat
  wm : Bool
  deriving DecidableEq, Repr

/-- TS 38.212's polar code, whose sequences the spec does not hold: E coded bits from K bits, the CRC appended. -/
opaque polarEncode : Polar → List Bool → List Bool

/-- The paths a polar decoder keeps for E LLRs, each of K bits, the best metric first and equal metrics by path index; R262
gives neither the sequences nor the metric. -/
opaque polarPaths : Polar → List Int → List (List Bool)

/-- Whether a headrace group whose compression header (R372) is the given word carries udCompHdr in each section rather than
taking it from the group (R255); the spec gives the header no layout. -/
opaque headerCarried : Nat → Bool

/-- What a service core holds after its kernel has run a step (R365: the kernel image is not in the spec), by the number of that step and
the words of the telemetry SRAM, which it may have read (R427): the program counter, an integer register, a floating-point register and a
control and status register by their numbers, and the mode, taken modulo 3. -/
opaque hartPc : Nat → List Nat → BitVec 64
opaque hartX : Nat → List Nat → Nat → BitVec 64
opaque hartF : Nat → List Nat → Nat → BitVec 64
opaque hartCsr : Nat → List Nat → Nat → BitVec 64
opaque hartMode : Nat → List Nat → Nat

/-- SHA-384 (R429), which the spec names and does not hold. -/
opaque sha384 : List Byte → BitVec 384

/-- The measurement chain with one more measurement: the digest of what it held and of what is measured (R429; notes/assumptions/111.md). -/
def extend (chain : BitVec 384) (bytes : List Byte) : BitVec 384 :=
  let parts (d : BitVec 384) : List Byte := (List.range 48).map fun i => d.extractLsb' (8 * (47 - i)) 8
  sha384 (parts chain ++ parts (sha384 bytes))

/-- What the device answers an SPDM request for its measurements with: the value of the chain signed with the key of the device (R429),
which the spec does not hold. -/
opaque spdmSigned : BitVec 384 → List Byte

/-- The power cap of the signed platform configuration, in W, from 100 to 350 (R426). -/
opaque capChoice : Nat
def powerCap : Nat := 100 + capChoice % 251

/-- The bytes of PCI configuration space that R1 does not give, by port (the twin's) and offset. -/
opaque pciByte : (twin : Bool) → Nat → BitVec 8

/-- The identification of the part (R1): the PCI vendor, the device ids of the host port and the twin port, the revision, and the
part and stepping fields of the device identification block. -/
def pciVendor : Nat := 0x1F0E
def pciHostPort : Nat := 0x5960
def pciTwinPort : Nat := 0x5961
def pciRevision : Nat := 0x11
def partField : Nat := 0x00005960
def steppingField : Nat := 0x000000B1

end Sys2Proof.Config
end

