-- ==== Sys2Proof/Machine/Approx.lean ====
section
/-! DEFINITION. The approximation instructions (R46) and the twiddle components (R47), by fixed-point arithmetic of 320
bits; which of two bracketing values is delivered is free (notes/assumptions/10.md). -/

namespace Sys2Proof.Machine
open Sys2Proof.Config

/-- The fraction bits of the fixed-point work. -/
def fixBits : Nat := 320

/-- ln 2 in units of 2^−320, rounded down. -/
def fixLn2 : Nat := 0xb17217f7d1cf79abc9e3b39803f2f6af40f343267298b62d8a0d175b8baafa2be7b876206debac98

/-- π in units of 2^−320, rounded down. -/
def fixPi : Nat := 0x3243f6a8885a308d313198a2e03707344a4093822299f31d0082efa98ec4e6c89452821e638d01377

/-- The sum of the series of e^t from a term on: next term = term × t / k. -/
def expSeries (t : Nat) : Nat → Nat → Nat → Nat
  | 0, _, _ => 0
  | fuel + 1, k, term => term + expSeries t fuel (k + 1) (term * t / (k * 2 ^ fixBits))

/-- 2^f in units of 2^−320, for a rational f from 0 to 1. -/
def fixExp2 (f : Rat) : Nat :=
  let x := f * pow2 fixBits
  expSeries (x.num.toNat / x.den * fixLn2 / 2 ^ fixBits) 80 1 (2 ^ fixBits)

/-- Bits of log2 m by squaring, the first bit first; m is in units of 2^−w and lies from 1 to 2. -/
def log2Bits (w : Nat) : Nat → Nat → Nat → Nat
  | 0, _, acc => acc
  | k + 1, m, acc =>
    let y := m * m / 2 ^ w
    if 2 ^ (w + 1) ≤ y then log2Bits w k (y / 2) (2 * acc + 1) else log2Bits w k y (2 * acc)

/-- log2 m in units of 2^−192, for a rational m from 1 to 2. -/
def fixLog2 (m : Rat) : Nat :=
  let x := m * pow2 700
  log2Bits 700 192 (x.num.toNat / x.den) 0

/-- R46: the result of an approximation, given the sign and the exponent of the true result, its cuts, and the input: exact
where the true result is representable, else one of the two bracketing values. -/
def approxRound (op : Approx) (f : FFmt) (neg rising : Bool) (x : Rat) (e : Int) (cut : Int → Cut) : Nat × Flags :=
  let sign := if neg then f.signBit else 0
  let mb : Int := f.fracBits
  let q := (if e < f.emin then f.emin else e) - mb
  let c := cut q
  let enc := (q + mb - f.emin).toNat * 2 ^ f.fracBits + c.n
  if enc > f.maxEnc || (enc == f.maxEnc && !c.exact) then (sign + f.maxEnc + 1, flOF ||| flNX)
  else if c.exact then (sign + enc, 0)
  else
    let turn := approxTurn op f.width f.fracBits neg enc
    let up := if rising then decide (turn ≤ x) else decide (x ≤ turn)
    (sign + enc + up.toNat, flNX ||| flagIf (decide (e < f.emin)) flUF)

/-- 2^x (R46). -/
def exp2F (f : FFmt) (x : FV) : Nat × Flags :=
  match x with
  | .nan s => (f.nanEnc, flagIf s flNV)
  | .inf neg => (if neg then 0 else f.maxEnc + 1, 0)
  | .fin _ v =>
    let i := max (-1000) (min 1000 (Rat.floor v))
    if (i : Rat) = v then approxRound .exp2 f false true v i fun q => cutRat (pow2 i) q
    else
      let y := if v < -1000 then 2 ^ fixBits else fixExp2 (v - (i : Rat))
      approxRound .exp2 f false true v i fun q => { (cutRat ((y : Rat) * pow2 (i - fixBits)) q) with exact := false }

/-- log2 x (R46). -/
def log2F (f : FFmt) (x : FV) : Nat × Flags :=
  match x with
  | .nan s => (f.nanEnc, flagIf s flNV)
  | .inf neg => if neg then (f.nanEnc, flNV) else (f.maxEnc + 1, 0)
  | .fin _ v =>
    if v = 0 then (f.signBit + f.maxEnc + 1, flDZ)
    else if v < 0 then (f.nanEnc, flNV)
    else
      let k := floorLog2 v
      let m := v * pow2 (-k)
      if m = 1 then rnd f rneMode false k
      else
        let l := fixLog2 m
        let a : Nat := if 0 ≤ k then k.toNat * 2 ^ 192 + l else (-k).toNat * 2 ^ 192 - l - 1
        let neg := decide (k < 0)
        approxRound .log2 f neg (!neg) v ((Nat.log2 a : Int) - 192)
          fun q => { (cutRat ((a : Rat) * pow2 (-192)) q) with exact := false }

/-- 1 / x (R46). -/
def rcpF (f : FFmt) (x : FV) : Nat × Flags :=
  match x with
  | .nan s => (f.nanEnc, flagIf s flNV)
  | .inf neg => (if neg then f.signBit else 0, 0)
  | .fin z v =>
    if v = 0 then ((if z then f.signBit else 0) + f.maxEnc + 1, flDZ)
    else
      let y := 1 / ratAbs v
      approxRound .rcp f (decide (v < 0)) false (ratAbs v) (floorLog2 y) (cutRat y)

/-- 1 / √x (R46). -/
def rsqrtF (f : FFmt) (x : FV) : Nat × Flags :=
  match x with
  | .nan s => (f.nanEnc, flagIf s flNV)
  | .inf neg => if neg then (f.nanEnc, flNV) else (0, 0)
  | .fin z v =>
    if v = 0 then ((if z then f.signBit else 0) + f.maxEnc + 1, flDZ)
    else if v < 0 then (f.nanEnc, flNV)
    else
      let y := 1 / v
      approxRound .rsqrt f false false v (floorLog2Sqrt y) (cutSqrt y)

/-! ### Twiddles (R47) -/

/-- The series of sine or cosine: terms alternate; term = term × t² / ((k + 1)(k + 2)). -/
def trigSeries (t2 : Nat) : Nat → Nat → Nat → Int
  | 0, _, _ => 0
  | fuel + 1, k, term => (term : Int) - trigSeries t2 fuel (k + 2) (term * t2 / ((k + 1) * (k + 2) * 2 ^ fixBits))

/-- cos θ in units of 2^−320 for θ = π r, r a rational from 0 to 1/2. -/
def fixCos (r : Rat) : Nat :=
  let x := r * (fixPi : Rat)
  let t := x.num.toNat / x.den
  (trigSeries (t * t / 2 ^ fixBits) 60 0 (2 ^ fixBits)).toNat

/-- sin θ in units of 2^−320 for θ = π r, r a rational from 0 to 1/2. -/
def fixSin (r : Rat) : Nat :=
  let x := r * (fixPi : Rat)
  let t := x.num.toNat / x.den
  (trigSeries (t * t / 2 ^ fixBits) 60 1 t).toNat

/-- cos or sin of 2π k / n: its sign, and its size exactly (0 or 1) or in fixed point (1/2 exactly there). -/
def trigOf (sine : Bool) (k n : Nat) : Bool × (Nat ⊕ Nat) :=
  let k := k % n
  let quad := 4 * k / n
  let rem := 4 * k % n
  let r : Rat := mkRat rem (2 * n)
  let useSin := sine != (quad % 2 == 1)
  let neg := if sine then decide (2 ≤ quad) else (quad == 1 || quad == 2)
  if rem = 0 then (neg, .inl (if useSin then 0 else 1))
  else if (useSin && 3 * rem == n) || (!useSin && 3 * rem == 2 * n) then (neg, .inr (2 ^ (fixBits - 1)))
  else (neg, .inr (if useSin then fixSin r else fixCos r))

/-- R47: a twiddle component: correctly rounded under RNE for a power of two, else one of the two values that bracket the true one by a free choice,
and exact where that one is representable (R46); an exact zero is +0. -/
def twiddle (f : FFmt) (sine : Bool) (k n : Nat) : Nat :=
  match trigOf sine k n with
  | (neg, .inl v) => if v = 0 then 0 else (rnd f rneMode false (if neg then -1 else 1)).1
  | (neg, .inr y) =>
    let x : Rat := (y : Rat) * pow2 (-fixBits)
    let e := floorLog2 x
    if 2 ^ Nat.log2 n = n then (roundCuts f rneMode neg e fun q => { (cutRat x q) with exact := false }).1
    else
      let q := (if e < f.emin then f.emin else e) - (f.fracBits : Int)
      let enc := (q + f.fracBits - f.emin).toNat * 2 ^ f.fracBits + (cutRat x q).n
      let pick := twiddleChoice n k sine f.width f.fracBits
      (if neg then f.signBit else 0) + (if (cutRat x q).exact then enc else enc + pick % 2)

end Sys2Proof.Machine
end

