-- ==== Sys2Proof/WellFormed.lean ====
section
/-! DEFINITION. When an instruction has an encoding: the ranges of its immediates in the XI words the chain has room for
(R54, R59) and the field checks of R58. -/

namespace Sys2Proof

/-- R59: a signed immediate of a form with b base bits and at least lo XI words fits a chain with room for n XI words. -/
def fitsSigned (b lo n : Nat) (v : Int) : Bool :=
  decide (lo ≤ n) && decide (0 < b + 10 * n) && decide (-(2 ^ (b + 10 * n - 1) : Int) ≤ v) && decide (v < 2 ^ (b + 10 * n - 1))

/-- R59: an unsigned immediate of a form with b base bits fits a chain with room for n XI words. -/
def fitsUnsigned (b n : Nat) (v : Nat) : Bool := decide (v < 2 ^ (b + 10 * n))

/-- R100: the pointers of LOOPSM are s(p) to s(p + np - 1), without s0, within s31 and without rc; np is np.val + 1. -/
def loopsmOk (rc p : SReg) (np : Fin 4) : Bool :=
  decide (p.val ≠ 0) && decide (p.val + np.val ≤ 31) && !(decide (p.val ≤ rc.val) && decide (rc.val ≤ p.val + np.val))

/-- R298: a payload of n words from register p; n = 0 needs field 0. -/
def payloadOk (p : SReg) (n : Fin 9) : Bool :=
  if n.val = 0 then decide (p.val = 0) else decide (p.val + n.val ≤ 32)

/-- R193: the items of GSTAT. -/
def gstatSelOk (sel : Fin 16) : Bool := decide (sel.val ≤ 4) || decide (sel.val = 8)


/-- R58, R59, R62: what an instruction's fields must meet to have an encoding.  An event has no encoding; its
arguments name units, and the meaning checks them. -/
def Instr.wellFormed (i : Instr) : Bool :=
  match i with
  | .add _ _ _ => true
  | .sub _ _ _ => true
  | .and _ _ _ => true
  | .or _ _ _ => true
  | .xor _ _ _ => true
  | .sll _ _ _ => true
  | .addi d a imm => fitsSigned 4 0 (4 - (0 + (decide (16 ≤ d.val) || decide (16 ≤ a.val)).toNat + 0)) imm
  | .li d imm => fitsSigned 8 0 (4 - (0 + (decide (16 ≤ d.val)).toNat + 0)) imm
  | .ldd d a imm => fitsUnsigned 4 (4 - (0 + (decide (16 ≤ d.val) || decide (16 ≤ a.val)).toNat + 0)) imm
  | .std d a imm => fitsUnsigned 4 (4 - (0 + (decide (16 ≤ d.val) || decide (16 ≤ a.val)).toNat + 0)) imm
  | .beqz d off => fitsSigned 8 0 (4 - (0 + (decide (16 ≤ d.val)).toNat + 0)) off
  | .bnez d off => fitsSigned 8 0 (4 - (0 + (decide (16 ≤ d.val)).toNat + 0)) off
  | .jal d off => fitsSigned 8 0 (4 - (0 + (decide (16 ≤ d.val)).toNat + 0)) off
  | .mov _ _ => true
  | .jalr _ _ => true
  | .not _ _ => true
  | .neg _ _ => true
  | .setvl _ _ _ => true
  | .srl _ _ _ => true
  | .sra _ _ _ => true
  | .slli _ _ amt => decide (amt < 64)
  | .srli _ _ amt => decide (amt < 64)
  | .srai _ _ amt => decide (amt < 64)
  | .mul _ _ _ => true
  | .mulh _ _ _ => true
  | .mulhn _ _ _ => true
  | .div _ _ _ => true
  | .divn _ _ _ => true
  | .rem _ _ _ => true
  | .remn _ _ _ => true
  | .slt _ _ _ => true
  | .sltn _ _ _ => true
  | .andi d a imm => fitsSigned 4 0 (4 - (1 + (decide (16 ≤ d.val) || decide (16 ≤ a.val)).toNat + 0)) imm
  | .ori d a imm => fitsSigned 4 0 (4 - (1 + (decide (16 ≤ d.val) || decide (16 ≤ a.val)).toNat + 0)) imm
  | .xori d a imm => fitsSigned 4 0 (4 - (1 + (decide (16 ≤ d.val) || decide (16 ≤ a.val)).toNat + 0)) imm
  | .min _ _ _ => true
  | .max _ _ _ => true
  | .minn _ _ _ => true
  | .maxn _ _ _ => true
  | .clz _ _ => true
  | .ctz _ _ => true
  | .popc _ _ => true
  | .sext _ _ _ => true
  | .zext _ _ _ => true
  | .lih d a imm => decide (imm < 65536) && decide (2 ≤ (4 - (1 + (decide (16 ≤ d.val) || decide (16 ≤ a.val)).toNat + 0)))
  | .addpc d off => fitsSigned 8 0 (4 - (1 + (decide (16 ≤ d.val)).toNat + 0)) off
  | .addsl _ _ _ _ => true
  | .select _ _ _ _ => true
  | .beq d a off => fitsSigned 4 0 (4 - (1 + (decide (16 ≤ d.val) || decide (16 ≤ a.val)).toNat + 0)) off
  | .bne d a off => fitsSigned 4 0 (4 - (1 + (decide (16 ≤ d.val) || decide (16 ≤ a.val)).toNat + 0)) off
  | .blt d a off => fitsSigned 4 0 (4 - (1 + (decide (16 ≤ d.val) || decide (16 ≤ a.val)).toNat + 0)) off
  | .bge d a off => fitsSigned 4 0 (4 - (1 + (decide (16 ≤ d.val) || decide (16 ≤ a.val)).toNat + 0)) off
  | .bltn d a off => fitsSigned 4 0 (4 - (1 + (decide (16 ≤ d.val) || decide (16 ≤ a.val)).toNat + 0)) off
  | .bgen d a off => fitsSigned 4 0 (4 - (1 + (decide (16 ≤ d.val) || decide (16 ≤ a.val)).toNat + 0)) off
  | .loopsm rc p np off => fitsSigned 0 1 (4 - (1 + (decide (16 ≤ rc.val) || decide (16 ≤ p.val)).toNat + 0)) off && loopsmOk rc p np
  | .get _ _ => true
  | .set _ _ => true
  | .time _ => true
  | .rdcnt _ _ => true
  | .waitc _ _ _ _ _ => true
  | .vadd _ _ _ _ => true
  | .vsub _ _ _ _ => true
  | .vmul _ _ _ _ => true
  | .vmac _ _ _ _ => true
  | .vmin _ _ _ _ => true
  | .vmax _ _ _ _ => true
  | .vminn _ _ _ _ => true
  | .vmaxn _ _ _ _ => true
  | .vand _ _ _ _ => true
  | .vor _ _ _ _ => true
  | .vxor _ _ _ _ => true
  | .vsll _ _ _ _ => true
  | .vsrl _ _ _ _ => true
  | .vsra _ _ _ _ => true
  | .vdiv _ _ _ _ => true
  | .vdivn _ _ _ _ => true
  | .vrem _ _ _ _ => true
  | .vremn _ _ _ _ => true
  | .vadds _ _ _ _ => true
  | .vsubs _ _ _ _ => true
  | .vmulhq _ _ _ _ => true
  | .vabs _ _ _ => true
  | .vneg _ _ _ => true
  | .vrcp _ _ _ => true
  | .vrsqrt _ _ _ => true
  | .vexp2 _ _ _ => true
  | .vlog2 _ _ _ => true
  | .vsqrt _ _ _ => true
  | .vclass _ _ _ => true
  | .vscale _ _ _ _ => true
  | .vceq _ _ _ _ => true
  | .vcne _ _ _ _ => true
  | .vclt _ _ _ _ => true
  | .vcle _ _ _ _ => true
  | .vcltn _ _ _ _ => true
  | .vclen _ _ _ _ => true
  | .vceqi _ va imm q => fitsSigned 4 0 (Nat.min 2 (4 - (1 + (decide (16 ≤ va.val)).toNat + q.xqCount))) imm
  | .vclti _ va imm q => fitsSigned 4 0 (Nat.min 2 (4 - (1 + (decide (16 ≤ va.val)).toNat + q.xqCount))) imm
  | .mand _ _ _ => true
  | .mor _ _ _ => true
  | .mxor _ _ _ => true
  | .mnot _ _ => true
  | .mcnt _ _ => true
  | .many _ _ => true
  | .mfirst _ _ => true
  | .vmv _ _ _ => true
  | .vsplat _ _ _ => true
  | .vext _ _ _ _ => true
  | .vins _ _ _ _ => true
  | .vslideup _ _ _ _ => true
  | .vslidedn _ _ _ _ => true
  | .vperm _ _ _ _ => true
  | .vcompress _ _ q => q.mask.isSome
  | .vexpand _ _ q => q.mask.isSome
  | .viota _ q => q.mask.isSome
  | .vid _ _ => true
  | .vmerge _ _ _ q => q.mask.isSome
  | .vredsum _ _ _ => true
  | .vredmax _ _ _ => true
  | .vredmin _ _ _ => true
  | .vcvt _ _ _ _ => true
  | .vqscale _ _ _ _ _ => true
  | .vquant _ _ _ _ _ => true
  | .vdeq _ _ _ _ _ => true
  | .vcblk _ _ _ _ => true
  | .vwidenlo _ _ _ _ => true
  | .vwidenhi _ _ _ _ => true
  | .vnarrow _ _ _ _ _ => true
  | .vcadd _ _ _ _ => true
  | .vcsub _ _ _ _ => true
  | .vcmul _ _ _ _ => true
  | .vcmulj _ _ _ _ => true
  | .vcmac _ _ _ _ => true
  | .vcmacj _ _ _ _ => true
  | .vconj _ _ _ => true
  | .vcrot _ _ _ _ => true
  | .vcabs2 _ _ _ => true
  | .vcscale _ _ _ _ => true
  | .vcdot _ _ _ _ => true
  | .vcreal _ _ _ => true
  | .vcswap _ _ _ => true
  | .vcmag _ _ _ => true
  | .vcmacs _ _ _ _ => true
  | .vbfly2 _ _ _ _ _ => true
  | .vbfly3 _ _ _ _ _ => true
  | .vbfly4 _ _ _ _ _ => true
  | .vbfly5 _ _ _ _ _ => true
  | .vtwid _ _ _ _ => true
  | .vdrev _ _ _ _ => true
  | .vtrans _ _ _ _ => true
  | .vmgmul _ _ _ _ => true
  | .vmgmulh _ _ _ _ => true
  | .vmgmv _ _ _ _ => true
  | .vhchol _ _ _ => true
  | .vhinv _ _ _ => true
  | .vschur _ _ _ _ => true
  | .vschurv _ _ _ _ _ => true
  | .vhsolve _ _ _ _ => true
  | .vmgtr _ _ _ => true
  | .vhreg _ _ _ _ => true
  | .mxcfg _ _ => true
  | .mma _ _ _ => true
  | .mmaz _ _ _ => true
  | .mxzero _ => true
  | .mxst _ _ _ => true
  | .mxld _ _ _ => true
  | .mxldcb _ _ => true
  | .vmovz _ _ _ _ => true
  | .vmovtoz _ _ _ _ => true
  | .mxpark _ => true
  | .mxunpark _ => true
  | .mxscale _ _ => true
  | .mxshare _ => true
  | .mxstat _ _ => true
  | .gsend _ vp _ => decide (vp.val % 2 = 0)
  | .gsendc _ vp b => decide (vp.val % 2 = 0) && decide (b.val ≠ 0)
  | .gld vp _ _ => decide (vp.val % 2 = 0)
  | .gsum vp _ => decide (vp.val % 2 = 0)
  | .gsumx vp _ => decide (vp.val % 2 = 0)
  | .gdamp vp vq _ => decide (vp.val % 2 = 0) && decide (vq.val % 2 = 0)
  | .gcfg _ _ => true
  | .gmarg vp vq _ => decide (vp.val % 2 = 0) && decide (vq.val % 2 = 0)
  | .gembed vp vq _ => decide (vp.val % 2 = 0) && decide (vq.val % 2 = 0)
  | .gmean vp vq => decide (vp.val % 2 = 0) && decide (vq.val % 2 = 0)
  | .gstat _ sel => gstatSelOk sel
  | .lb d a imm => fitsUnsigned 4 (4 - (1 + (decide (16 ≤ d.val) || decide (16 ≤ a.val)).toNat + 0)) imm
  | .lbn d a imm => fitsUnsigned 4 (4 - (1 + (decide (16 ≤ d.val) || decide (16 ≤ a.val)).toNat + 0)) imm
  | .lh d a imm => fitsUnsigned 4 (4 - (1 + (decide (16 ≤ d.val) || decide (16 ≤ a.val)).toNat + 0)) imm
  | .lhn d a imm => fitsUnsigned 4 (4 - (1 + (decide (16 ≤ d.val) || decide (16 ≤ a.val)).toNat + 0)) imm
  | .lw d a imm => fitsUnsigned 4 (4 - (1 + (decide (16 ≤ d.val) || decide (16 ≤ a.val)).toNat + 0)) imm
  | .lwn d a imm => fitsUnsigned 4 (4 - (1 + (decide (16 ≤ d.val) || decide (16 ≤ a.val)).toNat + 0)) imm
  | .sb d a imm => fitsUnsigned 4 (4 - (1 + (decide (16 ≤ d.val) || decide (16 ≤ a.val)).toNat + 0)) imm
  | .sh d a imm => fitsUnsigned 4 (4 - (1 + (decide (16 ≤ d.val) || decide (16 ≤ a.val)).toNat + 0)) imm
  | .sw d a imm => fitsUnsigned 4 (4 - (1 + (decide (16 ≤ d.val) || decide (16 ≤ a.val)).toNat + 0)) imm
  | .ldx _ _ _ => true
  | .stx _ _ _ => true
  | .pref _ a imm => fitsUnsigned 4 (4 - (1 + (decide (16 ≤ a.val)).toNat + 0)) imm
  | .cflush _ => true
  | .cinv _ => true
  | .amoadd _ _ _ _ => true
  | .amoand _ _ _ _ => true
  | .amoor _ _ _ _ => true
  | .amoxor _ _ _ _ => true
  | .amomin _ _ _ _ => true
  | .amomax _ _ _ _ => true
  | .amominn _ _ _ _ => true
  | .amomaxn _ _ _ _ => true
  | .amoswp _ _ _ _ => true
  | .amocas _ _ _ _ _ => true
  | .ldaq _ _ => true
  | .strl _ _ => true
  | .fence _ _ _ => true
  | .vld _ _ _ => true
  | .vst _ _ _ => true
  | .vlds _ _ _ _ => true
  | .vsts _ _ _ _ => true
  | .vldx _ _ _ _ _ => true
  | .vstx _ _ _ _ _ => true
  | .vldb _ _ _ => true
  | .vamoadd _ _ _ _ _ => true
  | .vldff _ _ _ => true
  | .scopy _ _ _ _ _ => true
  | .spat _ _ => true
  | .sstrm _ _ _ => true
  | .swaitm _ _ => true
  | .stestm _ _ _ => true
  | .sclrm _ _ => true
  | .flpop _ _ => true
  | .flrel _ _ => true
  | .flpush _ _ => true
  | .fldone _ _ => true
  | .ecmd _ _ => true
  | .ecancel _ _ => true
  | .estat _ _ _ => true
  | .spawn _ _ => true
  | .jend => true
  | .jdead _ => true
  | .jtight _ _ => true
  | .jwid _ _ _ => true
  | .jself _ => true
  | .jabort _ _ => true
  | .jinfo _ _ => true
  | .msendrq _ _ p n => payloadOk p n
  | .msendrp _ _ p n => payloadOk p n
  | .mtag _ _ _ => true
  | .men _ => true
  | .mdis _ => true
  | .mpend _ => true
  | .mclr _ _ => true
  | .warm _ _ _ _ => true
  | .wpost _ _ _ => true
  | .wsig _ _ => true
  | .wstat _ _ => true
  | .binit _ _ _ => true
  | .barrive _ => true
  | .bwait _ _ _ => true
  | .bsync _ _ => true
  | .qopen _ _ _ => true
  | .qclose _ _ => true
  | .qstat _ _ _ => true
  | .trap imm => fitsUnsigned 8 (Nat.min 1 (4 - (1 + 0 + 0))) imm
  | .tret => true
  | .tretSkip => true
  | .svc _ _ _ => true
  | .gateinfo _ _ => true
  | .enmtr _ _ _ => true
  | .pgateGate _ _ => true
  | .pgateUngate _ _ => true
  | .pgateQuery _ _ => true
  | .halt _ => true
  | .ctxsave _ _ _ => true
  | .ctxload _ _ _ => true
  | .tlbinv _ _ => true
  | .idle _ => true
  | .brk _ => true
  | .rsvadd _ _ => true
  | .vectorStart _ => true
  | .vectorComplete _ => true
  | .scalarLoadReturn _ _ => true
  | .storePerformed _ _ => true
  | .mxCmdBegin _ => true
  | .mxRowReady _ _ _ => true
  | .mxCmdComplete _ => true
  | .mxShareTimeout _ => true
  | .waitSatisfied _ => true
  | .idleExpire _ => true
  | .deadlineComparator _ => true
  | .abandonAction _ => true
  | .queuedDeadlinePass _ => true
  | .reservationRelease _ => true
  | .budgetUpdate => true
  | .governorDispatch _ => true
  | .loadAveraging _ => true
  | .jobMoveArrive _ => true
  | .amArrival _ => true
  | .amAnswer _ => true
  | .emptyRelease _ => true
  | .engDelivery _ => true
  | .gmsgMerge _ => true
  | .weirArrival _ => true
  | .weirPacketMake _ => true
  | .barrierArrival _ => true
  | .sweep => true
  | .groupCompletionSend _ => true
  | .engineCmdArrive _ => true
  | .engineAnswer _ => true
  | .ldpcDecode _ => true
  | .ldpcEncode _ => true
  | .polarDecode _ => true
  | .polarEncode _ => true
  | .rateDematch _ => true
  | .rateMatch _ => true
  | .crcCheck _ => true
  | .engineCompletion _ => true
  | .streamChunkServe _ _ => true
  | .chunkDone _ _ => true
  | .ethFrameReceive _ _ => true
  | .rowCloseTimeout _ _ => true
  | .rowSlotFill _ _ => true
  | .overrunRowFill _ _ => true
  | .cplaneTransmit _ _ => true
  | .windowStart _ => true
  | .edgeGuard _ => true
  | .edgeSwapComplete _ => true
  | .coreRepower _ => true
  | .loanStart _ => true
  | .loanEnd _ => true
  | .tableEpoch => true
  | .svcCallArrive _ => true
  | .svcAnswer _ => true
  | .internalCall _ _ _ => true
  | .nop _ => true
  | .rsvAdd _ => true
  | .rsvRemove _ => true
  | .counter _ => true
  | .mapObject _ => true
  | .unmapObject _ => true
  | .harvest _ => true
  | .harvestAuto _ _ => true
  | .objectFaultServe _ => true
  | .queueBind _ => true
  | .queueUnbind _ => true
  | .tableLoad _ => true
  | .quarClear _ => true
  | .sweepSet _ => true
  | .logSet _ => true
  | .imageLoad _ => true
  | .flumeSet _ => true
  | .groupSet _ => true
  | .poisonClear _ => true
  | .biasSet _ => true
  | .linkDump _ => true
  | .twinExport _ => true
  | .debugOpen _ => true
  | .debugClose _ => true
  | .debugRead _ => true
  | .debugWrite _ => true
  | .debugResume _ => true
  | .hlqdb _ _ => true
  | .biasreq _ => true
  | .hostsig => true
  | .hostsigw _ => true
  | .registerWrite _ _ => true
  | .hostMemAccess _ => true
  | .hostSnoop _ _ => true
  | .hostLinkDown => true
  | .twinPair _ => true
  | .twinLinkDown => true
  | .spdmMeasurements => true
  | .powerOn => true
  | .deviceReset => true
  | .bootImageVerify _ _ _ => true
  | .channelTrained _ _ => true
  | .clusterReady _ => true
  | .headracePortReady _ => true
  | .ptpFirstLock _ => true
  | .ptpLockLoss => true
  | .ptpLockRegained => true
  | .dvfsStepChange _ => true
  | .powerCapCheck => true
  | .energyMeterUpdate => true
  | .ungateComplete _ => true
  | .stillEnter => true
  | .channelWake _ => true
  | .lpddrScrub _ _ => true
  | .sramScrub _ => true
  | .illegalInstruction => true
  | .prefixChain => true
  | .fetchFault _ _ => true
  | .hostLinkUp => true
  | .twinMemoryAccess _ => true
  | .hdmWindowSet _ _ => true

end Sys2Proof
end

