-- ==== Sys2Proof/Decode.lean ====
section
/-! DEFINITION. Decoding a chain of halfwords (R54 to R64, R67 to R69) and, after it, the encoder in the assembler's
canonical form (R74).  The decoder is total and rejects by name. -/

namespace Sys2Proof

/-- A chain pulled apart: page and major, the register fields with their XR bits, the C field, whether an XR stood in the
chain, the XQ fields (ME, MR, MI, FO), and the XI words in fetch order (R56). -/
structure Chain where
  page : Nat := 0
  major : Nat := 0
  D : Nat := 0
  A : Nat := 0
  B : Nat := 0
  C : Nat := 0
  xr : Bool := false
  xq : Option (Bool × Nat × Bool × Nat) := none
  xi : List Nat := []
  deriving DecidableEq, Repr

/-- The bits hi to lo of a number (00_scope.md, helper bits). -/
def bitsOf (x hi lo : Nat) : Nat := x / 2 ^ lo % 2 ^ (hi + 1 - lo)

/-- The low n bits of a number read as two's complement (helper sext). -/
def signedOf (n x : Nat) : Int :=
  if x % 2 ^ n < 2 ^ (n - 1) then (x % 2 ^ n : Nat) else (x % 2 ^ n : Nat) - (2 ^ n : Nat)

def sreg (n : Nat) : SReg := Fin.ofNat 32 n
def vreg (n : Nat) : VReg := Fin.ofNat 32 n
def mreg (n : Nat) : MReg := Fin.ofNat 16 n
def zreg (n : Nat) : ZReg := Fin.ofNat 4 n

/-- R59: the XI words of the chain, ten bits each, in fetch order. -/
def Chain.xiValue (c : Chain) : Nat := c.xi.foldl (fun f x => f * 1024 + x) 0

/-- R59: the immediate field with b base bits. -/
def Chain.immUnsigned (c : Chain) (b base : Nat) : Nat := c.xiValue * 2 ^ b + base

/-- R59: the immediate field with b base bits, sign-extended from its top bit. -/
def Chain.immSigned (c : Chain) (b base : Nat) : Int := signedOf (b + 10 * c.xi.length) (c.immUnsigned b base)

/-- R62: with ME = 0, MR and MI are zero; an FO of 0xF is none. -/
def Chain.qualOk (c : Chain) : Bool :=
  match c.xq with
  | none => true
  | some (me, mr, mi, _) => me || (mr == 0 && !mi)

/-- R69: the instruction needs a mask. -/
def Chain.qualMasked (c : Chain) : Bool :=
  match c.xq with
  | none => false
  | some (me, _, _, _) => me

/-- R62: the mask and the format override the XQ word names. -/
def Chain.qual (c : Chain) : Qual :=
  match c.xq with
  | none => { mask := none, fo := none }
  | some (me, mr, mi, fo) =>
    { mask := if me then some (mreg mr, mi) else none, fo := if fo < 15 then some (Fmt.ofCode fo) else none }

/-- R69: an XQ that may carry only a format override. -/
def Chain.foOk (c : Chain) : Bool :=
  match c.xq with
  | none => true
  | some (me, mr, mi, _) => !me && mr == 0 && !mi

/-- R69, R213: an XQ of an atomic carries only FO = 0x2, 0x3 or 0xF. -/
def Chain.amoOk (c : Chain) : Bool :=
  match c.xq with
  | none => true
  | some (me, mr, mi, fo) => !me && mr == 0 && !mi && (fo == 2 || fo == 3 || fo == 15)

/-- R213: FO = 0x2 makes the atomic 32 bits wide. -/
def Chain.amoW32 (c : Chain) : Bool :=
  match c.xq with
  | none => false
  | some (_, _, _, fo) => fo == 2

/-- R68, R105: WAITC takes at most one XI, with bits 9:8 zero. -/
def Chain.waitXiOk (c : Chain) : Bool :=
  match c.xi with
  | [] => true
  | [x] => x < 256
  | _ => false

/-- R105: the matrix limit (which = 1) or the engine limit (which = 0); 15 without an XI. -/
def Chain.waitLimit (c : Chain) (which : Nat) : Fin 16 :=
  match c.xi with
  | x :: _ => Fin.ofNat 16 (x / 16 ^ which)
  | [] => 15


/-- The majors of page 0x00 (R67): a major without a row is not assigned. -/
def selectPage00 (c : Chain) : Option Instr :=
  match c.major with
  | 0 => if c.C == 0 && c.xi.isEmpty && c.xq.isNone then some (.add (sreg c.D) (sreg c.A) (sreg c.B)) else none
  | 1 => if c.C == 0 && c.xi.isEmpty && c.xq.isNone then some (.sub (sreg c.D) (sreg c.A) (sreg c.B)) else none
  | 2 => if c.C == 0 && c.xi.isEmpty && c.xq.isNone then some (.and (sreg c.D) (sreg c.A) (sreg c.B)) else none
  | 3 => if c.C == 0 && c.xi.isEmpty && c.xq.isNone then some (.or (sreg c.D) (sreg c.A) (sreg c.B)) else none
  | 4 => if c.C == 0 && c.xi.isEmpty && c.xq.isNone then some (.xor (sreg c.D) (sreg c.A) (sreg c.B)) else none
  | 5 => if c.C == 0 && c.xi.isEmpty && c.xq.isNone then some (.sll (sreg c.D) (sreg c.A) (sreg c.B)) else none
  | 6 => if c.B < 16 && c.C == 0 && c.xq.isNone then some (.addi (sreg c.D) (sreg c.A) (c.immSigned 4 c.B)) else none
  | 7 => if c.A < 16 && c.B < 16 && c.C == 0 && c.xq.isNone then some (.li (sreg c.D) (c.immSigned 8 (c.A * 16 + c.B))) else none
  | 8 => if c.B < 16 && c.C == 0 && c.xq.isNone then some (.ldd (sreg c.D) (sreg c.A) (c.immUnsigned 4 c.B)) else none
  | 9 => if c.B < 16 && c.C == 0 && c.xq.isNone then some (.std (sreg c.D) (sreg c.A) (c.immUnsigned 4 c.B)) else none
  | 10 => if c.A < 16 && c.B < 16 && c.C == 0 && c.xq.isNone then some (.beqz (sreg c.D) (c.immSigned 8 (c.A * 16 + c.B))) else none
  | 11 => if c.A < 16 && c.B < 16 && c.C == 0 && c.xq.isNone then some (.bnez (sreg c.D) (c.immSigned 8 (c.A * 16 + c.B))) else none
  | 12 => if c.A < 16 && c.B < 16 && c.C == 0 && c.xq.isNone then some (.jal (sreg c.D) (c.immSigned 8 (c.A * 16 + c.B))) else none
  | 13 =>
    match c.B with
    | 0 => if c.C == 0 && c.xi.isEmpty && c.xq.isNone then some (.mov (sreg c.D) (sreg c.A)) else none
    | 1 => if c.C == 0 && c.xi.isEmpty && c.xq.isNone then some (.jalr (sreg c.D) (sreg c.A)) else none
    | 2 => if c.C == 0 && c.xi.isEmpty && c.xq.isNone then some (.not (sreg c.D) (sreg c.A)) else none
    | 3 => if c.C == 0 && c.xi.isEmpty && c.xq.isNone then some (.neg (sreg c.D) (sreg c.A)) else none
    | _ => none
  | 14 => if c.B < 15 && c.C == 0 && c.xi.isEmpty && c.xq.isNone then some (.setvl (sreg c.D) (sreg c.A) (Fmt.ofCode c.B)) else none
  | _ => none

/-- The majors of page 0x01 (R67): a major without a row is not assigned. -/
def selectPage01 (c : Chain) : Option Instr :=
  match c.major with
  | 0 => if c.C == 0 && c.xi.isEmpty && c.xq.isNone then some (.srl (sreg c.D) (sreg c.A) (sreg c.B)) else none
  | 1 => if c.C == 0 && c.xi.isEmpty && c.xq.isNone then some (.sra (sreg c.D) (sreg c.A) (sreg c.B)) else none
  | 2 => if c.B < 16 && c.immUnsigned 4 c.B < 64 && c.C == 0 && c.xq.isNone then some (.slli (sreg c.D) (sreg c.A) (c.immUnsigned 4 c.B)) else none
  | 3 => if c.B < 16 && c.immUnsigned 4 c.B < 64 && c.C == 0 && c.xq.isNone then some (.srli (sreg c.D) (sreg c.A) (c.immUnsigned 4 c.B)) else none
  | 4 => if c.B < 16 && c.immUnsigned 4 c.B < 64 && c.C == 0 && c.xq.isNone then some (.srai (sreg c.D) (sreg c.A) (c.immUnsigned 4 c.B)) else none
  | 5 => if c.C == 0 && c.xi.isEmpty && c.xq.isNone then some (.mul (sreg c.D) (sreg c.A) (sreg c.B)) else none
  | 6 => if c.C == 0 && c.xi.isEmpty && c.xq.isNone then some (.mulh (sreg c.D) (sreg c.A) (sreg c.B)) else none
  | 7 => if c.C == 0 && c.xi.isEmpty && c.xq.isNone then some (.mulhn (sreg c.D) (sreg c.A) (sreg c.B)) else none
  | 8 => if c.C == 0 && c.xi.isEmpty && c.xq.isNone then some (.div (sreg c.D) (sreg c.A) (sreg c.B)) else none
  | 9 => if c.C == 0 && c.xi.isEmpty && c.xq.isNone then some (.divn (sreg c.D) (sreg c.A) (sreg c.B)) else none
  | 10 => if c.C == 0 && c.xi.isEmpty && c.xq.isNone then some (.rem (sreg c.D) (sreg c.A) (sreg c.B)) else none
  | 11 => if c.C == 0 && c.xi.isEmpty && c.xq.isNone then some (.remn (sreg c.D) (sreg c.A) (sreg c.B)) else none
  | 12 => if c.C == 0 && c.xi.isEmpty && c.xq.isNone then some (.slt (sreg c.D) (sreg c.A) (sreg c.B)) else none
  | 13 => if c.C == 0 && c.xi.isEmpty && c.xq.isNone then some (.sltn (sreg c.D) (sreg c.A) (sreg c.B)) else none
  | 14 => if c.B < 16 && c.C == 0 && c.xq.isNone then some (.andi (sreg c.D) (sreg c.A) (c.immSigned 4 c.B)) else none
  | _ => none

/-- The majors of page 0x02 (R67): a major without a row is not assigned. -/
def selectPage02 (c : Chain) : Option Instr :=
  match c.major with
  | 0 => if c.B < 16 && c.C == 0 && c.xq.isNone then some (.ori (sreg c.D) (sreg c.A) (c.immSigned 4 c.B)) else none
  | 1 => if c.B < 16 && c.C == 0 && c.xq.isNone then some (.xori (sreg c.D) (sreg c.A) (c.immSigned 4 c.B)) else none
  | 2 => if c.C == 0 && c.xi.isEmpty && c.xq.isNone then some (.min (sreg c.D) (sreg c.A) (sreg c.B)) else none
  | 3 => if c.C == 0 && c.xi.isEmpty && c.xq.isNone then some (.max (sreg c.D) (sreg c.A) (sreg c.B)) else none
  | 4 => if c.C == 0 && c.xi.isEmpty && c.xq.isNone then some (.minn (sreg c.D) (sreg c.A) (sreg c.B)) else none
  | 5 => if c.C == 0 && c.xi.isEmpty && c.xq.isNone then some (.maxn (sreg c.D) (sreg c.A) (sreg c.B)) else none
  | 6 => if c.B == 0 && c.C == 0 && c.xi.isEmpty && c.xq.isNone then some (.clz (sreg c.D) (sreg c.A)) else none
  | 7 => if c.B == 0 && c.C == 0 && c.xi.isEmpty && c.xq.isNone then some (.ctz (sreg c.D) (sreg c.A)) else none
  | 8 => if c.B == 0 && c.C == 0 && c.xi.isEmpty && c.xq.isNone then some (.popc (sreg c.D) (sreg c.A)) else none
  | 9 => if c.B < 3 && c.C == 0 && c.xi.isEmpty && c.xq.isNone then some (.sext (sreg c.D) (sreg c.A) (Fin.ofNat 3 c.B)) else none
  | 10 => if c.B < 3 && c.C == 0 && c.xi.isEmpty && c.xq.isNone then some (.zext (sreg c.D) (sreg c.A) (Fin.ofNat 3 c.B)) else none
  | 11 => if c.B < 16 && c.immUnsigned 4 c.B < 65536 && c.xi.length == 2 && c.C == 0 && c.xq.isNone then some (.lih (sreg c.D) (sreg c.A) (c.immUnsigned 4 c.B)) else none
  | 12 => if c.A < 16 && c.B < 16 && c.C == 0 && c.xq.isNone then some (.addpc (sreg c.D) (c.immSigned 8 (c.A * 16 + c.B))) else none
  | 13 => if c.C < 32 && c.xi.isEmpty && c.xq.isNone && c.xr then some (.addsl (sreg c.D) (sreg c.A) (sreg c.B) (Fin.ofNat 32 c.C)) else none
  | 14 => if c.xi.isEmpty && c.xq.isNone && c.xr then some (.select (sreg c.D) (sreg c.A) (sreg c.B) (sreg c.C)) else none
  | _ => none

/-- The majors of page 0x03 (R67): a major without a row is not assigned. -/
def selectPage03 (c : Chain) : Option Instr :=
  match c.major with
  | 0 => if c.B < 16 && c.C == 0 && c.xq.isNone then some (.beq (sreg c.D) (sreg c.A) (c.immSigned 4 c.B)) else none
  | 1 => if c.B < 16 && c.C == 0 && c.xq.isNone then some (.bne (sreg c.D) (sreg c.A) (c.immSigned 4 c.B)) else none
  | 2 => if c.B < 16 && c.C == 0 && c.xq.isNone then some (.blt (sreg c.D) (sreg c.A) (c.immSigned 4 c.B)) else none
  | 3 => if c.B < 16 && c.C == 0 && c.xq.isNone then some (.bge (sreg c.D) (sreg c.A) (c.immSigned 4 c.B)) else none
  | 4 => if c.B < 16 && c.C == 0 && c.xq.isNone then some (.bltn (sreg c.D) (sreg c.A) (c.immSigned 4 c.B)) else none
  | 5 => if c.B < 16 && c.C == 0 && c.xq.isNone then some (.bgen (sreg c.D) (sreg c.A) (c.immSigned 4 c.B)) else none
  | 6 => if c.B < 4 && 1 ≤ c.xi.length && c.C == 0 && c.xq.isNone && loopsmOk (sreg c.D) (sreg c.A) (Fin.ofNat 4 c.B) then some (.loopsm (sreg c.D) (sreg c.A) (Fin.ofNat 4 c.B) (c.immSigned 0 0)) else none
  | 7 => if c.A < 16 && c.B < 16 && c.C == 0 && c.xi.isEmpty && c.xq.isNone then some (.get (sreg c.D) (BitVec.ofNat 8 (c.A * 16 + c.B))) else none
  | 8 => if c.A < 16 && c.B < 16 && c.C == 0 && c.xi.isEmpty && c.xq.isNone then some (.set (sreg c.D) (BitVec.ofNat 8 (c.A * 16 + c.B))) else none
  | 9 => if c.A == 0 && c.B == 0 && c.C == 0 && c.xi.isEmpty && c.xq.isNone then some (.time (sreg c.D)) else none
  | 10 => if c.B < 7 && c.A == 0 && c.C == 0 && c.xi.isEmpty && c.xq.isNone then some (.rdcnt (sreg c.D) (Fin.ofNat 7 c.B)) else none
  | 11 => if c.D < 16 && c.A < 16 && c.B < 16 && c.waitXiOk && c.C == 0 && c.xq.isNone && !c.xr then some (.waitc (Fin.ofNat 16 c.D) (Fin.ofNat 16 c.A) (Fin.ofNat 16 c.B) (c.waitLimit 1) (c.waitLimit 0)) else none
  | _ => none

/-- The majors of page 0x10 (R67, R115): a major without a row is not assigned. -/
def selectPage10 (c : Chain) : Option Instr :=
  match c.major with
  | 0 => if c.C == 0 && c.xi.isEmpty && c.qualOk then some (.vadd (vreg c.D) (vreg c.A) (vreg c.B) c.qual) else none
  | 1 => if c.C == 0 && c.xi.isEmpty && c.qualOk then some (.vsub (vreg c.D) (vreg c.A) (vreg c.B) c.qual) else none
  | 2 => if c.C == 0 && c.xi.isEmpty && c.qualOk then some (.vmul (vreg c.D) (vreg c.A) (vreg c.B) c.qual) else none
  | 3 => if c.C == 0 && c.xi.isEmpty && c.qualOk then some (.vmac (vreg c.D) (vreg c.A) (vreg c.B) c.qual) else none
  | 4 => if c.C == 0 && c.xi.isEmpty && c.qualOk then some (.vmin (vreg c.D) (vreg c.A) (vreg c.B) c.qual) else none
  | 5 => if c.C == 0 && c.xi.isEmpty && c.qualOk then some (.vmax (vreg c.D) (vreg c.A) (vreg c.B) c.qual) else none
  | 6 => if c.C == 0 && c.xi.isEmpty && c.qualOk then some (.vminn (vreg c.D) (vreg c.A) (vreg c.B) c.qual) else none
  | 7 => if c.C == 0 && c.xi.isEmpty && c.qualOk then some (.vmaxn (vreg c.D) (vreg c.A) (vreg c.B) c.qual) else none
  | 8 => if c.C == 0 && c.xi.isEmpty && c.qualOk then some (.vand (vreg c.D) (vreg c.A) (vreg c.B) c.qual) else none
  | 9 => if c.C == 0 && c.xi.isEmpty && c.qualOk then some (.vor (vreg c.D) (vreg c.A) (vreg c.B) c.qual) else none
  | 10 => if c.C == 0 && c.xi.isEmpty && c.qualOk then some (.vxor (vreg c.D) (vreg c.A) (vreg c.B) c.qual) else none
  | 11 => if c.C == 0 && c.xi.isEmpty && c.qualOk then some (.vsll (vreg c.D) (vreg c.A) (vreg c.B) c.qual) else none
  | 12 => if c.C == 0 && c.xi.isEmpty && c.qualOk then some (.vsrl (vreg c.D) (vreg c.A) (vreg c.B) c.qual) else none
  | 13 => if c.C == 0 && c.xi.isEmpty && c.qualOk then some (.vsra (vreg c.D) (vreg c.A) (vreg c.B) c.qual) else none
  | 14 => if c.C == 0 && c.xi.isEmpty && c.qualOk then some (.vdiv (vreg c.D) (vreg c.A) (vreg c.B) c.qual) else none
  | _ => none

/-- The majors of page 0x11 (R67): a major without a row is not assigned. -/
def selectPage11 (c : Chain) : Option Instr :=
  match c.major with
  | 0 => if c.C == 0 && c.xi.isEmpty && c.qualOk then some (.vdivn (vreg c.D) (vreg c.A) (vreg c.B) c.qual) else none
  | 1 => if c.C == 0 && c.xi.isEmpty && c.qualOk then some (.vrem (vreg c.D) (vreg c.A) (vreg c.B) c.qual) else none
  | 2 => if c.C == 0 && c.xi.isEmpty && c.qualOk then some (.vremn (vreg c.D) (vreg c.A) (vreg c.B) c.qual) else none
  | 3 => if c.C == 0 && c.xi.isEmpty && c.qualOk then some (.vadds (vreg c.D) (vreg c.A) (vreg c.B) c.qual) else none
  | 4 => if c.C == 0 && c.xi.isEmpty && c.qualOk then some (.vsubs (vreg c.D) (vreg c.A) (vreg c.B) c.qual) else none
  | 5 => if c.C == 0 && c.xi.isEmpty && c.qualOk then some (.vmulhq (vreg c.D) (vreg c.A) (vreg c.B) c.qual) else none
  | 6 => if c.B == 0 && c.C == 0 && c.xi.isEmpty && c.qualOk then some (.vabs (vreg c.D) (vreg c.A) c.qual) else none
  | 7 => if c.B == 0 && c.C == 0 && c.xi.isEmpty && c.qualOk then some (.vneg (vreg c.D) (vreg c.A) c.qual) else none
  | 8 => if c.B == 0 && c.C == 0 && c.xi.isEmpty && c.qualOk then some (.vrcp (vreg c.D) (vreg c.A) c.qual) else none
  | 9 => if c.B == 0 && c.C == 0 && c.xi.isEmpty && c.qualOk then some (.vrsqrt (vreg c.D) (vreg c.A) c.qual) else none
  | 10 => if c.B == 0 && c.C == 0 && c.xi.isEmpty && c.qualOk then some (.vexp2 (vreg c.D) (vreg c.A) c.qual) else none
  | 11 => if c.B == 0 && c.C == 0 && c.xi.isEmpty && c.qualOk then some (.vlog2 (vreg c.D) (vreg c.A) c.qual) else none
  | 12 => if c.B == 0 && c.C == 0 && c.xi.isEmpty && c.qualOk then some (.vsqrt (vreg c.D) (vreg c.A) c.qual) else none
  | 13 => if c.B == 0 && c.C == 0 && c.xi.isEmpty && c.qualOk then some (.vclass (vreg c.D) (vreg c.A) c.qual) else none
  | 14 => if c.C == 0 && c.xi.isEmpty && c.qualOk then some (.vscale (vreg c.D) (vreg c.A) (vreg c.B) c.qual) else none
  | _ => none

/-- The majors of page 0x12 (R67): a major without a row is not assigned. -/
def selectPage12 (c : Chain) : Option Instr :=
  match c.major with
  | 0 => if c.D < 16 && c.C == 0 && c.xi.isEmpty && c.qualOk then some (.vceq (mreg c.D) (vreg c.A) (vreg c.B) c.qual) else none
  | 1 => if c.D < 16 && c.C == 0 && c.xi.isEmpty && c.qualOk then some (.vcne (mreg c.D) (vreg c.A) (vreg c.B) c.qual) else none
  | 2 => if c.D < 16 && c.C == 0 && c.xi.isEmpty && c.qualOk then some (.vclt (mreg c.D) (vreg c.A) (vreg c.B) c.qual) else none
  | 3 => if c.D < 16 && c.C == 0 && c.xi.isEmpty && c.qualOk then some (.vcle (mreg c.D) (vreg c.A) (vreg c.B) c.qual) else none
  | 4 => if c.D < 16 && c.C == 0 && c.xi.isEmpty && c.qualOk then some (.vcltn (mreg c.D) (vreg c.A) (vreg c.B) c.qual) else none
  | 5 => if c.D < 16 && c.C == 0 && c.xi.isEmpty && c.qualOk then some (.vclen (mreg c.D) (vreg c.A) (vreg c.B) c.qual) else none
  | 6 => if c.D < 16 && c.B < 16 && c.xi.length ≤ 2 && c.C == 0 && c.qualOk then some (.vceqi (mreg c.D) (vreg c.A) (c.immSigned 4 c.B) c.qual) else none
  | 7 => if c.D < 16 && c.B < 16 && c.xi.length ≤ 2 && c.C == 0 && c.qualOk then some (.vclti (mreg c.D) (vreg c.A) (c.immSigned 4 c.B) c.qual) else none
  | 8 => if c.D < 16 && c.A < 16 && c.B < 16 && c.C == 0 && c.xi.isEmpty && c.xq.isNone then some (.mand (mreg c.D) (mreg c.A) (mreg c.B)) else none
  | 9 => if c.D < 16 && c.A < 16 && c.B < 16 && c.C == 0 && c.xi.isEmpty && c.xq.isNone then some (.mor (mreg c.D) (mreg c.A) (mreg c.B)) else none
  | 10 => if c.D < 16 && c.A < 16 && c.B < 16 && c.C == 0 && c.xi.isEmpty && c.xq.isNone then some (.mxor (mreg c.D) (mreg c.A) (mreg c.B)) else none
  | 11 => if c.D < 16 && c.A < 16 && c.B == 0 && c.C == 0 && c.xi.isEmpty && c.xq.isNone then some (.mnot (mreg c.D) (mreg c.A)) else none
  | 12 => if c.A < 16 && c.B == 0 && c.C == 0 && c.xi.isEmpty && c.xq.isNone then some (.mcnt (sreg c.D) (mreg c.A)) else none
  | 13 => if c.A < 16 && c.B == 0 && c.C == 0 && c.xi.isEmpty && c.xq.isNone then some (.many (sreg c.D) (mreg c.A)) else none
  | 14 => if c.A < 16 && c.B == 0 && c.C == 0 && c.xi.isEmpty && c.xq.isNone then some (.mfirst (sreg c.D) (mreg c.A)) else none
  | _ => none

/-- The majors of page 0x13 (R67): a major without a row is not assigned. -/
def selectPage13 (c : Chain) : Option Instr :=
  match c.major with
  | 0 => if c.B == 0 && c.C == 0 && c.xi.isEmpty && c.qualOk then some (.vmv (vreg c.D) (vreg c.A) c.qual) else none
  | 1 => if c.B == 0 && c.C == 0 && c.xi.isEmpty && c.qualOk then some (.vsplat (vreg c.D) (sreg c.A) c.qual) else none
  | 2 => if c.C == 0 && c.xi.isEmpty && c.foOk then some (.vext (sreg c.D) (vreg c.A) (sreg c.B) c.qual.fo) else none
  | 3 => if c.C == 0 && c.xi.isEmpty && c.foOk then some (.vins (vreg c.D) (sreg c.A) (sreg c.B) c.qual.fo) else none
  | 4 => if c.C == 0 && c.xi.isEmpty && c.qualOk then some (.vslideup (vreg c.D) (vreg c.A) (sreg c.B) c.qual) else none
  | 5 => if c.C == 0 && c.xi.isEmpty && c.qualOk then some (.vslidedn (vreg c.D) (vreg c.A) (sreg c.B) c.qual) else none
  | 6 => if c.C == 0 && c.xi.isEmpty && c.qualOk then some (.vperm (vreg c.D) (vreg c.A) (vreg c.B) c.qual) else none
  | 7 => if c.B == 0 && c.C == 0 && c.xi.isEmpty && c.qualMasked then some (.vcompress (vreg c.D) (vreg c.A) c.qual) else none
  | 8 => if c.B == 0 && c.C == 0 && c.xi.isEmpty && c.qualMasked then some (.vexpand (vreg c.D) (vreg c.A) c.qual) else none
  | 9 => if c.A == 0 && c.B == 0 && c.C == 0 && c.xi.isEmpty && c.qualMasked then some (.viota (vreg c.D) c.qual) else none
  | 10 => if c.A == 0 && c.B == 0 && c.C == 0 && c.xi.isEmpty && c.qualOk then some (.vid (vreg c.D) c.qual) else none
  | 11 => if c.C == 0 && c.xi.isEmpty && c.qualMasked then some (.vmerge (vreg c.D) (vreg c.A) (vreg c.B) c.qual) else none
  | 12 => if c.B == 0 && c.C == 0 && c.xi.isEmpty && c.qualOk then some (.vredsum (vreg c.D) (vreg c.A) c.qual) else none
  | 13 => if c.B == 0 && c.C == 0 && c.xi.isEmpty && c.qualOk then some (.vredmax (vreg c.D) (vreg c.A) c.qual) else none
  | 14 => if c.B == 0 && c.C == 0 && c.xi.isEmpty && c.qualOk then some (.vredmin (vreg c.D) (vreg c.A) c.qual) else none
  | _ => none

/-- The majors of page 0x14 (R67): a major without a row is not assigned. -/
def selectPage14 (c : Chain) : Option Instr :=
  match c.major with
  | 0 => if c.B < 15 && c.C == 0 && c.xi.isEmpty && c.qualOk then some (.vcvt (vreg c.D) (vreg c.A) (Fmt.ofCode c.B) c.qual) else none
  | 1 => if c.B < 16 && c.C < 15 && c.xi.isEmpty && c.qualOk && c.xr then some (.vqscale (vreg c.D) (vreg c.A) (Fin.ofNat 16 c.B) (Fmt.ofCode c.C) c.qual) else none
  | 2 => if c.C < 15 && c.xi.isEmpty && c.qualOk && c.xr then some (.vquant (vreg c.D) (vreg c.A) (vreg c.B) (Fmt.ofCode c.C) c.qual) else none
  | 3 => if c.C < 15 && c.xi.isEmpty && c.qualOk && c.xr then some (.vdeq (vreg c.D) (vreg c.A) (vreg c.B) (Fmt.ofCode c.C) c.qual) else none
  | 4 => if c.B < 2 && c.C == 0 && c.xi.isEmpty && c.qualOk then some (.vcblk (vreg c.D) (vreg c.A) (Fin.ofNat 2 c.B) c.qual) else none
  | 5 => if c.B < 2 && c.C == 0 && c.xi.isEmpty && c.qualOk then some (.vwidenlo (vreg c.D) (vreg c.A) (Fin.ofNat 2 c.B) c.qual) else none
  | 6 => if c.B < 2 && c.C == 0 && c.xi.isEmpty && c.qualOk then some (.vwidenhi (vreg c.D) (vreg c.A) (Fin.ofNat 2 c.B) c.qual) else none
  | 7 => if c.C < 15 && c.xi.isEmpty && c.qualOk && c.xr then some (.vnarrow (vreg c.D) (vreg c.A) (vreg c.B) (Fmt.ofCode c.C) c.qual) else none
  | _ => none

/-- The majors of page 0x30 (R67): a major without a row is not assigned. -/
def selectPage30 (c : Chain) : Option Instr :=
  match c.major with
  | 0 => if c.C == 0 && c.xi.isEmpty && c.qualOk then some (.vcadd (vreg c.D) (vreg c.A) (vreg c.B) c.qual) else none
  | 1 => if c.C == 0 && c.xi.isEmpty && c.qualOk then some (.vcsub (vreg c.D) (vreg c.A) (vreg c.B) c.qual) else none
  | 2 => if c.C == 0 && c.xi.isEmpty && c.qualOk then some (.vcmul (vreg c.D) (vreg c.A) (vreg c.B) c.qual) else none
  | 3 => if c.C == 0 && c.xi.isEmpty && c.qualOk then some (.vcmulj (vreg c.D) (vreg c.A) (vreg c.B) c.qual) else none
  | 4 => if c.C == 0 && c.xi.isEmpty && c.qualOk then some (.vcmac (vreg c.D) (vreg c.A) (vreg c.B) c.qual) else none
  | 5 => if c.C == 0 && c.xi.isEmpty && c.qualOk then some (.vcmacj (vreg c.D) (vreg c.A) (vreg c.B) c.qual) else none
  | 6 => if c.B == 0 && c.C == 0 && c.xi.isEmpty && c.qualOk then some (.vconj (vreg c.D) (vreg c.A) c.qual) else none
  | 7 => if c.B < 4 && c.C == 0 && c.xi.isEmpty && c.qualOk then some (.vcrot (vreg c.D) (vreg c.A) (Fin.ofNat 4 c.B) c.qual) else none
  | 8 => if c.B == 0 && c.C == 0 && c.xi.isEmpty && c.qualOk then some (.vcabs2 (vreg c.D) (vreg c.A) c.qual) else none
  | 9 => if c.C == 0 && c.xi.isEmpty && c.qualOk then some (.vcscale (vreg c.D) (vreg c.A) (vreg c.B) c.qual) else none
  | 10 => if c.C == 0 && c.xi.isEmpty && c.qualOk then some (.vcdot (vreg c.D) (vreg c.A) (vreg c.B) c.qual) else none
  | 11 => if c.B == 0 && c.C == 0 && c.xi.isEmpty && c.qualOk then some (.vcreal (vreg c.D) (vreg c.A) c.qual) else none
  | 12 => if c.B == 0 && c.C == 0 && c.xi.isEmpty && c.qualOk then some (.vcswap (vreg c.D) (vreg c.A) c.qual) else none
  | 13 => if c.B == 0 && c.C == 0 && c.xi.isEmpty && c.qualOk then some (.vcmag (vreg c.D) (vreg c.A) c.qual) else none
  | 14 => if c.C == 0 && c.xi.isEmpty && c.qualOk then some (.vcmacs (vreg c.D) (vreg c.A) (vreg c.B) c.qual) else none
  | _ => none

/-- The majors of page 0x31 (R67): a major without a row is not assigned. -/
def selectPage31 (c : Chain) : Option Instr :=
  match c.major with
  | 0 => if c.xi.isEmpty && c.qualOk && c.xr then some (.vbfly2 (vreg c.D) (vreg c.A) (sreg c.B) (vreg c.C) c.qual) else none
  | 1 => if c.xi.isEmpty && c.qualOk && c.xr then some (.vbfly3 (vreg c.D) (vreg c.A) (sreg c.B) (vreg c.C) c.qual) else none
  | 2 => if c.xi.isEmpty && c.qualOk && c.xr then some (.vbfly4 (vreg c.D) (vreg c.A) (sreg c.B) (vreg c.C) c.qual) else none
  | 3 => if c.xi.isEmpty && c.qualOk && c.xr then some (.vbfly5 (vreg c.D) (vreg c.A) (sreg c.B) (vreg c.C) c.qual) else none
  | 4 => if c.C == 0 && c.xi.isEmpty && c.qualOk then some (.vtwid (vreg c.D) (sreg c.A) (sreg c.B) c.qual) else none
  | 5 => if c.C == 0 && c.xi.isEmpty && c.qualOk then some (.vdrev (vreg c.D) (vreg c.A) (sreg c.B) c.qual) else none
  | 6 => if c.C == 0 && c.xi.isEmpty && c.qualOk then some (.vtrans (vreg c.D) (vreg c.A) (sreg c.B) c.qual) else none
  | _ => none

/-- The majors of page 0x32 (R67): a major without a row is not assigned. -/
def selectPage32 (c : Chain) : Option Instr :=
  match c.major with
  | 0 => if c.C == 0 && c.xi.isEmpty && c.qualOk then some (.vmgmul (vreg c.D) (vreg c.A) (vreg c.B) c.qual) else none
  | 1 => if c.C == 0 && c.xi.isEmpty && c.qualOk then some (.vmgmulh (vreg c.D) (vreg c.A) (vreg c.B) c.qual) else none
  | 2 => if c.C == 0 && c.xi.isEmpty && c.qualOk then some (.vmgmv (vreg c.D) (vreg c.A) (vreg c.B) c.qual) else none
  | 3 => if c.B == 0 && c.C == 0 && c.xi.isEmpty && c.qualOk then some (.vhchol (vreg c.D) (vreg c.A) c.qual) else none
  | 4 => if c.B == 0 && c.C == 0 && c.xi.isEmpty && c.qualOk then some (.vhinv (vreg c.D) (vreg c.A) c.qual) else none
  | 5 => if c.B < 4 && c.C == 0 && c.xi.isEmpty && c.qualOk then some (.vschur (vreg c.D) (vreg c.A) (Fin.ofNat 4 c.B) c.qual) else none
  | 6 => if c.C < 4 && c.xi.isEmpty && c.qualOk && c.xr then some (.vschurv (vreg c.D) (vreg c.A) (vreg c.B) (Fin.ofNat 4 c.C) c.qual) else none
  | 7 => if c.C == 0 && c.xi.isEmpty && c.qualOk then some (.vhsolve (vreg c.D) (vreg c.A) (vreg c.B) c.qual) else none
  | 8 => if c.B == 0 && c.C == 0 && c.xi.isEmpty && c.qualOk then some (.vmgtr (vreg c.D) (vreg c.A) c.qual) else none
  | 9 => if c.C == 0 && c.xi.isEmpty && c.qualOk then some (.vhreg (vreg c.D) (vreg c.A) (sreg c.B) c.qual) else none
  | _ => none

/-- The majors of page 0x40 (R67): a major without a row is not assigned. -/
def selectPage40 (c : Chain) : Option Instr :=
  match c.major with
  | 0 => if c.D < 16 && c.B == 0 && c.C == 0 && c.xi.isEmpty && c.xq.isNone then some (.mxcfg (Fin.ofNat 16 c.D) (sreg c.A)) else none
  | 1 => if c.D < 4 && c.C == 0 && c.xi.isEmpty && c.xq.isNone then some (.mma (zreg c.D) (sreg c.A) (sreg c.B)) else none
  | 2 => if c.D < 4 && c.C == 0 && c.xi.isEmpty && c.xq.isNone then some (.mmaz (zreg c.D) (sreg c.A) (sreg c.B)) else none
  | 3 => if c.D < 4 && c.A == 0 && c.B == 0 && c.C == 0 && c.xi.isEmpty && c.xq.isNone then some (.mxzero (zreg c.D)) else none
  | 4 => if c.D < 4 && c.C == 0 && c.xi.isEmpty && c.xq.isNone then some (.mxst (zreg c.D) (sreg c.A) (sreg c.B)) else none
  | 5 => if c.D < 4 && c.C == 0 && c.xi.isEmpty && c.xq.isNone then some (.mxld (zreg c.D) (sreg c.A) (sreg c.B)) else none
  | 6 => if c.D < 2 && c.B == 0 && c.C == 0 && c.xi.isEmpty && c.xq.isNone then some (.mxldcb (Fin.ofNat 2 c.D) (sreg c.A)) else none
  | 7 => if c.A < 4 && c.C == 0 && c.xi.isEmpty && c.qualOk then some (.vmovz (vreg c.D) (zreg c.A) (sreg c.B) c.qual) else none
  | 8 => if c.D < 4 && c.C == 0 && c.xi.isEmpty && c.qualOk then some (.vmovtoz (zreg c.D) (vreg c.A) (sreg c.B) c.qual) else none
  | 9 => if c.D == 0 && c.B == 0 && c.C == 0 && c.xi.isEmpty && c.xq.isNone then some (.mxpark (sreg c.A)) else none
  | 10 => if c.D == 0 && c.B == 0 && c.C == 0 && c.xi.isEmpty && c.xq.isNone then some (.mxunpark (sreg c.A)) else none
  | 11 => if c.D == 0 && c.C == 0 && c.xi.isEmpty && c.xq.isNone then some (.mxscale (sreg c.A) (sreg c.B)) else none
  | 12 => if c.D == 0 && c.B == 0 && c.C == 0 && c.xi.isEmpty && c.xq.isNone then some (.mxshare (sreg c.A)) else none
  | 13 => if c.B < 9 && c.A == 0 && c.C == 0 && c.xi.isEmpty && c.xq.isNone then some (.mxstat (sreg c.D) (Fin.ofNat 9 c.B)) else none
  | _ => none

/-- The majors of page 0x48 (R67): a major without a row is not assigned. -/
def selectPage48 (c : Chain) : Option Instr :=
  match c.major with
  | 0 => if c.A % 2 == 0 && c.C == 0 && c.xi.isEmpty && c.xq.isNone then some (.gsend (sreg c.D) (vreg c.A) (sreg c.B)) else none
  | 1 => if c.A % 2 == 0 && c.B != 0 && c.C == 0 && c.xi.isEmpty && c.xq.isNone then some (.gsendc (sreg c.D) (vreg c.A) (sreg c.B)) else none
  | 2 => if c.D % 2 == 0 && c.C == 0 && c.xi.isEmpty && c.xq.isNone then some (.gld (vreg c.D) (sreg c.A) (sreg c.B)) else none
  | 3 => if c.D % 2 == 0 && c.B == 0 && c.C == 0 && c.xi.isEmpty && c.xq.isNone then some (.gsum (vreg c.D) (sreg c.A)) else none
  | 4 => if c.D % 2 == 0 && c.B == 0 && c.C == 0 && c.xi.isEmpty && c.xq.isNone then some (.gsumx (vreg c.D) (sreg c.A)) else none
  | 5 => if c.D % 2 == 0 && c.A % 2 == 0 && c.C == 0 && c.xi.isEmpty && c.xq.isNone then some (.gdamp (vreg c.D) (vreg c.A) (sreg c.B)) else none
  | 6 => if c.D < 16 && c.B == 0 && c.C == 0 && c.xi.isEmpty && c.xq.isNone then some (.gcfg (Fin.ofNat 16 c.D) (sreg c.A)) else none
  | 7 => if c.D % 2 == 0 && c.A % 2 == 0 && c.C == 0 && c.xi.isEmpty && c.xq.isNone then some (.gmarg (vreg c.D) (vreg c.A) (sreg c.B)) else none
  | 8 => if c.D % 2 == 0 && c.A % 2 == 0 && c.C == 0 && c.xi.isEmpty && c.xq.isNone then some (.gembed (vreg c.D) (vreg c.A) (sreg c.B)) else none
  | 9 => if c.D % 2 == 0 && c.A % 2 == 0 && c.B == 0 && c.C == 0 && c.xi.isEmpty && c.xq.isNone then some (.gmean (vreg c.D) (vreg c.A)) else none
  | 10 => if c.B < 16 && c.A == 0 && c.C == 0 && c.xi.isEmpty && c.xq.isNone && gstatSelOk (Fin.ofNat 16 c.B) then some (.gstat (sreg c.D) (Fin.ofNat 16 c.B)) else none
  | _ => none

/-- The majors of page 0x50 (R67): a major without a row is not assigned. -/
def selectPage50 (c : Chain) : Option Instr :=
  match c.major with
  | 0 => if c.B < 16 && c.C == 0 && c.xq.isNone then some (.lb (sreg c.D) (sreg c.A) (c.immUnsigned 4 c.B)) else none
  | 1 => if c.B < 16 && c.C == 0 && c.xq.isNone then some (.lbn (sreg c.D) (sreg c.A) (c.immUnsigned 4 c.B)) else none
  | 2 => if c.B < 16 && c.C == 0 && c.xq.isNone then some (.lh (sreg c.D) (sreg c.A) (c.immUnsigned 4 c.B)) else none
  | 3 => if c.B < 16 && c.C == 0 && c.xq.isNone then some (.lhn (sreg c.D) (sreg c.A) (c.immUnsigned 4 c.B)) else none
  | 4 => if c.B < 16 && c.C == 0 && c.xq.isNone then some (.lw (sreg c.D) (sreg c.A) (c.immUnsigned 4 c.B)) else none
  | 5 => if c.B < 16 && c.C == 0 && c.xq.isNone then some (.lwn (sreg c.D) (sreg c.A) (c.immUnsigned 4 c.B)) else none
  | 6 => if c.B < 16 && c.C == 0 && c.xq.isNone then some (.sb (sreg c.D) (sreg c.A) (c.immUnsigned 4 c.B)) else none
  | 7 => if c.B < 16 && c.C == 0 && c.xq.isNone then some (.sh (sreg c.D) (sreg c.A) (c.immUnsigned 4 c.B)) else none
  | 8 => if c.B < 16 && c.C == 0 && c.xq.isNone then some (.sw (sreg c.D) (sreg c.A) (c.immUnsigned 4 c.B)) else none
  | 9 => if c.C == 0 && c.xi.isEmpty && c.xq.isNone then some (.ldx (sreg c.D) (sreg c.A) (sreg c.B)) else none
  | 10 => if c.C == 0 && c.xi.isEmpty && c.xq.isNone then some (.stx (sreg c.D) (sreg c.A) (sreg c.B)) else none
  | 11 => if c.D < 3 && c.B < 16 && c.C == 0 && c.xq.isNone then some (.pref (Fin.ofNat 3 c.D) (sreg c.A) (c.immUnsigned 4 c.B)) else none
  | 12 => if c.D == 0 && c.B == 0 && c.C == 0 && c.xi.isEmpty && c.xq.isNone then some (.cflush (sreg c.A)) else none
  | 13 => if c.D == 0 && c.B == 0 && c.C == 0 && c.xi.isEmpty && c.xq.isNone then some (.cinv (sreg c.A)) else none
  | _ => none

/-- The majors of page 0x51 (R67, R212): a major without a row is not assigned. -/
def selectPage51 (c : Chain) : Option Instr :=
  match c.major with
  | 0 => if c.C == 0 && c.xi.isEmpty && c.amoOk then some (.amoadd (sreg c.D) (sreg c.A) (sreg c.B) c.amoW32) else none
  | 1 => if c.C == 0 && c.xi.isEmpty && c.amoOk then some (.amoand (sreg c.D) (sreg c.A) (sreg c.B) c.amoW32) else none
  | 2 => if c.C == 0 && c.xi.isEmpty && c.amoOk then some (.amoor (sreg c.D) (sreg c.A) (sreg c.B) c.amoW32) else none
  | 3 => if c.C == 0 && c.xi.isEmpty && c.amoOk then some (.amoxor (sreg c.D) (sreg c.A) (sreg c.B) c.amoW32) else none
  | 4 => if c.C == 0 && c.xi.isEmpty && c.amoOk then some (.amomin (sreg c.D) (sreg c.A) (sreg c.B) c.amoW32) else none
  | 5 => if c.C == 0 && c.xi.isEmpty && c.amoOk then some (.amomax (sreg c.D) (sreg c.A) (sreg c.B) c.amoW32) else none
  | 6 => if c.C == 0 && c.xi.isEmpty && c.amoOk then some (.amominn (sreg c.D) (sreg c.A) (sreg c.B) c.amoW32) else none
  | 7 => if c.C == 0 && c.xi.isEmpty && c.amoOk then some (.amomaxn (sreg c.D) (sreg c.A) (sreg c.B) c.amoW32) else none
  | 8 => if c.C == 0 && c.xi.isEmpty && c.amoOk then some (.amoswp (sreg c.D) (sreg c.A) (sreg c.B) c.amoW32) else none
  | 9 => if c.xi.isEmpty && c.amoOk && c.xr then some (.amocas (sreg c.D) (sreg c.A) (sreg c.B) (sreg c.C) c.amoW32) else none
  | 10 => if c.B == 0 && c.C == 0 && c.xi.isEmpty && c.xq.isNone then some (.ldaq (sreg c.D) (sreg c.A)) else none
  | 11 => if c.B == 0 && c.C == 0 && c.xi.isEmpty && c.xq.isNone then some (.strl (sreg c.D) (sreg c.A)) else none
  | 12 => if c.D < 16 && c.A < 16 && c.B < 5 && c.C == 0 && c.xi.isEmpty && c.xq.isNone then some (.fence (Fin.ofNat 16 c.D) (Fin.ofNat 16 c.A) (Fin.ofNat 5 c.B)) else none
  | _ => none

/-- The majors of page 0x52 (R67): a major without a row is not assigned. -/
def selectPage52 (c : Chain) : Option Instr :=
  match c.major with
  | 0 => if c.B == 0 && c.C == 0 && c.xi.isEmpty && c.qualOk then some (.vld (vreg c.D) (sreg c.A) c.qual) else none
  | 1 => if c.B == 0 && c.C == 0 && c.xi.isEmpty && c.qualOk then some (.vst (vreg c.D) (sreg c.A) c.qual) else none
  | 2 => if c.C == 0 && c.xi.isEmpty && c.qualOk then some (.vlds (vreg c.D) (sreg c.A) (sreg c.B) c.qual) else none
  | 3 => if c.C == 0 && c.xi.isEmpty && c.qualOk then some (.vsts (vreg c.D) (sreg c.A) (sreg c.B) c.qual) else none
  | 4 => if c.C < 7 && c.xi.isEmpty && c.qualOk then some (.vldx (vreg c.D) (sreg c.A) (vreg c.B) (Fin.ofNat 7 c.C) c.qual) else none
  | 5 => if c.C < 7 && c.xi.isEmpty && c.qualOk then some (.vstx (vreg c.D) (sreg c.A) (vreg c.B) (Fin.ofNat 7 c.C) c.qual) else none
  | 6 => if c.B == 0 && c.C == 0 && c.xi.isEmpty && c.qualOk then some (.vldb (vreg c.D) (sreg c.A) c.qual) else none
  | 7 => if c.C < 7 && c.xi.isEmpty && c.qualOk then some (.vamoadd (vreg c.D) (sreg c.A) (vreg c.B) (Fin.ofNat 7 c.C) c.qual) else none
  | 8 => if c.B == 0 && c.C == 0 && c.xi.isEmpty && c.qualOk then some (.vldff (vreg c.D) (sreg c.A) c.qual) else none
  | _ => none

/-- The majors of page 0x60 (R67): a major without a row is not assigned. -/
def selectPage60 (c : Chain) : Option Instr :=
  match c.major with
  | 0 => if c.xi.isEmpty && c.foOk && c.xr then some (.scopy (sreg c.D) (sreg c.A) (sreg c.B) (sreg c.C) c.qual.fo) else none
  | 1 => if c.D < 8 && c.B == 0 && c.C == 0 && c.xi.isEmpty && c.xq.isNone then some (.spat (Fin.ofNat 8 c.D) (sreg c.A)) else none
  | 2 => if c.D < 8 && c.C == 0 && c.xi.isEmpty && c.xq.isNone then some (.sstrm (Fin.ofNat 8 c.D) (sreg c.A) (sreg c.B)) else none
  | 3 => if c.D == 0 && c.C == 0 && c.xi.isEmpty && c.xq.isNone then some (.swaitm (sreg c.A) (sreg c.B)) else none
  | 4 => if c.C == 0 && c.xi.isEmpty && c.xq.isNone then some (.stestm (sreg c.D) (sreg c.A) (sreg c.B)) else none
  | 5 => if c.D == 0 && c.C == 0 && c.xi.isEmpty && c.xq.isNone then some (.sclrm (sreg c.A) (sreg c.B)) else none
  | 6 => if c.B == 0 && c.C == 0 && c.xi.isEmpty && c.xq.isNone then some (.flpop (sreg c.D) (sreg c.A)) else none
  | 7 => if c.D == 0 && c.C == 0 && c.xi.isEmpty && c.xq.isNone then some (.flrel (sreg c.A) (sreg c.B)) else none
  | 8 => if c.B == 0 && c.C == 0 && c.xi.isEmpty && c.xq.isNone then some (.flpush (sreg c.D) (sreg c.A)) else none
  | 9 => if c.D == 0 && c.C == 0 && c.xi.isEmpty && c.xq.isNone then some (.fldone (sreg c.A) (sreg c.B)) else none
  | 10 => if c.B == 0 && c.C == 0 && c.xi.isEmpty && c.xq.isNone then some (.ecmd (sreg c.D) (sreg c.A)) else none
  | 11 => if c.B == 0 && c.C == 0 && c.xi.isEmpty && c.xq.isNone then some (.ecancel (sreg c.D) (sreg c.A)) else none
  | 12 => if c.B < 7 && c.C == 0 && c.xi.isEmpty && c.xq.isNone then some (.estat (sreg c.D) (sreg c.A) (Fin.ofNat 7 c.B)) else none
  | _ => none

/-- The majors of page 0x68 (R67, R291): a major without a row is not assigned. -/
def selectPage68 (c : Chain) : Option Instr :=
  match c.major with
  | 0 => if c.B == 0 && c.C == 0 && c.xi.isEmpty && c.xq.isNone then some (.spawn (sreg c.D) (sreg c.A)) else none
  | 1 => if c.D == 0 && c.A == 0 && c.B == 0 && c.C == 0 && c.xi.isEmpty && c.xq.isNone then some (.jend) else none
  | 2 => if c.A == 0 && c.B == 0 && c.C == 0 && c.xi.isEmpty && c.xq.isNone then some (.jdead (sreg c.D)) else none
  | 3 => if c.B == 0 && c.C == 0 && c.xi.isEmpty && c.xq.isNone then some (.jtight (sreg c.D) (sreg c.A)) else none
  | 4 => if c.B < 6 && c.C == 0 && c.xi.isEmpty && c.xq.isNone then some (.jwid (sreg c.D) (sreg c.A) (Fin.ofNat 6 c.B)) else none
  | 5 => if c.A == 0 && c.B == 0 && c.C == 0 && c.xi.isEmpty && c.xq.isNone then some (.jself (sreg c.D)) else none
  | 6 => if c.B == 0 && c.C == 0 && c.xi.isEmpty && c.xq.isNone then some (.jabort (sreg c.D) (sreg c.A)) else none
  | 7 => if c.B < 8 && c.A == 0 && c.C == 0 && c.xi.isEmpty && c.xq.isNone then some (.jinfo (sreg c.D) (Fin.ofNat 8 c.B)) else none
  | _ => none

/-- The majors of page 0x70 (R67): a major without a row is not assigned. -/
noncomputable def selectPage70 (c : Chain) : Option Instr :=
  match c.major with
  | 0 => if c.C < 9 && c.xi.isEmpty && c.xq.isNone && payloadOk (sreg c.B) (Fin.ofNat 9 c.C) then some (.msendrq (sreg c.D) (sreg c.A) (sreg c.B) (Fin.ofNat 9 c.C)) else none
  | 1 => if c.C < 9 && c.xi.isEmpty && c.xq.isNone && payloadOk (sreg c.B) (Fin.ofNat 9 c.C) then some (.msendrp (sreg c.D) (sreg c.A) (sreg c.B) (Fin.ofNat 9 c.C)) else none
  | 2 => if c.B < 2 && c.C == 0 && c.xi.isEmpty && c.xq.isNone then some (.mtag (sreg c.D) (sreg c.A) (Fin.ofNat 2 c.B)) else none
  | 3 => if c.D == 0 && c.B == 0 && c.C == 0 && c.xi.isEmpty && c.xq.isNone then some (.men (sreg c.A)) else none
  | 4 => if c.D == 0 && c.B == 0 && c.C == 0 && c.xi.isEmpty && c.xq.isNone then some (.mdis (sreg c.A)) else none
  | 5 => if c.A == 0 && c.B == 0 && c.C == 0 && c.xi.isEmpty && c.xq.isNone then some (.mpend (sreg c.D)) else none
  | 6 => if c.B == 0 && c.C == 0 && c.xi.isEmpty && c.xq.isNone then some (.mclr (sreg c.D) (sreg c.A)) else none
  | 7 => if c.xi.isEmpty && c.xq.isNone && c.xr then some (.warm (sreg c.D) (sreg c.A) (sreg c.B) (sreg c.C)) else none
  | 8 => if c.C == 0 && c.xi.isEmpty && c.xq.isNone then some (.wpost (sreg c.D) (sreg c.A) (sreg c.B)) else none
  | 9 => if c.D == 0 && c.C == 0 && c.xi.isEmpty && c.xq.isNone then some (.wsig (sreg c.A) (sreg c.B)) else none
  | 10 => if c.B == 0 && c.C == 0 && c.xi.isEmpty && c.xq.isNone then some (.wstat (sreg c.D) (sreg c.A)) else none
  | 11 => if c.C == 0 && c.xi.isEmpty && c.xq.isNone then some (.binit (sreg c.D) (sreg c.A) (sreg c.B)) else none
  | 12 => if c.D == 0 && c.B == 0 && c.C == 0 && c.xi.isEmpty && c.xq.isNone then some (.barrive (sreg c.A)) else none
  | 13 => if c.C == 0 && c.xi.isEmpty && c.xq.isNone then some (.bwait (sreg c.D) (sreg c.A) (sreg c.B)) else none
  | 14 => if c.B == 0 && c.C == 0 && c.xi.isEmpty && c.xq.isNone then some (.bsync (sreg c.D) (sreg c.A)) else none
  | _ => none

/-- The majors of page 0x71 (R67): a major without a row is not assigned. -/
noncomputable def selectPage71 (c : Chain) : Option Instr :=
  match c.major with
  | 0 => if c.C == 0 && c.xi.isEmpty && c.xq.isNone then some (.qopen (sreg c.D) (sreg c.A) (sreg c.B)) else none
  | 1 => if c.B == 0 && c.C == 0 && c.xi.isEmpty && c.xq.isNone then some (.qclose (sreg c.D) (sreg c.A)) else none
  | 2 => if c.B < 6 && c.C == 0 && c.xi.isEmpty && c.xq.isNone then some (.qstat (sreg c.D) (sreg c.A) (Fin.ofNat 6 c.B)) else none
  | _ => none

/-- The majors of page 0x78 (R67): a major without a row is not assigned. -/
noncomputable def selectPage78 (c : Chain) : Option Instr :=
  match c.major with
  | 0 => if c.A < 16 && c.B < 16 && c.xi.length ≤ 1 && c.D == 0 && c.C == 0 && c.xq.isNone then some (.trap (c.immUnsigned 8 (c.A * 16 + c.B))) else none
  | 1 =>
    match c.B with
    | 0 => if c.D == 0 && c.A == 0 && c.C == 0 && c.xi.isEmpty && c.xq.isNone then some (.tret) else none
    | 1 => if c.D == 0 && c.A == 0 && c.C == 0 && c.xi.isEmpty && c.xq.isNone then some (.tretSkip) else none
    | _ => none
  | 2 => if c.C == 0 && c.xi.isEmpty && c.xq.isNone then some (.svc (sreg c.D) (sreg c.A) (sreg c.B)) else none
  | 3 => if c.B < 7 && c.A == 0 && c.C == 0 && c.xi.isEmpty && c.xq.isNone then some (.gateinfo (sreg c.D) (Fin.ofNat 7 c.B)) else none
  | 4 => if c.B < 3 && c.C == 0 && c.xi.isEmpty && c.xq.isNone then some (.enmtr (sreg c.D) (sreg c.A) (Fin.ofNat 3 c.B)) else none
  | 5 =>
    match c.B with
    | 0 => if c.C == 0 && c.xi.isEmpty && c.xq.isNone then some (.pgateGate (sreg c.D) (sreg c.A)) else none
    | 1 => if c.C == 0 && c.xi.isEmpty && c.xq.isNone then some (.pgateUngate (sreg c.D) (sreg c.A)) else none
    | 2 => if c.C == 0 && c.xi.isEmpty && c.xq.isNone then some (.pgateQuery (sreg c.D) (sreg c.A)) else none
    | _ => none
  | 6 => if c.D == 0 && c.B == 0 && c.C == 0 && c.xi.isEmpty && c.xq.isNone then some (.halt (sreg c.A)) else none
  | 7 => if c.C == 0 && c.xi.isEmpty && c.xq.isNone then some (.ctxsave (sreg c.D) (sreg c.A) (sreg c.B)) else none
  | 8 => if c.C == 0 && c.xi.isEmpty && c.xq.isNone then some (.ctxload (sreg c.D) (sreg c.A) (sreg c.B)) else none
  | 9 => if c.D == 0 && c.C == 0 && c.xi.isEmpty && c.xq.isNone then some (.tlbinv (sreg c.A) (sreg c.B)) else none
  | 10 => if c.D == 0 && c.B == 0 && c.C == 0 && c.xi.isEmpty && c.xq.isNone then some (.idle (sreg c.A)) else none
  | 11 => if c.A < 16 && c.B < 16 && c.D == 0 && c.C == 0 && c.xi.isEmpty && c.xq.isNone then some (.brk (BitVec.ofNat 8 (c.A * 16 + c.B))) else none
  | 12 => if c.B == 0 && c.C == 0 && c.xi.isEmpty && c.xq.isNone then some (.rsvadd (sreg c.D) (sreg c.A)) else none
  | _ => none

/-- R66: the page chooses the table; every other page is unassigned.  Lean compiles to code no constructor with fields past
the 245th of a type, so a definition that builds those is marked noncomputable; Lean's kernel evaluates it as any other. -/
noncomputable def select (c : Chain) : Option Instr :=
  match c.page with
  | 0x00 => selectPage00 c
  | 0x01 => selectPage01 c
  | 0x02 => selectPage02 c
  | 0x03 => selectPage03 c
  | 0x10 => selectPage10 c
  | 0x11 => selectPage11 c
  | 0x12 => selectPage12 c
  | 0x13 => selectPage13 c
  | 0x14 => selectPage14 c
  | 0x30 => selectPage30 c
  | 0x31 => selectPage31 c
  | 0x32 => selectPage32 c
  | 0x40 => selectPage40 c
  | 0x48 => selectPage48 c
  | 0x50 => selectPage50 c
  | 0x51 => selectPage51 c
  | 0x52 => selectPage52 c
  | 0x60 => selectPage60 c
  | 0x68 => selectPage68 c
  | 0x70 => selectPage70 c
  | 0x71 => selectPage71 c
  | 0x78 => selectPage78 c
  | _ => none

/-- Why a chain is refused (R63): a fifth prefix word, an encoding that is not legal, or words that end before the base
word. -/
inductive DecodeError where
  | prefixChain
  | illegal
  | short
  deriving DecidableEq, Repr

/-- One prefix word added to the chain (R56, R57); the second of a kind, or a non-zero reserved bit, is not legal. -/
def Chain.addPrefix (c : Chain) (hasXp : Bool) (w : Nat) : Option (Chain × Bool) :=
  match bitsOf w 11 10 with
  | 0 => some ({ c with xi := c.xi ++ [bitsOf w 9 0] }, hasXp)
  | 1 => if c.xr || bitsOf w 1 0 != 0 then none else
      some ({ c with xr := true, D := 16 * bitsOf w 9 9, A := 16 * bitsOf w 8 8, B := 16 * bitsOf w 7 7, C := bitsOf w 6 2 }, hasXp)
  | 2 => if hasXp || bitsOf w 1 0 != 0 then none else some ({ c with page := bitsOf w 9 2 }, true)
  | _ => if c.xq.isSome then none else
      some ({ c with xq := some (bitsOf w 9 9 == 1, bitsOf w 8 5, bitsOf w 4 4 == 1, bitsOf w 3 0) }, hasXp)

/-- The base word ends the chain (R55). -/
def Chain.close (c : Chain) (w : Nat) : Chain :=
  { c with major := bitsOf w 15 12, D := c.D + bitsOf w 11 8, A := c.A + bitsOf w 7 4, B := c.B + bitsOf w 3 0 }

/-- Reads a chain: at most four prefix words and a base word.  legal turns false at the first prefix word that is not
legal, which is reported only when the chain ends before a fifth prefix (R63 steps 2 and 3). -/
def readChain (room : Nat) (legal hasXp : Bool) (c : Chain) (n : Nat) : List Nat → Except DecodeError (Chain × Nat)
  | [] => .error .short
  | w :: ws =>
    if bitsOf w 15 12 = 15 then
      match room with
      | 0 => .error .prefixChain
      | room + 1 =>
        match c.addPrefix hasXp w with
        | some (c', xp') => readChain room legal xp' c' (n + 1) ws
        | none => readChain room false hasXp c (n + 1) ws
    else if legal then .ok (c.close w, n + 1) else .error .illegal

/-- R54, R63: the instruction at the head of a list of halfwords, with the number of halfwords of its chain. -/
noncomputable def decode (ws : List Nat) : Except DecodeError (Instr × Nat) :=
  match readChain 4 true false {} 0 ws with
  | .error e => .error e
  | .ok (c, n) =>
    match select c with
    | some i => .ok (i, n)
    | none => .error .illegal

/-- The base bits of an immediate in a form with b base bits (R59). -/
def immBase (b : Nat) (v : Int) : Nat := (v % (2 ^ b : Nat)).toNat

/-- The n XI words of an immediate in a form with b base bits (R59). -/
def immWords (b n : Nat) (v : Int) : List Nat :=
  (List.range n).map fun k => ((v / (2 ^ (b + 10 * (n - 1 - k)) : Nat)) % 1024).toNat

/-- The fewest XI words, at least lo, that hold a signed immediate (R74). -/
def signedXi (b lo : Nat) (v : Int) : Nat :=
  if fitsSigned b lo 0 v then 0 else if fitsSigned b lo 1 v then 1 else if fitsSigned b lo 2 v then 2
  else if fitsSigned b lo 3 v then 3 else 4

/-- The fewest XI words that hold an unsigned immediate (R74). -/
def unsignedXi (b : Nat) (v : Nat) : Nat :=
  if fitsUnsigned b 0 v then 0 else if fitsUnsigned b 1 v then 1 else if fitsUnsigned b 2 v then 2
  else if fitsUnsigned b 3 v then 3 else 4

/-- R105: the assembler emits the XI of WAITC only when a limit is not 15. -/
def waitWords (mx en : Fin 16) : List Nat := if mx.val = 15 ∧ en.val = 15 then [] else [mx.val * 16 + en.val]

/-- R74: the XQ fields of a qualification, none when it qualifies nothing. -/
def Qual.toXq (q : Qual) : Option (Bool × Nat × Bool × Nat) :=
  match q.mask, q.fo with
  | none, none => none
  | none, some f => some (false, 0, false, f.code)
  | some (m, i), none => some (true, m.val, i, 15)
  | some (m, i), some f => some (true, m.val, i, f.code)

/-- R69: the XQ fields of a format override. -/
def foXq (fo : Option Fmt) : Option (Bool × Nat × Bool × Nat) := fo.map fun f => (false, 0, false, f.code)

/-- R213: the XQ fields of a 32-bit atomic. -/
def amoXq (w32 : Bool) : Option (Bool × Nat × Bool × Nat) := if w32 then some (false, 0, false, 2) else none


/-- The chain of an instruction in the assembler's canonical form (R74); events have none. -/
def toChain (i : Instr) : Option Chain :=
  match i with
  | .add d a b => some { page := 0x00, major := 0, D := d.val, A := a.val, B := b.val, xr := (decide (16 ≤ d.val) || decide (16 ≤ a.val) || decide (16 ≤ b.val)) }
  | .sub d a b => some { page := 0x00, major := 1, D := d.val, A := a.val, B := b.val, xr := (decide (16 ≤ d.val) || decide (16 ≤ a.val) || decide (16 ≤ b.val)) }
  | .and d a b => some { page := 0x00, major := 2, D := d.val, A := a.val, B := b.val, xr := (decide (16 ≤ d.val) || decide (16 ≤ a.val) || decide (16 ≤ b.val)) }
  | .or d a b => some { page := 0x00, major := 3, D := d.val, A := a.val, B := b.val, xr := (decide (16 ≤ d.val) || decide (16 ≤ a.val) || decide (16 ≤ b.val)) }
  | .xor d a b => some { page := 0x00, major := 4, D := d.val, A := a.val, B := b.val, xr := (decide (16 ≤ d.val) || decide (16 ≤ a.val) || decide (16 ≤ b.val)) }
  | .sll d a b => some { page := 0x00, major := 5, D := d.val, A := a.val, B := b.val, xr := (decide (16 ≤ d.val) || decide (16 ≤ a.val) || decide (16 ≤ b.val)) }
  | .addi d a imm => some { page := 0x00, major := 6, D := d.val, A := a.val, B := immBase 4 imm, xi := immWords 4 (signedXi 4 0 imm) imm, xr := (decide (16 ≤ d.val) || decide (16 ≤ a.val)) }
  | .li d imm => some { page := 0x00, major := 7, D := d.val, A := immBase 8 imm / 16, B := immBase 8 imm % 16, xi := immWords 8 (signedXi 8 0 imm) imm, xr := (decide (16 ≤ d.val)) }
  | .ldd d a imm => some { page := 0x00, major := 8, D := d.val, A := a.val, B := immBase 4 imm, xi := immWords 4 (unsignedXi 4 imm) imm, xr := (decide (16 ≤ d.val) || decide (16 ≤ a.val)) }
  | .std d a imm => some { page := 0x00, major := 9, D := d.val, A := a.val, B := immBase 4 imm, xi := immWords 4 (unsignedXi 4 imm) imm, xr := (decide (16 ≤ d.val) || decide (16 ≤ a.val)) }
  | .beqz d off => some { page := 0x00, major := 10, D := d.val, A := immBase 8 off / 16, B := immBase 8 off % 16, xi := immWords 8 (signedXi 8 0 off) off, xr := (decide (16 ≤ d.val)) }
  | .bnez d off => some { page := 0x00, major := 11, D := d.val, A := immBase 8 off / 16, B := immBase 8 off % 16, xi := immWords 8 (signedXi 8 0 off) off, xr := (decide (16 ≤ d.val)) }
  | .jal d off => some { page := 0x00, major := 12, D := d.val, A := immBase 8 off / 16, B := immBase 8 off % 16, xi := immWords 8 (signedXi 8 0 off) off, xr := (decide (16 ≤ d.val)) }
  | .mov d a => some { page := 0x00, major := 13, B := 0, D := d.val, A := a.val, xr := (decide (16 ≤ d.val) || decide (16 ≤ a.val)) }
  | .jalr d a => some { page := 0x00, major := 13, B := 1, D := d.val, A := a.val, xr := (decide (16 ≤ d.val) || decide (16 ≤ a.val)) }
  | .not d a => some { page := 0x00, major := 13, B := 2, D := d.val, A := a.val, xr := (decide (16 ≤ d.val) || decide (16 ≤ a.val)) }
  | .neg d a => some { page := 0x00, major := 13, B := 3, D := d.val, A := a.val, xr := (decide (16 ≤ d.val) || decide (16 ≤ a.val)) }
  | .setvl d a fmt => some { page := 0x00, major := 14, D := d.val, A := a.val, B := fmt.code, xr := (decide (16 ≤ d.val) || decide (16 ≤ a.val)) }
  | .srl d a b => some { page := 0x01, major := 0, D := d.val, A := a.val, B := b.val, xr := (decide (16 ≤ d.val) || decide (16 ≤ a.val) || decide (16 ≤ b.val)) }
  | .sra d a b => some { page := 0x01, major := 1, D := d.val, A := a.val, B := b.val, xr := (decide (16 ≤ d.val) || decide (16 ≤ a.val) || decide (16 ≤ b.val)) }
  | .slli d a amt => some { page := 0x01, major := 2, D := d.val, A := a.val, B := immBase 4 amt, xi := immWords 4 (unsignedXi 4 amt) amt, xr := (decide (16 ≤ d.val) || decide (16 ≤ a.val)) }
  | .srli d a amt => some { page := 0x01, major := 3, D := d.val, A := a.val, B := immBase 4 amt, xi := immWords 4 (unsignedXi 4 amt) amt, xr := (decide (16 ≤ d.val) || decide (16 ≤ a.val)) }
  | .srai d a amt => some { page := 0x01, major := 4, D := d.val, A := a.val, B := immBase 4 amt, xi := immWords 4 (unsignedXi 4 amt) amt, xr := (decide (16 ≤ d.val) || decide (16 ≤ a.val)) }
  | .mul d a b => some { page := 0x01, major := 5, D := d.val, A := a.val, B := b.val, xr := (decide (16 ≤ d.val) || decide (16 ≤ a.val) || decide (16 ≤ b.val)) }
  | .mulh d a b => some { page := 0x01, major := 6, D := d.val, A := a.val, B := b.val, xr := (decide (16 ≤ d.val) || decide (16 ≤ a.val) || decide (16 ≤ b.val)) }
  | .mulhn d a b => some { page := 0x01, major := 7, D := d.val, A := a.val, B := b.val, xr := (decide (16 ≤ d.val) || decide (16 ≤ a.val) || decide (16 ≤ b.val)) }
  | .div d a b => some { page := 0x01, major := 8, D := d.val, A := a.val, B := b.val, xr := (decide (16 ≤ d.val) || decide (16 ≤ a.val) || decide (16 ≤ b.val)) }
  | .divn d a b => some { page := 0x01, major := 9, D := d.val, A := a.val, B := b.val, xr := (decide (16 ≤ d.val) || decide (16 ≤ a.val) || decide (16 ≤ b.val)) }
  | .rem d a b => some { page := 0x01, major := 10, D := d.val, A := a.val, B := b.val, xr := (decide (16 ≤ d.val) || decide (16 ≤ a.val) || decide (16 ≤ b.val)) }
  | .remn d a b => some { page := 0x01, major := 11, D := d.val, A := a.val, B := b.val, xr := (decide (16 ≤ d.val) || decide (16 ≤ a.val) || decide (16 ≤ b.val)) }
  | .slt d a b => some { page := 0x01, major := 12, D := d.val, A := a.val, B := b.val, xr := (decide (16 ≤ d.val) || decide (16 ≤ a.val) || decide (16 ≤ b.val)) }
  | .sltn d a b => some { page := 0x01, major := 13, D := d.val, A := a.val, B := b.val, xr := (decide (16 ≤ d.val) || decide (16 ≤ a.val) || decide (16 ≤ b.val)) }
  | .andi d a imm => some { page := 0x01, major := 14, D := d.val, A := a.val, B := immBase 4 imm, xi := immWords 4 (signedXi 4 0 imm) imm, xr := (decide (16 ≤ d.val) || decide (16 ≤ a.val)) }
  | .ori d a imm => some { page := 0x02, major := 0, D := d.val, A := a.val, B := immBase 4 imm, xi := immWords 4 (signedXi 4 0 imm) imm, xr := (decide (16 ≤ d.val) || decide (16 ≤ a.val)) }
  | .xori d a imm => some { page := 0x02, major := 1, D := d.val, A := a.val, B := immBase 4 imm, xi := immWords 4 (signedXi 4 0 imm) imm, xr := (decide (16 ≤ d.val) || decide (16 ≤ a.val)) }
  | .min d a b => some { page := 0x02, major := 2, D := d.val, A := a.val, B := b.val, xr := (decide (16 ≤ d.val) || decide (16 ≤ a.val) || decide (16 ≤ b.val)) }
  | .max d a b => some { page := 0x02, major := 3, D := d.val, A := a.val, B := b.val, xr := (decide (16 ≤ d.val) || decide (16 ≤ a.val) || decide (16 ≤ b.val)) }
  | .minn d a b => some { page := 0x02, major := 4, D := d.val, A := a.val, B := b.val, xr := (decide (16 ≤ d.val) || decide (16 ≤ a.val) || decide (16 ≤ b.val)) }
  | .maxn d a b => some { page := 0x02, major := 5, D := d.val, A := a.val, B := b.val, xr := (decide (16 ≤ d.val) || decide (16 ≤ a.val) || decide (16 ≤ b.val)) }
  | .clz d a => some { page := 0x02, major := 6, D := d.val, A := a.val, xr := (decide (16 ≤ d.val) || decide (16 ≤ a.val)) }
  | .ctz d a => some { page := 0x02, major := 7, D := d.val, A := a.val, xr := (decide (16 ≤ d.val) || decide (16 ≤ a.val)) }
  | .popc d a => some { page := 0x02, major := 8, D := d.val, A := a.val, xr := (decide (16 ≤ d.val) || decide (16 ≤ a.val)) }
  | .sext d a w => some { page := 0x02, major := 9, D := d.val, A := a.val, B := w.val, xr := (decide (16 ≤ d.val) || decide (16 ≤ a.val)) }
  | .zext d a w => some { page := 0x02, major := 10, D := d.val, A := a.val, B := w.val, xr := (decide (16 ≤ d.val) || decide (16 ≤ a.val)) }
  | .lih d a imm => some { page := 0x02, major := 11, D := d.val, A := a.val, B := immBase 4 imm, xi := immWords 4 2 imm, xr := (decide (16 ≤ d.val) || decide (16 ≤ a.val)) }
  | .addpc d off => some { page := 0x02, major := 12, D := d.val, A := immBase 8 off / 16, B := immBase 8 off % 16, xi := immWords 8 (signedXi 8 0 off) off, xr := (decide (16 ≤ d.val)) }
  | .addsl d a b c => some { page := 0x02, major := 13, D := d.val, A := a.val, B := b.val, C := c.val, xr := true }
  | .select d a b c => some { page := 0x02, major := 14, D := d.val, A := a.val, B := b.val, C := c.val, xr := true }
  | .beq d a off => some { page := 0x03, major := 0, D := d.val, A := a.val, B := immBase 4 off, xi := immWords 4 (signedXi 4 0 off) off, xr := (decide (16 ≤ d.val) || decide (16 ≤ a.val)) }
  | .bne d a off => some { page := 0x03, major := 1, D := d.val, A := a.val, B := immBase 4 off, xi := immWords 4 (signedXi 4 0 off) off, xr := (decide (16 ≤ d.val) || decide (16 ≤ a.val)) }
  | .blt d a off => some { page := 0x03, major := 2, D := d.val, A := a.val, B := immBase 4 off, xi := immWords 4 (signedXi 4 0 off) off, xr := (decide (16 ≤ d.val) || decide (16 ≤ a.val)) }
  | .bge d a off => some { page := 0x03, major := 3, D := d.val, A := a.val, B := immBase 4 off, xi := immWords 4 (signedXi 4 0 off) off, xr := (decide (16 ≤ d.val) || decide (16 ≤ a.val)) }
  | .bltn d a off => some { page := 0x03, major := 4, D := d.val, A := a.val, B := immBase 4 off, xi := immWords 4 (signedXi 4 0 off) off, xr := (decide (16 ≤ d.val) || decide (16 ≤ a.val)) }
  | .bgen d a off => some { page := 0x03, major := 5, D := d.val, A := a.val, B := immBase 4 off, xi := immWords 4 (signedXi 4 0 off) off, xr := (decide (16 ≤ d.val) || decide (16 ≤ a.val)) }
  | .loopsm rc p np off => some { page := 0x03, major := 6, D := rc.val, A := p.val, B := np.val, xi := immWords 0 (signedXi 0 1 off) off, xr := (decide (16 ≤ rc.val) || decide (16 ≤ p.val)) }
  | .get d idx => some { page := 0x03, major := 7, D := d.val, A := idx.toNat / 16, B := idx.toNat % 16, xr := (decide (16 ≤ d.val)) }
  | .set a idx => some { page := 0x03, major := 8, D := a.val, A := idx.toNat / 16, B := idx.toNat % 16, xr := (decide (16 ≤ a.val)) }
  | .time d => some { page := 0x03, major := 9, D := d.val, xr := (decide (16 ≤ d.val)) }
  | .rdcnt d sel => some { page := 0x03, major := 10, D := d.val, B := sel.val, xr := (decide (16 ≤ d.val)) }
  | .waitc ld st cp mx en => some { page := 0x03, major := 11, D := ld.val, A := st.val, B := cp.val, xi := waitWords mx en }
  | .vadd vd va vb q => some { page := 0x10, major := 0, D := vd.val, A := va.val, B := vb.val, xq := q.toXq, xr := (decide (16 ≤ vd.val) || decide (16 ≤ va.val) || decide (16 ≤ vb.val)) }
  | .vsub vd va vb q => some { page := 0x10, major := 1, D := vd.val, A := va.val, B := vb.val, xq := q.toXq, xr := (decide (16 ≤ vd.val) || decide (16 ≤ va.val) || decide (16 ≤ vb.val)) }
  | .vmul vd va vb q => some { page := 0x10, major := 2, D := vd.val, A := va.val, B := vb.val, xq := q.toXq, xr := (decide (16 ≤ vd.val) || decide (16 ≤ va.val) || decide (16 ≤ vb.val)) }
  | .vmac vd va vb q => some { page := 0x10, major := 3, D := vd.val, A := va.val, B := vb.val, xq := q.toXq, xr := (decide (16 ≤ vd.val) || decide (16 ≤ va.val) || decide (16 ≤ vb.val)) }
  | .vmin vd va vb q => some { page := 0x10, major := 4, D := vd.val, A := va.val, B := vb.val, xq := q.toXq, xr := (decide (16 ≤ vd.val) || decide (16 ≤ va.val) || decide (16 ≤ vb.val)) }
  | .vmax vd va vb q => some { page := 0x10, major := 5, D := vd.val, A := va.val, B := vb.val, xq := q.toXq, xr := (decide (16 ≤ vd.val) || decide (16 ≤ va.val) || decide (16 ≤ vb.val)) }
  | .vminn vd va vb q => some { page := 0x10, major := 6, D := vd.val, A := va.val, B := vb.val, xq := q.toXq, xr := (decide (16 ≤ vd.val) || decide (16 ≤ va.val) || decide (16 ≤ vb.val)) }
  | .vmaxn vd va vb q => some { page := 0x10, major := 7, D := vd.val, A := va.val, B := vb.val, xq := q.toXq, xr := (decide (16 ≤ vd.val) || decide (16 ≤ va.val) || decide (16 ≤ vb.val)) }
  | .vand vd va vb q => some { page := 0x10, major := 8, D := vd.val, A := va.val, B := vb.val, xq := q.toXq, xr := (decide (16 ≤ vd.val) || decide (16 ≤ va.val) || decide (16 ≤ vb.val)) }
  | .vor vd va vb q => some { page := 0x10, major := 9, D := vd.val, A := va.val, B := vb.val, xq := q.toXq, xr := (decide (16 ≤ vd.val) || decide (16 ≤ va.val) || decide (16 ≤ vb.val)) }
  | .vxor vd va vb q => some { page := 0x10, major := 10, D := vd.val, A := va.val, B := vb.val, xq := q.toXq, xr := (decide (16 ≤ vd.val) || decide (16 ≤ va.val) || decide (16 ≤ vb.val)) }
  | .vsll vd va vb q => some { page := 0x10, major := 11, D := vd.val, A := va.val, B := vb.val, xq := q.toXq, xr := (decide (16 ≤ vd.val) || decide (16 ≤ va.val) || decide (16 ≤ vb.val)) }
  | .vsrl vd va vb q => some { page := 0x10, major := 12, D := vd.val, A := va.val, B := vb.val, xq := q.toXq, xr := (decide (16 ≤ vd.val) || decide (16 ≤ va.val) || decide (16 ≤ vb.val)) }
  | .vsra vd va vb q => some { page := 0x10, major := 13, D := vd.val, A := va.val, B := vb.val, xq := q.toXq, xr := (decide (16 ≤ vd.val) || decide (16 ≤ va.val) || decide (16 ≤ vb.val)) }
  | .vdiv vd va vb q => some { page := 0x10, major := 14, D := vd.val, A := va.val, B := vb.val, xq := q.toXq, xr := (decide (16 ≤ vd.val) || decide (16 ≤ va.val) || decide (16 ≤ vb.val)) }
  | .vdivn vd va vb q => some { page := 0x11, major := 0, D := vd.val, A := va.val, B := vb.val, xq := q.toXq, xr := (decide (16 ≤ vd.val) || decide (16 ≤ va.val) || decide (16 ≤ vb.val)) }
  | .vrem vd va vb q => some { page := 0x11, major := 1, D := vd.val, A := va.val, B := vb.val, xq := q.toXq, xr := (decide (16 ≤ vd.val) || decide (16 ≤ va.val) || decide (16 ≤ vb.val)) }
  | .vremn vd va vb q => some { page := 0x11, major := 2, D := vd.val, A := va.val, B := vb.val, xq := q.toXq, xr := (decide (16 ≤ vd.val) || decide (16 ≤ va.val) || decide (16 ≤ vb.val)) }
  | .vadds vd va vb q => some { page := 0x11, major := 3, D := vd.val, A := va.val, B := vb.val, xq := q.toXq, xr := (decide (16 ≤ vd.val) || decide (16 ≤ va.val) || decide (16 ≤ vb.val)) }
  | .vsubs vd va vb q => some { page := 0x11, major := 4, D := vd.val, A := va.val, B := vb.val, xq := q.toXq, xr := (decide (16 ≤ vd.val) || decide (16 ≤ va.val) || decide (16 ≤ vb.val)) }
  | .vmulhq vd va vb q => some { page := 0x11, major := 5, D := vd.val, A := va.val, B := vb.val, xq := q.toXq, xr := (decide (16 ≤ vd.val) || decide (16 ≤ va.val) || decide (16 ≤ vb.val)) }
  | .vabs vd va q => some { page := 0x11, major := 6, D := vd.val, A := va.val, xq := q.toXq, xr := (decide (16 ≤ vd.val) || decide (16 ≤ va.val)) }
  | .vneg vd va q => some { page := 0x11, major := 7, D := vd.val, A := va.val, xq := q.toXq, xr := (decide (16 ≤ vd.val) || decide (16 ≤ va.val)) }
  | .vrcp vd va q => some { page := 0x11, major := 8, D := vd.val, A := va.val, xq := q.toXq, xr := (decide (16 ≤ vd.val) || decide (16 ≤ va.val)) }
  | .vrsqrt vd va q => some { page := 0x11, major := 9, D := vd.val, A := va.val, xq := q.toXq, xr := (decide (16 ≤ vd.val) || decide (16 ≤ va.val)) }
  | .vexp2 vd va q => some { page := 0x11, major := 10, D := vd.val, A := va.val, xq := q.toXq, xr := (decide (16 ≤ vd.val) || decide (16 ≤ va.val)) }
  | .vlog2 vd va q => some { page := 0x11, major := 11, D := vd.val, A := va.val, xq := q.toXq, xr := (decide (16 ≤ vd.val) || decide (16 ≤ va.val)) }
  | .vsqrt vd va q => some { page := 0x11, major := 12, D := vd.val, A := va.val, xq := q.toXq, xr := (decide (16 ≤ vd.val) || decide (16 ≤ va.val)) }
  | .vclass vd va q => some { page := 0x11, major := 13, D := vd.val, A := va.val, xq := q.toXq, xr := (decide (16 ≤ vd.val) || decide (16 ≤ va.val)) }
  | .vscale vd va vb q => some { page := 0x11, major := 14, D := vd.val, A := va.val, B := vb.val, xq := q.toXq, xr := (decide (16 ≤ vd.val) || decide (16 ≤ va.val) || decide (16 ≤ vb.val)) }
  | .vceq md va vb q => some { page := 0x12, major := 0, D := md.val, A := va.val, B := vb.val, xq := q.toXq, xr := (decide (16 ≤ va.val) || decide (16 ≤ vb.val)) }
  | .vcne md va vb q => some { page := 0x12, major := 1, D := md.val, A := va.val, B := vb.val, xq := q.toXq, xr := (decide (16 ≤ va.val) || decide (16 ≤ vb.val)) }
  | .vclt md va vb q => some { page := 0x12, major := 2, D := md.val, A := va.val, B := vb.val, xq := q.toXq, xr := (decide (16 ≤ va.val) || decide (16 ≤ vb.val)) }
  | .vcle md va vb q => some { page := 0x12, major := 3, D := md.val, A := va.val, B := vb.val, xq := q.toXq, xr := (decide (16 ≤ va.val) || decide (16 ≤ vb.val)) }
  | .vcltn md va vb q => some { page := 0x12, major := 4, D := md.val, A := va.val, B := vb.val, xq := q.toXq, xr := (decide (16 ≤ va.val) || decide (16 ≤ vb.val)) }
  | .vclen md va vb q => some { page := 0x12, major := 5, D := md.val, A := va.val, B := vb.val, xq := q.toXq, xr := (decide (16 ≤ va.val) || decide (16 ≤ vb.val)) }
  | .vceqi md va imm q => some { page := 0x12, major := 6, D := md.val, A := va.val, B := immBase 4 imm, xi := immWords 4 (signedXi 4 0 imm) imm, xq := q.toXq, xr := (decide (16 ≤ va.val)) }
  | .vclti md va imm q => some { page := 0x12, major := 7, D := md.val, A := va.val, B := immBase 4 imm, xi := immWords 4 (signedXi 4 0 imm) imm, xq := q.toXq, xr := (decide (16 ≤ va.val)) }
  | .mand md ma mb => some { page := 0x12, major := 8, D := md.val, A := ma.val, B := mb.val }
  | .mor md ma mb => some { page := 0x12, major := 9, D := md.val, A := ma.val, B := mb.val }
  | .mxor md ma mb => some { page := 0x12, major := 10, D := md.val, A := ma.val, B := mb.val }
  | .mnot md ma => some { page := 0x12, major := 11, D := md.val, A := ma.val }
  | .mcnt d ma => some { page := 0x12, major := 12, D := d.val, A := ma.val, xr := (decide (16 ≤ d.val)) }
  | .many d ma => some { page := 0x12, major := 13, D := d.val, A := ma.val, xr := (decide (16 ≤ d.val)) }
  | .mfirst d ma => some { page := 0x12, major := 14, D := d.val, A := ma.val, xr := (decide (16 ≤ d.val)) }
  | .vmv vd va q => some { page := 0x13, major := 0, D := vd.val, A := va.val, xq := q.toXq, xr := (decide (16 ≤ vd.val) || decide (16 ≤ va.val)) }
  | .vsplat vd a q => some { page := 0x13, major := 1, D := vd.val, A := a.val, xq := q.toXq, xr := (decide (16 ≤ vd.val) || decide (16 ≤ a.val)) }
  | .vext d va b fo => some { page := 0x13, major := 2, D := d.val, A := va.val, B := b.val, xq := foXq fo, xr := (decide (16 ≤ d.val) || decide (16 ≤ va.val) || decide (16 ≤ b.val)) }
  | .vins vd a b fo => some { page := 0x13, major := 3, D := vd.val, A := a.val, B := b.val, xq := foXq fo, xr := (decide (16 ≤ vd.val) || decide (16 ≤ a.val) || decide (16 ≤ b.val)) }
  | .vslideup vd va b q => some { page := 0x13, major := 4, D := vd.val, A := va.val, B := b.val, xq := q.toXq, xr := (decide (16 ≤ vd.val) || decide (16 ≤ va.val) || decide (16 ≤ b.val)) }
  | .vslidedn vd va b q => some { page := 0x13, major := 5, D := vd.val, A := va.val, B := b.val, xq := q.toXq, xr := (decide (16 ≤ vd.val) || decide (16 ≤ va.val) || decide (16 ≤ b.val)) }
  | .vperm vd va vb q => some { page := 0x13, major := 6, D := vd.val, A := va.val, B := vb.val, xq := q.toXq, xr := (decide (16 ≤ vd.val) || decide (16 ≤ va.val) || decide (16 ≤ vb.val)) }
  | .vcompress vd va q => some { page := 0x13, major := 7, D := vd.val, A := va.val, xq := q.toXq, xr := (decide (16 ≤ vd.val) || decide (16 ≤ va.val)) }
  | .vexpand vd va q => some { page := 0x13, major := 8, D := vd.val, A := va.val, xq := q.toXq, xr := (decide (16 ≤ vd.val) || decide (16 ≤ va.val)) }
  | .viota vd q => some { page := 0x13, major := 9, D := vd.val, xq := q.toXq, xr := (decide (16 ≤ vd.val)) }
  | .vid vd q => some { page := 0x13, major := 10, D := vd.val, xq := q.toXq, xr := (decide (16 ≤ vd.val)) }
  | .vmerge vd va vb q => some { page := 0x13, major := 11, D := vd.val, A := va.val, B := vb.val, xq := q.toXq, xr := (decide (16 ≤ vd.val) || decide (16 ≤ va.val) || decide (16 ≤ vb.val)) }
  | .vredsum vd va q => some { page := 0x13, major := 12, D := vd.val, A := va.val, xq := q.toXq, xr := (decide (16 ≤ vd.val) || decide (16 ≤ va.val)) }
  | .vredmax vd va q => some { page := 0x13, major := 13, D := vd.val, A := va.val, xq := q.toXq, xr := (decide (16 ≤ vd.val) || decide (16 ≤ va.val)) }
  | .vredmin vd va q => some { page := 0x13, major := 14, D := vd.val, A := va.val, xq := q.toXq, xr := (decide (16 ≤ vd.val) || decide (16 ≤ va.val)) }
  | .vcvt vd va tf q => some { page := 0x14, major := 0, D := vd.val, A := va.val, B := tf.code, xq := q.toXq, xr := (decide (16 ≤ vd.val) || decide (16 ≤ va.val)) }
  | .vqscale vd va g sf q => some { page := 0x14, major := 1, D := vd.val, A := va.val, B := g.val, C := sf.code, xq := q.toXq, xr := true }
  | .vquant vd va vb sf q => some { page := 0x14, major := 2, D := vd.val, A := va.val, B := vb.val, C := sf.code, xq := q.toXq, xr := true }
  | .vdeq vd va vb tf q => some { page := 0x14, major := 3, D := vd.val, A := va.val, B := vb.val, C := tf.code, xq := q.toXq, xr := true }
  | .vcblk vd va cb q => some { page := 0x14, major := 4, D := vd.val, A := va.val, B := cb.val, xq := q.toXq, xr := (decide (16 ≤ vd.val) || decide (16 ≤ va.val)) }
  | .vwidenlo vd va u q => some { page := 0x14, major := 5, D := vd.val, A := va.val, B := u.val, xq := q.toXq, xr := (decide (16 ≤ vd.val) || decide (16 ≤ va.val)) }
  | .vwidenhi vd va u q => some { page := 0x14, major := 6, D := vd.val, A := va.val, B := u.val, xq := q.toXq, xr := (decide (16 ≤ vd.val) || decide (16 ≤ va.val)) }
  | .vnarrow vd va vb tf q => some { page := 0x14, major := 7, D := vd.val, A := va.val, B := vb.val, C := tf.code, xq := q.toXq, xr := true }
  | .vcadd vd va vb q => some { page := 0x30, major := 0, D := vd.val, A := va.val, B := vb.val, xq := q.toXq, xr := (decide (16 ≤ vd.val) || decide (16 ≤ va.val) || decide (16 ≤ vb.val)) }
  | .vcsub vd va vb q => some { page := 0x30, major := 1, D := vd.val, A := va.val, B := vb.val, xq := q.toXq, xr := (decide (16 ≤ vd.val) || decide (16 ≤ va.val) || decide (16 ≤ vb.val)) }
  | .vcmul vd va vb q => some { page := 0x30, major := 2, D := vd.val, A := va.val, B := vb.val, xq := q.toXq, xr := (decide (16 ≤ vd.val) || decide (16 ≤ va.val) || decide (16 ≤ vb.val)) }
  | .vcmulj vd va vb q => some { page := 0x30, major := 3, D := vd.val, A := va.val, B := vb.val, xq := q.toXq, xr := (decide (16 ≤ vd.val) || decide (16 ≤ va.val) || decide (16 ≤ vb.val)) }
  | .vcmac vd va vb q => some { page := 0x30, major := 4, D := vd.val, A := va.val, B := vb.val, xq := q.toXq, xr := (decide (16 ≤ vd.val) || decide (16 ≤ va.val) || decide (16 ≤ vb.val)) }
  | .vcmacj vd va vb q => some { page := 0x30, major := 5, D := vd.val, A := va.val, B := vb.val, xq := q.toXq, xr := (decide (16 ≤ vd.val) || decide (16 ≤ va.val) || decide (16 ≤ vb.val)) }
  | .vconj vd va q => some { page := 0x30, major := 6, D := vd.val, A := va.val, xq := q.toXq, xr := (decide (16 ≤ vd.val) || decide (16 ≤ va.val)) }
  | .vcrot vd va k q => some { page := 0x30, major := 7, D := vd.val, A := va.val, B := k.val, xq := q.toXq, xr := (decide (16 ≤ vd.val) || decide (16 ≤ va.val)) }
  | .vcabs2 vd va q => some { page := 0x30, major := 8, D := vd.val, A := va.val, xq := q.toXq, xr := (decide (16 ≤ vd.val) || decide (16 ≤ va.val)) }
  | .vcscale vd va vb q => some { page := 0x30, major := 9, D := vd.val, A := va.val, B := vb.val, xq := q.toXq, xr := (decide (16 ≤ vd.val) || decide (16 ≤ va.val) || decide (16 ≤ vb.val)) }
  | .vcdot vd va vb q => some { page := 0x30, major := 10, D := vd.val, A := va.val, B := vb.val, xq := q.toXq, xr := (decide (16 ≤ vd.val) || decide (16 ≤ va.val) || decide (16 ≤ vb.val)) }
  | .vcreal vd va q => some { page := 0x30, major := 11, D := vd.val, A := va.val, xq := q.toXq, xr := (decide (16 ≤ vd.val) || decide (16 ≤ va.val)) }
  | .vcswap vd va q => some { page := 0x30, major := 12, D := vd.val, A := va.val, xq := q.toXq, xr := (decide (16 ≤ vd.val) || decide (16 ≤ va.val)) }
  | .vcmag vd va q => some { page := 0x30, major := 13, D := vd.val, A := va.val, xq := q.toXq, xr := (decide (16 ≤ vd.val) || decide (16 ≤ va.val)) }
  | .vcmacs vd va vb q => some { page := 0x30, major := 14, D := vd.val, A := va.val, B := vb.val, xq := q.toXq, xr := (decide (16 ≤ vd.val) || decide (16 ≤ va.val) || decide (16 ≤ vb.val)) }
  | .vbfly2 vd va b vt q => some { page := 0x31, major := 0, D := vd.val, A := va.val, B := b.val, C := vt.val, xq := q.toXq, xr := true }
  | .vbfly3 vd va b vt q => some { page := 0x31, major := 1, D := vd.val, A := va.val, B := b.val, C := vt.val, xq := q.toXq, xr := true }
  | .vbfly4 vd va b vt q => some { page := 0x31, major := 2, D := vd.val, A := va.val, B := b.val, C := vt.val, xq := q.toXq, xr := true }
  | .vbfly5 vd va b vt q => some { page := 0x31, major := 3, D := vd.val, A := va.val, B := b.val, C := vt.val, xq := q.toXq, xr := true }
  | .vtwid vd a b q => some { page := 0x31, major := 4, D := vd.val, A := a.val, B := b.val, xq := q.toXq, xr := (decide (16 ≤ vd.val) || decide (16 ≤ a.val) || decide (16 ≤ b.val)) }
  | .vdrev vd va b q => some { page := 0x31, major := 5, D := vd.val, A := va.val, B := b.val, xq := q.toXq, xr := (decide (16 ≤ vd.val) || decide (16 ≤ va.val) || decide (16 ≤ b.val)) }
  | .vtrans vd va b q => some { page := 0x31, major := 6, D := vd.val, A := va.val, B := b.val, xq := q.toXq, xr := (decide (16 ≤ vd.val) || decide (16 ≤ va.val) || decide (16 ≤ b.val)) }
  | .vmgmul vd va vb q => some { page := 0x32, major := 0, D := vd.val, A := va.val, B := vb.val, xq := q.toXq, xr := (decide (16 ≤ vd.val) || decide (16 ≤ va.val) || decide (16 ≤ vb.val)) }
  | .vmgmulh vd va vb q => some { page := 0x32, major := 1, D := vd.val, A := va.val, B := vb.val, xq := q.toXq, xr := (decide (16 ≤ vd.val) || decide (16 ≤ va.val) || decide (16 ≤ vb.val)) }
  | .vmgmv vd va vb q => some { page := 0x32, major := 2, D := vd.val, A := va.val, B := vb.val, xq := q.toXq, xr := (decide (16 ≤ vd.val) || decide (16 ≤ va.val) || decide (16 ≤ vb.val)) }
  | .vhchol vd va q => some { page := 0x32, major := 3, D := vd.val, A := va.val, xq := q.toXq, xr := (decide (16 ≤ vd.val) || decide (16 ≤ va.val)) }
  | .vhinv vd va q => some { page := 0x32, major := 4, D := vd.val, A := va.val, xq := q.toXq, xr := (decide (16 ≤ vd.val) || decide (16 ≤ va.val)) }
  | .vschur vd va p q => some { page := 0x32, major := 5, D := vd.val, A := va.val, B := p.val, xq := q.toXq, xr := (decide (16 ≤ vd.val) || decide (16 ≤ va.val)) }
  | .vschurv vd va vb p q => some { page := 0x32, major := 6, D := vd.val, A := va.val, B := vb.val, C := p.val, xq := q.toXq, xr := true }
  | .vhsolve vd va vb q => some { page := 0x32, major := 7, D := vd.val, A := va.val, B := vb.val, xq := q.toXq, xr := (decide (16 ≤ vd.val) || decide (16 ≤ va.val) || decide (16 ≤ vb.val)) }
  | .vmgtr vd va q => some { page := 0x32, major := 8, D := vd.val, A := va.val, xq := q.toXq, xr := (decide (16 ≤ vd.val) || decide (16 ≤ va.val)) }
  | .vhreg vd va b q => some { page := 0x32, major := 9, D := vd.val, A := va.val, B := b.val, xq := q.toXq, xr := (decide (16 ≤ vd.val) || decide (16 ≤ va.val) || decide (16 ≤ b.val)) }
  | .mxcfg n a => some { page := 0x40, major := 0, D := n.val, A := a.val, xr := (decide (16 ≤ a.val)) }
  | .mma z a b => some { page := 0x40, major := 1, D := z.val, A := a.val, B := b.val, xr := (decide (16 ≤ a.val) || decide (16 ≤ b.val)) }
  | .mmaz z a b => some { page := 0x40, major := 2, D := z.val, A := a.val, B := b.val, xr := (decide (16 ≤ a.val) || decide (16 ≤ b.val)) }
  | .mxzero z => some { page := 0x40, major := 3, D := z.val }
  | .mxst z a b => some { page := 0x40, major := 4, D := z.val, A := a.val, B := b.val, xr := (decide (16 ≤ a.val) || decide (16 ≤ b.val)) }
  | .mxld z a b => some { page := 0x40, major := 5, D := z.val, A := a.val, B := b.val, xr := (decide (16 ≤ a.val) || decide (16 ≤ b.val)) }
  | .mxldcb cb a => some { page := 0x40, major := 6, D := cb.val, A := a.val, xr := (decide (16 ≤ a.val)) }
  | .vmovz vd z b q => some { page := 0x40, major := 7, D := vd.val, A := z.val, B := b.val, xq := q.toXq, xr := (decide (16 ≤ vd.val) || decide (16 ≤ b.val)) }
  | .vmovtoz z va b q => some { page := 0x40, major := 8, D := z.val, A := va.val, B := b.val, xq := q.toXq, xr := (decide (16 ≤ va.val) || decide (16 ≤ b.val)) }
  | .mxpark a => some { page := 0x40, major := 9, A := a.val, xr := (decide (16 ≤ a.val)) }
  | .mxunpark a => some { page := 0x40, major := 10, A := a.val, xr := (decide (16 ≤ a.val)) }
  | .mxscale a b => some { page := 0x40, major := 11, A := a.val, B := b.val, xr := (decide (16 ≤ a.val) || decide (16 ≤ b.val)) }
  | .mxshare a => some { page := 0x40, major := 12, A := a.val, xr := (decide (16 ≤ a.val)) }
  | .mxstat d sel => some { page := 0x40, major := 13, D := d.val, B := sel.val, xr := (decide (16 ≤ d.val)) }
  | .gsend d vp b => some { page := 0x48, major := 0, D := d.val, A := vp.val, B := b.val, xr := (decide (16 ≤ d.val) || decide (16 ≤ vp.val) || decide (16 ≤ b.val)) }
  | .gsendc d vp b => some { page := 0x48, major := 1, D := d.val, A := vp.val, B := b.val, xr := (decide (16 ≤ d.val) || decide (16 ≤ vp.val) || decide (16 ≤ b.val)) }
  | .gld vp a b => some { page := 0x48, major := 2, D := vp.val, A := a.val, B := b.val, xr := (decide (16 ≤ vp.val) || decide (16 ≤ a.val) || decide (16 ≤ b.val)) }
  | .gsum vp a => some { page := 0x48, major := 3, D := vp.val, A := a.val, xr := (decide (16 ≤ vp.val) || decide (16 ≤ a.val)) }
  | .gsumx vp a => some { page := 0x48, major := 4, D := vp.val, A := a.val, xr := (decide (16 ≤ vp.val) || decide (16 ≤ a.val)) }
  | .gdamp vp vq b => some { page := 0x48, major := 5, D := vp.val, A := vq.val, B := b.val, xr := (decide (16 ≤ vp.val) || decide (16 ≤ vq.val) || decide (16 ≤ b.val)) }
  | .gcfg n a => some { page := 0x48, major := 6, D := n.val, A := a.val, xr := (decide (16 ≤ a.val)) }
  | .gmarg vp vq b => some { page := 0x48, major := 7, D := vp.val, A := vq.val, B := b.val, xr := (decide (16 ≤ vp.val) || decide (16 ≤ vq.val) || decide (16 ≤ b.val)) }
  | .gembed vp vq b => some { page := 0x48, major := 8, D := vp.val, A := vq.val, B := b.val, xr := (decide (16 ≤ vp.val) || decide (16 ≤ vq.val) || decide (16 ≤ b.val)) }
  | .gmean vp vq => some { page := 0x48, major := 9, D := vp.val, A := vq.val, xr := (decide (16 ≤ vp.val) || decide (16 ≤ vq.val)) }
  | .gstat d sel => some { page := 0x48, major := 10, D := d.val, B := sel.val, xr := (decide (16 ≤ d.val)) }
  | .lb d a imm => some { page := 0x50, major := 0, D := d.val, A := a.val, B := immBase 4 imm, xi := immWords 4 (unsignedXi 4 imm) imm, xr := (decide (16 ≤ d.val) || decide (16 ≤ a.val)) }
  | .lbn d a imm => some { page := 0x50, major := 1, D := d.val, A := a.val, B := immBase 4 imm, xi := immWords 4 (unsignedXi 4 imm) imm, xr := (decide (16 ≤ d.val) || decide (16 ≤ a.val)) }
  | .lh d a imm => some { page := 0x50, major := 2, D := d.val, A := a.val, B := immBase 4 imm, xi := immWords 4 (unsignedXi 4 imm) imm, xr := (decide (16 ≤ d.val) || decide (16 ≤ a.val)) }
  | .lhn d a imm => some { page := 0x50, major := 3, D := d.val, A := a.val, B := immBase 4 imm, xi := immWords 4 (unsignedXi 4 imm) imm, xr := (decide (16 ≤ d.val) || decide (16 ≤ a.val)) }
  | .lw d a imm => some { page := 0x50, major := 4, D := d.val, A := a.val, B := immBase 4 imm, xi := immWords 4 (unsignedXi 4 imm) imm, xr := (decide (16 ≤ d.val) || decide (16 ≤ a.val)) }
  | .lwn d a imm => some { page := 0x50, major := 5, D := d.val, A := a.val, B := immBase 4 imm, xi := immWords 4 (unsignedXi 4 imm) imm, xr := (decide (16 ≤ d.val) || decide (16 ≤ a.val)) }
  | .sb d a imm => some { page := 0x50, major := 6, D := d.val, A := a.val, B := immBase 4 imm, xi := immWords 4 (unsignedXi 4 imm) imm, xr := (decide (16 ≤ d.val) || decide (16 ≤ a.val)) }
  | .sh d a imm => some { page := 0x50, major := 7, D := d.val, A := a.val, B := immBase 4 imm, xi := immWords 4 (unsignedXi 4 imm) imm, xr := (decide (16 ≤ d.val) || decide (16 ≤ a.val)) }
  | .sw d a imm => some { page := 0x50, major := 8, D := d.val, A := a.val, B := immBase 4 imm, xi := immWords 4 (unsignedXi 4 imm) imm, xr := (decide (16 ≤ d.val) || decide (16 ≤ a.val)) }
  | .ldx d a b => some { page := 0x50, major := 9, D := d.val, A := a.val, B := b.val, xr := (decide (16 ≤ d.val) || decide (16 ≤ a.val) || decide (16 ≤ b.val)) }
  | .stx d a b => some { page := 0x50, major := 10, D := d.val, A := a.val, B := b.val, xr := (decide (16 ≤ d.val) || decide (16 ≤ a.val) || decide (16 ≤ b.val)) }
  | .pref hint a imm => some { page := 0x50, major := 11, D := hint.val, A := a.val, B := immBase 4 imm, xi := immWords 4 (unsignedXi 4 imm) imm, xr := (decide (16 ≤ a.val)) }
  | .cflush a => some { page := 0x50, major := 12, A := a.val, xr := (decide (16 ≤ a.val)) }
  | .cinv a => some { page := 0x50, major := 13, A := a.val, xr := (decide (16 ≤ a.val)) }
  | .amoadd d a b w32 => some { page := 0x51, major := 0, D := d.val, A := a.val, B := b.val, xq := amoXq w32, xr := (decide (16 ≤ d.val) || decide (16 ≤ a.val) || decide (16 ≤ b.val)) }
  | .amoand d a b w32 => some { page := 0x51, major := 1, D := d.val, A := a.val, B := b.val, xq := amoXq w32, xr := (decide (16 ≤ d.val) || decide (16 ≤ a.val) || decide (16 ≤ b.val)) }
  | .amoor d a b w32 => some { page := 0x51, major := 2, D := d.val, A := a.val, B := b.val, xq := amoXq w32, xr := (decide (16 ≤ d.val) || decide (16 ≤ a.val) || decide (16 ≤ b.val)) }
  | .amoxor d a b w32 => some { page := 0x51, major := 3, D := d.val, A := a.val, B := b.val, xq := amoXq w32, xr := (decide (16 ≤ d.val) || decide (16 ≤ a.val) || decide (16 ≤ b.val)) }
  | .amomin d a b w32 => some { page := 0x51, major := 4, D := d.val, A := a.val, B := b.val, xq := amoXq w32, xr := (decide (16 ≤ d.val) || decide (16 ≤ a.val) || decide (16 ≤ b.val)) }
  | .amomax d a b w32 => some { page := 0x51, major := 5, D := d.val, A := a.val, B := b.val, xq := amoXq w32, xr := (decide (16 ≤ d.val) || decide (16 ≤ a.val) || decide (16 ≤ b.val)) }
  | .amominn d a b w32 => some { page := 0x51, major := 6, D := d.val, A := a.val, B := b.val, xq := amoXq w32, xr := (decide (16 ≤ d.val) || decide (16 ≤ a.val) || decide (16 ≤ b.val)) }
  | .amomaxn d a b w32 => some { page := 0x51, major := 7, D := d.val, A := a.val, B := b.val, xq := amoXq w32, xr := (decide (16 ≤ d.val) || decide (16 ≤ a.val) || decide (16 ≤ b.val)) }
  | .amoswp d a b w32 => some { page := 0x51, major := 8, D := d.val, A := a.val, B := b.val, xq := amoXq w32, xr := (decide (16 ≤ d.val) || decide (16 ≤ a.val) || decide (16 ≤ b.val)) }
  | .amocas d a b c w32 => some { page := 0x51, major := 9, D := d.val, A := a.val, B := b.val, C := c.val, xq := amoXq w32, xr := true }
  | .ldaq d a => some { page := 0x51, major := 10, D := d.val, A := a.val, xr := (decide (16 ≤ d.val) || decide (16 ≤ a.val)) }
  | .strl d a => some { page := 0x51, major := 11, D := d.val, A := a.val, xr := (decide (16 ≤ d.val) || decide (16 ≤ a.val)) }
  | .fence before after scope => some { page := 0x51, major := 12, D := before.val, A := after.val, B := scope.val }
  | .vld vd a q => some { page := 0x52, major := 0, D := vd.val, A := a.val, xq := q.toXq, xr := (decide (16 ≤ vd.val) || decide (16 ≤ a.val)) }
  | .vst vd a q => some { page := 0x52, major := 1, D := vd.val, A := a.val, xq := q.toXq, xr := (decide (16 ≤ vd.val) || decide (16 ≤ a.val)) }
  | .vlds vd a b q => some { page := 0x52, major := 2, D := vd.val, A := a.val, B := b.val, xq := q.toXq, xr := (decide (16 ≤ vd.val) || decide (16 ≤ a.val) || decide (16 ≤ b.val)) }
  | .vsts vd a b q => some { page := 0x52, major := 3, D := vd.val, A := a.val, B := b.val, xq := q.toXq, xr := (decide (16 ≤ vd.val) || decide (16 ≤ a.val) || decide (16 ≤ b.val)) }
  | .vldx vd a vb amt q => some { page := 0x52, major := 4, D := vd.val, A := a.val, B := vb.val, C := amt.val, xq := q.toXq, xr := (decide (16 ≤ vd.val) || decide (16 ≤ a.val) || decide (16 ≤ vb.val) || decide (amt.val ≠ 0)) }
  | .vstx vd a vb amt q => some { page := 0x52, major := 5, D := vd.val, A := a.val, B := vb.val, C := amt.val, xq := q.toXq, xr := (decide (16 ≤ vd.val) || decide (16 ≤ a.val) || decide (16 ≤ vb.val) || decide (amt.val ≠ 0)) }
  | .vldb vd a q => some { page := 0x52, major := 6, D := vd.val, A := a.val, xq := q.toXq, xr := (decide (16 ≤ vd.val) || decide (16 ≤ a.val)) }
  | .vamoadd vd a vb amt q => some { page := 0x52, major := 7, D := vd.val, A := a.val, B := vb.val, C := amt.val, xq := q.toXq, xr := (decide (16 ≤ vd.val) || decide (16 ≤ a.val) || decide (16 ≤ vb.val) || decide (amt.val ≠ 0)) }
  | .vldff vd a q => some { page := 0x52, major := 8, D := vd.val, A := a.val, xq := q.toXq, xr := (decide (16 ≤ vd.val) || decide (16 ≤ a.val)) }
  | .scopy sn sd ss sc fo => some { page := 0x60, major := 0, D := sn.val, A := sd.val, B := ss.val, C := sc.val, xq := foXq fo, xr := true }
  | .spat n a => some { page := 0x60, major := 1, D := n.val, A := a.val, xr := (decide (16 ≤ a.val)) }
  | .sstrm n sd ss => some { page := 0x60, major := 2, D := n.val, A := sd.val, B := ss.val, xr := (decide (16 ≤ sd.val) || decide (16 ≤ ss.val)) }
  | .swaitm a b => some { page := 0x60, major := 3, A := a.val, B := b.val, xr := (decide (16 ≤ a.val) || decide (16 ≤ b.val)) }
  | .stestm d a b => some { page := 0x60, major := 4, D := d.val, A := a.val, B := b.val, xr := (decide (16 ≤ d.val) || decide (16 ≤ a.val) || decide (16 ≤ b.val)) }
  | .sclrm a b => some { page := 0x60, major := 5, A := a.val, B := b.val, xr := (decide (16 ≤ a.val) || decide (16 ≤ b.val)) }
  | .flpop d a => some { page := 0x60, major := 6, D := d.val, A := a.val, xr := (decide (16 ≤ d.val) || decide (16 ≤ a.val)) }
  | .flrel a b => some { page := 0x60, major := 7, A := a.val, B := b.val, xr := (decide (16 ≤ a.val) || decide (16 ≤ b.val)) }
  | .flpush d a => some { page := 0x60, major := 8, D := d.val, A := a.val, xr := (decide (16 ≤ d.val) || decide (16 ≤ a.val)) }
  | .fldone a b => some { page := 0x60, major := 9, A := a.val, B := b.val, xr := (decide (16 ≤ a.val) || decide (16 ≤ b.val)) }
  | .ecmd d a => some { page := 0x60, major := 10, D := d.val, A := a.val, xr := (decide (16 ≤ d.val) || decide (16 ≤ a.val)) }
  | .ecancel d a => some { page := 0x60, major := 11, D := d.val, A := a.val, xr := (decide (16 ≤ d.val) || decide (16 ≤ a.val)) }
  | .estat d a sel => some { page := 0x60, major := 12, D := d.val, A := a.val, B := sel.val, xr := (decide (16 ≤ d.val) || decide (16 ≤ a.val)) }
  | .spawn d a => some { page := 0x68, major := 0, D := d.val, A := a.val, xr := (decide (16 ≤ d.val) || decide (16 ≤ a.val)) }
  | .jend => some { page := 0x68, major := 1 }
  | .jdead d => some { page := 0x68, major := 2, D := d.val, xr := (decide (16 ≤ d.val)) }
  | .jtight d a => some { page := 0x68, major := 3, D := d.val, A := a.val, xr := (decide (16 ≤ d.val) || decide (16 ≤ a.val)) }
  | .jwid d a lvl => some { page := 0x68, major := 4, D := d.val, A := a.val, B := lvl.val, xr := (decide (16 ≤ d.val) || decide (16 ≤ a.val)) }
  | .jself d => some { page := 0x68, major := 5, D := d.val, xr := (decide (16 ≤ d.val)) }
  | .jabort d a => some { page := 0x68, major := 6, D := d.val, A := a.val, xr := (decide (16 ≤ d.val) || decide (16 ≤ a.val)) }
  | .jinfo d sel => some { page := 0x68, major := 7, D := d.val, B := sel.val, xr := (decide (16 ≤ d.val)) }
  | .msendrq d a p n => some { page := 0x70, major := 0, D := d.val, A := a.val, B := p.val, C := n.val, xr := (decide (16 ≤ d.val) || decide (16 ≤ a.val) || decide (16 ≤ p.val) || decide (n.val ≠ 0)) }
  | .msendrp d a p n => some { page := 0x70, major := 1, D := d.val, A := a.val, B := p.val, C := n.val, xr := (decide (16 ≤ d.val) || decide (16 ≤ a.val) || decide (16 ≤ p.val) || decide (n.val ≠ 0)) }
  | .mtag d a mx => some { page := 0x70, major := 2, D := d.val, A := a.val, B := mx.val, xr := (decide (16 ≤ d.val) || decide (16 ≤ a.val)) }
  | .men a => some { page := 0x70, major := 3, A := a.val, xr := (decide (16 ≤ a.val)) }
  | .mdis a => some { page := 0x70, major := 4, A := a.val, xr := (decide (16 ≤ a.val)) }
  | .mpend d => some { page := 0x70, major := 5, D := d.val, xr := (decide (16 ≤ d.val)) }
  | .mclr d a => some { page := 0x70, major := 6, D := d.val, A := a.val, xr := (decide (16 ≤ d.val) || decide (16 ≤ a.val)) }
  | .warm d a b c => some { page := 0x70, major := 7, D := d.val, A := a.val, B := b.val, C := c.val, xr := true }
  | .wpost d a b => some { page := 0x70, major := 8, D := d.val, A := a.val, B := b.val, xr := (decide (16 ≤ d.val) || decide (16 ≤ a.val) || decide (16 ≤ b.val)) }
  | .wsig a b => some { page := 0x70, major := 9, A := a.val, B := b.val, xr := (decide (16 ≤ a.val) || decide (16 ≤ b.val)) }
  | .wstat d a => some { page := 0x70, major := 10, D := d.val, A := a.val, xr := (decide (16 ≤ d.val) || decide (16 ≤ a.val)) }
  | .binit d a b => some { page := 0x70, major := 11, D := d.val, A := a.val, B := b.val, xr := (decide (16 ≤ d.val) || decide (16 ≤ a.val) || decide (16 ≤ b.val)) }
  | .barrive a => some { page := 0x70, major := 12, A := a.val, xr := (decide (16 ≤ a.val)) }
  | .bwait d a b => some { page := 0x70, major := 13, D := d.val, A := a.val, B := b.val, xr := (decide (16 ≤ d.val) || decide (16 ≤ a.val) || decide (16 ≤ b.val)) }
  | .bsync d a => some { page := 0x70, major := 14, D := d.val, A := a.val, xr := (decide (16 ≤ d.val) || decide (16 ≤ a.val)) }
  | .qopen d a b => some { page := 0x71, major := 0, D := d.val, A := a.val, B := b.val, xr := (decide (16 ≤ d.val) || decide (16 ≤ a.val) || decide (16 ≤ b.val)) }
  | .qclose d a => some { page := 0x71, major := 1, D := d.val, A := a.val, xr := (decide (16 ≤ d.val) || decide (16 ≤ a.val)) }
  | .qstat d a sel => some { page := 0x71, major := 2, D := d.val, A := a.val, B := sel.val, xr := (decide (16 ≤ d.val) || decide (16 ≤ a.val)) }
  | .trap imm => some { page := 0x78, major := 0, A := immBase 8 imm / 16, B := immBase 8 imm % 16, xi := immWords 8 (unsignedXi 8 imm) imm }
  | .tret => some { page := 0x78, major := 1, B := 0 }
  | .tretSkip => some { page := 0x78, major := 1, B := 1 }
  | .svc d a b => some { page := 0x78, major := 2, D := d.val, A := a.val, B := b.val, xr := (decide (16 ≤ d.val) || decide (16 ≤ a.val) || decide (16 ≤ b.val)) }
  | .gateinfo d sel => some { page := 0x78, major := 3, D := d.val, B := sel.val, xr := (decide (16 ≤ d.val)) }
  | .enmtr d a kind => some { page := 0x78, major := 4, D := d.val, A := a.val, B := kind.val, xr := (decide (16 ≤ d.val) || decide (16 ≤ a.val)) }
  | .pgateGate d a => some { page := 0x78, major := 5, B := 0, D := d.val, A := a.val, xr := (decide (16 ≤ d.val) || decide (16 ≤ a.val)) }
  | .pgateUngate d a => some { page := 0x78, major := 5, B := 1, D := d.val, A := a.val, xr := (decide (16 ≤ d.val) || decide (16 ≤ a.val)) }
  | .pgateQuery d a => some { page := 0x78, major := 5, B := 2, D := d.val, A := a.val, xr := (decide (16 ≤ d.val) || decide (16 ≤ a.val)) }
  | .halt a => some { page := 0x78, major := 6, A := a.val, xr := (decide (16 ≤ a.val)) }
  | .ctxsave d a b => some { page := 0x78, major := 7, D := d.val, A := a.val, B := b.val, xr := (decide (16 ≤ d.val) || decide (16 ≤ a.val) || decide (16 ≤ b.val)) }
  | .ctxload d a b => some { page := 0x78, major := 8, D := d.val, A := a.val, B := b.val, xr := (decide (16 ≤ d.val) || decide (16 ≤ a.val) || decide (16 ≤ b.val)) }
  | .tlbinv a b => some { page := 0x78, major := 9, A := a.val, B := b.val, xr := (decide (16 ≤ a.val) || decide (16 ≤ b.val)) }
  | .idle a => some { page := 0x78, major := 10, A := a.val, xr := (decide (16 ≤ a.val)) }
  | .brk imm => some { page := 0x78, major := 11, A := imm.toNat / 16, B := imm.toNat % 16 }
  | .rsvadd d a => some { page := 0x78, major := 12, D := d.val, A := a.val, xr := (decide (16 ≤ d.val) || decide (16 ≤ a.val)) }
  | .vectorStart _ => none
  | .vectorComplete _ => none
  | .scalarLoadReturn _ _ => none
  | .storePerformed _ _ => none
  | .mxCmdBegin _ => none
  | .mxRowReady _ _ _ => none
  | .mxCmdComplete _ => none
  | .mxShareTimeout _ => none
  | .waitSatisfied _ => none
  | .idleExpire _ => none
  | .deadlineComparator _ => none
  | .abandonAction _ => none
  | .queuedDeadlinePass _ => none
  | .reservationRelease _ => none
  | .budgetUpdate => none
  | .governorDispatch _ => none
  | .loadAveraging _ => none
  | .jobMoveArrive _ => none
  | .amArrival _ => none
  | .amAnswer _ => none
  | .emptyRelease _ => none
  | .engDelivery _ => none
  | .gmsgMerge _ => none
  | .weirArrival _ => none
  | .weirPacketMake _ => none
  | .barrierArrival _ => none
  | .sweep => none
  | .groupCompletionSend _ => none
  | .engineCmdArrive _ => none
  | .engineAnswer _ => none
  | .ldpcDecode _ => none
  | .ldpcEncode _ => none
  | .polarDecode _ => none
  | .polarEncode _ => none
  | .rateDematch _ => none
  | .rateMatch _ => none
  | .crcCheck _ => none
  | .engineCompletion _ => none
  | .streamChunkServe _ _ => none
  | .chunkDone _ _ => none
  | .ethFrameReceive _ _ => none
  | .rowCloseTimeout _ _ => none
  | .rowSlotFill _ _ => none
  | .overrunRowFill _ _ => none
  | .cplaneTransmit _ _ => none
  | .windowStart _ => none
  | .edgeGuard _ => none
  | .edgeSwapComplete _ => none
  | .coreRepower _ => none
  | .loanStart _ => none
  | .loanEnd _ => none
  | .tableEpoch => none
  | .svcCallArrive _ => none
  | .svcAnswer _ => none
  | .internalCall _ _ _ => none
  | .nop _ => none
  | .rsvAdd _ => none
  | .rsvRemove _ => none
  | .counter _ => none
  | .mapObject _ => none
  | .unmapObject _ => none
  | .harvest _ => none
  | .harvestAuto _ _ => none
  | .objectFaultServe _ => none
  | .queueBind _ => none
  | .queueUnbind _ => none
  | .tableLoad _ => none
  | .quarClear _ => none
  | .sweepSet _ => none
  | .logSet _ => none
  | .imageLoad _ => none
  | .flumeSet _ => none
  | .groupSet _ => none
  | .poisonClear _ => none
  | .biasSet _ => none
  | .linkDump _ => none
  | .twinExport _ => none
  | .debugOpen _ => none
  | .debugClose _ => none
  | .debugRead _ => none
  | .debugWrite _ => none
  | .debugResume _ => none
  | .hlqdb _ _ => none
  | .biasreq _ => none
  | .hostsig => none
  | .hostsigw _ => none
  | .registerWrite _ _ => none
  | .hostMemAccess _ => none
  | .hostSnoop _ _ => none
  | .hostLinkDown => none
  | .twinPair _ => none
  | .twinLinkDown => none
  | .spdmMeasurements => none
  | .powerOn => none
  | .deviceReset => none
  | .bootImageVerify _ _ _ => none
  | .channelTrained _ _ => none
  | .clusterReady _ => none
  | .headracePortReady _ => none
  | .ptpFirstLock _ => none
  | .ptpLockLoss => none
  | .ptpLockRegained => none
  | .dvfsStepChange _ => none
  | .powerCapCheck => none
  | .energyMeterUpdate => none
  | .ungateComplete _ => none
  | .stillEnter => none
  | .channelWake _ => none
  | .lpddrScrub _ _ => none
  | .sramScrub _ => none
  | .illegalInstruction => none
  | .prefixChain => none
  | .fetchFault _ _ => none
  | .hostLinkUp => none
  | .twinMemoryAccess _ => none
  | .hdmWindowSet _ _ => none

/-- The words of a chain in the canonical order of R57: XP, XR, XQ, XI words, base word. -/
def Chain.words (c : Chain) : List Nat :=
  (if c.page = 0 then [] else [0xF800 + 4 * c.page])
  ++ (if c.xr then [0xF400 + 512 * (c.D / 16) + 256 * (c.A / 16) + 128 * (c.B / 16) + 4 * c.C] else [])
  ++ (match c.xq with
      | none => []
      | some (me, mr, mi, fo) => [0xFC00 + 512 * me.toNat + 32 * mr + 16 * mi.toNat + fo])
  ++ c.xi.map (fun x => 0xF000 + x)
  ++ [4096 * c.major + 256 * (c.D % 16) + 16 * (c.A % 16) + c.B % 16]

/-- R74: the halfwords of a well-formed instruction; none for an event or for fields without an encoding. -/
def encode (i : Instr) : Option (List Nat) :=
  if i.wellFormed then (toChain i).map Chain.words else none

/-- The halfwords of nbits bits, the lowest first. -/
def splitHalfwords (nbits w : Nat) : List Nat :=
  (List.range ((nbits + 15) / 16)).map fun k => w / 2 ^ (16 * k) % 65536

/-- The halfwords of an instruction in fetch order.  In a chain of more than one word the first word is a prefix word
(R54), so the two ways of numbering the bits can be told apart: with the first word lowest the lowest halfword is a prefix
word, and where it is none the number stands with the first word highest, as the matches of spec/opcode_table.json do. -/
def tableHalfwords (nbits w : Nat) : List Nat :=
  let ws := splitHalfwords nbits w
  match ws with
  | x :: _ => if bitsOf x 15 12 = 15 then ws else ws.reverse
  | [] => []

/-- The instruction the decoder reads from nbits bits w, every bit above them zero (zero words follow). -/
noncomputable def decodeTableWord (nbits w : Nat) : Option Instr :=
  match decode (tableHalfwords nbits w ++ [0, 0, 0, 0, 0]) with
  | .ok (i, _) => some i
  | .error _ => none

end Sys2Proof
end

