-- ==== Sys2Proof/Machine/FMap.lean ====
section
/-! DEFINITION. Finite maps from numbers as plain data: a list of keys and values with strictly rising keys, in which a
key that holds the default is not listed, so equal maps are equal lists. -/

namespace Sys2Proof.Machine

/-- A map from Nat; a key that is not listed reads as the default its reader names. -/
abbrev FMap (α : Type) := List (Nat × α)

/-- What key k holds, d when it is not listed. -/
def FMap.get {α : Type} (d : α) : FMap α → Nat → α
  | [], _ => d
  | (j, v) :: m, k => if j = k then v else FMap.get d m k

/-- The value listed under k. -/
def FMap.find? {α : Type} : FMap α → Nat → Option α
  | [], _ => none
  | (j, v) :: m, k => if j = k then some v else FMap.find? m k

/-- k is no longer listed. -/
def FMap.erase {α : Type} : FMap α → Nat → FMap α
  | [], _ => []
  | (j, v) :: m, k => if j = k then FMap.erase m k else (j, v) :: FMap.erase m k

/-- k is listed with v, in its place by key. -/
def FMap.insert {α : Type} : FMap α → Nat → α → FMap α
  | [], k, v => [(k, v)]
  | (j, w) :: m, k, v =>
    if k < j then (k, v) :: (j, w) :: m else if k = j then (k, v) :: m else (j, w) :: FMap.insert m k v

/-- k holds v; the default is not listed. -/
def FMap.set {α : Type} [DecidableEq α] (d : α) (m : FMap α) (k : Nat) (v : α) : FMap α :=
  if v = d then m.erase k else (m.erase k).insert k v

/-- Every key of the list is above lo. -/
def FMap.above {α : Type} (lo : Nat) : FMap α → Bool
  | [] => true
  | (j, _) :: m => decide (lo < j) && FMap.above lo m

/-- Strictly rising keys, and none with the default. -/
def FMap.wf {α : Type} [DecidableEq α] (d : α) : FMap α → Bool
  | [] => true
  | (j, v) :: m => decide (v ≠ d) && FMap.above j m && FMap.wf d m

end Sys2Proof.Machine
end

