-- ==== Sys2Proof/Machine/Mem.lean ====
section
/-! DEFINITION. The bytes of the machine: LPDDR 6, host and twin memory by physical address, the core arrays and the
cluster scratchpads, in one canonical list (R9, R10, R200). -/

namespace Sys2Proof.Machine

/-- Bytes by place: strictly rising places, no byte listed that reads as an unlisted one. -/
abbrev Memory := List Host.Cell

/-- What a byte reads as that nothing has written (notes/assumptions/3.md). -/
def emptyByte : Byte := 0

/-- The place of byte o of core c's SRAM array (R9): above the 48-bit physical addresses. -/
def corePlace (c o : Nat) : Nat := 2 ^ 48 + c * 0x400000 + o

/-- The place of byte o of cluster k's scratchpad (R9). -/
def clusterPlace (k o : Nat) : Nat := 2 ^ 49 + k * 0x800000 + o

/-- One byte. -/
def Memory.read (m : Memory) (a : Nat) : Byte := FMap.get emptyByte m a

/-- One byte written. -/
def Memory.write (m : Memory) (a : Nat) (v : Byte) : Memory := FMap.set emptyByte m a v

/-- The canonical form. -/
def Memory.wf (m : Memory) : Bool := FMap.wf emptyByte m

/-- n bytes from place a, little-endian (00_scope.md). -/
def Memory.readN (m : Memory) : Nat → Nat → Nat
  | _, 0 => 0
  | a, n + 1 => (m.read a).toNat + 256 * m.readN (a + 1) n

/-- n bytes to place a, little-endian. -/
def Memory.writeN (m : Memory) : Nat → Nat → Nat → Memory
  | _, 0, _ => m
  | a, n + 1, v => (m.write a (BitVec.ofNat 8 v)).writeN (a + 1) n (v / 256)

/-- A list of bytes from place a. -/
def Memory.readBytes (m : Memory) (a n : Nat) : List Byte := (List.range n).map fun i => m.read (a + i)

/-- A list of bytes written to place a. -/
def Memory.writeBytes (m : Memory) : Nat → List Byte → Memory
  | _, [] => m
  | a, b :: bs => (m.write a b).writeBytes (a + 1) bs

/-- Whether the n bytes at a and the k bytes at b share a byte. -/
def overlaps (a n b k : Nat) : Bool := decide (a < b + k) && decide (b < a + n)

/-- The line of a place. -/
def lineOf (a : Nat) : Nat := a / 64

end Sys2Proof.Machine
end

