-- ==== Sys2Proof/Machine/Sluice.lean ====
section
/-! DEFINITION. The Sluice Table as loaded, field by field from its image (R328 to R335), and the state of its switching
(R336 to R345, R352). -/

namespace Sys2Proof.Machine

/-- A loaded table: its image by offset, in the canonical form of memory. -/
structure Table where
  img : Memory
  deriving DecidableEq, Repr

def Table.u8 (t : Table) (o : Nat) : Nat := (t.img.read o).toNat
def Table.u16 (t : Table) (o : Nat) : Nat := t.img.readN o 2
def Table.u32 (t : Table) (o : Nat) : Nat := t.img.readN o 4
def Table.u64 (t : Table) (o : Nat) : Nat := t.img.readN o 8

/-- R329. -/
def Table.format (t : Table) : Nat := t.u64 0
def Table.cycle (t : Table) : Nat := t.u64 0x08
def Table.epoch (t : Table) : Nat := t.u64 0x10
def Table.nwin (t : Table) : Nat := t.u64 0x18 % 128
def Table.nset (t : Table) : Nat := t.u64 0x18 / 256 % 32
def Table.tableId (t : Table) : Nat := t.u64 0x20
def Table.svcRoot (t : Table) : Nat := t.u64 0x28
/-- R330: window i. -/
def Table.winStart (t : Table) (i : Nat) : Nat := t.u64 (0x40 + 16 * i)
def Table.winLength (t : Table) (i : Nat) : Nat := t.u32 (0x48 + 16 * i)
def Table.winSet (t : Table) (i : Nat) : Nat := t.u32 (0x4C + 16 * i) % 16
/-- R331, R334: assignment set j. -/
def Table.setBase (j : Nat) : Nat := 0x1000 + 4096 * j
def Table.coreOwner (t : Table) (j c : Nat) : Nat := t.u8 (Table.setBase j + c)
def Table.bankOwner (t : Table) (j b : Nat) : Nat := t.u8 (Table.setBase j + 0x80 + b)
def Table.l2tlbWayOwner (t : Table) (j k w : Nat) : Nat := t.u8 (Table.setBase j + 0x100 + 16 * k + w)
def Table.linkShare (t : Table) (j o : Nat) : Nat := t.u8 (Table.setBase j + 0x1C0 + o)
def Table.channelShare (t : Table) (j o : Nat) : Nat := t.u8 (Table.setBase j + 0x200 + o)
def Table.headraceMap (t : Table) (j p g : Nat) : Nat := t.u16 (Table.setBase j + 0x400 + 128 * p + 2 * g)
def Table.l1WayOwner (t : Table) (j c w : Nat) : Nat := t.u8 (Table.setBase j + 0x600 + 16 * c + w)
/-- R332: core records. -/
def Table.coreBase (c : Nat) : Nat := 0x11000 + 512 * c
def Table.l1Share (t : Table) (c : Nat) : Nat := t.u8 (Table.coreBase c) % 4
def Table.areqSize (t : Table) (c o : Nat) : Nat := t.u8 (Table.coreBase c + 0x40 + 2 * o)
def Table.arspSize (t : Table) (c o : Nat) : Nat := t.u8 (Table.coreBase c + 0x41 + 2 * o)
def Table.completionSize (t : Table) (c o : Nat) : Nat := t.u8 (Table.coreBase c + 0xC0 + o)
def Table.coreRegion (t : Table) (c o : Nat) : Nat := t.u32 (Table.coreBase c + 0x100 + 4 * o)
/-- R333: cluster records. -/
def Table.clusterRegion (t : Table) (k o : Nat) : Nat := t.u32 (0x1D000 + 256 * k + 4 * o)
/-- R328: object owners. -/
def Table.tagOwner (t : Table) (c tag : Nat) : Nat := t.u8 (0x1DC00 + 320 * c + tag)
def Table.barrierOwner (t : Table) (c b : Nat) : Nat := t.u8 (0x1DC40 + 320 * c + b)
def Table.weirOwner (t : Table) (k w : Nat) : Nat := t.u8 (0x25400 + 576 * k + w)
def Table.mapOwner (t : Table) (k m : Nat) : Nat := t.u8 (0x25600 + 576 * k + m)
/-- R335: tenant records. -/
def Table.tenantBase (o : Nat) : Nat := 0x26F00 + 64 * o
def Table.weight (t : Table) (o : Nat) : Nat := t.u16 (Table.tenantBase o)
def Table.enabled (t : Table) (o : Nat) : Bool := t.u8 (Table.tenantBase o + 2) % 2 == 1
def Table.dlgok (t : Table) (o : Nat) : Word := BitVec.ofNat 64 (t.u64 (Table.tenantBase o + 8))
def Table.donation (t : Table) (o : Nat) : List Nat :=
  ((List.range 8).map fun i => t.u8 (Table.tenantBase o + 0x10 + i)).takeWhile (· != 0xFF)
def Table.svcWeight (t : Table) (o : Nat) : Nat := t.u16 (Table.tenantBase o + 0x18)
/-- The page-table root an owner's jobs start with (R326). -/
def Table.root (t : Table) (o : Nat) : Word :=
  if o = 62 then BitVec.ofNat 64 t.svcRoot
  else if o < 32 then BitVec.ofNat 64 (t.u64 (Table.tenantBase o + 0x20)) else 0

/-- Base in bytes of a region word (R332, R333), and size of a core's (R332). -/
def regionBase (w : Nat) : Nat := w % 2048 * 4096
def regionSize (w : Nat) : Nat := w / 2048 % 2048 * 4096
/-- Size in bytes of a cluster's region word (R333). -/
def clusterRegionSize (w : Nat) : Nat := w / 2048 % 4096 * 4096
/-- R332: the stack size of a context, in bytes. -/
def regionStack (w : Nat) : Nat := w / 4194304 % 256 * 4096

/-- The window a cluster or slice is in (R336): the cycle number and the window's index. -/
structure WinPos where
  cycle : Nat
  idx : Nat
  deriving DecidableEq, Repr

/-- The start of a window of a cycle (R336). -/
def Table.winAt (t : Table) (w : WinPos) : Nat := t.epoch + w.cycle * t.cycle + t.winStart w.idx
/-- Its end. -/
def Table.winEnd (t : Table) (w : WinPos) : Nat := t.winAt w + t.winLength w.idx
/-- The window after it. -/
def Table.nextWin (t : Table) (w : WinPos) : WinPos :=
  if w.idx + 1 < t.nwin then { w with idx := w.idx + 1 } else { cycle := w.cycle + 1, idx := 0 }
/-- The owner of a core in a window. -/
def Table.ownerIn (t : Table) (w : WinPos) (core : Nat) : Nat := t.coreOwner (t.winSet w.idx) core

/-- The window that a time of a cluster or slice, at or after EPOCH, lies in (R336). -/
def Table.posAt (t : Table) (now : Nat) : WinPos :=
  let off := (now - t.epoch) % t.cycle
  { cycle := (now - t.epoch) / t.cycle
    idx := (((List.range t.nwin).filter fun i => decide (t.winStart i ≤ off)).getLast?).getD 0 }

/-- The first window after one, among so many, whose owner of a core is not 63 (R341). -/
def Table.nextOwned (t : Table) (core : Nat) : Nat → WinPos → Option WinPos
  | 0, _ => none
  | n + 1, w => let v := t.nextWin w; if t.ownerIn v core ≠ 63 then some v else t.nextOwned core n v

/-- The switching state of the Sluice Table. -/
structure Sluice where
  /-- The table whose fixed parts are in force (R337 step 5). -/
  table : Option Table := none
  /-- EPOCH has come: the windowed parts are in force (R337 step 6). -/
  inForce : Bool := false
  clusterWin : FMap (Option WinPos) := []
  sliceWin : FMap (Option WinPos) := []
  /-- Overruns charged to each owner in the current cycle (R344). -/
  overruns : FMap Nat := []
  /-- The cycle the overrun counts belong to. -/
  overCycle : Nat := 0
  quar : Word := 0
  /-- A load is under way: nothing is dispatched until EPOCH (R337). -/
  loading : Bool := false
  /-- The accepted table. -/
  next : Option Table := none
  /-- The log ring: its physical base and its size in records (R352). -/
  log : Option (Nat × Nat) := none
  /-- Records lost before the ring was placed (R352). -/
  logLost : Nat := 0
  deriving DecidableEq, Repr

end Sys2Proof.Machine
end

