-- ==== Sys2Proof/Machine/Context.lean ====
section
/-! DEFINITION. What a job context holds (R89, R91, R107, R325), with the queues behind its front end (R84 to R88, R104). -/

namespace Sys2Proof.Machine

/-- R319. -/
inductive Mode where
  | user | supervisor
  deriving DecidableEq, Repr

/-- What a pending scalar load does at its place (R97, R213, R215). -/
inductive LoadKind where
  | plain
  /-- LDAQ: accesses after it wait for it (R233). -/
  | acquire
  /-- An atomic with its operand b and, for CAS, the new value c. -/
  | amo (op : AmoOp) (b c : Word)
  /-- A failed AMOCAS without write permission: the value it read, and what was wrong with it (R213). -/
  | fixed (v : Nat) (bad : Option Bool)
  deriving DecidableEq, Repr

/-- A scalar load or atomic that has issued and not returned (R85, R104). -/
structure PendLoad where
  ord : Nat
  dst : SReg
  place : Nat
  size : Nat
  signed : Bool
  va : Word
  cached : Option Nat
  kind : LoadKind
  deriving DecidableEq, Repr

/-- What a pending store does at its place. -/
inductive StoreKind where
  /-- The bytes of a scalar store, a vector store's element, or STRL. -/
  | data (bytes : List Byte)
  /-- One nibble of a cb4 store (R217). -/
  | nibble (high : Bool) (v : Nat)
  /-- One element of VAMOADD (R218). -/
  | add (fmt : Fmt) (v : Nat)
  /-- CFLUSH and CINV of a line (R211). -/
  | flush | inval
  deriving DecidableEq, Repr

/-- A store that has issued and is not performed (R104, R221). -/
structure PendStore where
  ord : Nat
  place : Nat
  size : Nat
  kind : StoreKind
  /-- The owner of the bank that may hold the line, so that a dirty copy stands over its home (R201). -/
  cached : Option Nat
  /-- STRL: performed after every older access of every class (R233). -/
  release : Bool
  /-- Class V (R222). -/
  vec : Bool
  /-- The words of 8 bytes that the elements of its instruction write wholly between them, though each writes a part (R428). -/
  words : List Nat := []
  deriving DecidableEq, Repr

/-- An error that a load brought to a register (R85, R389): poison of a lost link, or an uncorrectable error, and the load's
address. -/
structure BadReg where
  link : Bool
  addr : Word
  deriving DecidableEq, Repr

/-- What the undo log keeps (R86). -/
inductive UndoWhat where
  | reg (r : SReg) (old : Word) (bad : Option BadReg)
  | vl (vl : Nat) (vtype : Fmt)
  deriving DecidableEq, Repr

/-- An undo log entry with the order number of the instruction that took it. -/
structure UndoEntry where
  ord : Nat
  what : UndoWhat
  deriving DecidableEq, Repr

/-- A scalar load that ran ahead of a vector-queue instruction (R226): its order number, its first word, its bytes, and
the VTYPE-independent state needed to resume at it. -/
structure AheadLoad where
  ord : Nat
  pc : Word
  place : Nat
  size : Nat
  deriving DecidableEq, Repr

/-- What a conditional branch tests of its two registers (R98). -/
inductive BranchTest where
  | eqz | nez | eq | ne | lt | ge | ltn | gen
  deriving DecidableEq, Repr

/-- A branch that has issued before a load gave the value it tests, in the direction its counter predicts (R98, R227): its order number
and first word, the registers it tests, and the direction. -/
structure Guess where
  ord : Nat
  pc : Word
  reads : List SReg
  test : BranchTest
  taken : Bool
  deriving DecidableEq, Repr

/-- One element access of a started vector memory instruction: the element's index, its place and its size. -/
structure ElemAccess where
  idx : Nat
  place : Nat
  size : Nat
  cached : Option Nat
  deriving DecidableEq, Repr

/-- A vector-queue entry (R84, R110): the instruction with what it takes at its entry (R33, R53, R93) and what its probe pass
found. -/
structure VEntry where
  ord : Nat
  pc : Word
  ins : Instr
  vl : Nat
  vtype : Fmt
  rmode : BitVec 3
  vgrp : Nat
  piveps : BitVec 32
  pivmode : Bool
  /-- min(VGRANT, VLCAP) at entry (R29, R91). -/
  vbits : Nat
  /-- The scalar operands in the order of the fields A, B. -/
  sa : Word
  sb : Word
  started : Bool
  /-- Scalar instructions issued after this one and before the next entry: they retire with it (R103). -/
  after : Nat
  accesses : List ElemAccess
  /-- VLDFF: the first failing element (R219). -/
  cut : Option Nat
  /-- GSEND and GSENDC: whether the message is sent, as decided at the start (R184). -/
  sends : Bool
  /-- What a load, GLD, GSUM or GSUMX has read so far, by element: accesses of one instruction are read in any order (R194, R224,
  R228). -/
  got : List (Nat × Nat) := []
  /-- Elements whose data came back poisoned by a lost link, with their addresses (R389). -/
  lost : List (Nat × Word) := []
  /-- A vector store whose elements are handed over before it completes (R228). -/
  handed : Bool := false
  deriving DecidableEq, Repr

/-- A FENCE whose wait has not ended (R229), with its own address. -/
structure PendFence where
  ord : Nat
  pc : Word
  before : Nat
  after : Nat
  scope : Nat
  deriving DecidableEq, Repr

/-- The counter class of an operation that another unit answers (R104). -/
inductive OpClass where
  | en | cp
  deriving DecidableEq, Repr

/-- An operation in flight that counts in CNTEN or CNTCP, by its order number (R104). -/
structure PendOp where
  ord : Nat
  cls : OpClass
  /-- The register the answer writes, s0 for none. -/
  dst : SReg
  /-- It holds an outbox entry (R301). -/
  outbox : Bool
  /-- An access of class E (R222); the call of SVC is none. -/
  classE : Bool := true
  deriving DecidableEq, Repr

/-- What a waiting context waits on (R290). -/
inductive Wait where
  /-- WAITC (R105). -/
  | counters (ld st cp mx en : Nat)
  /-- IDLE (R363), and the instruction behind it. -/
  | until (t : Nat) (next : Word)
  /-- SPAWN: free records in the clusters of the mask (R281). -/
  | records (mask : Nat)
  /-- JEND: the queues and counters of the job (R293). -/
  | drained
  /-- SWAITM: all or any bits of a chunk map, all of the mask when all is set (R246). -/
  | chunks (k map : Nat) (mask : Word) (all : Bool)
  /-- FLPOP and FLPUSH: a slot of a flume (R252). -/
  | flume (k idx : Nat) (push : Bool)
  /-- BWAIT and BSYNC: a generation of a barrier has ended (R312). -/
  | barrier (core id gen : Nat)
  /-- A page fault on a host object has been forwarded (R327, R376). -/
  | object
  /-- CTXSAVE of this context, or a debug session, has stopped it (R361, R374). -/
  | stopped
  /-- CTXSAVE by another context waits for what this one has issued (R361). -/
  | saving (by_ : Nat)
  deriving DecidableEq, Repr

/-- R82, R290: what a context does. -/
inductive CtxStatus where
  | idle
  | running
  | waiting (w : Wait)
  /-- The job is being abandoned: nothing issues, what has issued completes (R288). -/
  | stopping
  deriving DecidableEq, Repr

/-- A slot of a flume that the job has popped (R253), or claimed with FLPUSH. -/
structure HeldSlot where
  cluster : Nat
  flume : Nat
  slot : Nat
  push : Bool
  addr : Word
  deriving DecidableEq, Repr

/-- BSYNC (R312, R360): the barrier arrived at, while its wait has not ended. -/
structure SyncState where
  gen : Nat
  core : Nat
  id : Nat
  deriving DecidableEq, Repr

/-- A job context; what it has sent stands in the lists of the networks, and its entries of ops count them. -/
structure Ctx where
  job : Option Nat := none
  status : CtxStatus := .idle
  mode : Mode := .user
  /-- h of R319. -/
  depth : Nat := 0
  pc : Word := 0
  sregs : FMap Word := []
  vregs : FMap (BitVec 4096) := []
  mregs : FMap (BitVec 512) := []
  vl : Nat := 0
  /-- VL exceeds VLMAX by a SET of VLCAP, and by no grant of SCOPY (R29, R246; notes/assumptions/100.md). -/
  vlOver : Bool := false
  vtype : Fmt := .i8
  grant : Nat := 1024
  rmode : BitVec 3 := 4
  fflags : Flags := 0
  vgrp : BitVec 3 := 1
  piveps : BitVec 32 := 0
  pivmode : Bool := false
  sgmask : Word := 0
  gtau : BitVec 32 := 0
  vfault : BitVec 16 := 0
  oblim : BitVec 4 := 8
  utvec : Word := 0
  utepc : Word := 0
  utcause : BitVec 6 := 0
  utval : Word := 0
  utsp : Word := 0
  vlcap : BitVec 13 := 4096
  tvec : Word := 0
  tepc : Word := 0
  tcause : BitVec 6 := 0
  tval : Word := 0
  /-- PMODE and DEPTH (R324). -/
  tstatus : BitVec 3 := 0
  deleg : Word := 0
  ptbase : Word := 0
  tsp : Word := 0
  tscratch : Word := 0
  instret : Word := 0
  /-- Pattern registers of the stream engine, 256 bits each (R247). -/
  patterns : FMap (BitVec 256) := []
  flumes : List HeldSlot := []
  sent : Word := 0
  skipped : Word := 0
  /-- The core a reply may go to (R304). -/
  replyRight : Option Nat := none
  bsync : Option SyncState := none
  /-- The next order number of the context's program order. -/
  ord : Nat := 0
  vq : List VEntry := []
  undo : List UndoEntry := []
  ahead : List AheadLoad := []
  guess : Option Guess := none
  loads : List PendLoad := []
  stores : List PendStore := []
  fences : List PendFence := []
  ops : List PendOp := []
  /-- Beats of 256 bits of the vector registers that hold an uncorrectable error, or data that a lost link poisoned on their way, by
  16 × register + beat (R111, R389, R428). -/
  vecEcc : FMap BadReg := []
  /-- Registers that a load left with an error (R85, R389); 32 and 33 stand for UTSP and TSP, which take the mark of s2 with its
  value. -/
  badRegs : FMap BadReg := []
  deriving DecidableEq, Repr

/-- R89: a context at device reset, and what a job start leaves where the launch gives nothing. -/
def Ctx.reset : Ctx := {}

end Sys2Proof.Machine
end

