-- ==== Sys2Proof/Machine/MatrixUnit.lean ====
section
/-! DEFINITION. What a core's matrix unit holds (R154 to R157, R161, R167 to R170). -/

namespace Sys2Proof.Machine

/-- A matrix command with its operands read at issue (R160, R164). -/
inductive MxOp where
  | cfg (n : Nat) (v : Word)
  | scale (sa sb : Word)
  | share (v : Word)
  | mma (z : Nat) (a b : Word) (clear : Bool)
  | zero (z : Nat)
  | st (z : Nat) (a t : Word)
  | ld (z : Nat) (a t : Word)
  | ldcb (cb : Nat) (a : Word)
  deriving DecidableEq, Repr

/-- A range of addresses and whether it is written. -/
structure MxRange where
  base : Word
  len : Nat
  write : Bool
  deriving DecidableEq, Repr

/-- A row of bytes that an MXST has still to write: its place and its bytes. -/
structure MxOut where
  place : Nat
  bytes : List Byte
  deriving DecidableEq, Repr

/-- What a shared read delivered (R167): the bytes of B and its scales, and the words of them that hold an uncorrectable error. -/
structure SharedRead where
  mem : Memory
  ecc : FMap Bool
  deriving DecidableEq, Repr

/-- A command of the queue (R161): its place in the context's program order, whether it has begun, how many of its segments are
still to run (R174), how many rows of its tile it writes and how many of them are ready (R166). -/
structure MxCmd where
  ord : Nat
  op : MxOp
  begun : Bool
  left : Nat
  rows : Nat
  ready : Nat
  /-- It waits for its share group (R167). -/
  sharing : Bool
  /-- Once it has begun, the ranges it checked, under the configuration then in force (R159, R172). -/
  ranges : List MxRange := []
  /-- The rows of an MXST not performed yet, in no order (R228). -/
  out : List MxOut := []
  /-- The B operand of a shared MMA, read once for its group (R167). -/
  shared : Option SharedRead := none
  deriving DecidableEq, Repr

/-- R25: the sixteen E2M1 values in bf16. -/
def resetCodebook : List Nat :=
  [0x0000, 0x3F00, 0x3F80, 0x3FC0, 0x4000, 0x4040, 0x4080, 0x40C0, 0x8000, 0xBF00, 0xBF80, 0xBFC0, 0xC000, 0xC040, 0xC080, 0xC0C0]

/-- The matrix unit. -/
structure MatrixUnit where
  /-- The job that holds the unit (R155). -/
  job : Option Nat := none
  /-- Tile elements as f32 bits: element e of tile z under key 4,096 z + e (R154). -/
  tiles : FMap Nat := []
  cba : List Nat := resetCodebook
  cbb : List Nat := resetCodebook
  geom : Word := 0x5500000000
  stride : Word := 0
  sstride : Word := 0
  sa : Word := 0
  sb : Word := 0
  share : Word := 0
  /-- The fields of STATUS (R169). -/
  fdisc : Nat := 0
  pdepth : Nat := 0
  fmaj : Nat := 0
  fz : Nat := 0
  fpend : Bool := false
  mnv : Bool := false
  mof : Bool := false
  fkind : Nat := 0
  faddr : Word := 0
  /-- Poisoned 64-bit words of the tiles, by element / 2 (R165, R168, R428). -/
  ecc : FMap Bool := []
  queue : List MxCmd := []
  deriving DecidableEq, Repr

end Sys2Proof.Machine
end

