-- ==== Sys2Proof/Machine/Job.lean ====
section
/-! DEFINITION. Launch records and job records (R270 to R275, R290, R295, R305). -/

namespace Sys2Proof.Machine

/-- The words of a launch record (R270). -/
structure LaunchRec where
  pc : Word
  arg : Word
  wid : Word
  deadline : Word
  control : Word
  layout : Word
  abword : Word
  abaddr : Word
  deriving DecidableEq, Repr

/-- How a job was started (R275, R295, R305). -/
inductive Origin where
  | spawn | weir | hostQueue | message | trigger
  | root (reservation : Nat)
  deriving DecidableEq, Repr

/-- Where a live job stands (R290); waiting is running with a wait in its context. -/
inductive JobState where
  | queued
  | running (cx : Nat)
  /-- Displaced (R285): its started vector work completes before its image is parked. -/
  | parking (cx : Nat)
  /-- On its way to a grid neighbour (R286). -/
  | moving
  | parked (cx : Nat)
  | saved (cx : Nat)
  /-- Stopped for good (R288): the context its image stands in, as State.ctx names it, and how far R288 has come: 0 until
  its writes are performed, 1 until its started descendants have ended. -/
  | abandoning (cx : Nat) (phase : Nat)
  deriving DecidableEq, Repr

/-- What becomes of an abandoned job's descendants and engine work is done at once; its abandon action waits for its
writes (R288 step 7). -/
structure Job where
  tenant : Nat := 0
  wid : Word := 0
  layout : Word := 0
  deadline : Word := 0
  /-- BE by its launch (R275); a demoted job is late. -/
  be : Bool := false
  demote : Bool := false
  late : Bool := false
  vlc : Nat := 0
  matrix : Bool := false
  group : Nat := 0xFF
  reservation : Option Nat := none
  /-- Which reservation of that id: an id is given again after a removal (R278, R280). -/
  rsvGen : Nat := 0
  parent : Option Nat := none
  /-- Its parent, the parent's parent, and so on through SPAWN (R275). -/
  ancestors : List Nat := []
  weir : Nat := 0x1FFF
  abword : Word := 0
  abaddr : Word := 0
  mask : Nat := 0xFFF
  cluster : Nat := 0
  pc : Word := 0
  arg : Word := 0
  payload : List Word := []
  origin : Origin := .spawn
  msrc : Option Nat := none
  mtag : Option Nat := none
  replyRight : Option Nat := none
  /-- The first handle of its launch: queued neighbours of one launch share a record (R281). -/
  launch : Nat := 0
  /-- Children of one launch that were moved apart from it stand in a record of their own (R281, R286). -/
  range : Nat := 0
  /-- Local time up to which its reservation is charged (R278). -/
  charged : Nat := 0
  ready : Nat := 0
  dispatched : Option Nat := none
  /-- The quads it holds: the lowest (R283). -/
  quad : Nat := 0
  state : JobState := .queued
  /-- Where a parked image lies: in its cluster's space, or in the overflow space of a slice (R9, R285). -/
  park : Option Nat := none
  /-- The context it last ran in (R288). -/
  lastCx : Option Nat := none
  /-- A saved job that was running on a loan (R351). -/
  onLoan : Bool := false
  /-- The image of a parked, saved or stopped-for-good job (R107, R288). -/
  img : Option Ctx := none
  /-- Its matrix unit, while the image is parked or saved (R174). -/
  mx : Option MatrixUnit := none
  deriving DecidableEq, Repr

end Sys2Proof.Machine
end

