-- ==== Sys2Proof/Machine/Units.lean ====
section
/-! DEFINITION. What the units beside the cores hold: networks in flight, route tags and inboxes, weirs, barriers, launch
groups, stream engines, flumes, coding engines, headrace ports, reservations, service cores and the links (chapters 8, 11 to
15 and 19). -/

namespace Sys2Proof.Machine

/-! ### Active messages (R299 to R306) -/

/-- The sender of an operation that an answer comes back to: its job and the operation's order number. -/
structure Sender where
  job : Nat
  ord : Nat
  deriving DecidableEq, Repr

/-- An active message in flight (R301). -/
structure ActiveMsg where
  /-- MSENDRP, on ARSP. -/
  reply : Bool
  /-- It is the first reply under a reply right, and fills the slot its request reserved (R304). -/
  right : Bool
  tenant : Nat
  deadline : Word
  group : Nat
  src : Nat
  dst : Nat
  tag : Nat
  payload : List Word
  sender : Option Sender
  /-- The step in which it was issued, which orders it among the empty releases (R8). -/
  sent : Nat
  deriving DecidableEq, Repr

/-- An answer in flight to a sender (R301, R260, R355): the value written to d. -/
structure Answer where
  sender : Sender
  status : Word
  /-- A request that was not accepted gives its ARSP slot on this core back: the core and the owner. -/
  slot : Option (Nat × Nat)
  /-- The core and the launch group it counts as sent in (R314). -/
  counted : Option (Nat × Nat)
  deriving DecidableEq, Repr

/-- An empty release in flight (R304): the core it leaves, in which step, and the core and owner whose reserved slot it frees. -/
structure SlotRelease where
  src : Nat
  core : Nat
  owner : Nat
  sent : Nat
  deriving DecidableEq, Repr

/-- A merge trigger that waits for its handler (R182). -/
structure Trigger where
  mailbox : Word
  version : Nat
  merges : Nat
  deriving DecidableEq, Repr

/-- What an entry of a core's inboxes is. -/
inductive EntryKind where
  | request | reply
  /-- It holds a completion entry (R302). -/
  | completion
  | trigger (t : Trigger)
  deriving DecidableEq, Repr

/-- A handler that waits to start (R302, R305): entries of one core stand in the order of acceptance. -/
structure HandlerEntry where
  kind : EntryKind
  tag : Nat
  tenant : Nat
  group : Nat
  /-- The deadline that what it was accepted from carries; of a trigger its own, fixed when it was set (R182, R305). -/
  deadline : Word
  payload : List Word
  /-- MSRC; none for an ENG delivery. -/
  src : Option Nat
  ready : Nat
  deriving DecidableEq, Repr

/-- A route tag (R299); OWNER stands in the table and PEND in the entries. -/
structure RouteTag where
  handler : Word := 0
  en : Bool := false
  matrix : Bool := false
  be : Bool := false
  vlc : Nat := 0
  reldl : Nat := 0
  deriving DecidableEq, Repr

/-- A counting barrier (R311). -/
structure Barrier where
  part : Nat := 0
  rem : Nat := 0
  gen : Nat := 0
  err : Bool := false
  deriving DecidableEq, Repr

/-- A barrier arrival in flight (R312). -/
structure BarrierArrival where
  src : Nat
  core : Nat
  id : Nat
  tenant : Nat
  /-- The release it is (R234). -/
  sender : Option Sender
  /-- The step in which it was sent, which orders it among the packets of ENG (R8). -/
  sent : Nat := 0
  deriving DecidableEq, Repr

/-! ### ENG deliveries and weirs (R302, R307 to R310) -/

/-- Where an ENG delivery waits (R302). -/
inductive EngSource where
  | engine (e : Nat)
  | weir (id : Nat)
  | service (s : Nat)
  | group
  deriving DecidableEq, Repr

/-- A delivery on ENG that starts a handler (R302). -/
structure EngPacket where
  source : EngSource
  tenant : Nat
  dst : Nat
  tag : Nat
  payload : List Word
  deadline : Word
  /-- The launch group it counted as sent in (R314). -/
  counted : Option Nat
  sent : Nat := 0
  deriving DecidableEq, Repr

/-- Where a weir arrival comes from (R8), and who refused arrivals are logged for (R309, R352). -/
inductive ArrivalSource where
  | core (c : Nat)
  | engine (e : Nat)
  /-- A flume of this cluster. -/
  | flume (k : Nat)
  /-- The end of a job of this cluster, or its Governor. -/
  | cluster (k : Nat)
  /-- The service core or the host port at this slice. -/
  | slice (x : Nat)
  deriving DecidableEq, Repr

/-- A weir arrival in flight (R309). -/
structure WeirArrival where
  source : ArrivalSource
  weir : Nat
  tenant : Nat
  weight : Nat
  abort : Bool
  /-- WSIG: the release it is (R234). -/
  sender : Option Sender
  sent : Nat := 0
  deriving DecidableEq, Repr

/-- The identity WARM captures (R308, R431). -/
structure Captured where
  tenant : Nat := 63
  deadline : Word := 0
  be : Bool := false
  group : Nat := 0xFF
  root : Word := 0
  deriving DecidableEq, Repr

/-- A weir (R307). -/
structure Weir where
  fires : Nat := 0
  foreign : Bool := false
  ovf : Bool := false
  lastAbort : Bool := false
  abortSeen : Bool := false
  excess : Nat := 0
  kind : Nat := 3
  armed : Bool := false
  pktFail : Bool := false
  count : Nat := 0
  pointer : Word := 0
  who : Captured := {}
  deriving DecidableEq, Repr

/-- A fired weir whose packet is still to be made (R310). -/
structure Firing where
  weir : Nat
  kind : Nat
  pointer : Word
  abort : Bool
  who : Captured
  deriving DecidableEq, Repr

/-! ### Launch groups (R313 to R315) -/

inductive GroupState where
  | free | open_ | closing
  deriving DecidableEq, Repr

/-- A launch group; the totals are those of the last sweep, ended and abandoned run on. -/
structure Group where
  state : GroupState := .free
  started : Bool := false
  owner : Nat := 63
  completion : Word := 0
  deadline : Word := 0
  ended : Nat := 0
  abandoned : Nat := 0
  swSent : Nat := 0
  swRecv : Nat := 0
  swEnded : Nat := 0
  swAbandoned : Nat := 0
  /-- The last sweep found every cluster idle and the totals equal, at this total. -/
  quiet : Option Nat := none
  deriving DecidableEq, Repr

/-- What a cluster reports of a group at a sweep (R315). -/
structure GroupReport where
  idle : Bool
  sent : Nat
  recv : Nat
  deriving DecidableEq, Repr

/-- A group completion that is still to be sent (R315). -/
structure GroupDone where
  group : Nat
  owner : Nat
  completion : Word
  deadline : Word
  ended : Nat
  abandoned : Nat
  sent : Nat
  deriving DecidableEq, Repr

/-! ### Stream engines and flumes (R241 to R254) -/

/-- A stretch of a strip's stream whose source and destination were translated at its issue (R246). -/
structure Piece where
  /-- Offset in the stream. -/
  at_ : Nat
  len : Nat
  src : Nat
  dst : Nat
  /-- The owner of the bank that may hold the source's line, and the destination's (R201). -/
  from_ : Option Nat
  cached : Option Nat
  deriving DecidableEq, Repr

/-- A granted strip (R246, R248). -/
structure Strip where
  tenant : Nat
  sender : Sender
  port : Nat
  map : Nat
  first : Nat
  bytes : Nat
  pieces : List Piece
  begun : Bool
  /-- Chunks not served yet, and chunks served whose bit is not set. -/
  todo : List Nat
  served : List Nat
  /-- A port-fed strip fills this slot of this flume (R254). -/
  slot : Option (Nat × Nat)
  /-- Destination lines that it has written with a poisoned check code (R246). -/
  bad : List Nat := []
  deriving DecidableEq, Repr

/-- A flume descriptor (R250). -/
structure Flume where
  en : Bool := false
  owner : Nat := 63
  prod : Nat := 0
  src : Nat := 0
  weir : Nat := 0x1FFF
  log2n : Nat := 0
  base : Nat := 0
  slotsz : Nat := 0
  rel : Nat := 0
  pop : Nat := 0
  fill : Nat := 0
  claim : Nat := 0
  done : List Nat := []
  released : List Nat := []
  deriving DecidableEq, Repr

/-! ### Coding engines (R260 to R265) -/

inductive CmdStage where
  /-- On its way to the engine; it holds a footprint entry (R260). -/
  | flight
  /-- Fired by a weir, it waits for its inbox and footprint entries (R310). -/
  | pending
  | waiting
  /-- It has run; its completion is still to come: status, header word 0 and the faulting address. -/
  | done (status : Nat) (header : Nat) (fault : Word)
  /-- It has left the table without a run; its message completion waits for one of the engine's four places (R263). -/
  | unrun (status : Nat)
  deriving DecidableEq, Repr

/-- An engine command (R260); those recorded in the footprint table stand in arrival order. -/
structure EngCmd where
  engine : Nat
  tenant : Nat
  sender : Option Sender
  addr : Word
  words : List Word
  root : Word
  deadline : Word
  be : Bool
  group : Nat
  /-- A message completion that counted as sent at acceptance (R314). -/
  counted : Bool
  stage : CmdStage
  arrival : Nat
  /-- BOUND, and its job has ended by abandonment: the completion is discarded (R263). -/
  discard : Bool
  /-- The core, and the step, in which it was sent on AREQ (R8). -/
  src : Nat := 0
  sent : Nat := 0
  deriving DecidableEq, Repr

/-- An engine's counts of one tenant (R265). -/
structure EngCounts where
  completed : Word := 0
  discard : Nat := 0
  aborted : Nat := 0
  cancelled : Nat := 0
  fault : Word := 0
  deriving DecidableEq, Repr

/-! ### The headrace (R255 to R259) -/

/-- An alignment group's settings (R256, R372). -/
structure HrGroup where
  part : Nat
  mu : Nat
  cbf : Bool
  nstr : Nat
  tds : Bool
  nprb : Nat
  nfft : Nat
  cplen : Nat
  tol : Nat
  epoch : Nat
  compHdr : Nat
  eaxc : List Nat
  rcnt : List Nat
  deriving DecidableEq, Repr

/-- A row under construction or waiting for a slot (R256 to R258): its symbol's start, when it was opened and closed, its SEQ
once it has one, and its bytes from offset 0x40; received and erased units (PRBs, or sample indices in the time-domain split)
by 4096 × stream + unit. -/
structure Row where
  start : Nat
  frame : Nat
  subframe : Nat
  slot : Nat
  symbol : Nat
  opened : Nat
  closed : Option Nat := none
  late : Bool := false
  seq : Nat := 0
  samples : Memory := []
  got : FMap Bool := []
  bad : FMap Bool := []
  deriving DecidableEq, Repr

/-- The counters of a stream (R258). -/
structure HrCounters where
  sat : Nat := 0
  dup : Nat := 0
  late : Nat := 0
  early : Nat := 0
  seqgap : Nat := 0
  ovr : Nat := 0
  noflume : Nat := 0
  /-- PRBs of undecoded sections (R255). -/
  undec : Nat := 0
  deriving DecidableEq, Repr

/-- The state of a group's rows. -/
structure HrRows where
  /-- Rows not yet delivered, waiting or lost, by their symbol's start. -/
  open_ : FMap Row := []
  waiting : List Row := []
  /-- The symbol start of the last row that left open_. -/
  closedTo : Option Nat := none
  seq : Nat := 0
  /-- Rows lost to overrun since the last delivered row. -/
  ovr : Nat := 0
  nextSeqId : FMap Nat := []
  counters : FMap HrCounters := []
  deriving DecidableEq, Repr

/-- A headrace port: frames for the service domain, frames to send, and counts. -/
structure Port where
  rx : List EthFrame := []
  tx : List EthFrame := []
  other : Nat := 0
  fcsBad : Nat := 0
  groups : FMap HrGroup := []
  rows : FMap HrRows := []
  deriving DecidableEq, Repr

/-! ### Reservations, moves and meters (R276 to R279, R286, R425) -/

/-- An admitted reservation. -/
structure Rsv where
  p : Nat
  q : Nat
  d : Nat
  o : Nat
  tenant : Nat
  root : LaunchRec
  consumed : Nat
  /-- The next release. -/
  next : Nat
  /-- Which reservation of its id this is. -/
  gen : Nat := 0
  deriving DecidableEq, Repr

/-- A BE job on its way to a neighbour (R286): it still counts for the sending cluster until some later sweep (R315). -/
structure Move where
  job : Nat
  group : Nat
  from_ : Nat
  to_ : Nat
  arrived : Option Nat
  deriving DecidableEq, Repr

/-- Energy in nJ (R357, R425, R426). -/
structure Meters where
  tenant : FMap Nat := []
  rsv : FMap Nat := []
  device : Nat := 0
  deriving DecidableEq, Repr

/-! ### Service cores (R365 to R377) -/

/-- What a kernel instance writes in the pages of its slice, for a function of its own or at the request of another (R366, R374, R377
to R379): D of a leaf cleared; a leaf left with its page number alone; a leaf made valid with the low bits given; bytes. -/
inductive PageWrite where
  | clean (at_ : Nat)
  | invalid (at_ : Nat)
  | valid (at_ : Nat) (low : Nat)
  | bytes (at_ : Nat) (bs : List Byte)
  deriving DecidableEq, Repr

/-- A service call (R367, R368). -/
structure Call where
  tenant : Nat
  /-- The owner whose queue holds it: 62 for an internal call (R366). -/
  queue : Nat
  token : Nat
  block : Word
  root : Word
  deadline : Word
  sender : Option Sender
  src : Nat
  slice : Nat
  /-- A call that a kernel instance makes itself has no block: FUNC, REPLY and the arguments, with physical addresses (R366). -/
  own : Option (List Word) := none
  /-- Once it has begun: the words of its block, and the steps it makes before its last (R370, R375). -/
  work : Option (List Nat × Nat) := none
  /-- It waits: TABLE_LOAD, accepted, for the jobs to be gone (R337); others for what they asked of other instances (R366). -/
  begun : Bool
  /-- The number under which it has asked other instances (R366, R374), or under which it asks. -/
  asks : Option Nat := none
  /-- What it asks the instance that it is queued at to write. -/
  writes : List PageWrite := []
  /-- HARVEST, UNMAP_OBJECT: the offsets of the pages found dirty, and what comes next: 0 their leaves are cleaned, 1 they are copied,
  2 the object's leaves are written (R378, R379). -/
  pages : List Nat := []
  stage : Nat := 0
  /-- A debug call forwarded to instance 0: the copy's number of the original, and at the original STATUS and RESULT (R374). -/
  copyOf : Option Nat := none
  answer : Option (Nat × Nat) := none
  deriving DecidableEq, Repr

/-- A forwarded page fault (R327, R377). -/
structure ObjFault where
  tenant : Nat
  job : Nat
  va : Word
  write : Bool
  /-- Its page is filled, and the instance that owns the leaf has been asked under this number to make it valid (R366). -/
  asks : Option Nat := none
  deriving DecidableEq, Repr

/-- What the RV64GC core of a slice holds (R365): its integer registers x1 to x31, its floating-point registers, its control and status
registers by number, its program counter, and its mode (0 machine, 1 supervisor, 2 user). -/
structure Hart where
  x : List Word := List.replicate 31 0
  f : List Word := List.replicate 32 0
  csr : List Word := List.replicate 4096 0
  pc : Word := 0
  mode : Nat := 0
  deriving DecidableEq, Repr

/-- A service core (R365, R368, R375). -/
structure SvcCore where
  calls : List Call := []
  faults : List ObjFault := []
  last : Nat := 63
  credit : FMap Int := []
  /-- notes/assumptions/95.md. -/
  hart : Hart := {}
  deriving DecidableEq, Repr

/-- A mapped host object (R376). -/
structure HostObj where
  va : Nat
  length : Nat
  host : Nat
  w : Bool
  auto : Bool
  period : Nat
  root : Word
  /-- The next periodic harvest. -/
  due : Nat
  /-- Its leaves are being written invalid: it serves no fault any more (R379). -/
  gone : Bool := false
  deriving DecidableEq, Repr

/-- A stop reported to a debug session (R374). -/
structure Stop where
  job : Nat
  core : Nat
  ctx : Nat
  tepc : Word
  imm : Word
  deriving DecidableEq, Repr

/-- A host launch queue's copies (R380). -/
structure HostQueue where
  block : Nat
  ring : Nat
  log2n : Nat
  tenant : Nat
  floor : Nat
  ceil : Nat
  flume : Nat
  weir0 : Nat
  weirs : Nat
  head : Nat
  deriving DecidableEq, Repr

/-! ### Links, power and readiness (R382 to R394, R419 to R430) -/

/-- The host side (R382 to R389). -/
structure HostLink where
  up : Bool := false
  hb : Nat := 0
  hs : Nat := 0
  /-- Pages in device bias. -/
  bias : FMap Bool := []
  /-- Window lines the host may hold, the oldest first, and whether exclusively. -/
  snoop : List (Nat × Bool) := []
  /-- The dump region: base, size, records written. -/
  dump : Option (Nat × Nat × Nat) := none
  tails : FMap Nat := []
  sigw : Nat := 0x1FFF
  /-- How often each of the 64 MSI-X vectors has been raised (R382). -/
  msix : FMap Nat := []
  /-- What the host last read through the DOE mailbox (R429). -/
  spdm : List Byte := []
  deriving DecidableEq, Repr

/-- The twin side (R390 to R392). -/
structure Twin where
  paired : Bool := false
  imports : List TwinGrant := []
  exports : FMap Nat := []
  deriving DecidableEq, Repr

/-- Supplies, readiness, clock and gating (R419 to R430). -/
structure Power where
  supplies : Bool := false
  /-- Trained channels with their capacity units (R420). -/
  chan : FMap Nat := []
  cluster : FMap Bool := []
  svc : FMap Bool := []
  port : FMap Bool := []
  microKernel : Bool := false
  step : Nat := 0
  /-- R426: 0 no throttling, 1 no BE dispatch, 2 BE displaced, 3 step lowered. -/
  throttle : Nat := 0
  /-- Gated units, by GateUnit.key, and units whose ungating is under way. -/
  gated : FMap Bool := []
  waking : FMap Bool := []
  still : Bool := false
  asleep : FMap Bool := []
  /-- When a channel of LPDDR 6 that an access has reached leaves self-refresh, and when the mesh last carried a request (R424). -/
  wakeAt : FMap Nat := []
  lastMesh : Nat := 0
  /-- The SHA-384 measurement chain (R429). -/
  chain : BitVec 384 := 0
  /-- Since when the modelled power has been below 90% of the cap (R426). -/
  lowSince : Option Nat := none
  deriving DecidableEq, Repr

end Sys2Proof.Machine
end

