-- ==== Sys2Proof/Machine/State.lean ====
section
/-! DEFINITION. The state of the device, the reasons a step can stop, and the state after reset. -/

namespace Sys2Proof.Machine

/-- Why the machine stops with a fault. -/
inductive Fault where
  /-- Raised by nobody while the supplies stand (R430): a step of a device without power is an idle step.  Kept for a unit
  that would act outside the 48-bit physical space; safe, since such a step has no next state. -/
  | noPlace
  deriving DecidableEq, Repr

/-- Why an instruction is refused. -/
inductive Refusal where
  /-- Raised by an arm of exec whose instruction has no meaning yet; safe, since nothing is claimed of it. -/
  | notModelled (mnemonic : String)
  deriving DecidableEq, Repr

/-- Whose turn the next step is (notes/assumptions/1.md). -/
inductive Turn where
  /-- A context issues its next instruction. -/
  | run (cx : Nat)
  /-- The resident micro-kernel acts on a trap of a context (R327). -/
  | kernel (cx : Nat)
  /-- A unit's step. -/
  | event (i : Instr)
  deriving DecidableEq, Repr

/-- The model's own latches. -/
structure Sched where
  /-- The turns to come, the next first. -/
  agenda : List Turn := []
  /-- The context that issues (4 × core + slot). -/
  cur : Nat := 0
  /-- Halfwords of the chain being executed (R54). -/
  ilen : Nat := 1
  /-- Free values drawn so far (notes/assumptions/2.md). -/
  draws : Nat := 0
  /-- Steps taken. -/
  steps : Nat := 0
  /-- The job and the order number with which each context last tried to issue (R82, R409). -/
  tried : FMap (Option Sender) := []
  /-- A place that the present turn reaches and whose home is not ready: the turn waits (R420, R424). -/
  held : Option Nat := none
  deriving DecidableEq, Repr

/-- The time counters (R13, R268) and the arithmetic clock (R103). -/
structure Time where
  /-- The distributed reference, in ns. -/
  ref : Nat := 0
  /-- Cycles of the arithmetic clock since device reset. -/
  cycles : Nat := 0
  cluster : FMap Nat := []
  slice : FMap Nat := []
  locked : Bool := false
  everLocked : Bool := false
  deriving DecidableEq, Repr

/-- A translation a TLB holds (R203, R205). -/
structure TlbEntry where
  owner : Nat
  va : Nat
  pa : Nat
  size : Nat
  r : Bool
  w : Bool
  x : Bool
  u : Bool
  uc : Bool
  d : Bool
  /-- The lane bank of the L1 TLB that holds it (R205). -/
  bank : Nat := 0
  deriving DecidableEq, Repr

/-- A gate edge under way on a core (R341): its time E, the window it enters, and the outgoing and incoming owners. -/
structure Edge where
  at_ : Nat
  window : Nat
  out : Nat
  in_ : Nat
  /-- A loan's end rather than a window's (R351). -/
  loan : Bool
  deriving DecidableEq, Repr

/-- A loan of a core (R349). -/
structure Loan where
  to_ : Nat
  start : Nat
  deriving DecidableEq, Repr

/-- A core's own state. -/
structure Core where
  /-- The owner code in force (R336, R341). -/
  owner : Nat := 63
  loan : Option Loan := none
  edge : Option Edge := none
  /-- R340: no dispatch for the outgoing owner. -/
  guarded : Bool := false
  /-- R344: the window in force began after its owner's quarantine. -/
  quarIdle : Bool := false
  /-- Gated by an edge to owner code 63 (R341). -/
  edgeGated : Bool := false
  /-- Cycles the core has spent gated, and the cycle at which the present gating began (R103). -/
  gatedCycles : Nat := 0
  gatedFrom : Option Nat := none
  /-- Since when the owner has no running job here (R349). -/
  idleSince : Nat := 0
  /-- Branch direction counters, 1 when not listed (R98). -/
  branches : FMap Nat := []
  tlb : List TlbEntry := []
  mx : MatrixUnit := {}
  tags : FMap RouteTag := []
  /-- Handlers that wait, in the order of acceptance (R302, R305). -/
  entries : List HandlerEntry := []
  /-- Reserved ARSP slots of each owner (R301). -/
  reserved : FMap Nat := []
  barriers : FMap Barrier := []
  foreign : Nat := 0
  /-- Totals of each launch group (R314). -/
  sent : FMap Nat := []
  recv : FMap Nat := []
  /-- MBTAB, DROPS and MERGES of each owner (R178, R193). -/
  mbtab : FMap Word := []
  drops : FMap Nat := []
  merges : FMap Word := []
  deriving DecidableEq, Repr

/-- A cluster's own state. -/
structure Cluster where
  tlb : List TlbEntry := []
  maps : FMap Word := []
  strips : List Strip := []
  /-- The tenant whose chunk was served last (R241). -/
  lastTenant : Nat := 63
  flumes : FMap Flume := []
  weirs : FMap Weir := []
  /-- The owner the last decision served (R284). -/
  lastOwner : Nat := 63
  /-- A loan has begun, at which the Governor makes its decisions (R284). -/
  toDecide : Bool := false
  /-- Published BE counts (R286). -/
  published : FMap Nat := []
  lastAverage : Nat := 0
  /-- The last microsecond of local time at which the budgets were brought up to date (R278). -/
  lastBudget : Nat := 0
  /-- Deficits by 64 × donor + beneficiary, and the pointer of each donor, as the beneficiary last lent to (R350). -/
  deficit : FMap Int := []
  pointer : FMap Nat := []
  deriving DecidableEq, Repr

/-- A cached line that differs from its home (R201): the owner of its bank, whether it is dirty, and what its home holds.  A clean one
was retained in a bank that an access without a bank, or a UC access, passed by. -/
structure CachedLine where
  owner : Nat
  dirty : Bool
  home : List Byte
  deriving DecidableEq, Repr

/-- The device. -/
structure State where
  sched : Sched := {}
  time : Time := {}
  mem : Memory := []
  /-- Bytes of LPDDR 6 that exist: what training found, and before a slice is trained the whole range (R200, R420). -/
  lpddr : Nat := 2 ^ 38
  /-- Cached lines that differ from their homes, by line (R201, R211). -/
  stale : FMap CachedLine := []
  /-- Poisoned 8-byte words, by place / 8 (R428). -/
  ecc : FMap Bool := []
  /-- Host-homed lines poisoned by a link loss (R389). -/
  linkPoison : FMap Bool := []
  ctxs : FMap Ctx := []
  jobs : FMap Job := []
  cores : FMap Core := []
  clusters : FMap Cluster := []
  sluice : Sluice := {}
  /-- The networks in flight: AREQ and ARSP, their answers and releases, GMSG, ENG, weir and barrier arrivals. -/
  am : List ActiveMsg := []
  answers : List Answer := []
  slotReleases : List SlotRelease := []
  gmsg : List (GaussMsg × Option Sender) := []
  eng : List EngPacket := []
  weirArrivals : List WeirArrival := []
  firings : List Firing := []
  barrierArrivals : List BarrierArrival := []
  groups : FMap Group := []
  groupDone : List GroupDone := []
  /-- SWEEP in units of 0.5 µs, and the time of the last sweep that has begun (R315). -/
  sweep : Nat := 2
  lastSweep : Nat := 0
  /-- The reports of a sweep that not every cluster has made, by cluster and group; and the step that combined the last ones (R315). -/
  reports : FMap (FMap GroupReport) := []
  sweptAt : Nat := 0
  rsvs : FMap Rsv := []
  moves : List Move := []
  lostLaunch : FMap Nat := []
  abwFail : FMap Nat := []
  cmds : List EngCmd := []
  cmdCount : Nat := 0
  /-- Answers of the engines in flight. -/
  engAnswers : List Answer := []
  /-- Counts by 64 × engine + tenant (R265). -/
  engCounts : FMap EngCounts := []
  ports : FMap Port := []
  /-- Service calls in flight, their answers, and the service cores. -/
  svcFlight : List Call := []
  svcAnswers : List Answer := []
  svc : FMap SvcCore := []
  /-- Host objects by 256 × tenant + id (R376). -/
  objects : FMap HostObj := []
  /-- Debug sessions by tenant, with their stops (R374). -/
  sessions : FMap (List Stop) := []
  hqueues : FMap HostQueue := []
  host : HostLink := {}
  twin : Twin := {}
  power : Power := {}
  meters : Meters := {}
  /-- The 256 KiB telemetry SRAM by 8-byte word (R427; notes/assumptions/110.md). -/
  telemetry : FMap Nat := []
  deriving DecidableEq, Repr

/-- The device right after reset (R31, R89, R91, R268, R336, R419; notes/assumptions/3.md to 8.md). -/
def State.reset : State := {}

end Sys2Proof.Machine
end

