-- ==== Sys2Proof/Machine/Ops.lean ====
section
/-! DEFINITION. The named operations over the state: contexts and their registers, time, memory with its caches and
translation, the squash, the log, and taking a trap and returning from one. -/

namespace Sys2Proof.Machine

/-- What a step answers. -/
abbrev Out := Host.Outcome State Fault Refusal

/-! ### Cores, contexts and jobs -/

/-- How many contexts the device has (R5). -/
def numCtx : Nat := 384

/-- The core of a context. -/
def coreOf (cx : Nat) : Nat := cx / 4
/-- The cluster of a core (R5). -/
def clusterOf (core : Nat) : Nat := core / 8

/-! ### The mesh (R7) -/

/-- The node of a cluster. -/
def clusterNode (c : Nat) : Nat × Nat := (1 + c / 4, c % 4)
/-- The node of a slice. -/
def sliceNode (sl : Nat) : Nat × Nat := if sl < 4 then (0, sl) else (4, sl - 4)
/-- Hops between two nodes: along x, then along y (R8). -/
def meshHops (a b : Nat × Nat) : Nat := (a.1 - b.1) + (b.1 - a.1) + (a.2 - b.2) + (b.2 - a.2)
/-- R9: the nearest slice of a cluster; of two equally near the lower. -/
def nearestSlice (k : Nat) : Nat :=
  (List.range 8).foldl (fun b sl =>
    if meshHops (clusterNode k) (sliceNode sl) < meshHops (clusterNode k) (sliceNode b) then sl else b) 0
/-- The slices at which the host port and the twin port attach. -/
def hostSlice : Nat := 0
def twinSlice : Nat := 7

/-- The node of a core; the twin's cores lie behind the twin port. -/
def coreNode (core : Nat) : Nat × Nat := if core < 96 then clusterNode (clusterOf core) else sliceNode twinSlice
/-- R8: two packets go from one node to one node. -/
def sameRoute (src dst src' dst' : Nat) : Bool := coreNode src == coreNode src' && coreNode dst == coreNode dst'

/-- A job's record. -/
def State.job? (s : State) (h : Nat) : Option Job := s.jobs.find? h
def State.putJob (s : State) (h : Nat) (j : Job) : State := { s with jobs := s.jobs.insert h j }
def State.dropJob (s : State) (h : Nat) : State := { s with jobs := s.jobs.erase h }
def State.modJob (s : State) (h : Nat) (f : Job → Job) : State :=
  match s.job? h with
  | some j => s.putJob h (f j)
  | none => s

/-- The context a reference names: below 384 a context of a core, else the image of the job whose handle is the rest
(R107, R342). -/
def State.ctx (s : State) (cx : Nat) : Ctx :=
  if cx < numCtx then s.ctxs.get Ctx.reset cx
  else match s.job? (cx - numCtx) with
    | some j => j.img.getD Ctx.reset
    | none => Ctx.reset

/-- A context written where its reference names it. -/
def State.setCtx (s : State) (cx : Nat) (c : Ctx) : State :=
  if cx < numCtx then { s with ctxs := s.ctxs.set Ctx.reset cx c }
  else match s.job? (cx - numCtx) with
    | some j => if j.img.isSome then s.putJob (cx - numCtx) { j with img := some c } else s
    | none => s

def State.modCtx (s : State) (cx : Nat) (f : Ctx → Ctx) : State := s.setCtx cx (f (s.ctx cx))

/-- The context that issues. -/
def State.curCtx (s : State) : Ctx := s.ctx s.sched.cur
def State.setCur (s : State) (c : Ctx) : State := s.setCtx s.sched.cur c

/-- A core's state. -/
def State.core (s : State) (c : Nat) : Core := s.cores.get {} c
def State.setCore (s : State) (c : Nat) (k : Core) : State := { s with cores := s.cores.set {} c k }
def State.modCore (s : State) (c : Nat) (f : Core → Core) : State := s.setCore c (f (s.core c))

/-- A cluster's state. -/
def State.cluster (s : State) (k : Nat) : Cluster := s.clusters.get {} k
def State.setCluster (s : State) (k : Nat) (c : Cluster) : State := { s with clusters := s.clusters.set {} k c }
def State.modCluster (s : State) (k : Nat) (f : Cluster → Cluster) : State := s.setCluster k (f (s.cluster k))

/-- The job of a context. -/
def State.jobOf (s : State) (c : Ctx) : Option Job := c.job.bind s.job?

/-- TENANT: the owner code of a context's job; 63 without one. -/
def State.tenantOf (s : State) (c : Ctx) : Nat :=
  match s.jobOf c with
  | some j => j.tenant
  | none => 63

/-- Where a job's context stands: a reference as State.ctx takes it. -/
def State.refOf (s : State) (h : Nat) : Nat :=
  match s.job? h with
  | some j =>
    match j.state with
    | .running cx => cx
    | .parking cx => cx
    | .abandoning cx _ => cx
    | _ => numCtx + h
  | none => numCtx + h

/-! ### Free values -/

/-- A free bit, and the state with the draw counted (notes/assumptions/2.md). -/
def State.drawBit (s : State) : Bool × State :=
  (Config.freeBit s.sched.draws, { s with sched := { s.sched with draws := s.sched.draws + 1 } })

/-- A free number, and the state with the draw counted. -/
def State.drawNat (s : State) : Nat × State :=
  (Config.freeNat s.sched.draws, { s with sched := { s.sched with draws := s.sched.draws + 1 } })

/-! ### Power-gated units (R358, R423) -/

/-- The key of a unit among the gated ones. -/
def GateUnit.key : GateUnit → Nat
  | .core c => c
  | .quad c q => 100 + 4 * c + q
  | .matrix c => 500 + c
  | .engine e => 600 + e
  | .cluster k => 700 + k
def State.gated (s : State) (u : GateUnit) : Bool := s.power.gated.get false (GateUnit.key u)
def State.setGated (s : State) (u : GateUnit) (on : Bool) : State :=
  { s with power := { s.power with gated := s.power.gated.set false (GateUnit.key u) on } }

/-- R82, R110, R290, R341, R358: the context holds a running job on a core that is powered and not at an edge, and its vector queue
has room. -/
def State.mayIssue (s : State) (cx : Nat) : Bool :=
  let c := s.ctx cx
  let k := s.core (coreOf cx)
  decide (cx < numCtx) && c.status == .running && (s.jobOf c).any (fun j => j.state == .running cx) && k.edge.isNone &&
    decide (c.vq.length < 16) && !s.gated (.core (coreOf cx)) && !s.gated (.cluster (clusterOf (coreOf cx)))

/-! ### Time (R13, R268) -/

/-- A counter near the distributed reference: never below what it showed, at most 8 ns ahead of the reference. -/
def State.counterNow (s : State) (old : Nat) : Nat := max old (s.time.ref + Config.skew s.sched.draws % 9)

/-- The local counter of a cluster, and the state that remembers it. -/
def State.clusterNow (s : State) (k : Nat) : Nat × State :=
  let t := s.counterNow (s.time.cluster.get 0 k)
  (t, { s with
    time := { s.time with cluster := s.time.cluster.set 0 k t }
    sched := { s.sched with draws := s.sched.draws + 1 } })

/-- The local counter of a slice, and the state that remembers it. -/
def State.sliceNow (s : State) (k : Nat) : Nat × State :=
  let t := s.counterNow (s.time.slice.get 0 k)
  (t, { s with
    time := { s.time with slice := s.time.slice.set 0 k t }
    sched := { s.sched with draws := s.sched.draws + 1 } })

/-! ### Registers -/

/-- A scalar register; s0 reads 0 (R89, R94). -/
def Ctx.reg (c : Ctx) (r : SReg) : Word := if r.val = 0 then 0 else c.sregs.get 0 r.val

/-- A scalar register written; a write to s0 is discarded (R89, R94).  The mark of an uncorrectable load goes (R85). -/
def Ctx.setReg (c : Ctx) (r : SReg) (v : Word) : Ctx :=
  if r.val = 0 then c
  else { c with sregs := c.sregs.set 0 r.val v, badRegs := c.badRegs.erase r.val }

def Ctx.vreg (c : Ctx) (r : VReg) : BitVec 4096 := c.vregs.get 0 r.val
def Ctx.setVreg (c : Ctx) (r : VReg) (v : BitVec 4096) : Ctx := { c with vregs := c.vregs.set 0 r.val v }
def Ctx.mreg (c : Ctx) (r : MReg) : BitVec 512 := c.mregs.get 0 r.val
def Ctx.setMreg (c : Ctx) (r : MReg) (v : BitVec 512) : Ctx := { c with mregs := c.mregs.set 0 r.val v }

/-- Bits of an element of a format (R28). -/
def Fmt.bits : Fmt → Nat
  | .i8 => 8 | .i16 => 16 | .i32 => 32 | .i64 => 64 | .f16 => 16 | .bf16 => 16 | .f32 => 32 | .e4m3 => 8 | .e5m2 => 8
  | .cb4 => 4 | .cf16 => 32 | .cbf16 => 32 | .cf32 => 64 | .ci16 => 32 | .e8m0 => 8

/-- min(VGRANT, VLCAP) (R91). -/
def Ctx.vbits (c : Ctx) : Nat := min c.grant c.vlcap.toNat

/-- VLMAX for a format (R29, R91). -/
def Ctx.vlmaxOf (c : Ctx) (f : Fmt) : Nat := c.vbits / Fmt.bits f

/-- VL as a vector-queue instruction takes it (R93): of what SCOPY granted beyond VLMAX, VLMAX alone (R246;
notes/assumptions/100.md). -/
def Ctx.vlTaken (c : Ctx) : Nat := if c.vlOver then c.vl else min c.vl (c.vlmaxOf c.vtype)

/-! ### The front end: interlocks, running ahead, retirement (R82 to R88, R103) -/

/-- The scalar register a vector-queue instruction writes when it completes (R83). -/
def vqScalarDst : Instr → Option SReg
  | .mcnt d _ => some d
  | .many d _ => some d
  | .mfirst d _ => some d
  | .vext d _ _ _ => some d
  | .gld _ _ b => some b
  | _ => none

/-- VCOMPRESS and VLDFF write VL when they complete (R93, R219). -/
def writesVl : Instr → Bool
  | .vcompress _ _ _ => true
  | .vldff _ _ _ => true
  | _ => false

/-- Whether an older vector-queue instruction has not started (R84). -/
def Ctx.unstarted (c : Ctx) : Bool := c.vq.any fun e => !e.started

/-- Whether VL is not known yet (R93). -/
def Ctx.vlPending (c : Ctx) : Bool := c.vq.any fun e => writesVl e.ins

/-- Whether a register waits for an older instruction's result (R83, R227). -/
def Ctx.busy (c : Ctx) (r : SReg) : Bool :=
  decide (r.val ≠ 0) &&
    (c.loads.any (fun l => l.dst == r) || c.vq.any (fun e => vqScalarDst e.ins == some r) || c.ops.any (fun o => o.dst == r))

/-- Undo entries an instruction takes that writes these registers, and VL or VTYPE when vl is set (R86). -/
def undoNeed (writes : List SReg) (vl : Bool) : Nat := (writes.filter fun r => r.val ≠ 0).length + vl.toNat

/-- Whether a free instruction can issue (R82, R83, R86, R93); behind a guessed branch it leaves the registers that the branch tests. -/
def Ctx.canIssue (c : Ctx) (reads writes : List SReg) (vl : Bool) : Bool :=
  !((reads ++ writes).any c.busy) && !(vl && c.vlPending) && c.guess.all (fun g => !writes.any g.reads.contains) &&
    (!c.unstarted || decide (c.undo.length + undoNeed writes vl ≤ 32))

/-- Whether a held instruction can issue (R84). -/
def Ctx.canIssueHeld (c : Ctx) (reads writes : List SReg) : Bool :=
  !((reads ++ writes).any c.busy) && !c.unstarted && c.guess.isNone

/-- The first register read whose load met an error (R85, R389). -/
def Ctx.badRead (c : Ctx) (reads : List SReg) : Option (SReg × BadReg) :=
  reads.findSome? fun r => if r.val = 0 then none else (c.badRegs.find? r.val).map fun b => (r, b)

/-- R86: an instruction that runs ahead, of a vector-queue instruction or of a guessed branch's test, logs what it will change. -/
def Ctx.logUndo (c : Ctx) (writes : List SReg) (vl : Bool) : Ctx :=
  if c.unstarted || c.guess.isSome then
    let regs := (writes.filter fun r => r.val ≠ 0).map fun r =>
      { ord := c.ord, what := UndoWhat.reg r (c.reg r) (c.badRegs.find? r.val) : UndoEntry }
    let vls := if vl then [{ ord := c.ord, what := .vl c.vl c.vtype : UndoEntry }] else []
    { c with undo := c.undo ++ regs ++ vls }
  else c

/-- R103: n scalar instructions retire when every older vector-queue instruction has started: now, or with the last entry of the
queue. -/
def Ctx.count (c : Ctx) (n : Nat) : Ctx :=
  if c.unstarted then
    match c.vq.getLast? with
    | some e => { c with vq := c.vq.dropLast ++ [{ e with after := e.after + n }] }
    | none => c
  else { c with instret := c.instret + BitVec.ofNat 64 n }

/-- A scalar instruction has issued; behind a guessed branch it retires once the branch is decided. -/
def Ctx.retire (c : Ctx) : Ctx :=
  let c := { c with ord := c.ord + 1 }
  if c.guess.isSome then c else c.count 1

/-- One undo entry taken back (R87). -/
def Ctx.undoOne (c : Ctx) (u : UndoEntry) : Ctx :=
  match u.what with
  | .reg r old bad =>
    let c := c.setReg r old
    match bad with
    | some a => { c with badRegs := c.badRegs.insert r.val a }
    | none => c
  | .vl v f => { c with vl := v, vtype := f }

/-- What a context did behind a guessed branch is taken back, and the branch with it (R227). -/
def Ctx.unguess (c : Ctx) : Ctx :=
  match c.guess with
  | none => c
  | some g =>
    let c := (c.undo.filter fun u => g.ord < u.ord).reverse.foldl Ctx.undoOne c
    { c with
      pc := g.pc, ord := g.ord, guess := none
      undo := c.undo.filter fun u => u.ord < g.ord
      loads := c.loads.filter fun l => l.ord < g.ord
      ahead := c.ahead.filter fun a => a.ord < g.ord }

/-- R87: the queue squash of a context; its pc becomes the resume point. -/
def Ctx.squash (c : Ctx) : Ctx :=
  let c := c.unguess
  match c.vq.find? fun e => !e.started with
  | none => { c with undo := [], ahead := [] }
  | some e =>
    let c := c.undo.reverse.foldl Ctx.undoOne c
    { c with
      pc := e.pc
      vq := c.vq.filter fun e => e.started
      loads := c.loads.filter fun l => l.ord < e.ord
      undo := []
      ahead := [] }

/-- R229: the FENCEs at the end of the program order whose wait has not ended are taken back: fs the context's, the youngest first,
o the order number of the resume point. -/
def Ctx.unfence (waits : PendFence → Bool) : Nat → List PendFence → Ctx → Ctx
  | _, [], c => c
  | o, f :: fs, c =>
    if f.ord + 1 = o && waits f then
      Ctx.unfence waits f.ord fs { c with pc := f.pc, instret := c.instret - 1, fences := c.fences.filter fun g => g.ord != f.ord }
    else c

/-- R87: the order number of the resume point. -/
def Ctx.resumeOrd (c : Ctx) : Nat := ((c.vq.find? fun e => !e.started).map (·.ord)).getD c.unguess.ord

/-- R86, R226: what is freed once the entries below the oldest unstarted one have started. -/
def Ctx.freeUndo (c : Ctx) : Ctx :=
  match c.vq.find? fun e => !e.started with
  | none => { c with undo := c.undo.filter (fun u => c.guess.any fun g => g.ord < u.ord), ahead := [] }
  | some e => { c with undo := c.undo.filter (fun u => e.ord < u.ord), ahead := c.ahead.filter (fun a => e.ord < a.ord) }

/-! ### Outstanding operations (R104) -/

/-- Vector loads and vector stores among the queue's entries. -/
def isVecLoad : Instr → Bool
  | .vld _ _ _ => true
  | .vlds _ _ _ _ => true
  | .vldx _ _ _ _ _ => true
  | .vldb _ _ _ => true
  | .vldff _ _ _ => true
  | _ => false
def isVecStore : Instr → Bool
  | .vst _ _ _ => true
  | .vsts _ _ _ _ => true
  | .vstx _ _ _ _ _ => true
  | .vamoadd _ _ _ _ _ => true
  | _ => false

def Ctx.cntLd (c : Ctx) : Nat := c.loads.length + (c.vq.filter fun e => isVecLoad e.ins).length

/-- How many instructions a list of pending stores in order stands for. -/
def distinctOrds : List Nat → Nat
  | [] => 0
  | o :: os => (if os.contains o then 0 else 1) + distinctOrds os

def Ctx.cntSt (c : Ctx) : Nat :=
  distinctOrds (c.stores.map (·.ord)) + (c.vq.filter fun e => isVecStore e.ins && !e.handed).length
def Ctx.cntCp (c : Ctx) : Nat := (c.ops.filter fun o => o.cls == .cp).length
/-- A GSEND counts from its entry into the queue, a GSENDC from its start when it sends (R184). -/
def VEntry.countsEn (e : VEntry) : Bool :=
  match e.ins with
  | .gsend _ _ _ => true
  | .gsendc _ _ _ => e.started && e.sends
  | _ => false
def Ctx.cntEn (c : Ctx) : Nat := (c.ops.filter fun o => o.cls == .en).length + (c.vq.filter VEntry.countsEn).length

/-- An operation is answered: it leaves its counter, and a value goes to its register (R104); a job that is gone takes no
answer. -/
def State.opDone (s : State) (x : Sender) (v : Option Word) : State :=
  if (s.job? x.job).isNone then s
  else s.modCtx (s.refOf x.job) fun c =>
    match c.ops.find? fun o => o.ord == x.ord with
    | none => c
    | some o =>
      let c := { c with ops := c.ops.filter fun o => o.ord != x.ord }
      match v with
      | some v => c.setReg o.dst v
      | none => c

/-- A launch group's record. -/
def State.groupOf (s : State) (g : Nat) : Group := s.groups.get {} g
def State.modGroup (s : State) (g : Nat) (f : Group → Group) : State := { s with groups := s.groups.set {} g (f (s.groupOf g)) }

/-- The group that a launch, a message or a job names for a tenant: itself while it is OPEN for it, else none (R313). -/
def State.namedGroup (s : State) (g tenant : Nat) : Nat :=
  if g < 255 && (s.groupOf g).state == .open_ && (s.groupOf g).owner == tenant then g else 0xFF

/-- R313: a group is STARTED once a job of it is ready. -/
def State.startGroup (s : State) (g : Nat) : State :=
  if g = 0xFF ∨ (s.groupOf g).state = .free then s else s.modGroup g fun x => { x with started := true }

/-- A message counted as received in its launch group (R195, R314). -/
def State.countRecv (s : State) (core group : Nat) : State :=
  if group = 0xFF then s else s.modCore core fun k => { k with recv := k.recv.set 0 group ((k.recv.get 0 group + 1) % 2 ^ 64) }
/-- A message counted as sent in its launch group. -/
def State.countSent (s : State) (core group : Nat) : State :=
  if group = 0xFF then s else s.modCore core fun k => { k with sent := k.sent.set 0 group ((k.sent.get 0 group + 1) % 2 ^ 64) }

/-! ### Physical memory (R200 to R202, R211, R389, R428) -/

/-- Host memory by physical address (R200). -/
def isHostPa (pa : Nat) : Bool := decide (0x010000000000 ≤ pa) && decide (pa < 0x020000000000)
/-- Twin memory by physical address (R200). -/
def isTwinPa (pa : Nat) : Bool := decide (0x020000000000 ≤ pa) && decide (pa < 0x030000000000)
/-- LPDDR 6 that the board carries (R200). -/
def State.isLpddr (s : State) (pa : Nat) : Bool := decide (pa < s.lpddr)
/-- Whether a leaf may name a physical address (R200). -/
def State.paExists (s : State) (pa : Nat) : Bool := s.isLpddr pa || isHostPa pa || isTwinPa pa
/-- The home slice (R200). -/
def homeSlice (pa : Nat) : Nat := pa / 4096 % 8

/-- R420: a slice is ready once its four channels are trained. -/
def State.sliceReady (s : State) (sl : Nat) : Bool := (List.range 4).all fun i => s.power.chan.get 0 (4 * sl + i) != 0
/-- The channel of a physical address (R200). -/
def channelOf (pa : Nat) : Nat := 4 * homeSlice pa + pa / 256 % 4
/-- R420, R424: an access waits while the slice that homes it is not ready, or its LPDDR 6 channel is in self-refresh. -/
def State.homeReady (s : State) (place : Nat) : Bool :=
  decide (2 ^ 48 ≤ place) || (s.sliceReady (homeSlice place) && !(s.isLpddr place && s.power.asleep.get false (channelOf place)))

/-- The first of so many bytes, by blocks of one channel, whose home is not ready. -/
def State.unready (s : State) (place size : Nat) : Option Nat :=
  if 2 ^ 48 ≤ place then none
  else ((List.range ((place + size - 1) / 256 + 1 - place / 256)).map fun i => max place (256 * (place / 256 + i))).find? fun p => !s.homeReady p

/-- An access reaches the home of bytes: where that is not ready, the turn that makes it waits (R420, R424). -/
def State.touch (s : State) (place size : Nat) : State :=
  match s.unready place size with
  | none => s
  | some p => { s with sched := { s.sched with held := some p } }

/-- The home line is kept before the first dirty write over it (R201). -/
def State.dirty (s : State) (place owner : Nat) : State :=
  let l := lineOf place
  match s.stale.find? l with
  | some d => { s with stale := s.stale.insert l { d with dirty := true } }
  | none => { s with stale := s.stale.insert l { owner := owner, dirty := true, home := s.mem.readBytes (64 * l) 64 } }

/-- Whether a word of 8 bytes is poisoned (R428). -/
def State.eccAt (s : State) (place size : Nat) : Bool :=
  (List.range ((place + size - 1) / 8 + 1 - place / 8)).any fun i => s.ecc.get false (place / 8 + i)

/-- R428: a store that covers a whole word clears its poison. -/
def State.clearEcc (s : State) (place size : Nat) : State :=
  { s with ecc := s.ecc.filter fun e => !(decide (place ≤ 8 * e.1) && decide (8 * e.1 + 8 ≤ place + size)) }

/-- A device read: it waits for the home (R420, R424), and a window line that the host holds exclusively becomes shared (R385). -/
def State.snoopRead (s : State) (place size : Nat) : State :=
  let s := s.touch place size
  if s.host.snoop.isEmpty then s
  else { s with host := { s.host with snoop := s.host.snoop.map fun x => if overlaps (64 * x.1) 64 place size then (x.1, false) else x } }

/-- A device write: it waits for the home (R420, R424), and takes a window line from the host (R385). -/
def State.snoopWrite (s : State) (place size : Nat) : State :=
  let s := s.touch place size
  if s.host.snoop.isEmpty then s
  else { s with host := { s.host with snoop := s.host.snoop.filter fun x => !overlaps (64 * x.1) 64 place size } }

/-- Bytes written at a place by a store, keeping the home line when the store is cached in a bank of an owner. -/
def State.storeBytes (s : State) (place : Nat) (cached : Option Nat) (bytes : List Byte) : State :=
  let s := match cached with
    | some o => s.dirty place o
    | none => s
  let s := s.snoopWrite place bytes.length
  let s := s.clearEcc place bytes.length
  { s with mem := s.mem.writeBytes place bytes }

/-- n bytes of a number written by a unit of the device to LPDDR 6 (R385, R428). -/
def State.putWord (s : State) (place n v : Nat) : State :=
  let s := (s.snoopWrite place n).clearEcc place n
  { s with mem := s.mem.writeN place n v }

/-- A byte at its home: under a cached line that differs, what the home holds (R201, R202). -/
def State.homeByte (s : State) (place : Nat) : Byte :=
  match s.stale.find? (lineOf place) with
  | some d => d.home.getD (place % 64) 0
  | none => s.mem.read place

/-- A byte written at its home. -/
def State.putHome (s : State) (place : Nat) (b : Byte) : State :=
  match s.stale.find? (lineOf place) with
  | some d => { s with stale := s.stale.insert (lineOf place) { d with home := d.home.set (place % 64) b } }
  | none => { s with mem := s.mem.write place b }

/-- Whether a cached line that differs from its home lies over one of these bytes. -/
def State.underLine (s : State) (place size : Nat) : Bool :=
  (List.range ((place + size - 1) / 64 + 1 - place / 64)).any fun i => (s.stale.find? (place / 64 + i)).isSome

/-- A byte where an access is performed (R201, R202, R214): in the caches when a bank of the owner may hold its line, else at home. -/
def State.byteAt (s : State) (cached : Option Nat) (place : Nat) : Byte :=
  if cached.isSome then s.mem.read place else s.homeByte place

/-- n bytes where an access is performed, little-endian. -/
def State.bytesAt (s : State) (cached : Option Nat) : Nat → Nat → Nat
  | _, 0 => 0
  | place, n + 1 => (s.byteAt cached place).toNat + 256 * s.bytesAt cached (place + 1) n

/-- The banks of a slice an owner has in the table (R201). -/
def State.banksOf (s : State) (slice owner : Nat) : List Nat :=
  match s.sluice.table with
  | some t => ((List.range 16).map fun i => 16 * slice + i).filter fun b =>
      (List.range t.nset).any fun j => t.bankOwner j b == owner
  | none => []

/-- The tenants that have banks in a slice. -/
def State.holders (s : State) (slice : Nat) : List Nat :=
  if s.sluice.table.isNone then [] else (List.range 32).filter fun o => !(s.banksOf slice o).isEmpty

/-- R201: a line that a write passes by on its way to the home may be retained in a bank, clean; whether it is, and in whose, is free
(notes/assumptions/12.md). -/
def State.retain (s : State) (l : Nat) : State :=
  if 2 ^ 48 ≤ 64 * l || isTwinPa (64 * l) || (s.stale.find? l).isSome then s
  else
    let os := s.holders (homeSlice (64 * l))
    if os.isEmpty then s
    else
      let (held, s) := s.drawBit
      if held then
        let (v, s) := s.drawNat
        { s with stale := s.stale.insert l { owner := os.getD (v % os.length) 63, dirty := false, home := s.mem.readBytes (64 * l) 64 } }
      else s

/-- The lines of so many bytes. -/
def linesAt (place size : Nat) : List Nat := (List.range ((place + size - 1) / 64 + 1 - place / 64)).map (place / 64 + ·)

/-- Bytes written where an access is performed; a UC access, or one without a bank, leaves a cached line over them as it is (R201,
R202, R214). -/
def State.putBytes (s : State) (place : Nat) (cached : Option Nat) (bytes : List Byte) : State :=
  if cached.isSome then s.storeBytes place cached bytes
  else
    let s := (linesAt place bytes.length).foldl State.retain s
    if s.underLine place bytes.length then
      bytes.zipIdx.foldl (fun s b => s.putHome (place + b.2) b.1) ((s.snoopWrite place bytes.length).clearEcc place bytes.length)
    else s.storeBytes place none bytes

/-- A cached line goes: a dirty one is written back, a clean one is dropped (R201, R211). -/
def State.flushLine (s : State) (l : Nat) : State :=
  match s.stale.find? l with
  | none => s
  | some d =>
    let s := { s with stale := s.stale.erase l }
    if d.dirty then s else { s with mem := s.mem.writeBytes (64 * l) d.home }

/-- A line dropped without write-back (CINV, R211), with its poison (R389). -/
def State.invalLine (s : State) (l : Nat) : State :=
  let s := { s with linkPoison := s.linkPoison.erase l }
  match s.stale.find? l with
  | none => s
  | some d => { s with stale := s.stale.erase l, mem := s.mem.writeBytes (64 * l) d.home }

/-- R389: whether a line is poisoned by a link loss; every host address is while the link is down. -/
def State.poisoned (s : State) (place : Nat) : Bool := (isHostPa place && !s.host.up) || s.linkPoison.get false (lineOf place)

/-! ### Trap causes (R321) -/

/-- The trap causes. -/
inductive Cause where
  | illegalInstruction | prefixChain | privileged | misaligned | pageFaultRead | pageFaultWrite | pageFaultExec
  | protection | windowBounds | linkPoison | mxBusy | mxFault | singularBlock | sendqFull | weirOvf | barrierError
  | launchInvalid | engineRefused | softwareTrap | breakpoint | eccUncorrectable | noMatrix | serviceRefused
  deriving DecidableEq, Repr

/-- R321: the code of a cause. -/
def Cause.code : Cause → Nat
  | .illegalInstruction => 0x01 | .prefixChain => 0x02 | .privileged => 0x03 | .misaligned => 0x04
  | .pageFaultRead => 0x05 | .pageFaultWrite => 0x06 | .pageFaultExec => 0x07 | .protection => 0x08
  | .windowBounds => 0x09 | .linkPoison => 0x0A | .mxBusy => 0x0B | .mxFault => 0x0C | .singularBlock => 0x0D
  | .sendqFull => 0x0E | .weirOvf => 0x0F | .barrierError => 0x10 | .launchInvalid => 0x11 | .engineRefused => 0x12
  | .softwareTrap => 0x13 | .breakpoint => 0x14 | .eccUncorrectable => 0x15 | .noMatrix => 0x16 | .serviceRefused => 0x17

/-- A trap about to be taken: its cause and value. -/
structure TrapInfo where
  cause : Cause
  value : Word
  deriving DecidableEq, Repr

/-! ### The address map and translation (R198 to R206) -/

/-- The kind of an access (R203). -/
inductive AccessKind where
  | read | write | exec
  deriving DecidableEq, Repr

/-- R203: the page fault of an access kind. -/
def AccessKind.fault : AccessKind → Cause
  | .read => .pageFaultRead | .write => .pageFaultWrite | .exec => .pageFaultExec

/-- Who makes an access: the owner, the page-table root, whether user rules hold, and the core and cluster whose windows
the owner reaches (R198, R431). -/
structure Agent where
  owner : Nat
  root : Word
  user : Bool
  core : Option Nat
  cluster : Option Nat
  /-- The lane bank of the L1 TLB that an element of an indexed or strided access looks in; none looks in all (R205). -/
  lane : Option Nat := none
  deriving DecidableEq, Repr

/-- Where an access is performed, and the owner of the bank that may hold its line. -/
structure Xlat where
  place : Nat
  cached : Option Nat
  uc : Bool
  deriving DecidableEq, Repr

/-- The core of a context; of a saved image the core its job last ran on (R221, R237). -/
def State.coreAt (s : State) (cx : Nat) : Nat :=
  if cx < numCtx then coreOf cx else coreOf (((s.job? (cx - numCtx)).bind (·.lastCx)).getD 0)

/-- The agent of a context on a core. -/
def State.agentOf (s : State) (cx : Nat) (c : Ctx) : Agent :=
  { owner := s.tenantOf c, root := c.ptbase, user := c.mode == .user, core := some (s.coreAt cx), cluster := some (clusterOf (s.coreAt cx)) }

/-- The owner's region in a core's array (R198, R332): base and limit. -/
def State.coreRegion (s : State) (core owner : Nat) : Nat × Nat :=
  match s.sluice.table with
  | some t => let w := t.coreRegion core owner; (regionBase w, regionSize w)
  | none => (0, 0)

/-- The owner's region in a cluster scratchpad (R198, R333): base and limit. -/
def State.clusterRegion (s : State) (k owner : Nat) : Nat × Nat :=
  match s.sluice.table with
  | some t => let w := t.clusterRegion k owner; (regionBase w, clusterRegionSize w)
  | none => (0, 0)

/-- A window of R198: within the limit it names a place, else WINDOW_BOUNDS. -/
def windowPlace (region : Nat × Nat) (o : Nat) (place : Nat → Nat) (va : Word) : Except TrapInfo Xlat :=
  if o < region.2 then .ok { place := place (region.1 + o), cached := none, uc := false }
  else .error { cause := .windowBounds, value := va }

/-- R198, R199: the windows from 0x7F00_0000_0000 up. -/
def State.windowAccess (s : State) (a : Agent) (va : Word) : Except TrapInfo Xlat :=
  let x := va.toNat
  let bad : Except TrapInfo Xlat := .error { cause := .protection, value := va }
  if x < 0x7F0000400000 then
    match a.core with
    | some c => windowPlace (s.coreRegion c a.owner) (x - 0x7F0000000000) (corePlace c) va
    | none => bad
  else if 0x7F1000000000 ≤ x && x < 0x7F1002000000 then
    match a.cluster with
    | some k =>
      let c := 8 * k + (x - 0x7F1000000000) / 0x400000
      windowPlace (s.coreRegion c a.owner) ((x - 0x7F1000000000) % 0x400000) (corePlace c) va
    | none => bad
  else if 0x7F2000000000 ≤ x && x < 0x7F2000800000 then
    match a.cluster with
    | some k => windowPlace (s.clusterRegion k a.owner) (x - 0x7F2000000000) (clusterPlace k) va
    | none => bad
  else if 0x7F3000000000 ≤ x && x < 0x7F300C000000 && (x - 0x7F3000000000) % 0x1000000 < 0x800000 then
    let k := (x - 0x7F3000000000) / 0x1000000
    windowPlace (s.clusterRegion k a.owner) ((x - 0x7F3000000000) % 0x1000000) (clusterPlace k) va
  else bad

/-- A bit of a number. -/
def bit (x i : Nat) : Bool := x / 2 ^ i % 2 == 1

/-- A page-table entry that is valid at all: V set, the zero bits zero, MT below 2 (R203). -/
def pteValid (e : Nat) : Bool := bit e 0 && e / 2 ^ 48 == 0 && !bit e 11 && !bit e 7 && !bit e 10

/-- A leaf has any of R, W, X (R203). -/
def pteLeaf (e : Nat) : Bool := bit e 1 || bit e 2 || bit e 3

/-- Bits 47:12 of an entry. -/
def ptePpn (e : Nat) : Nat := e / 4096 % 2 ^ 36 * 4096

/-- A leaf found by a walk: the entry's address, the entry, and the page's size. -/
structure Leaf where
  at_ : Nat
  entry : Nat
  size : Nat
  deriving DecidableEq, Repr

/-- The four-level walk (R203): level counts down from 3; table is the physical address of the table. -/
def walk (mem : Memory) (va : Nat) : Nat → Nat → Option Leaf
  | 0, table =>
    let p := table + 8 * (va / 4096 % 512)
    let e := mem.readN p 8
    if pteValid e && pteLeaf e then some { at_ := p, entry := e, size := 4096 } else none
  | level + 1, table =>
    let p := table + 8 * (va / 2 ^ (12 + 9 * (level + 1)) % 512)
    let e := mem.readN p 8
    let size := 2 ^ (12 + 9 * (level + 1))
    if !pteValid e || bit e 8 then none
    else if pteLeaf e then
      if level + 1 < 3 && ptePpn e % size == 0 then some { at_ := p, entry := e, size := size } else none
    else walk mem va level (ptePpn e)

/-- R203: whether the 16 aligned level-0 entries around a leaf make one 64 KiB page. -/
def whole64 (mem : Memory) (l : Leaf) : Bool :=
  l.size == 4096 && bit l.entry 8 &&
    (let base := l.at_ / 128 * 128
     let e0 := mem.readN base 8
     ptePpn e0 % 65536 == 0 && (List.range 16).all fun i =>
      let e := mem.readN (base + 8 * i) 8
      pteValid e && bit e 8 && e % 32 / 2 == e0 % 32 / 2 && bit e 9 == bit e0 9 && ptePpn e == ptePpn e0 + 4096 * i)

/-- R203: the permission test of a leaf or a TLB entry. -/
def TlbEntry.grants (e : TlbEntry) (k : AccessKind) (user : Bool) : Bool :=
  (!user || e.u) && (e.r || !e.w) &&
    match k with
    | .read => e.r
    | .write => e.r && e.w
    | .exec => e.x

/-- The translation a leaf gives. -/
def Leaf.toEntry (l : Leaf) (owner va : Nat) (d : Bool) : TlbEntry :=
  let e := l.entry
  { owner := owner, va := va / l.size * l.size, pa := ptePpn e, size := l.size
    r := bit e 1, w := bit e 2, x := bit e 3, u := bit e 4, uc := bit e 9, d := d }

def TlbEntry.holds (e : TlbEntry) (owner va : Nat) : Bool :=
  e.owner == owner && decide (e.va ≤ va) && decide (va < e.va + e.size)

/-- An entry says what the page tables say, so that whether it is still held cannot be seen. -/
def TlbEntry.fresh (e : TlbEntry) (mem : Memory) (root va : Nat) : Bool :=
  match walk mem va 3 root with
  | none => false
  | some l =>
    let x := l.toEntry e.owner va (bit l.entry 6)
    bit l.entry 5 && x.pa + va == e.pa + (va - e.va) + x.va && x.r == e.r && x.w == e.w && x.x == e.x && x.u == e.u && x.uc == e.uc &&
      (!e.d || x.d)

/-- R205: a TLB that holds a matching entry may hit; whether it still holds it is free, since replacement is not given. -/
def State.tlbHit (s : State) (e : Option TlbEntry) : Option TlbEntry × State :=
  match e with
  | none => (none, s)
  | some e =>
    let (hit, s) := s.drawBit
    (if hit then some e else none, s)

/-- R205: how many ways of each set of a cluster's L2 TLB the current assignment set gives an owner. -/
def State.l2tlbWays (s : State) (k owner : Nat) : Nat :=
  match s.sluice.table, s.sluice.clusterWin.get none k with
  | some t, some w => ((List.range 16).filter fun i => t.l2tlbWayOwner (t.winSet w.idx) k i == owner).length
  | _, _ => 0

/-- The n-th of the entries that p picks, gone. -/
def dropNth (p : TlbEntry → Bool) : Nat → List TlbEntry → List TlbEntry
  | _, [] => []
  | n, x :: xs => if p x then (match n with
    | 0 => xs
    | n + 1 => x :: dropNth p n xs) else x :: dropNth p n xs

/-- A TLB with a new entry in a set of so many entries, those that p picks: it replaces one for its page or, where the set is full, the
one that v picks. -/
def tlbPut (size v : Nat) (p : TlbEntry → Bool) (e : TlbEntry) (tlb : List TlbEntry) : List TlbEntry :=
  let tlb := tlb.filter fun x => !(p x && x.owner == e.owner && x.va == e.va)
  e :: (if tlb.countP p < size then tlb else dropNth p (v % size) tlb)

/-- The set of the L2 TLB that holds an entry, and the lane bank of the L1 TLB that a scalar or unit-stride access fills: the low bits of
its page (R205 gives neither; notes/assumptions/101.md). -/
def TlbEntry.set (e : TlbEntry) : Nat := e.va / 4096 % 64
def TlbEntry.anyBank (e : TlbEntry) : Nat := e.va / 4096 % 16

/-- A new entry enters the TLB of the core, 16 lane banks of 4 entries, and that of the cluster, 64 sets, where its owner has ways
(R205). -/
def State.tlbFill (s : State) (a : Agent) (core cluster : Option Nat) (e : TlbEntry) : State :=
  let v := s.drawNat
  let e := { e with bank := a.lane.getD e.anyBank }
  let s := match core with
    | some c => s.modCore c fun k => { k with tlb := tlbPut 4 v.1 (fun x => x.bank == e.bank) e k.tlb }
    | none => s
  let s := match cluster with
    | some c =>
      let n := s.l2tlbWays c e.owner
      if n = 0 then s
      else s.modCluster c fun k => { k with tlb := tlbPut n v.1 (fun x => x.owner == e.owner && x.set == e.set) e k.tlb }
    | none => s
  { s with sched := v.2.sched }

/-- The entries a walk reads, the root's first (R203). -/
def walkReads (mem : Memory) (va : Nat) : Nat → Nat → List Nat
  | 0, table => [table + 8 * (va / 4096 % 512)]
  | level + 1, table =>
    let p := table + 8 * (va / 2 ^ (12 + 9 * (level + 1)) % 512)
    let e := mem.readN p 8
    if !pteValid e || bit e 8 || pteLeaf e then [p] else p :: walkReads mem va level (ptePpn e)

/-- A walk reads its entries as any device read does (R385, R420). -/
def State.snoopWalk (s : State) (root va : Nat) : State := (walkReads s.mem va 3 root).foldl (fun s p => s.snoopRead p 8) s

/-- R204: A, and D for a write, set in a leaf by one atomic update. -/
def State.setAD (s : State) (l : Leaf) (setD : Bool) : State :=
  let b := (s.mem.read l.at_).toNat
  let b := if bit b 5 then b else b + 32
  let b := if !setD || bit b 6 then b else b + 64
  { (if bit l.entry 5 && (!setD || bit l.entry 6) then s else s.snoopWrite l.at_ 8) with mem := s.mem.write l.at_ (BitVec.ofNat 8 b) }

/-- R203, R204: a walk for an access; it sets A, and D for a write, in the leaf it used. -/
def State.walkFor (s : State) (a : Agent) (va : Nat) (k : AccessKind) (setD : Bool) : Option TlbEntry × State :=
  let s := s.snoopWalk (ptePpn a.root.toNat) va
  match walk s.mem va 3 (ptePpn a.root.toNat) with
  | none => (none, s)
  | some l =>
    let e := l.toEntry a.owner va (setD || bit l.entry 6)
    if e.grants k a.user && s.paExists (e.pa + va % e.size) then
      let (wide, s) := if whole64 s.mem l then s.drawBit else (false, s)
      let s := s.setAD l setD
      let t := if wide then { e with va := va / 65536 * 65536, pa := e.pa - e.pa % 65536, size := 65536 } else e
      (some e, s.tlbFill a a.core a.cluster t)
    else (none, s)

/-- R203, R204: A, and D for a write, in the leaf of an address that a 64 KiB entry translates: the result is that of one entry for
each 4 KiB page. -/
def State.markLeaf (s : State) (a : Agent) (va : Nat) (setD : Bool) : State :=
  match walk s.mem va 3 (ptePpn a.root.toNat) with
  | none => s
  | some l => s.setAD l setD

/-- R203 to R205: the translation of an address below 0x7F00_0000_0000 or in supervisor space. -/
def State.pageOf (s : State) (a : Agent) (va : Nat) (k : AccessKind) (setD : Bool) : Option TlbEntry × State :=
  let held (tlb : List TlbEntry) : Option TlbEntry := tlb.find? fun e => e.holds a.owner va
  let l1 := a.core.bind fun c => held ((s.core c).tlb.filter fun e => a.lane.all (· == e.bank))
  let l2 := a.cluster.bind fun c => held (s.cluster c).tlb
  let fresh (e : TlbEntry) : Bool := e.fresh s.mem (ptePpn a.root.toNat) va
  let (h, s) :=
    if l1.all fresh && l2.all fresh then
      match l1, l2 with
      | none, some e => (some e, s.tlbFill a a.core none e)
      | l1, _ => (l1, s)
    else
      match s.tlbHit l1 with
      | (some e, s) => (some e, s)
      | (none, s) =>
        match s.tlbHit l2 with
        | (some e, s) => (some e, s.tlbFill a a.core none e)
        | (none, s) => (none, s)
  match h with
  | some e =>
    if setD && !e.d then s.walkFor a va k setD
    else if e.grants k a.user && s.paExists (e.pa + (va - e.va)) then
      (some e, if e.size = 65536 then s.markLeaf a va setD else s)
    else (none, s)
  | none => s.walkFor a va k setD

/-- R201: the seven-bit hash of a physical address that picks a bank. -/
def bankHash (pa : Nat) : Nat :=
  (List.range 5).foldl (fun h j => Nat.xor h (pa % 2 ^ 48 / 2 ^ (15 + 7 * j) % 128)) 0

/-- R201: whether a WB line of an owner may be cached: its bank exists and is the owner's in the slice's window. -/
def State.hasBank (s : State) (owner pa : Nat) : Bool :=
  let slice := homeSlice pa
  match s.sluice.table, s.sluice.sliceWin.get none slice with
  | some t, some w =>
    let banks := s.banksOf slice owner
    match banks[bankHash pa % banks.length]? with
    | some b => t.bankOwner (t.winSet w.idx) b == owner
    | none => false
  | _, _ => false

/-- R198: an access of an agent to one address, checked in the order of the rows; setD marks a write that sets D. -/
def State.xlate (s : State) (a : Agent) (va : Word) (k : AccessKind) (setD : Bool) : Except TrapInfo Xlat × State :=
  let x := va.toNat
  if 2 ^ 48 ≤ x || (2 ^ 47 ≤ x && a.user) then (.error { cause := .protection, value := va }, s)
  else if 0x7F0000000000 ≤ x && x < 2 ^ 47 then
    (if k = .exec then .error { cause := .protection, value := va } else s.windowAccess a va, s)
  else
    match s.pageOf a x k setD with
    | (some e, s) =>
      let pa := e.pa + (x - e.va)
      (.ok { place := pa, uc := e.uc, cached := if !e.uc && !isTwinPa pa && s.hasBank a.owner pa then some a.owner else none }, s)
    | (none, s) => (.error { cause := k.fault, value := va }, s)

/-- R201: the line that a cache evicts in this step, one of an owner that may allocate in its bank. -/
def State.victim (s : State) : Option Nat :=
  if s.stale.isEmpty then none
  else match (Config.evicted s.sched.steps).bind fun i => s.stale[i]? with
  | some (l, d) => if s.hasBank d.owner (64 * l) && s.homeReady (64 * l) then some l else none
  | none => none

/-- R201: a cache evicts a line. -/
def State.evict (s : State) : State :=
  let t := match s.victim with
    | some l => s.flushLine l
    | none => s
  { s with mem := t.mem, stale := t.stale }

/-- R392: every byte of an access to twin memory lies in an import entry of the owner with the permission. -/
def State.twinGrants (s : State) (owner pa size : Nat) (write : Bool) : Bool :=
  s.twin.paired && s.twin.imports.any fun g =>
    g.owner == owner && (if write then g.w else g.r) &&
      decide (0x020000000000 + g.base ≤ pa) && decide (pa + size ≤ 0x020000000000 + g.base + g.size)

/-- What a translated access meets: the import of twin memory, then LINK_POISON of a poisoned host line (R208, R392). -/
def State.barred (s : State) (a : Agent) (size : Nat) (k : AccessKind) (x : Xlat) : Option Cause :=
  if isTwinPa x.place && !s.twinGrants a.owner x.place size (k == .write) then some .protection
  else if s.poisoned x.place then some .linkPoison
  else none

/-- R204, R208, R392: an access to size bytes from an address: translation, then what bars it; a write that fails does not set D. -/
def State.reach (s : State) (a : Agent) (va : Word) (size : Nat) (k : AccessKind) (setD : Bool) : Except TrapInfo Xlat × State :=
  match s.xlate a va k setD with
  | (.ok x, s') =>
    match s.barred a size k x with
    | some t => (.error { cause := t, value := va }, if setD then (s.xlate a va k false).2 else s')
    | none => (.ok x, s')
  | r => r

/-- R206: a data access of size bytes: alignment before translation. -/
def State.access (s : State) (a : Agent) (va : Word) (size : Nat) (k : AccessKind) (setD : Bool) : Except TrapInfo Xlat × State :=
  if va.toNat % size ≠ 0 then (.error { cause := .misaligned, value := va }, s) else s.reach a va size k setD

/-! ### The matrix unit a context holds (R155) -/

/-- The matrix unit of a context's job: its core's while the job runs there, else the saved one. -/
def State.mxOf (s : State) (cx : Nat) (c : Ctx) : Option MatrixUnit :=
  match c.job with
  | none => none
  | some h =>
    if cx < numCtx then
      let m := (s.core (coreOf cx)).mx
      if m.job = some h then some m else none
    else (s.job? h).bind (·.mx)

/-- The matrix unit written back where mxOf reads it. -/
def State.setMx (s : State) (cx : Nat) (m : MatrixUnit) : State :=
  if cx < numCtx then s.modCore (coreOf cx) fun k => { k with mx := m }
  else s.modJob (cx - numCtx) fun j => { j with mx := some m }

/-- CNTMX (R104). -/
def State.cntMx (s : State) (cx : Nat) (c : Ctx) : Nat :=
  match s.mxOf cx c with
  | some m => m.queue.length
  | none => 0

/-- PDEPTH (R169, R170). -/
def State.pdepth (s : State) (cx : Nat) (c : Ctx) : Nat :=
  match s.mxOf cx c with
  | some m => m.pdepth
  | none => 0

/-! ### Fences (R222, R229) -/

/-- Class S accesses older than an order number that are not performed. -/
def Ctx.pendS (c : Ctx) (o : Nat) : Bool := c.loads.any (·.ord < o) || c.stores.any fun x => x.ord < o && !x.vec

/-- Instructions of page 0x48 in the vector queue and vector memory instructions: class V. -/
def isClassV : Instr → Bool
  | .gsend _ _ _ => true
  | .gsendc _ _ _ => true
  | .gld _ _ _ => true
  | .gsum _ _ => true
  | .gsumx _ _ => true
  | i => isVecLoad i || isVecStore i

/-- Class V accesses older than an order number that are not performed. -/
def Ctx.pendV (c : Ctx) (o : Nat) : Bool :=
  c.vq.any (fun e => e.ord < o && isClassV e.ins) || c.stores.any fun x => x.ord < o && x.vec

/-- Class M accesses older than an order number that are not performed. -/
def State.pendM (s : State) (cx : Nat) (c : Ctx) (o : Nat) : Bool :=
  match s.mxOf cx c with
  | some m => m.queue.any (·.ord < o)
  | none => false

/-- Class E accesses older than an order number that are not performed. -/
def Ctx.pendE (c : Ctx) (o : Nat) : Bool :=
  c.ops.any (fun x => x.ord < o && x.classE) || c.vq.any fun e => e.ord < o && e.countsEn

/-- A set of classes of R222. -/
def hasClass (set cls : Nat) : Bool := bit set cls

/-- Whether accesses of the classes of a set, older than an order number, remain. -/
def State.pendClasses (s : State) (cx : Nat) (c : Ctx) (set o : Nat) : Bool :=
  (hasClass set 0 && c.pendS o) || (hasClass set 1 && c.pendV o) || (hasClass set 2 && s.pendM cx c o) || (hasClass set 3 && c.pendE o)

/-- R229: whether a fence still waits; one with an empty set or scope 0 does not. -/
def State.fenceWaits (s : State) (cx : Nat) (c : Ctx) (f : PendFence) : Bool :=
  f.before != 0 && f.after != 0 && f.scope != 0 && s.pendClasses cx c f.before f.ord

/-- R229: whether a fence before order number o holds back accesses of a class. -/
def State.fenced (s : State) (cx : Nat) (c : Ctx) (o cls : Nat) : Bool :=
  c.fences.any fun f => f.ord < o && hasClass f.after cls && s.fenceWaits cx c f

/-- R87, R229: the queue squash of a context, which leaves a FENCE that still waits unexecuted where nothing younger has issued
(notes/assumptions/22.md). -/
def State.squashed (s : State) (cx : Nat) (c : Ctx) : Ctx := c.squash.unfence (s.fenceWaits cx c) c.resumeOrd c.fences.reverse

/-- R230, R232, R234, R393: whether the accesses that a release of these classes covers are performed; a job that has ended has none left. -/
def State.released (s : State) (x : Option Sender) (set : Nat) : Bool :=
  match x with
  | none => true
  | some y =>
    match s.job? y.job with
    | none => true
    | some _ => let cx := s.refOf y.job; !s.pendClasses cx (s.ctx cx) set y.ord

/-- The current context is held back from issuing an access of a class (R229). -/
def State.curFenced (s : State) (cls : Nat) : Bool := s.fenced s.sched.cur s.curCtx s.curCtx.ord cls

/-! ### The sluice log (R352) -/

/-- A log record's fields; the time is the logging unit's. -/
structure LogRec where
  tns : Nat
  kind : Nat
  owner : Nat
  unit : Nat
  cause : Nat
  v0 : Word
  v1 : Word
  deriving DecidableEq, Repr

/-- R352: a record is written to the ring, or counted as lost where the ring is full or not placed. -/
def State.log (s : State) (r : LogRec) : State :=
  match s.sluice.log with
  | none => { s with sluice := { s.sluice with logLost := min (s.sluice.logLost + 1) (2 ^ 32 - 1) } }
  | some (base, size) =>
    let prod := s.mem.readN base 8 % 2 ^ 32
    let cons := s.mem.readN (base + 8) 8 % 2 ^ 32
    let s := s.snoopRead base 24
    if (prod + 2 ^ 32 - cons) % 2 ^ 32 < size then
      let p := base + 64 + 32 * (prod % size)
      let s := s.putWord p 8 r.tns
      let s := s.putWord (p + 8) 8 (r.kind + 256 * r.owner + 65536 * r.unit + 2 ^ 32 * r.cause)
      let s := s.putWord (p + 16) 8 r.v0.toNat
      let s := s.putWord (p + 24) 8 r.v1.toNat
      s.putWord base 8 ((prod + 1) % 2 ^ 32)
    else s.putWord (base + 16) 8 (min (s.mem.readN (base + 16) 8 + 1) (2 ^ 32 - 1))

/-- R389: an uncached write to the host while the link is down is dropped, and logged by the slice that homes it. -/
def State.dropHostWrite (s : State) (place owner : Nat) : State :=
  let (now, s) := s.sliceNow (homeSlice place)
  s.log { tns := now, kind := 9, owner := owner, unit := homeSlice place, cause := 0, v0 := BitVec.ofNat 64 (place - 0x010000000000), v1 := 0 }

/-- A record of a core, by its cluster's counter. -/
def State.logCore (s : State) (kind core owner cause : Nat) (v0 v1 : Word) : State :=
  let (t, s) := s.clusterNow (clusterOf core)
  s.log { tns := t, kind := kind, owner := owner, unit := core, cause := cause, v0 := v0, v1 := v1 }

/-! ### Abandonment, first step (R288 step 1) -/

/-- R175: commands of a stopped job that have not begun are dropped, and the later segments of one that has. -/
def MatrixUnit.stop (m : MatrixUnit) : MatrixUnit :=
  { m with queue := m.queue.filter fun c => c.begun && c.left == 0, fpend := false }

/-- A load that also writes memory. -/
def PendLoad.atomic (l : PendLoad) : Bool :=
  match l.kind with
  | .amo _ _ _ => true
  | _ => false

/-- A job in a context is stopped for good; its loads in flight are cancelled (R87, R107, R415). -/
def State.stopJob (s : State) (h : Nat) (j : Job) (cx : Nat) : State :=
  let s := s.modCtx cx fun c => { c.squash with status := .stopping, loads := c.squash.loads.filter PendLoad.atomic }
  let s := s.modCore (coreOf cx) fun k => if k.mx.job = some h then { k with mx := k.mx.stop } else k
  s.putJob h { j with state := .abandoning cx 0 }

/-- The job of a handle is stopped by a queue squash; what it has issued goes on (ABANDON_ACTION does the rest). -/
def State.abandonJob (s : State) (h : Nat) : State :=
  match s.job? h with
  | none => s
  | some j =>
    match j.state with
    | .abandoning _ _ => s
    | .running cx => s.stopJob h j cx
    | .parking cx => s.stopJob h j cx
    | .moving => ({ s with moves := s.moves.filter fun m => m.job != h || m.arrived.isSome } : State).putJob h { j with state := .abandoning (numCtx + h) 0 }
    | .queued => s.putJob h { j with state := .abandoning (numCtx + h) 0 }
    | .parked _ => s.putJob h { j with state := .abandoning (numCtx + h) 0 }
    | .saved _ => s.putJob h { j with state := .abandoning (numCtx + h) 0 }

/-! ### Taking a trap and returning from one (R319 to R323) -/

/-- The frame store of a nested entry, or the frame load of a return: whether the four words are reachable, with their
places. -/
def State.framePlaces (s : State) (cx : Nat) (k : AccessKind) (base : Word) : Option (List Nat) × State :=
  let a := s.agentOf cx (s.ctx cx)
  (List.range 4).foldl (fun (acc : Option (List Nat) × State) i =>
    match acc with
    | (none, s) => (none, s)
    | (some ps, s) =>
      match s.access a (base + BitVec.ofNat 64 (8 * i)) 8 k (k == .write) with
      | (.ok x, s) => (some (ps ++ [x.place]), s)
      | (.error _, s) => (none, s)) (some [], s)

/-- R322: no handler can run: the job is abandoned and TRAP_NEST logged. -/
def State.trapNest (s : State) (cx : Nat) (t : TrapInfo) (pc : Word) : State :=
  let c := s.ctx cx
  let s := s.logCore 4 (coreOf cx) (s.tenantOf c) t.cause.code pc t.value
  match c.job with
  | some h => s.abandonJob h
  | none => s

/-- Whether a trap goes to the user handler: delegated, and no SOFTWARE_TRAP from 0x1_0000 on (R321, R322). -/
def Ctx.delegates (c : Ctx) (t : TrapInfo) : Bool :=
  c.mode == .user && c.depth == 0 && c.deleg.getLsbD t.cause.code && !(t.cause == .softwareTrap && decide (0x10000 ≤ t.value.toNat))

/-- The register s2. -/
def regS2 : SReg := 2

/-- The error mark under a key set or taken away. -/
def setMark (m : FMap BadReg) (key : Nat) (b : Option BadReg) : FMap BadReg :=
  match b with
  | some b => m.insert key b
  | none => m.erase key

/-- R322, R323: s2 takes the value of UTSP (key 32) or TSP (key 33), and the error marks of R85 change places with the values. -/
def Ctx.takeTop (c : Ctx) (top : Word) (key : Nat) : Ctx :=
  let c' := c.setReg regS2 top
  { c' with badRegs := setMark (setMark c'.badRegs 2 (c.badRegs.find? key)) key (c.badRegs.find? 2) }

/-- s2 moved by a frame; it keeps its error mark. -/
def Ctx.moveTop (c : Ctx) (v : Word) : Ctx :=
  let c' := c.setReg regS2 v
  { c' with badRegs := setMark c'.badRegs 2 (c.badRegs.find? 2) }

/-- R322: taking a trap by the instruction at pc, in a context whose older vector instructions have started. -/
def State.takeTrap (s : State) (cx : Nat) (t : TrapInfo) (pc : Word) : State :=
  let c := s.ctx cx
  if c.delegates t then
    s.setCtx cx ({ c.takeTop c.utsp 32 with
      utepc := pc, utcause := BitVec.ofNat 6 t.cause.code, utval := t.value, utsp := c.reg regS2
      depth := 1, pc := c.utvec, status := .running })
  else if c.depth = 3 then s.trapNest cx t pc
  else
    let enter (c : Ctx) : Ctx := { c with
      tepc := pc, tcause := BitVec.ofNat 6 t.cause.code, tval := t.value
      tstatus := BitVec.ofNat 3 ((c.depth + 1) + 4 * (c.mode == .supervisor).toNat)
      depth := c.depth + 1, mode := .supervisor, pc := c.tvec, status := .running }
    if c.mode = .supervisor then
      let base := c.reg regS2 - 32
      match s.framePlaces cx .write base with
      | (some ps, s) =>
        let ws := [c.tepc.toNat, c.tcause.toNat, c.tval.toNat, c.tstatus.toNat]
        let s := (ps.zip ws).foldl (fun s (pw : Nat × Nat) => s.putWord pw.1 8 pw.2) s
        s.modCtx cx fun c => enter (c.moveTop base)
      | (none, s) => s.trapNest cx t pc
    else s.setCtx cx (enter { c.takeTop c.tsp 33 with tsp := c.reg regS2 })

/-- R83, R88, R225, R227: a trap is not entered while an older vector-queue instruction has not started or a branch is guessed, while a result for s2, which the
entry exchanges, is still to come, or, inside the micro-kernel, while older accesses may touch the frame's bytes. -/
def State.trapHeld (s : State) (cx : Nat) (c : Ctx) : Bool :=
  c.unstarted || c.guess.isSome || c.busy regS2 || (c.mode == .supervisor && s.pendClasses cx c 7 c.ord)

/-- R322, R88: a trap of the instruction the current context issues, once it may be entered. -/
def State.trapCur (s : State) (cause : Cause) (value : Word) : Out :=
  let c := s.curCtx
  if s.trapHeld s.sched.cur c then .next s else .next (s.takeTrap s.sched.cur { cause := cause, value := value } c.pc)

/-- A trap that changes the state beside its entry, once it may be entered. -/
def State.trapWith (s : State) (f : State → State) (cause : Cause) (value : Word) : Out :=
  if s.trapHeld s.sched.cur s.curCtx then .next s else (f s).trapCur cause value

/-! ### Issue -/

/-- The address after the chain being executed. -/
def State.nextPc (s : State) : Word := s.curCtx.pc + BitVec.ofNat 64 (2 * s.sched.ilen)

/-- R85, R389: the current instruction reads a register that a load left with an error; the error goes with the trap. -/
def State.badTrap (s : State) (r : SReg) (b : BadReg) : Out :=
  s.trapWith (fun s => s.setCur { s.curCtx with badRegs := s.curCtx.badRegs.erase r.val })
    (if b.link then .linkPoison else .eccUncorrectable) b.addr

/-- A free instruction over the current context (R84 to R86): interlocks, the uncorrectable-load check, the undo log, then
its effect with the pc already past it, and retirement. -/
def State.freeIssue (s : State) (reads writes : List SReg) (vl : Bool) (eff : State → Ctx → Out) : Out :=
  let c := s.curCtx
  if c.canIssue reads writes vl then
    match c.badRead reads with
    | some (r, b) => s.badTrap r b
    | none => eff s { c.logUndo writes vl with pc := s.nextPc }
  else .next s

/-- A free instruction over the current context alone. -/
def State.freeOp (s : State) (reads writes : List SReg) (vl : Bool) (eff : Ctx → Ctx) : Out :=
  s.freeIssue reads writes vl fun s c => .next (s.setCur (eff c).retire)

/-- A register result of a free instruction. -/
def State.regOp (s : State) (reads : List SReg) (d : SReg) (val : Ctx → Word) : Out :=
  s.freeOp reads [d] false fun c => c.setReg d (val c)

/-- A held instruction (R84): it issues once every older vector-queue instruction has started and its registers are ready. -/
def State.heldOp (s : State) (reads writes : List SReg) (eff : State → Out) : Out :=
  let c := s.curCtx
  if c.canIssueHeld reads writes then
    match c.badRead reads with
    | some (r, b) => s.badTrap r b
    | none => eff s
  else .next s

/-- A held instruction ends: the pc moves past it and it retires. -/
def State.complete (s : State) (f : Ctx → Ctx) : State :=
  s.setCur (f { s.curCtx with pc := s.nextPc, status := .running }).retire

/-- The context waits at the instruction (R290). -/
def State.waitOn (s : State) (w : Wait) : State := s.setCur { s.curCtx with status := .waiting w }

/-- A held instruction that is over the current context alone. -/
def State.heldReg (s : State) (reads : List SReg) (d : SReg) (val : Ctx → Word) : Out :=
  s.heldOp reads [d] fun s => .next (s.complete fun c => c.setReg d (val c))

/-- R90: PRIVILEGED outside supervisor mode. -/
def State.supervisorOnly (s : State) (k : State → Out) : Out :=
  if s.curCtx.mode = .supervisor then k s else s.trapCur .privileged 0

end Sys2Proof.Machine
end

