-- ==== Sys2Proof/Machine/Operands.lean ====
section
/-! DEFINITION. Vector operands: elements of registers and register groups, masks, the formats' components, and the entry of
an instruction into the vector queue (R24, R27 to R30, R33, R84, R93, R109 to R114). -/

namespace Sys2Proof.Machine
open Sys2Proof

/-- Element i of width w of a register (R108). -/
def elemAt (v : BitVec 4096) (w i : Nat) : Nat := v.toNat / 2 ^ (i * w) % 2 ^ w

/-- A register with element i of width w replaced (R109). -/
def putElem (v : BitVec 4096) (w i x : Nat) : BitVec 4096 :=
  BitVec.ofNat 4096 (v.toNat - elemAt v w i * 2 ^ (i * w) + x % 2 ^ w * 2 ^ (i * w))

/-- The arithmetic of one component (R17, R19, R27). -/
inductive CompKind where
  | int (w : Nat)
  | flt (f : FFmt)
  /-- cb4 and e8m0: no arithmetic of their own. -/
  | code (w : Nat)
  deriving DecidableEq, Repr

def CompKind.width : CompKind → Nat
  | .int w => w | .flt f => f.width | .code w => w

/-- The components of a format's elements: their kind and how many (R27, R28). -/
def compOf : Fmt → CompKind × Nat
  | .i8 => (.int 8, 1) | .i16 => (.int 16, 1) | .i32 => (.int 32, 1) | .i64 => (.int 64, 1)
  | .f16 => (.flt .f16, 1) | .bf16 => (.flt .bf16, 1) | .f32 => (.flt .f32, 1)
  | .e4m3 => (.flt .e4m3, 1) | .e5m2 => (.flt .e5m2, 1)
  | .cb4 => (.code 4, 1) | .e8m0 => (.code 8, 1)
  | .cf16 => (.flt .f16, 2) | .cbf16 => (.flt .bf16, 2) | .cf32 => (.flt .f32, 2) | .ci16 => (.int 16, 2)

/-- The classes of formats R116 names: I, Q, F, C. -/
def Fmt.isI : Fmt → Bool
  | .i8 => true | .i16 => true | .i32 => true | .i64 => true | _ => false
def Fmt.isQ : Fmt → Bool
  | .ci16 => true | _ => false
def Fmt.isF : Fmt → Bool
  | .f16 => true | .bf16 => true | .f32 => true | _ => false
def Fmt.isC : Fmt → Bool
  | .cf16 => true | .cbf16 => true | .cf32 => true | _ => false

/-- The format in force: the override, else VTYPE (R29). -/
def Qual.fmt (q : Qual) (vtype : Fmt) : Fmt := q.fo.getD vtype

/-- The element count in force under a format (R29). -/
def VEntry.count (e : VEntry) (f : Fmt) : Nat := min e.vl (e.vbits / Fmt.bits f)
/-- VLMAX′ of a format (R29). -/
def VEntry.vlmax (e : VEntry) (f : Fmt) : Nat := e.vbits / Fmt.bits f
/-- The arithmetic controls at queue entry (R33). -/
def VEntry.mode (e : VEntry) : RMode := RMode.ofBits e.rmode

/-- R30: the mask bit that governs an element. -/
def maskIndex (grant : Nat) (f : Fmt) (i : Nat) : Nat := if f = .cb4 ∧ 2048 < grant then i / 2 else i

/-- R62, R113: whether element i is active. -/
def Ctx.active (c : Ctx) (q : Qual) (f : Fmt) (i : Nat) : Bool :=
  match q.mask with
  | none => true
  | some (m, inv) => (c.mreg m).getLsbD (maskIndex c.grant f i) != inv

/-- Elements 0 to n − 1 that are active. -/
def Ctx.activeList (c : Ctx) (q : Qual) (f : Fmt) (n : Nat) : List Nat := (List.range n).filter (c.active q f)

/-- Writes elements, given as index and value, into a register. -/
def putAll (v : BitVec 4096) (w : Nat) (xs : List (Nat × Nat)) : BitVec 4096 :=
  xs.foldl (fun v p => putElem v w p.1 p.2) v

/-- Element i of a register group whose registers hold et elements each (R126). -/
def Ctx.groupElem (c : Ctx) (base : VReg) (et w i : Nat) : Nat :=
  elemAt (c.vreg (Fin.ofNat 32 (base.val + i / et))) w (i % et)

/-- Writes elements into a register group (R126). -/
def Ctx.putGroup (c : Ctx) (base : VReg) (et w : Nat) (xs : List (Nat × Nat)) : Ctx :=
  xs.foldl (fun c p =>
    let r := Fin.ofNat 32 (base.val + p.1 / et)
    c.setVreg r (putElem (c.vreg r) w (p.1 % et) p.2)) c

/-- Flags raised, ORed together. -/
def orFlags (fs : List Flags) : Flags := fs.foldl (· ||| ·) 0

/-- Flags join FFLAGS (R32). -/
def Ctx.addFlags (c : Ctx) (f : Flags) : Ctx := { c with fflags := c.fflags ||| f }

/-- The values a map gives to active elements, and the flags they raise (R113). -/
def Ctx.mapActive (c : Ctx) (q : Qual) (f : Fmt) (n : Nat) (g : Nat → Nat × Flags) : List (Nat × Nat) × Flags :=
  let rs := (c.activeList q f n).map fun i => (i, g i)
  (rs.map fun r => (r.1, r.2.1), orFlags (rs.map fun r => r.2.2))

/-- The common pattern of R113 on a destination register: active elements below the count are written. -/
def Ctx.mapElems (c : Ctx) (e : VEntry) (q : Qual) (f : Fmt) (vd : VReg) (g : Nat → Nat × Flags) : Ctx :=
  let (xs, fl) := c.mapActive q f (e.count f) g
  (c.setVreg vd (putAll (c.vreg vd) (Fmt.bits f) xs)).addFlags fl

/-! ### Entry into the vector queue -/

/-- R84, R93, R110: a vector-queue instruction enters the queue with what it takes at its entry; legal holds where its format
and registers are, whatever VL is (R62), and check is the trap that its scalar operands' values call for (R136). -/
def State.vEnter (s : State) (ins : Instr) (reads writes : List SReg) (sa sb : Ctx → Word) (legal : Ctx → Bool)
    (check : Ctx → Option TrapInfo) : Out :=
  let c := s.curCtx
  if (reads ++ writes).any c.busy || c.vlPending || c.guess.isSome || decide (16 ≤ c.vq.length) then .next s
  else if !legal c then s.trapCur .illegalInstruction 0
  else
    match c.badRead reads with
    | some (r, b) => s.badTrap r b
    | none =>
      match check c with
      | some t => s.trapCur t.cause t.value
      | none =>
      let e : VEntry := {
        ord := c.ord, pc := c.pc, ins := ins, vl := c.vlTaken, vtype := c.vtype, rmode := c.rmode, vgrp := c.vgrp.toNat
        piveps := c.piveps, pivmode := c.pivmode, vbits := c.vbits, sa := sa c, sb := sb c
        started := false, after := 0, accesses := [], cut := none, sends := false }
      .next (s.setCur { c with vq := c.vq ++ [e], ord := c.ord + 1, pc := s.nextPc })

/-- A check on a value, which ILLEGAL_INSTRUCTION carries (R136). -/
def illegalUnless (ok : Bool) (v : Word) : Option TrapInfo :=
  if ok then none else some { cause := .illegalInstruction, value := v }

/-- An instruction whose checks name no value. -/
def State.vIssue (s : State) (ins : Instr) (reads writes : List SReg) (sa sb : Ctx → Word) (legal : Ctx → Bool) : Out :=
  s.vEnter ins reads writes sa sb legal fun _ => none

/-- An instruction without scalar operands, whose format must be one it accepts. -/
def State.vPlain (s : State) (ins : Instr) (q : Qual) (ok : Fmt → Bool) : Out :=
  s.vIssue ins [] [] (fun _ => 0) (fun _ => 0) fun c => ok (Qual.fmt q c.vtype)

end Sys2Proof.Machine
end

