-- ==== Sys2Proof/Machine/Scalar.lean ====
section
/-! DEFINITION. The scalar instructions of pages 0x00 to 0x03 that act on registers and the pc (R94 to R100, R102, R103). -/

namespace Sys2Proof.Machine
open Sys2Proof

/-- A signed immediate extended to 64 bits (R94). -/
def immS (i : Int) : Word := BitVec.ofInt 64 i
/-- An unsigned immediate extended to 64 bits (R94). -/
def immU (n : Nat) : Word := BitVec.ofNat 64 n
/-- The shift amount of a register operand (R95). -/
def shAmt (b : Word) : Nat := b.toNat % 64
/-- 1 or 0 (R95). -/
def boolWord (b : Bool) : Word := if b then 1 else 0

/-- How many leading zero bits (R95). -/
def clz64 (x : Word) : Nat := if x = 0 then 64 else 63 - Nat.log2 x.toNat
/-- How many trailing zero bits, looking from bit i on with n bits left (R95). -/
def ctzFrom (x : Nat) : Nat → Nat
  | 0 => 0
  | n + 1 => if x % 2 = 1 then 0 else 1 + ctzFrom (x / 2) n
def ctz64 (x : Word) : Nat := ctzFrom x.toNat 64
/-- How many one bits (R95). -/
def popcount (x : Nat) : Nat → Nat
  | 0 => 0
  | n + 1 => x % 2 + popcount (x / 2) n

/-- SEXT of the low w bits (R95, helper sext). -/
def sextW (w : Nat) (x : Word) : Word := BitVec.ofInt 64 (signedOf w x.toNat)
/-- ZEXT of the low w bits (R95). -/
def zextW (w : Nat) (x : Word) : Word := BitVec.ofNat 64 (x.toNat % 2 ^ w)
/-- The widths of SEXT and ZEXT (R95). -/
def extWidth (w : Fin 3) : Nat := 8 * 2 ^ w.val

/-- R41: the quotient of w-bit operands, with its flag. -/
def quotS {w : Nat} (a b : BitVec w) : BitVec w × Flags :=
  if b = 0 then (BitVec.allOnes w, flIDZ)
  else if a.toInt = -(2 ^ (w - 1) : Int) ∧ b.toInt = -1 then (a, flIOV)
  else (BitVec.ofInt w (a.toInt.tdiv b.toInt), 0)
/-- R41: the remainder. -/
def remS {w : Nat} (a b : BitVec w) : BitVec w × Flags :=
  if b = 0 then (a, flIDZ)
  else if a.toInt = -(2 ^ (w - 1) : Int) ∧ b.toInt = -1 then (0, flIOV)
  else (BitVec.ofInt w (a.toInt.tmod b.toInt), 0)
/-- R41: unsigned quotient. -/
def quotU {w : Nat} (a b : BitVec w) : BitVec w × Flags :=
  if b = 0 then (BitVec.allOnes w, flIDZ) else (BitVec.ofNat w (a.toNat / b.toNat), 0)
/-- R41: unsigned remainder. -/
def remU {w : Nat} (a b : BitVec w) : BitVec w × Flags :=
  if b = 0 then (a, flIDZ) else (BitVec.ofNat w (a.toNat % b.toNat), 0)

/-- A division: held, its flag ORed into FFLAGS in program order (R32, R96). -/
def State.divOp (s : State) (d a b : SReg) (f : Word → Word → Word × Flags) : Out :=
  s.heldOp [a, b] [d] fun s =>
    let r := f (s.curCtx.reg a) (s.curCtx.reg b)
    .next (s.complete fun c => { c.setReg d r.1 with fflags := c.fflags ||| r.2 })

/-- R60: the target of an offset in halfwords from the first word. -/
def State.target (s : State) (off : Int) : Word := s.curCtx.pc + BitVec.ofInt 64 (2 * off)

/-- R98: the index of a branch's direction counter. -/
def branchIndex (pc : Word) (cx : Nat) : Nat := Nat.xor (bitsOf pc.toNat 10 1) (cx % 4 * 256)

/-- R98: a two-bit counter moves towards the branch's direction. -/
def countDir (n : Nat) (taken : Bool) : Nat := if taken then min (n + 1) 3 else n - 1

/-- R98: the direction counter of a branch learns. -/
def State.learnBranch (s : State) (pc : Word) (cx : Nat) (taken : Bool) : State :=
  s.modCore (coreOf cx) fun k =>
    let i := branchIndex pc cx
    { k with branches := k.branches.set 1 i (countDir (k.branches.get 1 i) taken) }

/-- The test of two register values. -/
def BranchTest.holds (t : BranchTest) (x y : Word) : Bool :=
  match t with
  | .eqz => x == 0
  | .nez => x != 0
  | .eq => x == y
  | .ne => x != y
  | .lt => x.slt y
  | .ge => !x.slt y
  | .ltn => x.ult y
  | .gen => !x.ult y

/-- The test of the registers that a branch names. -/
def BranchTest.on (t : BranchTest) (c : Ctx) (reads : List SReg) : Bool := t.holds (c.reg (reads.getD 0 0)) (c.reg (reads.getD 1 0))

/-- R227: a branch may be taken as predicted before the loads that decide it have returned. -/
def Ctx.mayGuess (c : Ctx) (reads : List SReg) : Bool :=
  c.guess.isNone && reads.any c.busy &&
    !reads.any fun r => c.vq.any (fun e => vqScalarDst e.ins == some r) || c.ops.any fun o => o.dst == r

/-- A branch taken as its counter predicts, its test still to come (R98, R227). -/
def State.guessBranch (s : State) (reads : List SReg) (off : Int) (t : BranchTest) : State :=
  let c := s.curCtx
  let taken := decide (2 ≤ (s.core (coreOf s.sched.cur)).branches.get 1 (branchIndex c.pc s.sched.cur))
  s.setCur { c with
    guess := some { ord := c.ord, pc := c.pc, reads := reads, test := t, taken := taken }
    ord := c.ord + 1, pc := if taken then c.pc + BitVec.ofInt 64 (2 * off) else s.nextPc }

/-- A conditional branch (R98); while a load still owes a register it tests, whether it is guessed or waits is free (R227;
notes/assumptions/80.md). -/
def State.branchOp (s : State) (reads : List SReg) (off : Int) (t : BranchTest) : Out :=
  if s.curCtx.mayGuess reads then
    let (go, s) := s.drawBit
    .next (if go then s.guessBranch reads off t else s)
  else s.freeIssue reads [] false fun s c =>
    let pc := s.curCtx.pc
    let taken := t.on c reads
    let s := s.setCur { c with pc := if taken then pc + BitVec.ofInt 64 (2 * off) else c.pc }.retire
    .next (s.learnBranch pc s.sched.cur taken)

/-- A guessed branch whose loads have returned is decided: what was done behind it stands, or it is taken back and issues again
(R227). -/
def State.decideBranch (s : State) (cx : Nat) : State :=
  let c := s.ctx cx
  match c.guess with
  | none => s
  | some g =>
    if g.reads.any c.busy then s
    else if g.test.on c g.reads == g.taken && (c.badRead g.reads).isNone then
      (s.setCtx cx (({ c with guess := none } : Ctx).count (c.ord - g.ord)).freeUndo).learnBranch g.pc cx g.taken
    else s.setCtx cx c.unguess

/-! ### R95 -/

/-- ADD (R95). -/
def execAdd (d a b : SReg) (s : State) : Out := s.regOp [a, b] d fun c => c.reg a + c.reg b
/-- SUB (R95). -/
def execSub (d a b : SReg) (s : State) : Out := s.regOp [a, b] d fun c => c.reg a - c.reg b
/-- AND (R95). -/
def execAnd (d a b : SReg) (s : State) : Out := s.regOp [a, b] d fun c => c.reg a &&& c.reg b
/-- OR (R95). -/
def execOr (d a b : SReg) (s : State) : Out := s.regOp [a, b] d fun c => c.reg a ||| c.reg b
/-- XOR (R95). -/
def execXor (d a b : SReg) (s : State) : Out := s.regOp [a, b] d fun c => c.reg a ^^^ c.reg b
/-- SLL (R95). -/
def execSll (d a b : SReg) (s : State) : Out := s.regOp [a, b] d fun c => c.reg a <<< shAmt (c.reg b)
/-- SRL (R95). -/
def execSrl (d a b : SReg) (s : State) : Out := s.regOp [a, b] d fun c => c.reg a >>> shAmt (c.reg b)
/-- SRA (R95). -/
def execSra (d a b : SReg) (s : State) : Out := s.regOp [a, b] d fun c => (c.reg a).sshiftRight (shAmt (c.reg b))
/-- SLT (R95). -/
def execSlt (d a b : SReg) (s : State) : Out := s.regOp [a, b] d fun c => boolWord ((c.reg a).slt (c.reg b))
/-- SLTN (R95). -/
def execSltn (d a b : SReg) (s : State) : Out := s.regOp [a, b] d fun c => boolWord ((c.reg a).ult (c.reg b))
/-- MIN (R95). -/
def execMin (d a b : SReg) (s : State) : Out := s.regOp [a, b] d fun c => if (c.reg b).slt (c.reg a) then c.reg b else c.reg a
/-- MAX (R95). -/
def execMax (d a b : SReg) (s : State) : Out := s.regOp [a, b] d fun c => if (c.reg a).slt (c.reg b) then c.reg b else c.reg a
/-- MINN (R95). -/
def execMinn (d a b : SReg) (s : State) : Out := s.regOp [a, b] d fun c => if (c.reg b).ult (c.reg a) then c.reg b else c.reg a
/-- MAXN (R95). -/
def execMaxn (d a b : SReg) (s : State) : Out := s.regOp [a, b] d fun c => if (c.reg a).ult (c.reg b) then c.reg b else c.reg a
/-- MUL (R96). -/
def execMul (d a b : SReg) (s : State) : Out := s.regOp [a, b] d fun c => c.reg a * c.reg b
/-- MULH (R96). -/
def execMulh (d a b : SReg) (s : State) : Out := s.regOp [a, b] d fun c => BitVec.ofInt 64 ((c.reg a).toInt * (c.reg b).toInt / 2 ^ 64)
/-- MULHN (R96). -/
def execMulhn (d a b : SReg) (s : State) : Out := s.regOp [a, b] d fun c => BitVec.ofNat 64 ((c.reg a).toNat * (c.reg b).toNat / 2 ^ 64)
/-- MOV (R95). -/
def execMov (d a : SReg) (s : State) : Out := s.regOp [a] d fun c => c.reg a
/-- NOT (R95). -/
def execNot (d a : SReg) (s : State) : Out := s.regOp [a] d fun c => ~~~(c.reg a)
/-- NEG (R95). -/
def execNeg (d a : SReg) (s : State) : Out := s.regOp [a] d fun c => 0 - c.reg a
/-- CLZ (R95). -/
def execClz (d a : SReg) (s : State) : Out := s.regOp [a] d fun c => BitVec.ofNat 64 (clz64 (c.reg a))
/-- CTZ (R95). -/
def execCtz (d a : SReg) (s : State) : Out := s.regOp [a] d fun c => BitVec.ofNat 64 (ctz64 (c.reg a))
/-- POPC (R95). -/
def execPopc (d a : SReg) (s : State) : Out := s.regOp [a] d fun c => BitVec.ofNat 64 (popcount (c.reg a).toNat 64)
/-- ADDI (R95). -/
def execAddi (d a : SReg) (imm : Int) (s : State) : Out := s.regOp [a] d fun c => c.reg a + immS imm
/-- ANDI (R95). -/
def execAndi (d a : SReg) (imm : Int) (s : State) : Out := s.regOp [a] d fun c => c.reg a &&& immS imm
/-- ORI (R95). -/
def execOri (d a : SReg) (imm : Int) (s : State) : Out := s.regOp [a] d fun c => c.reg a ||| immS imm
/-- XORI (R95). -/
def execXori (d a : SReg) (imm : Int) (s : State) : Out := s.regOp [a] d fun c => c.reg a ^^^ immS imm
/-- SLLI (R95). -/
def execSlli (d a : SReg) (amt : Nat) (s : State) : Out := s.regOp [a] d fun c => c.reg a <<< amt
/-- SRLI (R95). -/
def execSrli (d a : SReg) (amt : Nat) (s : State) : Out := s.regOp [a] d fun c => c.reg a >>> amt
/-- SRAI (R95). -/
def execSrai (d a : SReg) (amt : Nat) (s : State) : Out := s.regOp [a] d fun c => (c.reg a).sshiftRight amt
/-- LI (R95). -/
def execLi (d : SReg) (imm : Int) (s : State) : Out := s.regOp [] d fun _ => immS imm
/-- SEXT (R95). -/
def execSext (d a : SReg) (w : Fin 3) (s : State) : Out := s.regOp [a] d fun c => sextW (extWidth w) (c.reg a)
/-- ZEXT (R95). -/
def execZext (d a : SReg) (w : Fin 3) (s : State) : Out := s.regOp [a] d fun c => zextW (extWidth w) (c.reg a)
/-- LIH (R95). -/
def execLih (d a : SReg) (imm : Nat) (s : State) : Out :=
  s.regOp [a] d fun c => BitVec.ofNat 64 (imm * 2 ^ 48 + (c.reg a).toNat % 2 ^ 48)
/-- ADDSL (R95). -/
def execAddsl (d a b : SReg) (c : Fin 32) (s : State) : Out := s.regOp [a, b] d fun x => x.reg a + (x.reg b <<< c.val)
/-- SELECT (R95): the condition register is read from C. -/
def execSelect (d a b c : SReg) (s : State) : Out :=
  s.regOp [a, b, c] d fun x => if x.reg c ≠ 0 then x.reg a else x.reg b
/-- ADDPC (R98): no transfer. -/
def execAddpc (d : SReg) (off : Int) (s : State) : Out :=
  let t := s.target off
  s.regOp [] d fun _ => t

/-! ### R96 -/

/-- DIV (R41, R96). -/
def execDiv (d a b : SReg) (s : State) : Out := s.divOp d a b quotS
/-- DIVN (R41, R96). -/
def execDivn (d a b : SReg) (s : State) : Out := s.divOp d a b quotU
/-- REM (R41, R96). -/
def execRem (d a b : SReg) (s : State) : Out := s.divOp d a b remS
/-- REMN (R41, R96). -/
def execRemn (d a b : SReg) (s : State) : Out := s.divOp d a b remU

/-! ### R98 to R100 -/

/-- BEQZ (R98). -/
def execBeqz (d : SReg) (off : Int) (s : State) : Out := s.branchOp [d] off .eqz
/-- BNEZ (R98). -/
def execBnez (d : SReg) (off : Int) (s : State) : Out := s.branchOp [d] off .nez
/-- BEQ (R98). -/
def execBeq (d a : SReg) (off : Int) (s : State) : Out := s.branchOp [d, a] off .eq
/-- BNE (R98). -/
def execBne (d a : SReg) (off : Int) (s : State) : Out := s.branchOp [d, a] off .ne
/-- BLT (R98). -/
def execBlt (d a : SReg) (off : Int) (s : State) : Out := s.branchOp [d, a] off .lt
/-- BGE (R98). -/
def execBge (d a : SReg) (off : Int) (s : State) : Out := s.branchOp [d, a] off .ge
/-- BLTN (R98). -/
def execBltn (d a : SReg) (off : Int) (s : State) : Out := s.branchOp [d, a] off .ltn
/-- BGEN (R98). -/
def execBgen (d a : SReg) (off : Int) (s : State) : Out := s.branchOp [d, a] off .gen

/-- JAL (R98): the link is the address after the instruction. -/
def execJal (d : SReg) (off : Int) (s : State) : Out :=
  let t := s.target off
  s.freeOp [] [d] false fun c => { c.setReg d c.pc with pc := t }

/-- JALR (R60, R98): an odd target raises MISALIGNED at the jump, and nothing is written. -/
def execJalr (d a : SReg) (s : State) : Out :=
  s.freeIssue [a] [d] false fun s c =>
    let t := c.reg a
    if t.getLsbD 0 then s.trapCur .misaligned t
    else .next (s.setCur ({ c.setReg d c.pc with pc := t } : Ctx).retire)

/-- SETVL (R99): VLMAX is that of the new VTYPE. -/
def execSetvl (d a : SReg) (fmt : Fmt) (s : State) : Out :=
  s.freeOp [a] [d] true fun c =>
    let n := min (c.reg a).toNat (c.vlmaxOf fmt)
    { c.setReg d (BitVec.ofNat 64 n) with vtype := fmt, vl := n }

/-- The pointer registers of LOOPSM (R100). -/
def loopPointers (p : SReg) (np : Fin 4) : List SReg := (List.range (np.val + 1)).map fun i => Fin.ofNat 32 (p.val + i)

/-- LOOPSM (R100). -/
def execLoopsm (rc p : SReg) (np : Fin 4) (off : Int) (s : State) : Out :=
  let ps := loopPointers p np
  let t := s.target off
  s.freeOp (rc :: ps) (rc :: ps) true fun c =>
    let n := c.vl
    let step := BitVec.ofNat 64 ((n * Fmt.bits c.vtype + 7) / 8)
    let left := c.reg rc - BitVec.ofNat 64 n
    let c := ps.foldl (fun c r => c.setReg r (c.reg r + step)) (c.setReg rc left)
    if left.toInt ≤ 0 then { c with vl := 0 }
    else { c with vl := min left.toNat (c.vlmaxOf c.vtype), pc := t }

/-! ### R102, R103 -/

/-- TIME (R102): the local cluster's counter. -/
def execTime (d : SReg) (s : State) : Out :=
  s.freeIssue [] [d] false fun s c =>
    let (t, s) := s.clusterNow (clusterOf (coreOf s.sched.cur))
    .next (s.setCur (c.setReg d (BitVec.ofNat 64 t)).retire)


end Sys2Proof.Machine
end

