-- ==== Sys2Proof/Machine/VecArith.lean ====
section
/-! DEFINITION. The element operations of the vector unit: arithmetic, minima, classes, compares, sums and conversions
(R35 to R42, R44, R116 to R120, R125, R127). -/

namespace Sys2Proof.Machine
open Sys2Proof

/-- An operation on components: the formats it takes, and what it gives from x, y and the old destination d. -/
structure VArith where
  accepts : Fmt → Bool
  int : RMode → Nat → Nat → Nat → Nat → Nat × Flags
  flt : RMode → FFmt → Nat → Nat → Nat → Nat × Flags

/-- R116's format classes. -/
def accIQFC (f : Fmt) : Bool := Fmt.isI f || Fmt.isQ f || Fmt.isF f || Fmt.isC f
def accIQ (f : Fmt) : Bool := Fmt.isI f || Fmt.isQ f
def accIQF (f : Fmt) : Bool := Fmt.isI f || Fmt.isQ f || Fmt.isF f
def accIF (f : Fmt) : Bool := Fmt.isI f || Fmt.isF f

/-- No integer or no floating form. -/
def noInt : RMode → Nat → Nat → Nat → Nat → Nat × Flags := fun _ _ _ _ d => (d, 0)
def noFlt : RMode → FFmt → Nat → Nat → Nat → Nat × Flags := fun _ _ _ _ d => (d, 0)

/-- The operation of one component. -/
def VArith.comp (o : VArith) (m : RMode) (k : CompKind) (x y d : Nat) : Nat × Flags :=
  match k with
  | .int w => o.int m w x y d
  | .flt f => o.flt m f x y d
  | .code _ => (d, 0)

/-- R28, R116: the effect on a destination register, component by component; the mask counts whole elements. -/
def VArith.effect (o : VArith) (q : Qual) (vd va vb : VReg) (e : VEntry) (c : Ctx) : Ctx :=
  let f := Qual.fmt q e.vtype
  let (k, per) := compOf f
  let w := k.width
  let ts := (c.activeList q f (e.count f)).flatMap fun i => (List.range per).map fun j => i * per + j
  let rs := ts.map fun t => (t, o.comp e.mode k (elemAt (c.vreg va) w t) (elemAt (c.vreg vb) w t) (elemAt (c.vreg vd) w t))
  (c.setVreg vd (putAll (c.vreg vd) w (rs.map fun r => (r.1, r.2.1)))).addFlags (orFlags (rs.map fun r => r.2.2))

/-- A wrapped integer. -/
def wrapI (w : Nat) (v : Int) : Nat := (v % (2 ^ w : Nat)).toNat
/-- Clamped to the signed range of w bits; IOV when clamped (R42, R116). -/
def satI (w : Nat) (v : Int) : Nat × Flags :=
  let hi : Int := 2 ^ (w - 1) - 1
  let lo : Int := -(2 ^ (w - 1))
  if v > hi then (wrapI w hi, flIOV) else if v < lo then (wrapI w lo, flIOV) else (wrapI w v, 0)

/-- An integer operation that sets no flag. -/
def intOp (f : Nat → Nat → Nat → Nat → Nat) : RMode → Nat → Nat → Nat → Nat → Nat × Flags := fun _ w x y d => (f w x y d % 2 ^ w, 0)
/-- A floating operation of two decoded operands. -/
def fltOp (g : FFmt → RMode → FV → FV → Nat × Flags) : RMode → FFmt → Nat → Nat → Nat → Nat × Flags :=
  fun m f x y _ => g f m (decodeF f x) (decodeF f y)

/-- VADD, VSUB, VMUL, VMAC (R116). -/
def opAdd : VArith := { accepts := accIQFC, int := intOp fun _ x y _ => x + y, flt := fltOp addF }
def opSub : VArith :=
  { accepts := accIQFC, int := intOp fun w x y _ => x + 2 ^ w - y, flt := fltOp fun f m a b => addF f m a b.negate }
def opMul : VArith := { accepts := accIQFC, int := intOp fun _ x y _ => x * y, flt := fltOp mulF }
def opMac : VArith :=
  { accepts := accIQFC, int := intOp fun _ x y d => d + x * y
    flt := fun m f x y d => fmaF f m (decodeF f d) (decodeF f x) (decodeF f y) }

/-- R118: the order of floating values, with −0 below +0. -/
def lessF (a b : FV) : Bool :=
  match compareV a b with
  | .lt => true
  | .gt => false
  | .eq => a.neg && !b.neg

/-- R118: minimum or maximum of two encodings. -/
def minMaxF (max : Bool) (f : FFmt) (x y : Nat) : Nat × Flags :=
  let a := decodeF f x
  let b := decodeF f y
  let fl := a.snanFlag ||| b.snanFlag
  if a.isNaN || b.isNaN then (f.nanEnc, fl) else (if lessF b a != max then y else x, fl)

def opMinMax (max : Bool) : VArith :=
  { accepts := accIQFC
    int := intOp fun w x y _ => if decide (signedOf w y < signedOf w x) != max then y else x
    flt := fun _ f x y _ => minMaxF max f x y }
def opMinMaxN (max : Bool) : VArith :=
  { accepts := accIQ, int := intOp fun _ x y _ => if max then Nat.max x y else Nat.min x y, flt := noFlt }
/-- Bitwise operations (R116). -/
def opBits (g : Nat → Nat → Nat) : VArith := { accepts := accIQ, int := intOp fun _ x y _ => g x y, flt := noFlt }
/-- Shifts by the low log2 w bits of y (R116). -/
def opShift (g : Nat → Nat → Nat → Nat) : VArith := { accepts := accIQ, int := intOp fun w x y _ => g w x (y % w), flt := noFlt }
def opSll : VArith := opShift fun _ x n => x * 2 ^ n
def opSrl : VArith := opShift fun _ x n => x / 2 ^ n
def opSra : VArith := opShift fun w x n => wrapI w (signedOf w x / 2 ^ n)
/-- R41 on each lane. -/
def laneDiv (g : (w : Nat) → BitVec w → BitVec w → BitVec w × Flags) : RMode → Nat → Nat → Nat → Nat → Nat × Flags :=
  fun _ w x y _ => let r := g w (BitVec.ofNat w x) (BitVec.ofNat w y); (r.1.toNat, r.2)
def opDiv : VArith := { accepts := accIQF, int := laneDiv fun _ a b => quotS a b, flt := fltOp divF }
def opDivn : VArith := { accepts := accIQ, int := laneDiv fun _ a b => quotU a b, flt := noFlt }
def opRem : VArith := { accepts := accIQ, int := laneDiv fun _ a b => remS a b, flt := noFlt }
def opRemn : VArith := { accepts := accIQ, int := laneDiv fun _ a b => remU a b, flt := noFlt }
def opAdds : VArith := { accepts := accIQ, int := fun _ w x y _ => satI w (signedOf w x + signedOf w y), flt := noFlt }
def opSubs : VArith := { accepts := accIQ, int := fun _ w x y _ => satI w (signedOf w x - signedOf w y), flt := noFlt }
/-- VMULHQ (R117). -/
def opMulhq : VArith :=
  { accepts := fun f => f == .i8 || f == .i16 || f == .i32 || f == .ci16
    int := fun m w x y _ =>
      satI w (roundInt m.rm (mkRat (signedOf w x * signedOf w y) (2 ^ (w - 1)))).1
    flt := noFlt }
/-- VABS and VNEG copy every other bit (R116). -/
def opAbs : VArith :=
  { accepts := accIQFC, int := intOp fun w x _ _ => wrapI w (signedOf w x).natAbs, flt := fun _ f x _ _ => (x % f.signBit, 0) }
def opNeg : VArith :=
  { accepts := accIQFC, int := intOp fun w x _ _ => 2 ^ w - x
    flt := fun _ f x _ _ => (if x / f.signBit % 2 = 1 then x % f.signBit else x + f.signBit, 0) }
def opApprox (g : FFmt → FV → Nat × Flags) : VArith :=
  { accepts := Fmt.isF, int := noInt, flt := fun _ f x _ _ => g f (decodeF f x) }
def opSqrt : VArith := { accepts := Fmt.isF, int := noInt, flt := fun m f x _ _ => sqrtF f m (decodeF f x) }
/-- VCLASS (R119). -/
def classOf (f : FFmt) (x : Nat) : Nat :=
  match decodeF f x with
  | .nan s => if s then 256 else 512
  | .inf n => if n then 1 else 128
  | .fin z v =>
    if v = 0 then (if z then 8 else 16)
    else if ratAbs v < pow2 f.emin then (if v < 0 then 4 else 32) else (if v < 0 then 2 else 64)
def opClass : VArith := { accepts := Fmt.isF, int := noInt, flt := fun _ f x _ _ => (classOf f x, 0) }
/-- VSCALE (R119); a power beyond ±1,000 overflows or underflows as ±1,000 does. -/
def scaleF (m : RMode) (f : FFmt) (x y : Nat) : Nat × Flags :=
  match decodeF f x with
  | .nan s => (f.nanEnc, flagIf s flNV)
  | .inf _ => (x, 0)
  | .fin z v =>
    if v = 0 then (x, 0)
    else rnd f m z (v * pow2 (max (-1000) (min 1000 (signedOf f.width y))))
def opScale : VArith := { accepts := Fmt.isF, int := noInt, flt := fun m f x y _ => scaleF m f x y }

/-! ### Compares (R120) -/

/-- The compares of page 0x12. -/
inductive Cmp where
  | eq | ne | lt | le | ltn | len
  deriving DecidableEq, Repr

def Cmp.int (o : Cmp) (w x y : Nat) : Bool :=
  match o with
  | .eq => x == y
  | .ne => x != y
  | .lt => decide (signedOf w x < signedOf w y)
  | .le => decide (signedOf w x ≤ signedOf w y)
  | .ltn => decide (x < y)
  | .len => decide (x ≤ y)

def Cmp.flt (o : Cmp) (a b : FV) : Bool × Flags :=
  let sn := a.snanFlag ||| b.snanFlag
  if a.isNaN || b.isNaN then
    (o == .ne, sn ||| flagIf (o == .lt || o == .le) flNV)
  else
    let r := compareV a b
    (match o with
     | .eq => r == .eq
     | .ne => r != .eq
     | .lt => r == .lt
     | .le => r != .gt
     | _ => false, sn)

/-- The formats a compare takes. -/
def Cmp.accepts (o : Cmp) (f : Fmt) : Bool :=
  match o with
  | .ltn => Fmt.isI f
  | .len => Fmt.isI f
  | _ => accIF f

/-- One element of a compare. -/
def Cmp.elem (o : Cmp) (f : Fmt) (x y : Nat) : Bool × Flags :=
  match (compOf f).1 with
  | .int w => (o.int w x y, 0)
  | .flt k => o.flt (decodeF k x) (decodeF k y)
  | .code _ => (false, 0)

/-- Bits of a mask register written one by one. -/
def putBits (m : BitVec 512) (bs : List (Nat × Bool)) : BitVec 512 :=
  bs.foldl (fun m b => if b.2 then m ||| BitVec.ofNat 512 (2 ^ b.1) else m &&& ~~~(BitVec.ofNat 512 (2 ^ b.1))) m

/-- R120: the effect of a compare, against a register or an immediate. -/
def cmpEffect (o : Cmp) (q : Qual) (md : MReg) (va : VReg) (y : Nat → Nat) (e : VEntry) (c : Ctx) : Ctx :=
  let f := Qual.fmt q e.vtype
  let rs := (c.activeList q f (e.count f)).map fun i => (i, o.elem f (elemAt (c.vreg va) (Fmt.bits f) i) (y i))
  (c.setMreg md (putBits (c.mreg md) (rs.map fun r => (r.1, r.2.1)))).addFlags (orFlags (rs.map fun r => r.2.2))

/-! ### Sums in the fixed tree (R44) -/

/-- One level of the tree. -/
def treeLevel {α : Type} (add : α → α → α × Flags) : List α → List α × Flags
  | a :: b :: r =>
    let (x, f) := add a b
    let (xs, fs) := treeLevel add r
    (x :: xs, f ||| fs)
  | l => (l, 0)

/-- The whole tree, level by level. -/
def treeSum {α : Type} (add : α → α → α × Flags) : Nat → List α → Flags → List α × Flags
  | 0, l, f => (l, f)
  | n + 1, l, f => let (l', f') := treeLevel add l; treeSum add n l' (f ||| f')

/-- The levels of the tree for VL = n: the least power of two from n up. -/
def treeDepth (n : Nat) : Nat := if n ≤ 1 then 0 else Nat.log2 (n - 1) + 1

/-- R44's add of two components: an exact zero sum is +0 unless both are −0, in every rounding mode. -/
def treeAdd (m : RMode) (k : CompKind) (x y : Nat) : Nat × Flags :=
  match k with
  | .int w => ((x + y) % 2 ^ w, 0)
  | .code _ => (x, 0)
  | .flt f =>
    let a := decodeF f x
    let b := decodeF f y
    let (s, fl) := sumV (a.neg && b.neg) [a, b]
    let (r, fl') := encodeF f m s
    (r, fl ||| fl' ||| a.snanFlag ||| b.snanFlag)

/-- R20: a floating term on its own, a NaN made canonical with the flag of a signalling one. -/
def loneTerm (k : CompKind) (x : Nat) : Nat × Flags :=
  match k with
  | .flt f => let v := decodeF f x; (if v.isNaN then f.nanEnc else x, v.snanFlag)
  | _ => (x, 0)

/-- R44: the sum of VL = n terms of component j, where term gives a term's bits, 0 for an inactive one; a tree of one term has no add
(R20, notes/assumptions/84.md). -/
def treeTotal (m : RMode) (k : CompKind) (n : Nat) (term : Nat → Nat) : Nat × Flags :=
  if n ≤ 1 then loneTerm k (term 0)
  else
  let d := treeDepth n
  let (l, f) := treeSum (treeAdd m k) d ((List.range (2 ^ d)).map fun i => if i < n then term i else 0) 0
  (l.headD 0, f)

/-- R125: the extreme of the active terms, and the identity of an empty reduction. -/
def extremeOf (max : Bool) (k : CompKind) (xs : List Nat) : Nat × Flags :=
  match k with
  | .int w =>
    let top := if max then 2 ^ (w - 1) else 2 ^ (w - 1) - 1
    (xs.foldl (fun a x => if decide (signedOf w x < signedOf w a) != max then x else a) top, 0)
  | .code _ => (0, 0)
  | .flt f =>
    let fl := orFlags (xs.map fun x => (decodeF f x).snanFlag)
    if xs.any fun x => (decodeF f x).isNaN then (f.nanEnc, fl)
    else (xs.foldl (fun a x => (minMaxF max f a x).1) (f.maxEnc + 1 + (if max then f.signBit else 0)), fl)

/-! ### Conversions (R35, R36, R40, R127) -/

/-- A real format's element as a value; ints is how a codebook's entries read. -/
def realValue (cb : List Nat) (f : Fmt) (x : Nat) : FV :=
  match f with
  | .cb4 => decodeF .bf16 (cb.getD (x % 16) 0)
  | .e8m0 => decodeE8m0 x
  | f =>
    match (compOf f).1 with
    | .int w => .fin false (signedOf w x : Int)
    | .flt k => decodeF k x
    | .code _ => .nan false

/-- Whether a is nearer to x than b, both distances in the extended reals. -/
def distOf (x v : FV) : Option Rat :=
  match x, v with
  | .fin _ a, .fin _ b => some (ratAbs (a - b))
  | .inf m, .inf n => if m = n then some 0 else none
  | _, _ => none

/-- Whether two values are equal as numbers. -/
def sameValue (a b : FV) : Bool :=
  match a, b with
  | .fin _ x, .fin _ y => x == y
  | .inf m, .inf n => m == n
  | _, _ => false

/-- The better of two codes for R40: nearer first; among equals of one value the lower code; else the even code, else the
lower. -/
def betterCode (x : FV) (best : Option (Nat × FV)) (cand : Nat × FV) : Option (Nat × FV) :=
  match best with
  | none => some cand
  | some b =>
    let rank := match distOf x cand.2, distOf x b.2 with
      | some d, some e => compare d e
      | some _, none => .lt
      | none, some _ => .gt
      | none, none => .eq
    match rank with
    | .lt => some cand
    | .gt => some b
    | .eq =>
      if sameValue cand.2 b.2 then some b
      else if cand.1 % 2 = 0 ∧ b.1 % 2 = 1 then some cand else some b

/-- The codes of a codebook with their values, in ascending order. -/
def codeValues (cb : List Nat) : List (Nat × FV) := (List.range 16).map fun i => (i, decodeF .bf16 (cb.getD i 0))

/-- Among entries of equal value the lowest code (R40). -/
def lowestCodes (vs : List (Nat × FV)) : List (Nat × FV) :=
  vs.foldl (fun acc p => if acc.any fun q => sameValue q.2 p.2 then acc else acc ++ [p]) []

/-- R40: quantisation of a quotient to cb4. -/
def quantCb4 (cb : List Nat) (x : FV) : Nat × Flags :=
  let vs := (codeValues cb).filter fun p => !p.2.isNaN
  match x with
  | .nan _ => (0, flNV)
  | x =>
    match vs with
    | [] => (0, flNV)
    | _ =>
      let zero := match x with
        | .fin z v => if v = 0 then vs.find? (fun (p : Nat × FV) => p.2 == FV.fin z 0) else none
        | _ => none
      match zero with
      | some p => (p.1, 0)
      | none =>
        match (lowestCodes vs).foldl (betterCode x) none with
        | some p => (p.1, flagIf (!sameValue p.2 x) flNX)
        | none => (0, flNV)

/-- A real value to a real format (R35, R36, R40). -/
def encodeReal (cb : List Nat) (m : RMode) (f : Fmt) (x : FV) : Nat × Flags :=
  match f with
  | .cb4 => quantCb4 cb x
  | .e8m0 => cvtToE8m0 m.rm x
  | f =>
    match (compOf f).1 with
    | .int w => let r := cvtToInt (-(2 ^ (w - 1))) (2 ^ (w - 1) - 1) m.rm x; (wrapI w r.1, r.2)
    | .flt k => cvtToF k m x
    | .code _ => (0, 0)

/-- A component of a complex format as a value (R127). -/
def compValue (k : CompKind) (x : Nat) : FV :=
  match k with
  | .int w => .fin false (mkRat (signedOf w x) (2 ^ (w - 1)))
  | .flt f => decodeF f x
  | .code _ => .nan false

/-- R127: a component to a complex format's component: Q15 rounds by RM and saturates, with IOV and
NV the only flags it names (R42; DEDUCED, assumption 16). -/
def encodeComp (m : RMode) (k : CompKind) (x : FV) : Nat × Flags :=
  match k with
  | .flt f => cvtToF f m x
  | .int w =>
    match x with
    | .nan _ => (0, flNV)
    | .inf n => satI w (if n then -(2 ^ w) else 2 ^ w)
    | .fin _ v => satI w (roundInt m.rm (v * pow2 (w - 1 : Nat))).1
  | .code _ => (0, 0)

/-- Whether a format is complex. -/
def Fmt.isComplex (f : Fmt) : Bool := Fmt.isC f || Fmt.isQ f

/-- One element converted (R127). -/
def cvtElem (cb : List Nat) (m : RMode) (sf tf : Fmt) (x : Nat) : Nat × Flags :=
  if sf = tf then (x, 0)
  else if Fmt.isComplex sf then
    let (ks, _) := compOf sf
    let (kt, _) := compOf tf
    let (a, fa) := encodeComp m kt (compValue ks (x % 2 ^ ks.width))
    let (b, fb) := encodeComp m kt (compValue ks (x / 2 ^ ks.width))
    (a + b * 2 ^ kt.width, fa ||| fb)
  else if Fmt.isI sf && Fmt.isI tf then satI (Fmt.bits tf) (signedOf (Fmt.bits sf) x)
  else encodeReal cb m tf (realValue cb sf x)

/-! ### Block scaling (R37 to R40) -/

/-- A value times a power of two, exactly. -/
def scaleV (x : FV) (e : Int) : FV :=
  match x with
  | .fin z v => .fin z (v * pow2 e)
  | x => x

/-- R39: emax of a quantised format. -/
def emaxOf (cb : List Nat) (f : Fmt) : Int :=
  match f with
  | .e4m3 => 8
  | .e5m2 => 15
  | _ =>
    let m := (codeValues cb).foldl (fun (a : Rat) p => match p.2 with
      | .fin _ v => max a (ratAbs v)
      | _ => a) 0
    if m = 0 then 0 else floorLog2 m

/-- R39: blockscale of the values of a block. -/
def blockScale (emax : Int) (xs : List FV) : Nat :=
  let fins := xs.filterMap fun x => match x with
    | .fin _ v => some (ratAbs v)
    | _ => none
  if fins.length < xs.length then 255
  else
    let m := fins.foldl max 0
    if m = 0 then 0 else (min (max (floorLog2 m - emax + 127) 0) 254).toNat

end Sys2Proof.Machine
end

