-- ==== Sys2Proof/Machine/Vector.lean ====
section
/-! DEFINITION. The vector instructions of pages 0x10 to 0x14 (R113 to R130): their entry into the queue, and what each does
to the registers when it completes. -/

namespace Sys2Proof.Machine
open Sys2Proof

/-! ### Arithmetic (R116 to R119) -/

/-- VADD enters the vector queue (R116). -/
def execVadd (vd va vb : VReg) (q : Qual) (s : State) : Out := s.vPlain (.vadd vd va vb q) q opAdd.accepts
/-- VSUB enters the vector queue (R116). -/
def execVsub (vd va vb : VReg) (q : Qual) (s : State) : Out := s.vPlain (.vsub vd va vb q) q opSub.accepts
/-- VMUL enters the vector queue (R116). -/
def execVmul (vd va vb : VReg) (q : Qual) (s : State) : Out := s.vPlain (.vmul vd va vb q) q opMul.accepts
/-- VMAC enters the vector queue (R116). -/
def execVmac (vd va vb : VReg) (q : Qual) (s : State) : Out := s.vPlain (.vmac vd va vb q) q opMac.accepts
/-- VMIN enters the vector queue (R116). -/
def execVmin (vd va vb : VReg) (q : Qual) (s : State) : Out := s.vPlain (.vmin vd va vb q) q (opMinMax false).accepts
/-- VMAX enters the vector queue (R116). -/
def execVmax (vd va vb : VReg) (q : Qual) (s : State) : Out := s.vPlain (.vmax vd va vb q) q (opMinMax true).accepts
/-- VMINN enters the vector queue (R116). -/
def execVminn (vd va vb : VReg) (q : Qual) (s : State) : Out := s.vPlain (.vminn vd va vb q) q (opMinMaxN false).accepts
/-- VMAXN enters the vector queue (R116). -/
def execVmaxn (vd va vb : VReg) (q : Qual) (s : State) : Out := s.vPlain (.vmaxn vd va vb q) q (opMinMaxN true).accepts
/-- VAND enters the vector queue (R116). -/
def execVand (vd va vb : VReg) (q : Qual) (s : State) : Out := s.vPlain (.vand vd va vb q) q (opBits Nat.land).accepts
/-- VOR enters the vector queue (R116). -/
def execVor (vd va vb : VReg) (q : Qual) (s : State) : Out := s.vPlain (.vor vd va vb q) q (opBits Nat.lor).accepts
/-- VXOR enters the vector queue (R116). -/
def execVxor (vd va vb : VReg) (q : Qual) (s : State) : Out := s.vPlain (.vxor vd va vb q) q (opBits Nat.xor).accepts
/-- VSLL enters the vector queue (R116). -/
def execVsll (vd va vb : VReg) (q : Qual) (s : State) : Out := s.vPlain (.vsll vd va vb q) q opSll.accepts
/-- VSRL enters the vector queue (R116). -/
def execVsrl (vd va vb : VReg) (q : Qual) (s : State) : Out := s.vPlain (.vsrl vd va vb q) q opSrl.accepts
/-- VSRA enters the vector queue (R116). -/
def execVsra (vd va vb : VReg) (q : Qual) (s : State) : Out := s.vPlain (.vsra vd va vb q) q opSra.accepts
/-- VDIV enters the vector queue (R116). -/
def execVdiv (vd va vb : VReg) (q : Qual) (s : State) : Out := s.vPlain (.vdiv vd va vb q) q opDiv.accepts
/-- VDIVN enters the vector queue (R116). -/
def execVdivn (vd va vb : VReg) (q : Qual) (s : State) : Out := s.vPlain (.vdivn vd va vb q) q opDivn.accepts
/-- VREM enters the vector queue (R116). -/
def execVrem (vd va vb : VReg) (q : Qual) (s : State) : Out := s.vPlain (.vrem vd va vb q) q opRem.accepts
/-- VREMN enters the vector queue (R116). -/
def execVremn (vd va vb : VReg) (q : Qual) (s : State) : Out := s.vPlain (.vremn vd va vb q) q opRemn.accepts
/-- VADDS enters the vector queue (R116). -/
def execVadds (vd va vb : VReg) (q : Qual) (s : State) : Out := s.vPlain (.vadds vd va vb q) q opAdds.accepts
/-- VSUBS enters the vector queue (R116). -/
def execVsubs (vd va vb : VReg) (q : Qual) (s : State) : Out := s.vPlain (.vsubs vd va vb q) q opSubs.accepts
/-- VMULHQ enters the vector queue (R116, R117). -/
def execVmulhq (vd va vb : VReg) (q : Qual) (s : State) : Out := s.vPlain (.vmulhq vd va vb q) q opMulhq.accepts
/-- VSCALE enters the vector queue (R116, R119). -/
def execVscale (vd va vb : VReg) (q : Qual) (s : State) : Out := s.vPlain (.vscale vd va vb q) q opScale.accepts
/-- VABS enters the vector queue (R116). -/
def execVabs (vd va : VReg) (q : Qual) (s : State) : Out := s.vPlain (.vabs vd va q) q opAbs.accepts
/-- VNEG enters the vector queue (R116). -/
def execVneg (vd va : VReg) (q : Qual) (s : State) : Out := s.vPlain (.vneg vd va q) q opNeg.accepts
/-- VRCP enters the vector queue (R116). -/
def execVrcp (vd va : VReg) (q : Qual) (s : State) : Out := s.vPlain (.vrcp vd va q) q (opApprox rcpF).accepts
/-- VRSQRT enters the vector queue (R116). -/
def execVrsqrt (vd va : VReg) (q : Qual) (s : State) : Out := s.vPlain (.vrsqrt vd va q) q (opApprox rsqrtF).accepts
/-- VEXP2 enters the vector queue (R116). -/
def execVexp2 (vd va : VReg) (q : Qual) (s : State) : Out := s.vPlain (.vexp2 vd va q) q (opApprox exp2F).accepts
/-- VLOG2 enters the vector queue (R116). -/
def execVlog2 (vd va : VReg) (q : Qual) (s : State) : Out := s.vPlain (.vlog2 vd va q) q (opApprox log2F).accepts
/-- VSQRT enters the vector queue (R116). -/
def execVsqrt (vd va : VReg) (q : Qual) (s : State) : Out := s.vPlain (.vsqrt vd va q) q opSqrt.accepts
/-- VCLASS enters the vector queue (R116). -/
def execVclass (vd va : VReg) (q : Qual) (s : State) : Out := s.vPlain (.vclass vd va q) q opClass.accepts

/-! ### Compares and masks (R120 to R122) -/

/-- VCEQ (R120). -/
def execVceq (md : MReg) (va vb : VReg) (q : Qual) (s : State) : Out := s.vPlain (.vceq md va vb q) q (Cmp.accepts .eq)
/-- VCNE (R120). -/
def execVcne (md : MReg) (va vb : VReg) (q : Qual) (s : State) : Out := s.vPlain (.vcne md va vb q) q (Cmp.accepts .ne)
/-- VCLT (R120). -/
def execVclt (md : MReg) (va vb : VReg) (q : Qual) (s : State) : Out := s.vPlain (.vclt md va vb q) q (Cmp.accepts .lt)
/-- VCLE (R120). -/
def execVcle (md : MReg) (va vb : VReg) (q : Qual) (s : State) : Out := s.vPlain (.vcle md va vb q) q (Cmp.accepts .le)
/-- VCLTN (R120). -/
def execVcltn (md : MReg) (va vb : VReg) (q : Qual) (s : State) : Out := s.vPlain (.vcltn md va vb q) q (Cmp.accepts .ltn)
/-- VCLEN (R120). -/
def execVclen (md : MReg) (va vb : VReg) (q : Qual) (s : State) : Out := s.vPlain (.vclen md va vb q) q (Cmp.accepts .len)

/-- R120: an immediate outside the signed range of the element width is illegal. -/
def immFits (f : Fmt) (imm : Int) : Bool :=
  Fmt.isI f && decide (-(2 ^ (Fmt.bits f - 1)) ≤ imm) && decide (imm < 2 ^ (Fmt.bits f - 1))

/-- VCEQI (R120). -/
def execVceqi (md : MReg) (va : VReg) (imm : Int) (q : Qual) (s : State) : Out := s.vPlain (.vceqi md va imm q) q fun f => immFits f imm
/-- VCLTI (R120). -/
def execVclti (md : MReg) (va : VReg) (imm : Int) (q : Qual) (s : State) : Out := s.vPlain (.vclti md va imm q) q fun f => immFits f imm

/-- R121: how many mask bits govern the elements below VL. -/
def maskCount (e : VEntry) (grant : Nat) : Nat :=
  let n := e.count e.vtype
  if e.vtype = .cb4 ∧ 2048 < grant then (n + 1) / 2 else n

/-- R121: bits 0 to nb − 1 of a mask register replaced. -/
def maskEffect (md : MReg) (v : BitVec 512) (e : VEntry) (c : Ctx) : Ctx :=
  let low := BitVec.ofNat 512 (2 ^ maskCount e c.grant - 1)
  c.setMreg md ((c.mreg md &&& ~~~low) ||| (v &&& low))

/-- R122: the bits of a mask below nb, and the scalar result; with VL = 0 nothing is written (R114). -/
def maskRead (d : SReg) (ma : MReg) (f : Nat → Nat → Word) (e : VEntry) (c : Ctx) : Ctx :=
  let nb := maskCount e c.grant
  if nb = 0 then c else c.setReg d (f nb ((c.mreg ma).toNat % 2 ^ nb))

/-- MAND (R121). -/
def execMand (md ma mb : MReg) (s : State) : Out := s.vPlain (.mand md ma mb) {} fun _ => true
/-- MOR (R121). -/
def execMor (md ma mb : MReg) (s : State) : Out := s.vPlain (.mor md ma mb) {} fun _ => true
/-- MXOR (R121). -/
def execMxor (md ma mb : MReg) (s : State) : Out := s.vPlain (.mxor md ma mb) {} fun _ => true
/-- MNOT (R121). -/
def execMnot (md ma : MReg) (s : State) : Out := s.vPlain (.mnot md ma) {} fun _ => true
/-- MCNT (R122). -/
def execMcnt (d : SReg) (ma : MReg) (s : State) : Out := s.vIssue (.mcnt d ma) [] [d] (fun _ => 0) (fun _ => 0) fun _ => true
/-- MANY (R122). -/
def execMany (d : SReg) (ma : MReg) (s : State) : Out := s.vIssue (.many d ma) [] [d] (fun _ => 0) (fun _ => 0) fun _ => true
/-- MFIRST (R122). -/
def execMfirst (d : SReg) (ma : MReg) (s : State) : Out := s.vIssue (.mfirst d ma) [] [d] (fun _ => 0) (fun _ => 0) fun _ => true

/-! ### Moves, permutations and reductions (R123 to R125) -/

/-- Every format. -/
def accAny (_ : Fmt) : Bool := true

/-- An instruction of page 0x13 with one scalar operand in B, or in A. -/
def State.vScalar (s : State) (ins : Instr) (q : Qual) (r : SReg) (ok : Fmt → Bool) : Out :=
  s.vIssue ins [r] [] (fun c => c.reg r) (fun _ => 0) fun c => ok (Qual.fmt q c.vtype)

/-- VMV (R123). -/
def execVmv (vd va : VReg) (q : Qual) (s : State) : Out := s.vPlain (.vmv vd va q) q accAny
/-- VSPLAT (R123). -/
def execVsplat (vd : VReg) (a : SReg) (q : Qual) (s : State) : Out := s.vScalar (.vsplat vd a q) q a accAny
/-- VEXT (R123): it writes its scalar register when it completes (R112). -/
def execVext (d : SReg) (va : VReg) (b : SReg) (fo : Option Fmt) (s : State) : Out :=
  s.vIssue (.vext d va b fo) [b] [d] (fun c => c.reg b) (fun _ => 0) fun _ => true
/-- VINS (R123). -/
def execVins (vd : VReg) (a b : SReg) (fo : Option Fmt) (s : State) : Out :=
  s.vIssue (.vins vd a b fo) [a, b] [] (fun c => c.reg a) (fun c => c.reg b) fun _ => true
/-- VSLIDEUP (R123). -/
def execVslideup (vd va : VReg) (b : SReg) (q : Qual) (s : State) : Out := s.vScalar (.vslideup vd va b q) q b accAny
/-- VSLIDEDN (R123). -/
def execVslidedn (vd va : VReg) (b : SReg) (q : Qual) (s : State) : Out := s.vScalar (.vslidedn vd va b q) q b accAny
/-- VPERM (R123). -/
def execVperm (vd va vb : VReg) (q : Qual) (s : State) : Out := s.vPlain (.vperm vd va vb q) q accAny
/-- VCOMPRESS (R124). -/
def execVcompress (vd va : VReg) (q : Qual) (s : State) : Out := s.vPlain (.vcompress vd va q) q accAny
/-- VEXPAND (R123). -/
def execVexpand (vd va : VReg) (q : Qual) (s : State) : Out := s.vPlain (.vexpand vd va q) q accAny
/-- VIOTA (R123). -/
def execViota (vd : VReg) (q : Qual) (s : State) : Out := s.vPlain (.viota vd q) q Fmt.isI
/-- VID (R123). -/
def execVid (vd : VReg) (q : Qual) (s : State) : Out := s.vPlain (.vid vd q) q Fmt.isI
/-- VMERGE (R123). -/
def execVmerge (vd va vb : VReg) (q : Qual) (s : State) : Out := s.vPlain (.vmerge vd va vb q) q accAny
/-- VREDSUM (R125). -/
def execVredsum (vd va : VReg) (q : Qual) (s : State) : Out := s.vPlain (.vredsum vd va q) q accIQFC
/-- VREDMAX (R125). -/
def execVredmax (vd va : VReg) (q : Qual) (s : State) : Out := s.vPlain (.vredmax vd va q) q accIF
/-- VREDMIN (R125). -/
def execVredmin (vd va : VReg) (q : Qual) (s : State) : Out := s.vPlain (.vredmin vd va q) q accIF

/-- How many active elements lie below i (R123, R124). -/
def Ctx.activeBelow (c : Ctx) (q : Qual) (f : Fmt) (i : Nat) : Nat := (c.activeList q f i).length

/-- A copy of bits to active elements, from an index for each (R123). -/
def moveEffect (q : Qual) (vd : VReg) (src : Nat → Nat → Nat) (e : VEntry) (c : Ctx) : Ctx :=
  let f := Qual.fmt q e.vtype
  c.mapElems e q f vd fun i => (src (Fmt.bits f) i, 0)

/-- VEXT's scalar result (R123). -/
def vextEffect (d : SReg) (va : VReg) (fo : Option Fmt) (e : VEntry) (c : Ctx) : Ctx :=
  let f := fo.getD e.vtype
  let n := e.count f
  if n = 0 then c
  else c.setReg d (if e.sa.toNat < n then BitVec.ofNat 64 (elemAt (c.vreg va) (Fmt.bits f) e.sa.toNat) else 0)

/-- VINS (R123). -/
def vinsEffect (vd : VReg) (fo : Option Fmt) (e : VEntry) (c : Ctx) : Ctx :=
  let f := fo.getD e.vtype
  if e.sb.toNat < e.count f then c.setVreg vd (putElem (c.vreg vd) (Fmt.bits f) e.sb.toNat e.sa.toNat) else c

/-- VSLIDEUP leaves elements below the offset unchanged (R123). -/
def slideUpEffect (vd va : VReg) (q : Qual) (e : VEntry) (c : Ctx) : Ctx :=
  let f := Qual.fmt q e.vtype
  let w := Fmt.bits f
  let k := e.sa.toNat
  let xs := ((c.activeList q f (e.count f)).filter fun i => k ≤ i).map fun i => (i, elemAt (c.vreg va) w (i - k))
  c.setVreg vd (putAll (c.vreg vd) w xs)

/-- VCOMPRESS, with its change of VL when it completes (R124). -/
def compressEffect (vd va : VReg) (q : Qual) (e : VEntry) (c : Ctx) : Ctx :=
  let f := Qual.fmt q e.vtype
  let w := Fmt.bits f
  let act := c.activeList q f (e.count f)
  let xs := act.zipIdx.map fun p => (p.2, elemAt (c.vreg va) w p.1)
  { c.setVreg vd (putAll (c.vreg vd) w xs) with vl := min act.length (e.vlmax e.vtype) }

/-- VMERGE writes every element below VL (R123). -/
def mergeEffect (vd va vb : VReg) (q : Qual) (e : VEntry) (c : Ctx) : Ctx :=
  let f := Qual.fmt q e.vtype
  let w := Fmt.bits f
  let xs := (List.range (e.count f)).map fun i => (i, elemAt (c.vreg (if c.active q f i then va else vb)) w i)
  c.setVreg vd (putAll (c.vreg vd) w xs)

/-- VREDSUM (R44, R125): element 0 of vd, componentwise. -/
def redSumEffect (vd va : VReg) (q : Qual) (e : VEntry) (c : Ctx) : Ctx :=
  let f := Qual.fmt q e.vtype
  let n := e.count f
  if n = 0 then c
  else
    let (k, per) := compOf f
    let rs := (List.range per).map fun j =>
      (j, treeTotal e.mode k n fun i => if c.active q f i then elemAt (c.vreg va) k.width (i * per + j) else 0)
    (c.setVreg vd (putAll (c.vreg vd) k.width (rs.map fun r => (r.1, r.2.1)))).addFlags (orFlags (rs.map fun r => r.2.2))

/-- VREDMAX and VREDMIN (R125). -/
def redExtremeEffect (max : Bool) (vd va : VReg) (q : Qual) (e : VEntry) (c : Ctx) : Ctx :=
  let f := Qual.fmt q e.vtype
  let n := e.count f
  if n = 0 then c
  else
    let k := (compOf f).1
    let r := extremeOf max k ((c.activeList q f n).map fun i => elemAt (c.vreg va) k.width i)
    (c.setVreg vd (putElem (c.vreg vd) k.width 0 r.1)).addFlags r.2

/-! ### Conversion and quantisation (R126 to R130) -/

/-- R126: a register group of h registers is aligned, at most 8 long, and ends by v31. -/
def groupOk (v : VReg) (h : Nat) : Bool := h ≤ 8 && v.val % h == 0 && v.val + h ≤ 32

/-- The registers a conversion's destination takes (R126). -/
def groupSize (sb tb : Nat) : Nat := if sb < tb then tb / sb else 1

/-- R127: the combinations of VCVT. -/
def cvtLegal (vd : VReg) (tf sf : Fmt) : Bool :=
  Fmt.isComplex sf == Fmt.isComplex tf && groupOk vd (groupSize (Fmt.bits sf) (Fmt.bits tf))

/-- R129: the quantised formats. -/
def isQuantFmt : Fmt → Bool
  | .e4m3 => true | .e5m2 => true | .cb4 => true | _ => false

/-- G of R38. -/
def scaleGroup (f : Fmt) : Nat := Fmt.bits f * 4 / 8

/-- R128: the wide format of a narrow one. -/
def widePair : Fmt → Option Fmt
  | .i8 => some .i16 | .i16 => some .i32 | .i32 => some .i64 | .f16 => some .f32 | .bf16 => some .f32
  | .e4m3 => some .f16 | .e5m2 => some .f16 | .ci16 => some .cf32 | .cf16 => some .cf32 | .cbf16 => some .cf32 | _ => none

/-- R128: whether VNARROW takes a wide format to a narrow one. -/
def narrowPair (wide tf : Fmt) : Bool :=
  widePair tf == some wide || (wide == .bf16 && (tf == .e4m3 || tf == .e5m2))

/-- R128: u is 1 only for integers. -/
def widenLegal (u : Fin 2) (sf : Fmt) : Bool := (widePair sf).isSome && (u.val == 0 || Fmt.isI sf)

/-- VCVT (R127). -/
def execVcvt (vd va : VReg) (tf : Fmt) (q : Qual) (s : State) : Out := s.vPlain (.vcvt vd va tf q) q (cvtLegal vd tf)
/-- VQSCALE (R129). -/
def execVqscale (vd va : VReg) (g : Fin 16) (sf : Fmt) (q : Qual) (s : State) : Out :=
  s.vPlain (.vqscale vd va g sf q) q fun tf =>
    isQuantFmt tf && Fmt.isF sf && decide (g.val < scaleGroup tf) && groupOk va (Fmt.bits sf / Fmt.bits tf)
/-- VQUANT (R129). -/
def execVquant (vd va vb : VReg) (sf : Fmt) (q : Qual) (s : State) : Out :=
  s.vPlain (.vquant vd va vb sf q) q fun tf => isQuantFmt tf && Fmt.isF sf && groupOk va (Fmt.bits sf / Fmt.bits tf)
/-- VDEQ (R129). -/
def execVdeq (vd va vb : VReg) (tf : Fmt) (q : Qual) (s : State) : Out :=
  s.vPlain (.vdeq vd va vb tf q) q fun qf => isQuantFmt qf && Fmt.isF tf && groupOk vd (Fmt.bits tf / Fmt.bits qf)
/-- VCBLK (R130). -/
def execVcblk (vd va : VReg) (cb : Fin 2) (q : Qual) (s : State) : Out :=
  s.vPlain (.vcblk vd va cb q) q fun f => f == .cb4 && groupOk vd 4
/-- VWIDENLO (R128). -/
def execVwidenlo (vd va : VReg) (u : Fin 2) (q : Qual) (s : State) : Out := s.vPlain (.vwidenlo vd va u q) q (widenLegal u)
/-- VWIDENHI (R128). -/
def execVwidenhi (vd va : VReg) (u : Fin 2) (q : Qual) (s : State) : Out := s.vPlain (.vwidenhi vd va u q) q (widenLegal u)
/-- VNARROW (R128). -/
def execVnarrow (vd va vb : VReg) (tf : Fmt) (q : Qual) (s : State) : Out :=
  s.vPlain (.vnarrow vd va vb tf q) q fun wide => narrowPair wide tf

/-- VCVT: element i of the source to position i of the destination group (R126, R127). -/
def cvtEffect (cb : List Nat) (vd va : VReg) (tf : Fmt) (q : Qual) (e : VEntry) (c : Ctx) : Ctx :=
  let sf := Qual.fmt q e.vtype
  let (xs, fl) := c.mapActive q sf (e.count sf) fun i => cvtElem cb e.mode sf tf (elemAt (c.vreg va) (Fmt.bits sf) i)
  let et := if Fmt.bits sf < Fmt.bits tf then e.vlmax tf else 4096
  (c.putGroup vd et (Fmt.bits tf) xs).addFlags fl

/-- VQSCALE: one scale for each block of four source elements (R129). -/
def qscaleEffect (cb : List Nat) (vd va : VReg) (g : Nat) (sf : Fmt) (q : Qual) (e : VEntry) (c : Ctx) : Ctx :=
  let tf := Qual.fmt q e.vtype
  let n := e.count tf
  let k := (compOf sf).1
  let src (i : Nat) : FV :=
    if i < n && c.active q tf i then compValue k (c.groupElem va (e.vlmax sf) (Fmt.bits sf) i) else .fin false 0
  let rs := (List.range ((n + 3) / 4)).map fun j =>
    let xs := (List.range 4).map fun t => src (4 * j + t)
    (g * (e.vlmax tf / 4) + j, blockScale (emaxOf cb tf) xs, orFlags (xs.map FV.snanFlag))
  (c.setVreg vd (putAll (c.vreg vd) 8 (rs.map fun r => (r.1, r.2.1)))).addFlags (orFlags (rs.map fun r => r.2.2))

/-- VQUANT: one element under its block's scale (R40, R129). -/
def quantElem (cb : List Nat) (m : RMode) (tf : Fmt) (x : FV) (scale : Nat) : Nat × Flags :=
  if scale = 255 then
    (match (compOf tf).1 with
     | .flt f => f.nanEnc
     | _ => 0, 0)
  else encodeReal cb m tf (scaleV x (127 - (scale : Int)))

def quantEffect (cb : List Nat) (vd va vb : VReg) (sf : Fmt) (q : Qual) (e : VEntry) (c : Ctx) : Ctx :=
  let tf := Qual.fmt q e.vtype
  let k := (compOf sf).1
  let g := vd.val % scaleGroup tf
  c.mapElems e q tf vd fun i =>
    quantElem cb e.mode tf (compValue k (c.groupElem va (e.vlmax sf) (Fmt.bits sf) i))
      (elemAt (c.vreg vb) 8 (g * (e.vlmax tf / 4) + i / 4))

/-- VDEQ (R37, R129). -/
def deqEffect (cb : List Nat) (vd va vb : VReg) (tf : Fmt) (q : Qual) (e : VEntry) (c : Ctx) : Ctx :=
  let qf := Qual.fmt q e.vtype
  let g := va.val % scaleGroup qf
  let (xs, fl) := c.mapActive q qf (e.count qf) fun i =>
    let scale := elemAt (c.vreg vb) 8 (g * (e.vlmax qf / 4) + i / 4)
    if scale = 255 then encodeReal cb e.mode tf (.nan false)
    else encodeReal cb e.mode tf (scaleV (realValue cb qf (elemAt (c.vreg va) (Fmt.bits qf) i)) ((scale : Int) - 127))
  (c.putGroup vd (e.vlmax tf) (Fmt.bits tf) xs).addFlags fl

/-- VCBLK: codebook entries copied exactly (R130). -/
def cblkEffect (cb : List Nat) (vd va : VReg) (q : Qual) (e : VEntry) (c : Ctx) : Ctx :=
  let (xs, _) := c.mapActive q .cb4 (e.count .cb4) fun i => (cb.getD (elemAt (c.vreg va) 4 i) 0, 0)
  c.putGroup vd (e.vlmax .bf16) 16 xs

/-- VWIDENLO and VWIDENHI (R128): the mask governs destination elements. -/
def widenEffect (hi : Bool) (vd va : VReg) (u : Fin 2) (q : Qual) (e : VEntry) (c : Ctx) : Ctx :=
  let sf := Qual.fmt q e.vtype
  let tf := (widePair sf).getD sf
  let h := e.vlmax sf / 2
  let n := e.count sf
  let count := if hi then n - h else min n h
  let (xs, fl) := c.mapActive q sf count fun i =>
    let x := elemAt (c.vreg va) (Fmt.bits sf) (if hi then h + i else i)
    if u.val = 1 then (x, 0) else cvtElem [] e.mode sf tf x
  (c.setVreg vd (putAll (c.vreg vd) (Fmt.bits tf) xs)).addFlags fl

/-- VNARROW (R128): the mask governs destination elements. -/
def narrowEffect (vd va vb : VReg) (tf : Fmt) (q : Qual) (e : VEntry) (c : Ctx) : Ctx :=
  let wide := Qual.fmt q e.vtype
  let ew := e.vlmax wide
  let n := e.count wide
  let dst := (List.range n).map (fun i => (i, elemAt (c.vreg va) (Fmt.bits wide) i)) ++
    (List.range n).map (fun i => (ew + i, elemAt (c.vreg vb) (Fmt.bits wide) i))
  let rs := (dst.filter fun p => c.active q wide p.1).map fun p => (p.1, cvtElem [] e.mode wide tf p.2)
  (c.setVreg vd (putAll (c.vreg vd) (Fmt.bits tf) (rs.map fun r => (r.1, r.2.1)))).addFlags (orFlags (rs.map fun r => r.2.2))

/-- What an instruction of pages 0x10 to 0x14 does to its context when it completes (R113); cba and cbb are the codebooks in
use (R26).  Other instructions have no effect here. -/
def vectorEffect (cba cbb : List Nat) (e : VEntry) (c : Ctx) : Ctx :=
  match e.ins with
  | .vadd vd va vb q => opAdd.effect q vd va vb e c
  | .vsub vd va vb q => opSub.effect q vd va vb e c
  | .vmul vd va vb q => opMul.effect q vd va vb e c
  | .vmac vd va vb q => opMac.effect q vd va vb e c
  | .vmin vd va vb q => (opMinMax false).effect q vd va vb e c
  | .vmax vd va vb q => (opMinMax true).effect q vd va vb e c
  | .vminn vd va vb q => (opMinMaxN false).effect q vd va vb e c
  | .vmaxn vd va vb q => (opMinMaxN true).effect q vd va vb e c
  | .vand vd va vb q => (opBits Nat.land).effect q vd va vb e c
  | .vor vd va vb q => (opBits Nat.lor).effect q vd va vb e c
  | .vxor vd va vb q => (opBits Nat.xor).effect q vd va vb e c
  | .vsll vd va vb q => opSll.effect q vd va vb e c
  | .vsrl vd va vb q => opSrl.effect q vd va vb e c
  | .vsra vd va vb q => opSra.effect q vd va vb e c
  | .vdiv vd va vb q => opDiv.effect q vd va vb e c
  | .vdivn vd va vb q => opDivn.effect q vd va vb e c
  | .vrem vd va vb q => opRem.effect q vd va vb e c
  | .vremn vd va vb q => opRemn.effect q vd va vb e c
  | .vadds vd va vb q => opAdds.effect q vd va vb e c
  | .vsubs vd va vb q => opSubs.effect q vd va vb e c
  | .vmulhq vd va vb q => opMulhq.effect q vd va vb e c
  | .vscale vd va vb q => opScale.effect q vd va vb e c
  | .vabs vd va q => opAbs.effect q vd va va e c
  | .vneg vd va q => opNeg.effect q vd va va e c
  | .vrcp vd va q => (opApprox rcpF).effect q vd va va e c
  | .vrsqrt vd va q => (opApprox rsqrtF).effect q vd va va e c
  | .vexp2 vd va q => (opApprox exp2F).effect q vd va va e c
  | .vlog2 vd va q => (opApprox log2F).effect q vd va va e c
  | .vsqrt vd va q => opSqrt.effect q vd va va e c
  | .vclass vd va q => opClass.effect q vd va va e c
  | .vceq md va vb q => cmpEffect .eq q md va (fun i => elemAt (c.vreg vb) (Fmt.bits (Qual.fmt q e.vtype)) i) e c
  | .vcne md va vb q => cmpEffect .ne q md va (fun i => elemAt (c.vreg vb) (Fmt.bits (Qual.fmt q e.vtype)) i) e c
  | .vclt md va vb q => cmpEffect .lt q md va (fun i => elemAt (c.vreg vb) (Fmt.bits (Qual.fmt q e.vtype)) i) e c
  | .vcle md va vb q => cmpEffect .le q md va (fun i => elemAt (c.vreg vb) (Fmt.bits (Qual.fmt q e.vtype)) i) e c
  | .vcltn md va vb q => cmpEffect .ltn q md va (fun i => elemAt (c.vreg vb) (Fmt.bits (Qual.fmt q e.vtype)) i) e c
  | .vclen md va vb q => cmpEffect .len q md va (fun i => elemAt (c.vreg vb) (Fmt.bits (Qual.fmt q e.vtype)) i) e c
  | .vceqi md va imm q => cmpEffect .eq q md va (fun _ => wrapI (Fmt.bits (Qual.fmt q e.vtype)) imm) e c
  | .vclti md va imm q => cmpEffect .lt q md va (fun _ => wrapI (Fmt.bits (Qual.fmt q e.vtype)) imm) e c
  | .mand md ma mb => maskEffect md (c.mreg ma &&& c.mreg mb) e c
  | .mor md ma mb => maskEffect md (c.mreg ma ||| c.mreg mb) e c
  | .mxor md ma mb => maskEffect md (c.mreg ma ^^^ c.mreg mb) e c
  | .mnot md ma => maskEffect md (~~~(c.mreg ma)) e c
  | .mcnt d ma => maskRead d ma (fun nb m => BitVec.ofNat 64 (popcount m nb)) e c
  | .many d ma => maskRead d ma (fun _ m => boolWord (m != 0)) e c
  | .mfirst d ma => maskRead d ma (fun nb m => if m = 0 then BitVec.allOnes 64 else BitVec.ofNat 64 (ctzFrom m nb)) e c
  | .vmv vd va q => moveEffect q vd (fun w i => elemAt (c.vreg va) w i) e c
  | .vsplat vd _ q => moveEffect q vd (fun w _ => e.sa.toNat % 2 ^ w) e c
  | .vext d va _ fo => vextEffect d va fo e c
  | .vins vd _ _ fo => vinsEffect vd fo e c
  | .vslideup vd va _ q => slideUpEffect vd va q e c
  | .vslidedn vd va _ q => moveEffect q vd (fun w i =>
      if i + e.sa.toNat < e.vbits / w then elemAt (c.vreg va) w (i + e.sa.toNat) else 0) e c
  | .vperm vd va vb q => moveEffect q vd (fun w i =>
      let j := elemAt (c.vreg vb) w i
      if j < e.vbits / w then elemAt (c.vreg va) w j else 0) e c
  | .vcompress vd va q => compressEffect vd va q e c
  | .vexpand vd va q => moveEffect q vd (fun w i => elemAt (c.vreg va) w (c.activeBelow q (Qual.fmt q e.vtype) i)) e c
  | .viota vd q => moveEffect q vd (fun w i => c.activeBelow q (Qual.fmt q e.vtype) i % 2 ^ w) e c
  | .vid vd q => moveEffect q vd (fun w i => i % 2 ^ w) e c
  | .vmerge vd va vb q => mergeEffect vd va vb q e c
  | .vredsum vd va q => redSumEffect vd va q e c
  | .vredmax vd va q => redExtremeEffect true vd va q e c
  | .vredmin vd va q => redExtremeEffect false vd va q e c
  | .vcvt vd va tf q => cvtEffect cba vd va tf q e c
  | .vqscale vd va g sf q => qscaleEffect cba vd va g.val sf q e c
  | .vquant vd va vb sf q => quantEffect cba vd va vb sf q e c
  | .vdeq vd va vb tf q => deqEffect cba vd va vb tf q e c
  | .vcblk vd va cb q => cblkEffect (if cb.val = 0 then cba else cbb) vd va q e c
  | .vwidenlo vd va u q => widenEffect false vd va u q e c
  | .vwidenhi vd va u q => widenEffect true vd va u q e c
  | .vnarrow vd va vb tf q => narrowEffect vd va vb tf q e c
  | _ => c


end Sys2Proof.Machine
end

