-- ==== Sys2Proof/Machine/Complex.lean ====
section
/-! DEFINITION. Complex arithmetic, the transform kit and batched small matrices: pages 0x30 to 0x32 (R134 to R150). -/

namespace Sys2Proof.Machine
open Sys2Proof

/-! ### Entry (R135, R136) -/

/-- The format sets of R137, and those of pages 0x31 and 0x32. -/
def accCplxA (f : Fmt) : Bool := Fmt.isC f || Fmt.isQ f
def accCf32 (f : Fmt) : Bool := f == .cf32
def accCi16 (f : Fmt) : Bool := f == .ci16

/-- VCADD (R137). -/
def execVcadd (vd va vb : VReg) (q : Qual) (s : State) : Out := s.vPlain (.vcadd vd va vb q) q accCplxA
/-- VCSUB (R137). -/
def execVcsub (vd va vb : VReg) (q : Qual) (s : State) : Out := s.vPlain (.vcsub vd va vb q) q accCplxA
/-- VCMUL (R137). -/
def execVcmul (vd va vb : VReg) (q : Qual) (s : State) : Out := s.vPlain (.vcmul vd va vb q) q accCplxA
/-- VCMULJ (R137). -/
def execVcmulj (vd va vb : VReg) (q : Qual) (s : State) : Out := s.vPlain (.vcmulj vd va vb q) q accCplxA
/-- VCMAC (R137). -/
def execVcmac (vd va vb : VReg) (q : Qual) (s : State) : Out := s.vPlain (.vcmac vd va vb q) q Fmt.isC
/-- VCMACJ (R137). -/
def execVcmacj (vd va vb : VReg) (q : Qual) (s : State) : Out := s.vPlain (.vcmacj vd va vb q) q Fmt.isC
/-- VCONJ (R137). -/
def execVconj (vd va : VReg) (q : Qual) (s : State) : Out := s.vPlain (.vconj vd va q) q accCplxA
/-- VCROT (R137). -/
def execVcrot (vd va : VReg) (k : Fin 4) (q : Qual) (s : State) : Out := s.vPlain (.vcrot vd va k q) q accCplxA
/-- VCABS2 (R137, R139). -/
def execVcabs2 (vd va : VReg) (q : Qual) (s : State) : Out := s.vPlain (.vcabs2 vd va q) q accCplxA
/-- VCSCALE (R137). -/
def execVcscale (vd va vb : VReg) (q : Qual) (s : State) : Out := s.vPlain (.vcscale vd va vb q) q accCplxA
/-- VCDOT (R140). -/
def execVcdot (vd va vb : VReg) (q : Qual) (s : State) : Out := s.vPlain (.vcdot vd va vb q) q Fmt.isC
/-- VCREAL (R137). -/
def execVcreal (vd va : VReg) (q : Qual) (s : State) : Out := s.vPlain (.vcreal vd va q) q accCplxA
/-- VCSWAP (R137). -/
def execVcswap (vd va : VReg) (q : Qual) (s : State) : Out := s.vPlain (.vcswap vd va q) q accCplxA
/-- VCMAG (R137, R139). -/
def execVcmag (vd va : VReg) (q : Qual) (s : State) : Out := s.vPlain (.vcmag vd va q) q Fmt.isC
/-- VCMACS (R138). -/
def execVcmacs (vd va vb : VReg) (q : Qual) (s : State) : Out := s.vPlain (.vcmacs vd va vb q) q accCi16

/-- The fields of a butterfly descriptor (R142). -/
def bflyL (v : Word) : Nat := bitsOf v.toNat 15 0
def bflyInv (v : Word) : Bool := v.getLsbD 16
def bflyPost (v : Word) : Bool := v.getLsbD 17
def bflyNotw (v : Word) : Bool := v.getLsbD 18
/-- R142: the issue check of a descriptor. -/
def bflyOk (v : Word) : Bool := decide (1 ≤ bflyL v) && v.toNat / 2 ^ 19 == 0 && !(bflyPost v && bflyNotw v)

/-- A butterfly enters the queue (R142). -/
def State.bflyEnter (s : State) (ins : Instr) (b : SReg) (q : Qual) : Out :=
  s.vEnter ins [b] [] (fun c => c.reg b) (fun _ => 0) (fun c => Fmt.isC (Qual.fmt q c.vtype))
    fun c => illegalUnless (bflyOk (c.reg b)) (c.reg b)

/-- VBFLY2 (R142). -/
def execVbfly2 (vd va : VReg) (b : SReg) (vt : VReg) (q : Qual) (s : State) : Out := s.bflyEnter (.vbfly2 vd va b vt q) b q
/-- VBFLY3 (R142). -/
def execVbfly3 (vd va : VReg) (b : SReg) (vt : VReg) (q : Qual) (s : State) : Out := s.bflyEnter (.vbfly3 vd va b vt q) b q
/-- VBFLY4 (R142). -/
def execVbfly4 (vd va : VReg) (b : SReg) (vt : VReg) (q : Qual) (s : State) : Out := s.bflyEnter (.vbfly4 vd va b vt q) b q
/-- VBFLY5 (R142). -/
def execVbfly5 (vd va : VReg) (b : SReg) (vt : VReg) (q : Qual) (s : State) : Out := s.bflyEnter (.vbfly5 vd va b vt q) b q
/-- VTWID (R141). -/
def execVtwid (vd : VReg) (a b : SReg) (q : Qual) (s : State) : Out :=
  s.vEnter (.vtwid vd a b q) [a, b] [] (fun c => c.reg a) (fun c => c.reg b) (fun c => Fmt.isC (Qual.fmt q c.vtype))
    fun c => illegalUnless (decide (1 ≤ (c.reg a).toNat) && decide ((c.reg a).toNat ≤ 65536)) (c.reg a)

/-- The digits' radices of a VDREV descriptor (R144). -/
def drevCode (v : Word) (k : Nat) : Nat := v.toNat / 2 ^ (4 + 2 * k) % 4
def drevN (v : Word) : Nat := bitsOf v.toNat 3 0
def drevRadices (v : Word) : List Nat := (List.range (drevN v)).map fun k => drevCode v k + 2
/-- R144: the issue check of a descriptor. -/
def drevOk (v : Word) : Bool :=
  decide (1 ≤ drevN v) && decide (drevN v ≤ 8) && v.toNat / 2 ^ 20 == 0 &&
    (List.range 8).all fun k => decide (k < drevN v) || drevCode v k == 0

/-- VDREV (R144). -/
def execVdrev (vd va : VReg) (b : SReg) (q : Qual) (s : State) : Out :=
  s.vEnter (.vdrev vd va b q) [b] [] (fun c => c.reg b) (fun _ => 0) (fun c => Fmt.isC (Qual.fmt q c.vtype))
    fun c => illegalUnless (drevOk (c.reg b)) (c.reg b)
/-- VTRANS (R145). -/
def execVtrans (vd va : VReg) (b : SReg) (q : Qual) (s : State) : Out :=
  s.vEnter (.vtrans vd va b q) [b] [] (fun c => c.reg b) (fun _ => 0) (fun c => Fmt.isC (Qual.fmt q c.vtype))
    fun c =>
      let v := (c.reg b).toNat
      illegalUnless (bitsOf v 15 0 != 0 && bitsOf v 31 16 != 0 && v / 2 ^ 32 == 0) (c.reg b)

/-- VMGMUL (R146). -/
def execVmgmul (vd va vb : VReg) (q : Qual) (s : State) : Out := s.vPlain (.vmgmul vd va vb q) q accCf32
/-- VMGMULH (R146). -/
def execVmgmulh (vd va vb : VReg) (q : Qual) (s : State) : Out := s.vPlain (.vmgmulh vd va vb q) q accCf32
/-- VMGMV (R146). -/
def execVmgmv (vd va vb : VReg) (q : Qual) (s : State) : Out := s.vPlain (.vmgmv vd va vb q) q accCf32
/-- VHCHOL (R147). -/
def execVhchol (vd va : VReg) (q : Qual) (s : State) : Out := s.vPlain (.vhchol vd va q) q accCf32
/-- VHINV (R148). -/
def execVhinv (vd va : VReg) (q : Qual) (s : State) : Out := s.vPlain (.vhinv vd va q) q accCf32
/-- R146: a pivot index of k or more fails the issue check. -/
def pivotCheck (p : Fin 4) (c : Ctx) : Option TrapInfo := illegalUnless (decide (p.val < c.vgrp.toNat)) (BitVec.ofNat 64 p.val)
/-- VSCHUR (R149). -/
def execVschur (vd va : VReg) (p : Fin 4) (q : Qual) (s : State) : Out :=
  s.vEnter (.vschur vd va p q) [] [] (fun _ => 0) (fun _ => 0) (fun c => accCf32 (Qual.fmt q c.vtype)) (pivotCheck p)
/-- VSCHURV (R149). -/
def execVschurv (vd va vb : VReg) (p : Fin 4) (q : Qual) (s : State) : Out :=
  s.vEnter (.vschurv vd va vb p q) [] [] (fun _ => 0) (fun _ => 0) (fun c => accCf32 (Qual.fmt q c.vtype)) (pivotCheck p)
/-- VHSOLVE (R147). -/
def execVhsolve (vd va vb : VReg) (q : Qual) (s : State) : Out := s.vPlain (.vhsolve vd va vb q) q accCf32
/-- VMGTR (R146). -/
def execVmgtr (vd va : VReg) (q : Qual) (s : State) : Out := s.vPlain (.vmgtr vd va q) q accCf32
/-- VHREG (R146). -/
def execVhreg (vd va : VReg) (b : SReg) (q : Qual) (s : State) : Out := s.vScalar (.vhreg vd va b q) q b accCf32

/-! ### Complex elements (R137 to R140) -/

/-- The operations of page 0x30 on one element. -/
inductive CplxOp where
  | add | sub | mul | mulj | mac | macj | conj | rot (k : Nat) | abs2 | scale | re | swap | mag | macs
  deriving DecidableEq, Repr

/-- An element from its parts' encodings. -/
def pairOf (w re im : Nat) : Nat := re % 2 ^ w + im % 2 ^ w * 2 ^ w
/-- A part with its sign inverted. -/
def flipSign (f : FFmt) (x : Nat) : Nat := Nat.xor x f.signBit
/-- A rounded complex value as an element with its flags. -/
def CV.pack (f : FFmt) (m : RMode) (a : CV) : Nat × Flags :=
  let r := a.rnd f m
  (r.bits f, r.flags)

/-- R139: the real result of VCABS2 and VCMAG. -/
def magnitude (f : FFmt) (m : RMode) (root : Bool) (x : CV) : Nat × Flags :=
  let isInf (a : EV) : Bool := a.v == .inf false || a.v == .inf true
  if isInf x.re || isInf x.im then ((encodeF f m (.inf false)).1, x.flags)
  else
    let sum := EV.sum m.rm [x.re.mul x.re, x.im.mul x.im]
    let r := if root then sum.sqrt f m else sum.rnd f m
    (r.bits f, r.fl)

/-- A floating element (R137, R139). -/
def cplxFlt (f : FFmt) (m : RMode) (op : CplxOp) (xb yb cb : Nat) : Nat × Flags :=
  let w := f.width
  let x := CV.ofBits f xb
  let y := CV.ofBits f yb
  let c := CV.ofBits f cb
  let re := xb % 2 ^ w
  let im := xb / 2 ^ w % 2 ^ w
  match op with
  | .add => ({ re := .sum m.rm [x.re, y.re], im := .sum m.rm [x.im, y.im] } : CV).pack f m
  | .sub => ({ re := .sum m.rm [x.re, y.re.neg], im := .sum m.rm [x.im, y.im.neg] } : CV).pack f m
  | .mul => (x.mul m.rm y).pack f m
  | .mulj => (x.mul m.rm y.conj).pack f m
  | .mac => (CV.addProducts m.rm [c] [(x, y)]).pack f m
  | .macj => (CV.addProducts m.rm [c] [(x, y.conj)]).pack f m
  | .conj => (pairOf w re (flipSign f im), 0)
  | .rot k =>
    (match k with
     | 0 => pairOf w re im
     | 1 => pairOf w (flipSign f im) re
     | 2 => pairOf w (flipSign f re) (flipSign f im)
     | _ => pairOf w im (flipSign f re), 0)
  | .abs2 => magnitude f m false x
  | .scale => ({ re := .sum m.rm [x.re.mul y.re], im := .sum m.rm [x.im.mul y.re] } : CV).pack f m
  | .re => (re, 0)
  | .swap => (pairOf w im re, 0)
  | .mag => magnitude f m true x
  | .macs => (cb, 0)

/-- R42: a Q15 product sum. -/
def q15 (m : RMode) (n : Int) : Nat × Flags := satI 16 (roundInt m.rm (mkRat n 32768)).1

/-- Two Q15 parts with their flags. -/
def q15Pair (re im : Nat × Flags) : Nat × Flags := (pairOf 16 re.1 im.1, re.2 ||| im.2)

/-- A ci16 element (R138); multiply-accumulates of set F have no ci16 form. -/
def cplxQ15 (m : RMode) (op : CplxOp) (xb yb cb : Nat) : Nat × Flags :=
  let re (v : Nat) : Int := signedOf 16 v
  let im (v : Nat) : Int := signedOf 16 (v / 65536)
  let (a, b) := (re xb, im xb)
  let (p, r) := (re yb, im yb)
  match op with
  | .add => q15Pair (satI 16 (a + p)) (satI 16 (b + r))
  | .sub => q15Pair (satI 16 (a - p)) (satI 16 (b - r))
  | .mul => q15Pair (q15 m (a * p - b * r)) (q15 m (a * r + b * p))
  | .mulj => q15Pair (q15 m (a * p + b * r)) (q15 m (b * p - a * r))
  | .conj => q15Pair (satI 16 a) (satI 16 (-b))
  | .rot k =>
    match k with
    | 0 => q15Pair (satI 16 a) (satI 16 b)
    | 1 => q15Pair (satI 16 (-b)) (satI 16 a)
    | 2 => q15Pair (satI 16 (-a)) (satI 16 (-b))
    | _ => q15Pair (satI 16 b) (satI 16 (-a))
  | .abs2 => q15Pair (q15 m (a * a + b * b)) (0, 0)
  | .scale => q15Pair (q15 m (a * p)) (q15 m (b * p))
  | .re => q15Pair (satI 16 a) (0, 0)
  | .swap => q15Pair (satI 16 b) (satI 16 a)
  | .macs => q15Pair (q15 m (re cb * 32768 + a * p - b * r)) (q15 m (im cb * 32768 + a * r + b * p))
  | .mac => (cb, 0)
  | .macj => (cb, 0)
  | .mag => (cb, 0)

/-- The component format of a complex format; the others are refused at entry (R135). -/
def cplxFmt (f : Fmt) : FFmt :=
  match (compOf f).1 with
  | .flt k => k
  | _ => .f32

/-- An instruction of page 0x30 on the active elements (R137). -/
def cplxEffect (op : CplxOp) (vd va vb : VReg) (q : Qual) (e : VEntry) (c : Ctx) : Ctx :=
  let f := Qual.fmt q e.vtype
  let w := Fmt.bits f
  c.mapElems e q f vd fun i =>
    let x := elemAt (c.vreg va) w i
    let y := elemAt (c.vreg vb) w i
    let d := elemAt (c.vreg vd) w i
    if f = .ci16 then cplxQ15 e.mode op x y d else cplxFlt (cplxFmt f) e.mode op x y d

/-- VCDOT (R140). -/
def cdotEffect (vd va vb : VReg) (q : Qual) (e : VEntry) (c : Ctx) : Ctx :=
  let f := Qual.fmt q e.vtype
  let w := Fmt.bits f
  let k := cplxFmt f
  let n := e.count f
  if n = 0 then c
  else
    let term (i : Nat) : Nat × Flags :=
      if c.active q f i then
        ((CV.ofBits k (elemAt (c.vreg va) w i)).conj.mul e.mode.rm (CV.ofBits k (elemAt (c.vreg vb) w i))).pack k e.mode
      else (0, 0)
    let ts := (List.range n).map term
    let total (j : Nat) := treeTotal e.mode (.flt k) n fun i => (ts.getD i (0, 0)).1 / 2 ^ (j * k.width) % 2 ^ k.width
    let re := total 0
    let im := total 1
    (c.setVreg vd (putElem (c.vreg vd) w 0 (pairOf k.width re.1 im.1))).addFlags
      (orFlags (ts.map fun t => t.2) ||| re.2 ||| im.2)

/-! ### Transforms (R141 to R145) -/

/-- R141: the exponent of element i. -/
def twidExponent (n : Nat) (sp : Word) (i : Nat) : Nat :=
  let v := sp.toNat
  let l := if bitsOf v 47 32 = 0 then 65536 else bitsOf v 47 32
  (bitsOf v 15 0 + i % l * (bitsOf v 31 16 + bitsOf v 63 48 * (i / l))) % n

/-- VTWID (R47, R141). -/
def twidEffect (vd : VReg) (q : Qual) (e : VEntry) (c : Ctx) : Ctx :=
  let f := Qual.fmt q e.vtype
  let k := cplxFmt f
  let n := e.sa.toNat
  c.mapElems e q f vd fun i =>
    let m := twidExponent n e.sb i
    let im := twiddle k true m n
    (pairOf k.width (twiddle k false m n) (if im = 0 then 0 else flipSign k im), 0)

/-- R143: the f32 encodings of the real part and of minus the imaginary part of c(m). -/
def bflyConst (r m : Nat) : Nat × Nat :=
  match r, m with
  | _, 0 => (0x3F800000, 0)
  | 2, _ => (0xBF800000, 0)
  | 3, 1 => (0xBF000000, 0x3F5DB3D7)
  | 3, _ => (0xBF000000, 0xBF5DB3D7)
  | 4, 1 => (0, 0x3F800000)
  | 4, 2 => (0xBF800000, 0)
  | 4, _ => (0, 0xBF800000)
  | _, 1 => (0x3E9E377A, 0x3F737871)
  | _, 2 => (0xBF4F1BBD, 0x3F167918)
  | _, 3 => (0xBF4F1BBD, 0xBF167918)
  | _, _ => (0x3E9E377A, 0xBF737871)

/-- R143: c(m), with INV its conjugate; a zero part stays +0. -/
def bflyCoef (r m : Nat) (inv : Bool) : CV :=
  let (re, nim) := bflyConst r m
  let im := if nim = 0 then 0 else if inv then nim else flipSign .f32 nim
  CV.ofBits .f32 (pairOf 32 re im)

/-- R142: one butterfly on its legs and their twiddles. -/
def butterfly (k : FFmt) (m : RMode) (d : Word) (x t : List CV) : List CV :=
  let r := x.length
  let tw (j : Nat) (v : CV) : CV := if j = 0 then v else (v.mul m.rm (t.getD j .zero)).rnd k m
  let x := if bflyNotw d || bflyPost d then x else x.mapIdx tw
  let y := (List.range r).map fun j =>
    (CV.addProducts m.rm [] (x.mapIdx fun i v => (v, bflyCoef r (j * i % r) (bflyInv d)))).rnd k m
  if bflyPost d then y.mapIdx tw else y

/-- R142: element 0 of each active butterfly. -/
def bflyStarts (r : Nat) (q : Qual) (e : VEntry) (c : Ctx) : List Nat :=
  let f := Qual.fmt q e.vtype
  let l := bflyL e.sa
  ((List.range (e.count f / (r * l))).flatMap fun b => (List.range l).map fun t => b * (r * l) + t).filter fun i => c.active q f i

/-- VBFLY2 to VBFLY5 (R142). -/
def bflyEffect (r : Nat) (vd va vt : VReg) (q : Qual) (e : VEntry) (c : Ctx) : Ctx :=
  let f := Qual.fmt q e.vtype
  let w := Fmt.bits f
  let k := cplxFmt f
  let l := bflyL e.sa
  let outs := (bflyStarts r q e c).flatMap fun i0 =>
    let legs := (List.range r).map fun j => i0 + j * l
    let rd (v : VReg) := legs.map fun i => CV.ofBits k (elemAt (c.vreg v) w i)
    legs.zip (butterfly k e.mode e.sa (rd va) (rd vt))
  (c.setVreg vd (putAll (c.vreg vd) w (outs.map fun o => (o.1, o.2.bits k)))).addFlags (orFlags (outs.map fun o => o.2.flags))

/-- R144: rev(t), by the radices with the lowest digit first: the rest's product, then the reversal. -/
def digitReverse : List Nat → Nat → Nat
  | [], _ => 0
  | r :: rs, t => t % r * rs.foldl (· * ·) 1 + digitReverse rs (t / r)

/-- A copy within whole blocks of p elements, each element of the destination from a place of its block (R144, R145). -/
def blockMove (p : Nat) (src : Nat → Nat) (vd va : VReg) (q : Qual) (e : VEntry) (c : Ctx) : Ctx :=
  let f := Qual.fmt q e.vtype
  let w := Fmt.bits f
  let n := e.count f / p * p
  let xs := (c.activeList q f n).map fun i => (i, elemAt (c.vreg va) w (i / p * p + src (i % p)))
  c.setVreg vd (putAll (c.vreg vd) w xs)

/-- VDREV (R144). -/
def drevEffect (vd va : VReg) (q : Qual) (e : VEntry) (c : Ctx) : Ctx :=
  let rs := drevRadices e.sa
  blockMove (rs.foldl (· * ·) 1) (digitReverse rs) vd va q e c

/-- VTRANS (R145): destination element c·R + r comes from r·C + c. -/
def transEffect (vd va : VReg) (q : Qual) (e : VEntry) (c : Ctx) : Ctx :=
  let rows := bitsOf e.sa.toNat 15 0
  let cols := bitsOf e.sa.toNat 31 16
  blockMove (rows * cols) (fun i => i % rows * cols + i / rows) vd va q e c

/-! ### Batched small matrices (R48, R146 to R150) -/

/-- R146: the active groups. -/
def groupsOf (q : Qual) (e : VEntry) (c : Ctx) : List Nat := c.activeList q .cf32 (e.count .cf32 / (e.vgrp * e.vgrp))

/-- R48: matrix b of a register. -/
def Ctx.matAt (c : Ctx) (v : VReg) (k b : Nat) : CMat :=
  CMat.make k fun i j => CV.ofBits .f32 (elemAt (c.vreg v) 64 (b * k * k + i * k + j))
/-- R48: vector b of a register. -/
def Ctx.vecAt (c : Ctx) (v : VReg) (k b : Nat) : CVec := CVec.make k fun i => CV.ofBits .f32 (elemAt (c.vreg v) 64 (b * k + i))

/-- A result of one group: its elements in order, further flags, and whether a pivot was bad. -/
structure GroupResult where
  elems : List CV
  fl : Flags
  bad : Bool
  deriving DecidableEq, Repr

/-- The elements of a matrix in order. -/
def CMat.elems (k : Nat) (a : CMat) : List CV := (List.range k).flatMap fun i => (List.range k).map fun j => a.at i j

/-- A batched instruction's results by group. -/
def groupResults (q : Qual) (e : VEntry) (c : Ctx) (f : Nat → GroupResult) : List (Nat × GroupResult) :=
  (groupsOf q e c).map fun b => (b, f b)

/-- The results written: group b in elements b·size on (R48, R146). -/
def writeGroups (vd : VReg) (size : Nat) (rs : List (Nat × GroupResult)) (c : Ctx) : Ctx :=
  let xs := rs.flatMap fun r => r.2.elems.mapIdx fun i v => (r.1 * size + i, v.bits .f32)
  (c.setVreg vd (putAll (c.vreg vd) 64 xs)).addFlags
    (orFlags (rs.map fun r => r.2.fl ||| orFlags (r.2.elems.map CV.flags)))

/-- VMGMUL and VMGMULH (R146). -/
def mgmulGroup (conj : Bool) (va vb : VReg) (e : VEntry) (c : Ctx) (b : Nat) : GroupResult :=
  let k := e.vgrp
  let x := c.matAt va k b
  let y := c.matAt vb k b
  let r := CMat.make k fun i j =>
    (CV.addProducts e.mode.rm [] ((List.range k).map fun l => (x.at i l, if conj then (y.at j l).conj else y.at l j))).rnd .f32 e.mode
  { elems := r.elems k, fl := 0, bad := false }

/-- VMGMV (R146). -/
def mgmvGroup (va vb : VReg) (e : VEntry) (c : Ctx) (b : Nat) : GroupResult :=
  let k := e.vgrp
  let x := c.matAt va k b
  let y := c.vecAt vb k b
  { elems := CVec.make k fun i => (CV.addProducts e.mode.rm [] ((List.range k).map fun l => (x.at i l, y.at l))).rnd .f32 e.mode
    fl := 0, bad := false }

/-- VMGTR and VHREG copy encodings (R146). -/
def mgtrEffect (vd va : VReg) (q : Qual) (e : VEntry) (c : Ctx) : Ctx :=
  let k := e.vgrp
  let xs := (groupsOf q e c).flatMap fun b => (List.range (k * k)).map fun i =>
    let x := elemAt (c.vreg va) 64 (b * k * k + i % k * k + i / k)
    (b * k * k + i, pairOf 32 x (flipSign .f32 (x / 2 ^ 32)))
  c.setVreg vd (putAll (c.vreg vd) 64 xs)

/-- VHREG (R146). -/
def hregEffect (vd va : VReg) (q : Qual) (e : VEntry) (c : Ctx) : Ctx :=
  let k := e.vgrp
  let rs := (groupsOf q e c).flatMap fun b => (List.range (k * k)).map fun i =>
    let x := elemAt (c.vreg va) 64 (b * k * k + i)
    if i / k = i % k then
      let r := (EV.sum e.mode.rm [.of (decodeF .f32 (x % 2 ^ 32)), .of (decodeF .f32 (e.sa.toNat % 2 ^ 32))]).rnd .f32 e.mode
      (b * k * k + i, pairOf 32 (r.bits .f32) (x / 2 ^ 32), r.fl)
    else (b * k * k + i, x, 0)
  (c.setVreg vd (putAll (c.vreg vd) 64 (rs.map fun r => (r.1, r.2.1)))).addFlags (orFlags (rs.map fun r => r.2.2))

/-- R50: the guard of a queue entry. -/
def VEntry.guard (e : VEntry) : Guard :=
  { m := e.mode, eps := .of (decodeF .f32 e.piveps.toNat), regular := e.pivmode }

/-- What the Schur unit computes for an instruction of page 0x32 (R147 to R149, R151): the destination, the elements of a
group's result, and the results; nothing for the other instructions. -/
def schurResults (e : VEntry) (c : Ctx) : Option (VReg × Nat × List (Nat × GroupResult)) :=
  let k := e.vgrp
  let g := e.guard
  match e.ins with
  | .vhchol vd va q => some (vd, k * k, groupResults q e c fun b =>
      let r := cholesky g k (c.matAt va k b)
      { elems := r.l.elems k, fl := 0, bad := r.bad })
  | .vhinv vd va q => some (vd, k * k, groupResults q e c fun b =>
      let r := sweeps g k (c.matAt va k b)
      { elems := (CMat.hermitian k r.1).elems k, fl := orFlags ((r.1.elems k).map CV.flags), bad := r.2 })
  | .vschur vd va p q => some (vd, k * k, groupResults q e c fun b =>
      let r := schur g k p.val (c.matAt va k b)
      { elems := r.1.elems k, fl := 0, bad := r.2 })
  | .vschurv vd va vb p q => some (vd, k, groupResults q e c fun b =>
      let r := schurVec g k p.val (c.matAt va k b) (c.vecAt vb k b)
      { elems := r.1, fl := 0, bad := r.2 })
  | .vhsolve vd va vb q => some (vd, k, groupResults q e c fun b =>
      let r := cholesky g k (c.matAt va k b)
      { elems := cholSolve g k r.l (c.vecAt vb k b), fl := 0, bad := r.bad })
  | _ => none

/-- The bad-group bits (R50). -/
def badBits (rs : List (Nat × GroupResult)) : Word := rs.foldl (fun w r => if r.2.bad then w ||| BitVec.ofNat 64 (2 ^ r.1) else w) 0

/-- What an instruction of pages 0x30 to 0x32 does to its context when it completes; other instructions have no effect
here. -/
def complexEffect (e : VEntry) (c : Ctx) : Ctx :=
  match e.ins with
  | .vcadd vd va vb q => cplxEffect .add vd va vb q e c
  | .vcsub vd va vb q => cplxEffect .sub vd va vb q e c
  | .vcmul vd va vb q => cplxEffect .mul vd va vb q e c
  | .vcmulj vd va vb q => cplxEffect .mulj vd va vb q e c
  | .vcmac vd va vb q => cplxEffect .mac vd va vb q e c
  | .vcmacj vd va vb q => cplxEffect .macj vd va vb q e c
  | .vconj vd va q => cplxEffect .conj vd va va q e c
  | .vcrot vd va k q => cplxEffect (.rot k.val) vd va va q e c
  | .vcabs2 vd va q => cplxEffect .abs2 vd va va q e c
  | .vcscale vd va vb q => cplxEffect .scale vd va vb q e c
  | .vcdot vd va vb q => cdotEffect vd va vb q e c
  | .vcreal vd va q => cplxEffect .re vd va va q e c
  | .vcswap vd va q => cplxEffect .swap vd va va q e c
  | .vcmag vd va q => cplxEffect .mag vd va va q e c
  | .vcmacs vd va vb q => cplxEffect .macs vd va vb q e c
  | .vbfly2 vd va _ vt q => bflyEffect 2 vd va vt q e c
  | .vbfly3 vd va _ vt q => bflyEffect 3 vd va vt q e c
  | .vbfly4 vd va _ vt q => bflyEffect 4 vd va vt q e c
  | .vbfly5 vd va _ vt q => bflyEffect 5 vd va vt q e c
  | .vtwid vd _ _ q => twidEffect vd q e c
  | .vdrev vd va _ q => drevEffect vd va q e c
  | .vtrans vd va _ q => transEffect vd va q e c
  | .vmgmul vd va vb q => writeGroups vd (e.vgrp * e.vgrp) (groupResults q e c (mgmulGroup false va vb e c)) c
  | .vmgmulh vd va vb q => writeGroups vd (e.vgrp * e.vgrp) (groupResults q e c (mgmulGroup true va vb e c)) c
  | .vmgmv vd va vb q => writeGroups vd e.vgrp (groupResults q e c (mgmvGroup va vb e c)) c
  | .vmgtr vd va q => mgtrEffect vd va q e c
  | .vhreg vd va _ q => hregEffect vd va q e c
  | _ =>
    match schurResults e c with
    | some (vd, size, rs) => { writeGroups vd size rs c with sgmask := c.sgmask ||| badBits rs }
    | none => c

end Sys2Proof.Machine
end

