-- ==== Sys2Proof/Machine/Coding.lean ====
section
/-! DEFINITION. The codes of the coding engines: CRCs, LDPC, polar, rate matching (R262). -/

namespace Sys2Proof.Machine
open Sys2Proof

/-! ### Bits, LLRs and CRCs -/

/-- n bits packed with the first at bit 0 of byte 0 (R262). -/
def unpackBits (bs : List Byte) (n : Nat) : List Bool :=
  (List.range n).map fun i => (bs.getD (i / 8) 0).getLsbD (i % 8)
def packBits (bs : List Bool) : List Byte :=
  (List.range ((bs.length + 7) / 8)).map fun i =>
    BitVec.ofNat 8 ((List.range 8).foldl (fun n j => if bs.getD (8 * i + j) false then n + 2 ^ j else n) 0)

/-- An LLR; −128 is read as −127 (R262). -/
def llrOf (b : Byte) : Int := max (-127) b.toInt
/-- Saturation at ±127 (R262). -/
def satLlr (x : Int) : Int := max (-127) (min 127 x)

/-- Length and generator of TS 38.212's CRCs, in the order of opcode 0x07: 24A, 24B, 24C, 16, 11, 6 (notes/assumptions/13.md). -/
def crcPoly : Nat → Nat × Nat
  | 0 => (24, 0x864CFB)
  | 1 => (24, 0x800063)
  | 2 => (24, 0xB2B117)
  | 3 => (16, 0x1021)
  | 4 => (11, 0x621)
  | _ => (6, 0x21)

/-- The CRC of bits, first bit first. -/
def crcOf (p : Nat × Nat) (bs : List Bool) : Nat :=
  bs.foldl (fun r b =>
    let top := r / 2 ^ (p.1 - 1) % 2 == 1
    let r := r * 2 % 2 ^ p.1
    if top != b then Nat.xor r p.2 else r) 0

/-- A number from bits, first bit highest. -/
def numOf (bs : List Bool) : Nat := bs.foldl (fun n b => 2 * n + b.toNat) 0
/-- The bits of an n-bit number, highest first. -/
def bitsFrom (n v : Nat) : List Bool := (List.range n).map fun i => v / 2 ^ (n - 1 - i) % 2 == 1

/-- The CRC computed over all but the last bits, and whether those hold it. -/
def crcCheck (p : Nat × Nat) (bs : List Bool) : Nat × Bool :=
  let n := bs.length - p.1
  let r := crcOf p (bs.take n)
  (r, r == numOf (bs.drop n))

/-! ### LDPC (R262) -/

def ldpcCols (bg : Bool) : Nat := if bg then 52 else 68
def ldpcRows (bg : Bool) : Nat := if bg then 42 else 46
/-- Systematic columns. -/
def ldpcInfo (bg : Bool) : Nat := if bg then 10 else 22

/-- The variables of check k of base row i, in ascending columns. -/
def ldpcVars (bg : Bool) (zc i k : Nat) : List Nat :=
  (List.range (ldpcCols bg)).filterMap fun j => (Config.baseShift bg zc i j).map fun s => j * zc + (k + s) % zc

/-- The decoder's values: posterior by variable, and check messages by check and variable. -/
structure Ldpc where
  post : FMap Int
  msg : FMap (FMap Int)
  deriving DecidableEq, Repr

def absI (x : Int) : Int := if x < 0 then -x else x

/-- The message of a check to one variable: sign product and least magnitude of the others, times 0.75 toward zero. -/
def checkMsg (qs : List (Nat × Int)) (v : Nat) : Int :=
  let others := (qs.filter fun q => q.1 != v).map (·.2)
  let mag := others.foldl (fun m q => min m (absI q)) 127 * 3 / 4
  if (others.filter fun q => decide (q < 0)).length % 2 = 1 then -mag else mag

/-- One check of the layered normalised min-sum. -/
def ldpcCheck (bg : Bool) (zc : Nat) (d : Ldpc) (i k : Nat) : Ldpc :=
  let c := i * zc + k
  let old := d.msg.get [] c
  let qs := (ldpcVars bg zc i k).map fun v => (v, satLlr (d.post.get 0 v - FMap.get 0 old v))
  let new : FMap Int := qs.foldl (fun (m : FMap Int) q => m.set 0 q.1 (checkMsg qs q.1)) []
  { post := qs.foldl (fun (m : FMap Int) q => m.set 0 q.1 (satLlr (q.2 + new.get 0 q.1))) d.post
    msg := d.msg.set [] c new }

/-- One iteration: rows ascending. -/
def ldpcIter (bg : Bool) (zc : Nat) (d : Ldpc) : Ldpc :=
  ((List.range (ldpcRows bg)).flatMap fun i => (List.range zc).map fun k => (i, k)).foldl (fun d c => ldpcCheck bg zc d c.1 c.2) d

/-- A hard decision: a negative LLR is a 1. -/
def Ldpc.hard (d : Ldpc) (v : Nat) : Bool := decide (d.post.get 0 v < 0)
/-- Whether every check holds. -/
def Ldpc.syndromeOk (bg : Bool) (zc : Nat) (d : Ldpc) : Bool :=
  (List.range (ldpcRows bg)).all fun i => (List.range zc).all fun k =>
    ((ldpcVars bg zc i k).filter d.hard).length % 2 == 0

/-- What a decoder answers: the test, iterations, SYNOK, CRCOK, the CRC, and the bits. -/
structure Decoded where
  ok : Bool
  iters : Nat
  synOk : Bool
  crcOk : Bool
  crc : Nat
  out : List Bool
  deriving DecidableEq, Repr

/-- The result at an iteration; stop is the code of the test: 0 syndrome, 1 CRC24A, 2 CRC24B, 3 CRC16. -/
def ldpcResult (bg : Bool) (zc f stop iters : Nat) (d : Ldpc) : Decoded :=
  let k := ldpcInfo bg * zc
  let out := (List.range k).map d.hard
  let syn := d.syndromeOk bg zc
  let (crc, crcOk) := if stop = 0 then (0, false) else crcCheck (crcPoly (if stop = 3 then 3 else stop - 1)) (out.take (k - f))
  { ok := if stop = 0 then syn else crcOk, iters := iters, synOk := syn, crcOk := crcOk, crc := crc, out := out }

/-- Iterations until the test passes, n more at most. -/
def ldpcRun (bg : Bool) (zc f stop : Nat) : Nat → Nat → Ldpc → Decoded
  | 0, used, d => ldpcResult bg zc f stop used d
  | n + 1, used, d =>
    let d := ldpcIter bg zc d
    let r := ldpcResult bg zc f stop (used + 1) d
    if r.ok then r else ldpcRun bg zc f stop n (used + 1) d

/-- LDPC decode: the first two columns are punctured, the filler positions known zeros. -/
def ldpcDecode (bg : Bool) (zc f stop maxit : Nat) (llrs : List Int) : Decoded :=
  let k := ldpcInfo bg * zc
  let start := (List.range (ldpcCols bg * zc)).foldl (fun (m : FMap Int) v =>
    m.set 0 v (if k - f ≤ v ∧ v < k then 127 else if v < 2 * zc then 0 else llrs.getD (v - 2 * zc) 0)) []
  ldpcRun bg zc f stop maxit 0 { post := start, msg := [] }

/-- One column of Gauss-Jordan elimination over GF(2): pivots with their columns, and the rows left; a row is its coefficients
as bits and its right side. -/
def gf2Step (s : List (Nat × Nat × Bool) × List (Nat × Bool)) (col : Nat) : List (Nat × Nat × Bool) × List (Nat × Bool) :=
  match s.2.find? fun r => r.1 / 2 ^ col % 2 == 1 with
  | none => s
  | some r =>
    let el (x : Nat × Bool) : Nat × Bool := if x.1 / 2 ^ col % 2 == 1 then (Nat.xor x.1 r.1, x.2 != r.2) else x
    (s.1.map (fun p => (p.1, el p.2)) ++ [(col, r)], (s.2.erase r).map el)

/-- A solution of a linear system over GF(2) in n unknowns; a free unknown is 0. -/
def gf2Solve (n : Nat) (rows : List (Nat × Bool)) : List Bool :=
  let ps := ((List.range n).foldl gf2Step ([], rows)).1
  (List.range n).map fun col => (ps.find? fun p => p.1 == col).any fun p => p.2.2

/-- LDPC encode: the parity bits that satisfy every check; the first two columns are not sent. -/
def ldpcEncode (bg : Bool) (zc : Nat) (info : List Bool) : List Bool :=
  let k := ldpcInfo bg * zc
  let n := ldpcRows bg * zc
  let rows := ((List.range (ldpcRows bg)).flatMap fun i => (List.range zc).map fun c => ldpcVars bg zc i c).map fun vs =>
    ((vs.filter (k ≤ ·)).foldl (fun m v => Nat.xor m (2 ^ (v - k))) 0,
     (vs.filter fun v => decide (v < k) && info.getD v false).length % 2 == 1)
  (info ++ gf2Solve n rows).drop (2 * zc)

/-! ### Polar (R262) -/

/-- Bits of a polar command's CRC, and its generator. -/
def polarCrc (code : Nat) : Nat × Nat := crcPoly (match code with
  | 0 => 5
  | 1 => 4
  | _ => 2)

/-- Polar decode: the first path whose CRC passes, else the first. -/
def polarDecode (p : Config.Polar) (llrs : List Int) : Decoded :=
  let a := p.k - (polarCrc p.crc).1
  let fit (b : List Bool) : List Bool := (b ++ List.replicate p.k false).take p.k
  let paths := ((Config.polarPaths p llrs).take p.l).map fit
  let best := paths.headD (List.replicate p.k false)
  let pick := (paths.find? fun b => (crcCheck (polarCrc p.crc) b).2).getD best
  let r := crcCheck (polarCrc p.crc) pick
  { ok := r.2, iters := 0, synOk := false, crcOk := r.2, crc := r.1, out := pick.take a }

/-- Polar encode: the CRC is appended, then the code's bits, E of them. -/
def polarEncodeBits (p : Config.Polar) (bs : List Bool) : List Bool :=
  let c := polarCrc p.crc
  let b := Config.polarEncode p (bs ++ bitsFrom c.1 (crcOf c bs))
  (b ++ List.replicate p.e false).take p.e

/-! ### Rate matching (R262) -/

/-- Parameters of the rate commands. -/
structure Rate where
  eq : Nat
  qm : Nat
  rv : Nat
  combine : Bool
  ncb : Nat
  f : Nat
  zc : Nat
  bg : Bool
  deriving DecidableEq, Repr

/-- The start of a redundancy version in the circular buffer (TS 38.212; notes/assumptions/13.md). -/
def rvStart (r : Rate) : Nat :=
  let num := if r.bg then [0, 13, 25, 43] else [0, 17, 33, 56]
  let den := if r.bg then 50 else 66
  num.getD r.rv 0 * r.ncb / (den * r.zc) * r.zc

/-- Whether a buffer position is a filler. -/
def Rate.filler (r : Rate) (x : Nat) : Bool :=
  let k := ldpcInfo r.bg * r.zc
  decide (k - r.f ≤ x + 2 * r.zc) && decide (x + 2 * r.zc < k)

/-- The positions sent, in order from rv's start, without fillers; they repeat from the first. -/
def Rate.positions (r : Rate) : List Nat := ((List.range r.ncb).map fun j => (rvStart r + j) % r.ncb).filter fun x => !r.filler x

/-- De-interleaving by Qm: bit j·Qm + i of the transmission is bit i·(E / Qm) + j. -/
def deinterleave {α : Type} (d : α) (r : Rate) (xs : List α) : List α :=
  (List.range (r.eq * r.qm)).map fun n => xs.getD (n % r.eq * r.qm + n / r.eq) d
/-- Interleaving by Qm. -/
def interleave {α : Type} (d : α) (r : Rate) (xs : List α) : List α :=
  (List.range (r.eq * r.qm)).map fun n => xs.getD (n % r.qm * r.eq + n / r.qm) d

/-- Rate dematch with HARQ combining. -/
def rateDematch (r : Rate) (llrs harq : List Int) : List Int :=
  let pos := r.positions
  let start : FMap Int := (List.range r.ncb).foldl (fun (m : FMap Int) x => m.set 0 x (if r.combine then harq.getD x 0 else 0)) []
  let buf := if pos.isEmpty then start
    else (deinterleave 0 r llrs).zipIdx.foldl (fun (m : FMap Int) e =>
      let x := pos.getD (e.2 % pos.length) 0
      m.set 0 x (satLlr (m.get 0 x + e.1))) start
  (List.range r.ncb).map fun x => if r.filler x then 127 else buf.get 0 x

/-- Rate match. -/
def rateMatch (r : Rate) (d : List Bool) : List Bool :=
  let pos := r.positions
  interleave false r ((List.range (r.eq * r.qm)).map fun n => if pos.isEmpty then false else d.getD (pos.getD (n % pos.length) 0) false)

end Sys2Proof.Machine
end

