-- ==== Sys2Proof/Machine/MatrixCmd.lean ====
section
/-! DEFINITION. The configuration words a matrix command finds in force and the ranges it reads and writes (R156 to R159,
R164, R172). -/

namespace Sys2Proof.Machine

/-- The fields of GEOM (R156); MXCFG lets no M or N above 64 in, and a word that MXUNPARK finds altered counts as 64. -/
def geomM (v : Word) : Nat := min 64 (bitsOf v.toNat 6 0)
def geomN (v : Word) : Nat := min 64 (bitsOf v.toNat 14 8)
def geomK (v : Word) : Nat := bitsOf v.toNat 28 16
def geomFA (v : Word) : Nat := bitsOf v.toNat 35 32
def geomFB (v : Word) : Nat := bitsOf v.toNat 39 36
/-- Two packed 24-bit strides (R156). -/
def strideA (v : Word) : Nat := bitsOf v.toNat 23 0
def strideB (v : Word) : Nat := bitsOf v.toNat 47 24

/-- A configuration command takes effect (R157). -/
def MatrixUnit.configure (m : MatrixUnit) : MxOp → MatrixUnit
  | .cfg n v => if n = 0 then { m with geom := v } else if n = 1 then { m with stride := v } else { m with sstride := v }
  | .scale sa sb => { m with sa := sa, sb := sb }
  | .share v => { m with share := v }
  | _ => m

/-- The configuration in force for the command with order number o (R157, R162). -/
def MatrixUnit.configFor (m : MatrixUnit) (o : Nat) : MatrixUnit :=
  (m.queue.filter fun c => c.ord < o && !c.begun).foldl (fun m c => m.configure c.op) m

/-- Bytes of k consecutive elements of a format code (R158, R159). -/
def fmtBytes (code k : Nat) : Nat := if code = 5 then 2 * k else if code = 9 then (k + 1) / 2 else k

/-- The ranges of a command in the order R159 lists them, under the configuration m; none where it reads nothing.  The row stride of
MXST and MXLD is unsigned and nothing wraps (notes/assumptions/86.md). -/
def MxOp.ranges (m : MatrixUnit) : MxOp → List MxRange
  | .mma _ a b _ =>
    let (M, N, K) := (geomM m.geom, geomN m.geom, geomK m.geom)
    if M = 0 ∨ N = 0 ∨ K = 0 then []
    else
      let fa := geomFA m.geom
      [{ base := a, len := (M - 1) * strideA m.stride + fmtBytes fa K, write := false },
       { base := b, len := (N - 1) * strideB m.stride + fmtBytes (geomFB m.geom) K, write := false }] ++
      (if fa = 5 then []
       else [{ base := m.sa, len := (M - 1) * strideA m.sstride + (K + 3) / 4, write := false },
             { base := m.sb, len := (N - 1) * strideB m.sstride + (K + 3) / 4, write := false }])
  | .st _ a t =>
    let (M, N) := (geomM m.geom, geomN m.geom)
    if M = 0 ∨ N = 0 then [] else [{ base := a, len := (M - 1) * t.toNat + 4 * N, write := true }]
  | .ld _ a t =>
    let (M, N) := (geomM m.geom, geomN m.geom)
    if M = 0 ∨ N = 0 then [] else [{ base := a, len := (M - 1) * t.toNat + 4 * N, write := false }]
  | .ldcb _ a => if a = 0 then [] else [{ base := a, len := 32, write := false }]
  | _ => []

/-- A row of bytes that a command reads; one of B or its scales may come from a shared read (R167). -/
structure MxRow where
  base : Word
  len : Nat
  ofB : Bool
  deriving DecidableEq, Repr

/-- The rows of bytes a command reads, in the same order; of an MMA those of the k-steps k0 to k1 − 1 (R158, R174). -/
def MxOp.readRows (m : MatrixUnit) (k0 k1 : Nat) : MxOp → List MxRow
  | .mma _ a b _ =>
    let (M, N, fa, fb) := (geomM m.geom, geomN m.geom, geomFA m.geom, geomFB m.geom)
    let rows (ofB : Bool) (n : Nat) (base : Word) (ld first last : Nat) : List MxRow :=
      (List.range n).map fun i => { base := base + BitVec.ofNat 64 (i * ld + first), len := last - first, ofB := ofB }
    if M = 0 ∨ N = 0 ∨ k1 ≤ k0 then []
    else
      rows false M a (strideA m.stride) (fmtBytes fa k0) (fmtBytes fa k1) ++ rows true N b (strideB m.stride) (fmtBytes fb k0) (fmtBytes fb k1) ++
      (if fa = 5 then []
       else rows false M m.sa (strideA m.sstride) (k0 / 4) ((k1 + 3) / 4) ++ rows true N m.sb (strideB m.sstride) (k0 / 4) ((k1 + 3) / 4))
  | .ld _ a t =>
    if geomN m.geom = 0 then []
    else (List.range (geomM m.geom)).map fun i => { base := a + BitVec.ofNat 64 (i * t.toNat), len := 4 * geomN m.geom, ofB := false }
  | .ldcb _ a => if a = 0 then [] else [{ base := a, len := 32, ofB := false }]
  | _ => []

/-- R174: how many segments of 64 k-steps a command has. -/
def MxOp.segments (m : MatrixUnit) : MxOp → Nat
  | .mma _ _ _ _ => max 1 ((geomK m.geom + 63) / 64)
  | _ => 1

/-- The windows a matrix command may address (R158): the start, and how many bytes of it the owner's region takes. -/
def State.mxWindow (s : State) (a : Agent) (va : Word) : Option (Nat × Nat × Nat) :=
  let x := va.toNat
  match a.core, a.cluster with
  | some c, some k =>
    if 0x7F0000000000 ≤ x ∧ x < 0x7F0000400000 then
      let r := s.coreRegion c a.owner
      some (0x7F0000000000, corePlace c r.1, r.2)
    else if 0x7F1000000000 ≤ x ∧ x < 0x7F1002000000 then
      let i := (x - 0x7F1000000000) / 0x400000
      let r := s.coreRegion (8 * k + i) a.owner
      some (0x7F1000000000 + i * 0x400000, corePlace (8 * k + i) r.1, r.2)
    else if 0x7F2000000000 ≤ x ∧ x < 0x7F2000800000 then
      let r := s.clusterRegion k a.owner
      some (0x7F2000000000, clusterPlace k r.1, r.2)
    else none
  | _, _ => none

/-- Where a range lies in the arrays, when it starts in a window: its first place. -/
def State.mxPlace (s : State) (a : Agent) (va : Word) : Option Nat :=
  (s.mxWindow a va).map fun w => w.2.1 + (va.toNat - w.1)

/-- R172: an older, incomplete matrix command of the context touches these bytes. -/
def State.mxBlocks (s : State) (cx : Nat) (c : Ctx) (o place size : Nat) : Bool :=
  match s.mxOf cx c with
  | none => false
  | some m => m.queue.any fun q => q.ord < o && (if q.begun then q.ranges else q.op.ranges (m.configFor q.ord)).any fun r =>
      match s.mxPlace (s.agentOf cx c) r.base with
      | some p => overlaps p r.len place size
      | none => false

end Sys2Proof.Machine
end

