-- ==== Sys2Proof/Machine/Memory.lean ====
section
/-! DEFINITION. Scalar loads and stores, cache maintenance, atomics, ordered accesses and FENCE (R97, R209 to R215, R229,
R233), and the steps in which a load returns and a store is performed (R85, R104, R225). -/

namespace Sys2Proof.Machine
open Sys2Proof

/-! ### Same-address order within a context (R225) -/

/-- An older load of the context that has not returned reads these bytes. -/
def Ctx.olderLoad (c : Ctx) (o place size : Nat) : Bool := c.loads.any fun l => l.ord < o && overlaps l.place l.size place size
/-- An older store of the context that is not performed writes these bytes. -/
def Ctx.olderStore (c : Ctx) (o place size : Nat) : Bool := c.stores.any fun p => p.ord < o && overlaps p.place p.size place size
/-- An older vector instruction that has started touches these bytes and has not completed. -/
def Ctx.olderVec (c : Ctx) (o place size : Nat) : Bool :=
  c.vq.any fun e => e.ord < o && e.accesses.any fun a => overlaps a.place a.size place size
/-- R233: an older LDAQ has not returned. -/
def Ctx.olderAcquire (c : Ctx) (o : Nat) : Bool := c.loads.any fun l => l.ord < o && l.kind == .acquire

/-- R229, R232: a FENCE or an LDAQ holds the current context's accesses of class E back. -/
def State.sendHeld (s : State) : Bool := s.curFenced 3 || s.curCtx.olderAcquire s.curCtx.ord

/-- The byte of a pending store at a place. -/
def PendStore.byteAt (p : PendStore) (place : Nat) : Option Byte :=
  match p.kind with
  | .data bs => if p.place ≤ place then bs[place - p.place]? else none
  | _ => none

/-- Whether an older store can give its bytes to a younger load of the context (R223, R225). -/
def PendStore.forwards (p : PendStore) : Bool :=
  match p.kind with
  | .data _ => true
  | _ => false

/-- The later of two stores in program order, where the second stands later among equals. -/
def laterStore (a : Option PendStore) (p : PendStore) : Option PendStore :=
  match a with
  | some q => if p.ord < q.ord then some q else some p
  | none => some p

/-- A byte as the context reads it: the youngest older pending store's, else memory's. -/
def State.ownByte (s : State) (c : Ctx) (o : Nat) (cached : Option Nat) (place : Nat) : Byte :=
  match (c.stores.filter fun p => p.ord < o && (p.byteAt place).isSome).foldl laterStore none with
  | some p => (p.byteAt place).getD 0
  | none => s.byteAt cached place

/-- n bytes as the context reads them, little-endian. -/
def State.ownBytes (s : State) (c : Ctx) (o : Nat) (cached : Option Nat) : Nat → Nat → Nat
  | _, 0 => 0
  | place, n + 1 => (s.ownByte c o cached place).toNat + 256 * s.ownBytes c o cached (place + 1) n

/-- R85, R225: whether one of n bytes that the context reads holds an uncorrectable error; the bytes of its own pending stores hold none. -/
def State.ownEcc (s : State) (c : Ctx) (o place n : Nat) : Bool :=
  (List.range n).any fun i => s.ecc.get false ((place + i) / 8) && !(c.stores.any fun p => p.ord < o && (p.byteAt (place + i)).isSome)

/-- The value a load of n bytes delivers (R209). -/
def extend (signed : Bool) (n v : Nat) : Word := if signed then sextW (8 * n) (BitVec.ofNat 64 v) else BitVec.ofNat 64 v

/-! ### Loads -/

/-- A scalar load (R85, R97, R208, R209): translated and checked as it issues, then pending. -/
def State.loadOp (s : State) (reads : List SReg) (d : SReg) (addr : Ctx → Word) (size : Nat) (signed : Bool) : Out :=
  if s.curFenced 0 || 255 ≤ s.curCtx.cntLd then .next s
  else s.freeIssue reads [d] false fun s c =>
    let va := addr c
    let cx := s.sched.cur
    let pc := s.curCtx.pc
    match s.access (s.agentOf cx c) va size .read false with
    | (.error t, s) => s.trapCur t.cause t.value
    | (.ok x, s) =>
      let l : PendLoad := { ord := c.ord, dst := d, place := x.place, size := size, signed := signed, va := va, cached := x.cached, kind := .plain }
      let c := { c with
        loads := c.loads ++ [l]
        ahead := if c.unstarted then c.ahead ++ [({ ord := c.ord, pc := pc, place := x.place, size := size } : AheadLoad)] else c.ahead }
      .next (s.setCur c.retire)

/-- The load of a base register with an unsigned immediate in units of the size (R72, R97, R209). -/
def State.loadImm (s : State) (d a : SReg) (imm size : Nat) (signed : Bool) : Out :=
  s.loadOp [a] d (fun c => c.reg a + immU (imm * size)) size signed

/-- LDD (R97). -/
def execLdd (d a : SReg) (imm : Nat) (s : State) : Out := s.loadImm d a imm 8 false
/-- LB (R209). -/
def execLb (d a : SReg) (imm : Nat) (s : State) : Out := s.loadImm d a imm 1 true
/-- LBN (R209). -/
def execLbn (d a : SReg) (imm : Nat) (s : State) : Out := s.loadImm d a imm 1 false
/-- LH (R209). -/
def execLh (d a : SReg) (imm : Nat) (s : State) : Out := s.loadImm d a imm 2 true
/-- LHN (R209). -/
def execLhn (d a : SReg) (imm : Nat) (s : State) : Out := s.loadImm d a imm 2 false
/-- LW (R209). -/
def execLw (d a : SReg) (imm : Nat) (s : State) : Out := s.loadImm d a imm 4 true
/-- LWN (R209). -/
def execLwn (d a : SReg) (imm : Nat) (s : State) : Out := s.loadImm d a imm 4 false
/-- LDX (R209). -/
def execLdx (d a b : SReg) (s : State) : Out := s.loadOp [a, b] d (fun c => c.reg a + c.reg b) 8 false

/-- PREF (R210): free, and without an effect but timing. -/
def execPref (_hint : Fin 3) (a : SReg) (_imm : Nat) (s : State) : Out := s.freeOp [a] [] false fun c => c

/-! ### Stores -/

/-- The low n bytes of a word, lowest first. -/
def bytesOf (v : Nat) : Nat → List Byte
  | 0 => []
  | n + 1 => BitVec.ofNat 8 v :: bytesOf (v / 256) n

/-- A store queued behind the front end. -/
def State.queueStore (s : State) (x : Xlat) (size : Nat) (kind : StoreKind) (release vec : Bool) : State :=
  s.complete fun c =>
    let p : PendStore := { ord := c.ord, place := x.place, size := size, kind := kind, cached := x.cached, release := release, vec := vec }
    { c with stores := c.stores ++ [p] }

/-- A scalar store (R97, R208, R209): held, checked as it issues, then pending. -/
def State.storeOp (s : State) (reads : List SReg) (d : SReg) (addr : Ctx → Word) (size : Nat) (release : Bool) : Out :=
  if s.curFenced 0 || 255 ≤ s.curCtx.cntSt then .next s
  else s.heldOp (d :: reads) [] fun s =>
    let c := s.curCtx
    match s.access (s.agentOf s.sched.cur c) (addr c) size .write true with
    | (.error t, s) => s.trapCur t.cause t.value
    | (.ok x, s) => .next (s.queueStore x size (.data (bytesOf (c.reg d).toNat size)) release false)

/-- The store form of State.loadImm. -/
def State.storeImm (s : State) (d a : SReg) (imm size : Nat) : Out :=
  s.storeOp [a] d (fun c => c.reg a + immU (imm * size)) size false

/-- STD (R97). -/
def execStd (d a : SReg) (imm : Nat) (s : State) : Out := s.storeImm d a imm 8
/-- SB (R209). -/
def execSb (d a : SReg) (imm : Nat) (s : State) : Out := s.storeImm d a imm 1
/-- SH (R209). -/
def execSh (d a : SReg) (imm : Nat) (s : State) : Out := s.storeImm d a imm 2
/-- SW (R209). -/
def execSw (d a : SReg) (imm : Nat) (s : State) : Out := s.storeImm d a imm 4
/-- STX (R209). -/
def execStx (d a b : SReg) (s : State) : Out := s.storeOp [a, b] d (fun c => c.reg a + c.reg b) 8 false

/-- CFLUSH and CINV (R211, R392): on scratchpad and UC lines nothing happens, at once. -/
def State.lineOp (s : State) (a : SReg) (k : AccessKind) (kind : StoreKind) : Out :=
  if s.curFenced 0 || 255 ≤ s.curCtx.cntSt then .next s
  else s.heldOp [a] [] fun s =>
    let c := s.curCtx
    let ag := s.agentOf s.sched.cur c
    match s.xlate ag (c.reg a) k (k == .write) with
    | (.error t, s) => s.trapCur t.cause t.value
    | (.ok x, s') =>
      if isTwinPa x.place && !s.twinGrants ag.owner (lineOf x.place * 64) 64 (k == .write) then
        (s.xlate ag (c.reg a) k false).2.trapCur .protection (c.reg a)
      else
      let s := s'
      if x.uc || 2 ^ 48 ≤ x.place then .next (s.complete id)
      else .next (s.queueStore { x with place := lineOf x.place * 64 } 64 kind false false)

/-- CFLUSH (R211). -/
def execCflush (a : SReg) (s : State) : Out := s.lineOp a .read .flush
/-- CINV (R211). -/
def execCinv (a : SReg) (s : State) : Out := s.lineOp a .write .inval

/-! ### Atomics (R213) -/

/-- The new value of an atomic of w bits, and whether it writes. -/
def AmoOp.apply (op : AmoOp) (w old b c : Nat) : Option Nat :=
  let m := 2 ^ w
  let b := b % m
  match op with
  | .add => some ((old + b) % m)
  | .and => some (Nat.land old b)
  | .or => some (Nat.lor old b)
  | .xor => some (Nat.xor old b)
  | .min => some (if signedOf w b < signedOf w old then b else old)
  | .max => some (if signedOf w old < signedOf w b then b else old)
  | .minn => some (Nat.min old b)
  | .maxn => some (Nat.max old b)
  | .swp => some b
  | .cas => if old = b then some (c % m) else none

/-- R213: how the old value comes back. -/
def AmoOp.signedResult : AmoOp → Bool
  | .minn => false
  | .maxn => false
  | _ => true

/-- What is wrong with a load's data: poison of a lost link, or an uncorrectable error (R85, R389). -/
def State.loadError (s : State) (c : Ctx) (l : PendLoad) : Option Bool :=
  if s.poisoned l.place then some true else if s.ownEcc c l.ord l.place l.size then some false else none

/-- Whether nothing of the context's own order holds a pending load back (R225, R233). -/
def State.loadDue (s : State) (cx : Nat) (c : Ctx) (l : PendLoad) : Bool :=
  !c.olderLoad l.ord l.place l.size && !c.olderVec l.ord l.place l.size && !c.olderAcquire l.ord &&
  !s.mxBlocks cx c l.ord l.place l.size &&
  !(c.stores.any fun p => p.ord < l.ord && overlaps p.place p.size l.place l.size && (l.atomic || !p.forwards)) &&
  !(l.kind == .acquire && c.stores.any fun p => p.ord < l.ord && p.release)

/-- An atomic: held, checked as it issues, then pending until it is performed at its place (R104, R214).  An AMOCAS that has read
permission alone is performed as it issues, once nothing of the context's order holds it back: where it fails it is a read. -/
def State.amoOp (s : State) (op : AmoOp) (d a b : SReg) (c : SReg) (w32 : Bool) : Out :=
  if s.curFenced 0 || 255 ≤ s.curCtx.cntLd then .next s
  else s.heldOp [a, b, c] [d] fun s =>
    let x := s.curCtx
    let size := if w32 then 4 else 8
    let va := x.reg a
    let ag := s.agentOf s.sched.cur x
    let pend (s : State) (t : Xlat) (k : LoadKind) : Out := .next (s.complete fun x =>
      let l : PendLoad := { ord := x.ord, dst := d, place := t.place, size := size, signed := AmoOp.signedResult op, va := va, cached := t.cached, kind := k }
      { x with loads := x.loads ++ [l] })
    let k := LoadKind.amo op (x.reg b) (x.reg c)
    match s.access ag va size .write (op != .cas) with
    | (.ok t, s) => pend s t k
    | (.error e, s) =>
      if op = .cas ∧ (e.cause = .pageFaultWrite ∨ e.cause = .protection) then
        match s.access ag va size .read false with
        | (.error e, s) => s.trapCur (if e.cause = .pageFaultRead then .pageFaultWrite else e.cause) e.value
        | (.ok t, s) =>
          let l : PendLoad := { ord := x.ord, dst := d, place := t.place, size := size, signed := true, va := va, cached := t.cached, kind := k }
          if !s.loadDue s.sched.cur x l then .next s
          else
            let old := s.bytesAt t.cached t.place size
            let bad := s.loadError x l
            if bad.isNone && old == (x.reg b).toNat % 2 ^ (8 * size) then s.trapCur e.cause e.value
            else pend (s.snoopRead t.place size) t (.fixed old bad)
      else s.trapCur e.cause e.value

/-- AMOADD (R213). -/
def execAmoadd (d a b : SReg) (w32 : Bool) (s : State) : Out := s.amoOp .add d a b 0 w32
/-- AMOAND (R213). -/
def execAmoand (d a b : SReg) (w32 : Bool) (s : State) : Out := s.amoOp .and d a b 0 w32
/-- AMOOR (R213). -/
def execAmoor (d a b : SReg) (w32 : Bool) (s : State) : Out := s.amoOp .or d a b 0 w32
/-- AMOXOR (R213). -/
def execAmoxor (d a b : SReg) (w32 : Bool) (s : State) : Out := s.amoOp .xor d a b 0 w32
/-- AMOMIN (R213). -/
def execAmomin (d a b : SReg) (w32 : Bool) (s : State) : Out := s.amoOp .min d a b 0 w32
/-- AMOMAX (R213). -/
def execAmomax (d a b : SReg) (w32 : Bool) (s : State) : Out := s.amoOp .max d a b 0 w32
/-- AMOMINN (R213). -/
def execAmominn (d a b : SReg) (w32 : Bool) (s : State) : Out := s.amoOp .minn d a b 0 w32
/-- AMOMAXN (R213). -/
def execAmomaxn (d a b : SReg) (w32 : Bool) (s : State) : Out := s.amoOp .maxn d a b 0 w32
/-- AMOSWP (R213). -/
def execAmoswp (d a b : SReg) (w32 : Bool) (s : State) : Out := s.amoOp .swp d a b 0 w32
/-- AMOCAS (R213). -/
def execAmocas (d a b c : SReg) (w32 : Bool) (s : State) : Out := s.amoOp .cas d a b c w32

/-- LDAQ (R215, R233). -/
def execLdaq (d a : SReg) (s : State) : Out :=
  if s.curFenced 0 || 255 ≤ s.curCtx.cntLd then .next s
  else s.heldOp [a] [d] fun s =>
    let c := s.curCtx
    match s.access (s.agentOf s.sched.cur c) (c.reg a) 8 .read false with
    | (.error t, s) => s.trapCur t.cause t.value
    | (.ok x, s) => .next (s.complete fun c =>
        let l : PendLoad := { ord := c.ord, dst := d, place := x.place, size := 8, signed := false, va := c.reg a, cached := x.cached, kind := .acquire }
        { c with loads := c.loads ++ [l] })

/-- STRL (R215, R233): a store that is performed after every older access of the context. -/
def execStrl (d a : SReg) (s : State) : Out := s.storeOp [a] d (fun c => c.reg a) 8 true

/-- FENCE (R229): it waits while accesses of the classes before it remain, and holds back those after it. -/
def execFence (before after : Fin 16) (scope : Fin 5) (s : State) : Out :=
  s.heldOp [] [] fun s =>
    let cx := s.sched.cur
    .next (s.complete fun c =>
      let old := c.fences.filter fun f => s.fenceWaits cx c f
      { c with fences := old ++ [{ ord := c.ord, pc := s.curCtx.pc, before := before.val, after := after.val, scope := scope.val }] })

/-! ### A load returns (R85, R104), a store is performed (R104, R214) -/

/-- Data written to the destination register; an uncorrectable error or poison marks it (R85, R389), and is never raised where the
destination is s0, which no instruction reads from a load (notes/assumptions/102.md). -/
def Ctx.loadResult (c : Ctx) (l : PendLoad) (bad : Option Bool) (v : Word) : Ctx :=
  let c := c.setReg l.dst v
  match bad with
  | some link => if l.dst.val = 0 then c else { c with badRegs := c.badRegs.insert l.dst.val { link := link, addr := l.va } }
  | none => c

/-- A pending load, due, returns; an atomic is performed at its place. -/
def State.loadReturn (s : State) (cx : Nat) (c : Ctx) (i : Nat) (l : PendLoad) : State :=
  let bad := s.loadError c l
  let c' := { c with loads := c.loads.eraseIdx i }
  let old := s.ownBytes c l.ord l.cached l.place l.size
  let s1 := (s.snoopRead l.place l.size).setCtx cx (c'.loadResult l bad (extend l.signed l.size old))
  match l.kind with
  | .plain => s1
  | .acquire => s1
  | .fixed v bad => s.setCtx cx (c'.loadResult l bad (extend l.signed l.size v))
  | .amo op b x =>
    match AmoOp.apply op (8 * l.size) old b.toNat x.toNat with
    | none => s1
    | some new =>
      if bad.isSome then s1
      else
        let s1 := if op = .cas then (s1.xlate (s1.agentOf cx c) l.va .write true).2 else s1
        s1.putBytes l.place l.cached (bytesOf new l.size)

/-- Whether nothing of the context's own order holds a pending store back (R225, R233). -/
def State.storeDue (s : State) (cx : Nat) (c : Ctx) (p : PendStore) : Bool :=
  !c.olderLoad p.ord p.place p.size && !c.olderStore p.ord p.place p.size && !c.olderVec p.ord p.place p.size &&
  !c.olderAcquire p.ord && !s.mxBlocks cx c p.ord p.place p.size &&
  !(p.release && s.pendClasses cx c 15 p.ord)

/-- The value VAMOADD leaves in an element (R218): integers wrap, f32 rounds under RNE without flags. -/
def vamoSum (f : Fmt) (old v : Nat) : Nat :=
  match f with
  | .f32 => (addF .f32 rneMode (decodeF .f32 old) (decodeF .f32 v)).1
  | f => (old + v) % 2 ^ Fmt.bits f

/-- A store performed at its place. -/
def State.performStore (s : State) (p : PendStore) : State :=
  match p.kind with
  | .data bs => s.putBytes p.place p.cached bs
  | .nibble high v =>
    let b := (s.byteAt p.cached p.place).toNat
    let b := if high then b % 16 + 16 * (v % 16) else b / 16 * 16 + v % 16
    s.putBytes p.place p.cached [BitVec.ofNat 8 b]
  | .add f v =>
    if s.eccAt p.place p.size then s
    else s.putBytes p.place p.cached (bytesOf (vamoSum f (s.bytesAt p.cached p.place p.size) v) p.size)
  | .flush => (s.touch p.place p.size).flushLine (lineOf p.place)
  | .inval => (s.touch p.place p.size).invalLine (lineOf p.place)

/-- A store performed, with what is left of its instruction's: after the last of them a word that they wrote wholly between them has
lost its error (R428). -/
def State.performOne (s : State) (left : List PendStore) (p : PendStore) : State :=
  let s := s.performStore p
  let ws := p.words.filter fun w => !left.any fun q => q.ord == p.ord && q.words.contains w
  { s with ecc := s.ecc.filter fun e => !ws.contains e.1 }

/-- An element of VAMOADD, unordered among those of its instruction (R218, R224). -/
def PendStore.adds (p : PendStore) : Bool :=
  match p.kind with
  | .add _ _ => true
  | _ => false

/-- Elements of one store that name overlapping bytes are performed in index order (R217), those of VAMOADD in any (R218). -/
def Ctx.elementDue (c : Ctx) (i : Nat) (p : PendStore) : Bool :=
  p.adds || !(c.stores.take i).any fun q => q.ord == p.ord && overlaps q.place q.size p.place p.size

end Sys2Proof.Machine
end

