-- ==== Sys2Proof/Machine/Gauss.lean ====
section
/-! DEFINITION. Gaussian messages: page 0x48, mailboxes, and the merge unit (R51, R52, R176 to R195). -/

namespace Sys2Proof.Machine
open Sys2Proof

/-! ### Messages as encodings (R48, R49, R176) -/

/-- The conjugate of a cf32 encoding. -/
def conjBits (x : Nat) : Nat := pairOf 32 x (flipSign .f32 (x / 2 ^ 32))
/-- An encoding with imaginary part +0. -/
def realBits (x : Nat) : Nat := x % 2 ^ 32

/-- herm of R177 on the encodings of a matrix, row by row. -/
def hermBits (k : Nat) (l : List Nat) : List Nat :=
  (List.range (k * k)).map fun n =>
    let i := n / k
    let j := n % k
    if i = j then realBits (l.getD n 0) else if j < i then l.getD n 0 else conjBits (l.getD (j * k + i) 0)

/-- A part's sign inverted, but for a NaN, which an instruction that computes it delivers canonical (R20). -/
def negPart (x : Nat) : Nat := if (decodeF .f32 (x % 2 ^ 32)).isNaN then FFmt.nanEnc .f32 else flipSign .f32 x
/-- The conjugate of a computed element. -/
def conjResult (x : Nat) : Nat := pairOf 32 x (negPart (x / 2 ^ 32))

/-- A computed matrix written whole from its diagonal and lower triangle (R20, R49, R177). -/
def hermResult (k : Nat) (l : List Nat) : List Nat :=
  (List.range (k * k)).map fun n =>
    let i := n / k
    let j := n % k
    if i = j then realBits (l.getD n 0) else if j < i then l.getD n 0 else conjResult (l.getD (j * k + i) 0)

/-- The first n cf32 elements of a register. -/
def Ctx.elems64 (c : Ctx) (v : VReg) (n : Nat) : List Nat := (List.range n).map (elemAt (c.vreg v) 64)
/-- The second register of a pair (R176). -/
def pairHi (v : VReg) : VReg := Fin.ofNat 32 (v.val + 1)

/-- A matrix from encodings, and a vector. -/
def matOf (k : Nat) (l : List Nat) : CMat := CMat.make k fun i j => CV.ofBits .f32 (l.getD (i * k + j) 0)
def vecOf (k : Nat) (l : List Nat) : CVec := CVec.make k fun i => CV.ofBits .f32 (l.getD i 0)

/-- Elements written into a register from element 0 on. -/
def Ctx.put64 (c : Ctx) (v : VReg) (xs : List Nat) : Ctx := c.setVreg v (putAll (c.vreg v) 64 (xs.mapIdx fun i x => (i, x)))
/-- A pair written. -/
def Ctx.putPair (c : Ctx) (vp : VReg) (lam eta : List Nat) : Ctx := (c.put64 vp lam).put64 (pairHi vp) eta

/-! ### Damping (R52) -/

/-- One real component under damping d: the old and the incoming encoding. -/
def damp32 (d old inc : Nat) : Nat :=
  let new := decodeF .f32 inc
  if d = 0 then (if new.isNaN then FFmt.nanEnc .f32 else inc)
  else
    let w (n : Nat) (x : FV) : FV := (mulV (.fin false (mkRat n 256)) x).1
    (encodeF .f32 rneMode (sumV false [w d (decodeF .f32 old), w (256 - d) new]).1).1

/-- A cf32 element under damping. -/
def damp64 (d old inc : Nat) : Nat :=
  pairOf 32 (damp32 d (old % 2 ^ 32) (inc % 2 ^ 32)) (damp32 d (old / 2 ^ 32) (inc / 2 ^ 32))

/-- Elements under damping. -/
def dampAll (d : Nat) (old inc : List Nat) : List Nat := List.zipWith (damp64 d) old inc

/-! ### Mailboxes (R51, R178 to R180) -/

/-- MBTAB fields. -/
def mbBase (v : Word) : Nat := bitsOf v.toNat 47 16
def mbCount (v : Word) : Nat := bitsOf v.toNat 10 0

/-- The place of mailbox i of an owner on a core. -/
def State.mailbox (s : State) (core owner i : Nat) : Nat :=
  corePlace core ((s.coreRegion core owner).1 + mbBase ((s.core core).mbtab.get 0 owner) + 192 * i)

/-- A mailbox entry or a shadow as read. -/
structure Mail where
  version : Nat
  d : Nat
  order : Nat
  tag : Nat
  valid : Bool
  lam : List Nat
  eta : List Nat
  deriving DecidableEq, Repr

/-- An entry from its bytes, given as a reader of n bytes at an offset. -/
def Mail.of (rd : Nat → Nat → Nat) : Mail :=
  { version := rd 4 4, d := rd 8 1, order := rd 9 1, tag := rd 10 2, valid := bit (rd 12 4) 0
    lam := (List.range 16).map fun i => rd (0x20 + 8 * i) 8
    eta := (List.range 4).map fun i => rd (0xA0 + 8 * i) 8 }

/-- The message an entry holds for order k: +0 where it is not valid or of another order (R186, R187). -/
def Mail.message (m : Mail) (k : Nat) : List Nat × List Nat :=
  if m.valid && m.order == k then (m.lam.take (k * k), m.eta.take k)
  else (List.replicate (k * k) 0, List.replicate k 0)

/-- The writes of a message into an entry: order, VALID, version, Λ and η with the unused slots +0 (R51, R181, R184). -/
def State.putMail (s : State) (place version k : Nat) (lam eta : List Nat) : State :=
  let pad (n : Nat) (l : List Nat) : List Byte := ((List.range n).map fun i => bytesOf (l.getD i 0) 8).flatten
  let s := s.storeBytes (place + 4) none (bytesOf version 4)
  let s := s.storeBytes (place + 9) none (bytesOf k 1)
  let s := s.storeBytes (place + 12) none (bytesOf 1 4)
  s.storeBytes (place + 0x20) none (pad 16 lam ++ pad 4 eta)

/-! ### Entry (R176, R183, R184, R186 to R189) -/

/-- R176: a pair instruction needs k² elements in a register. -/
def pairCheck (c : Ctx) : Option TrapInfo :=
  illegalUnless (decide (c.vgrp.toNat * c.vgrp.toNat ≤ c.vlmaxOf .cf32)) (c.vgrp.zeroExtend 64)

/-- The first check that fails. -/
def firstTrap : List (Option TrapInfo) → Option TrapInfo
  | [] => none
  | some t :: _ => some t
  | none :: ts => firstTrap ts

/-- An instruction of the page enters the vector queue; of its checks that fail the first in order gives TVAL
(notes/assumptions/106.md). -/
def State.gaussEnter (s : State) (ins : Instr) (reads : List SReg) (a b : SReg) (dst : List SReg) (checks : Ctx → List (Option TrapInfo)) : Out :=
  s.vEnter ins reads dst (fun c => c.reg a) (fun c => c.reg b) (fun _ => true) fun c => firstTrap (pairCheck c :: checks c)

/-- R179, R184: the address word, with a core of this device, or of a paired twin. -/
def mailWordOk (twin : Bool) (v : Word) : Bool :=
  let core := bitsOf v.toNat 7 0
  v.toNat / 2 ^ 18 == 0 && (decide (core < 96) || (twin && decide (128 ≤ core) && decide (core < 224)))

/-- R184: a shadow address is 0 or lies in the own-core window, a multiple of 64. -/
def shadowOk (v : Word) : Bool :=
  v == 0 || (decide (0x7F0000000000 ≤ v.toNat) && decide (v.toNat < 0x7F0000400000) && v.toNat % 64 == 0)

/-- GSEND and GSENDC enter (R184); they wait while CNTEN is full. -/
def State.gsendEnter (s : State) (ins : Instr) (d b : SReg) : Out :=
  if 255 ≤ s.curCtx.cntEn then .next s
  else s.gaussEnter ins [d, b] d b [] fun c =>
    [illegalUnless (mailWordOk s.twin.paired (c.reg d)) (c.reg d), illegalUnless (shadowOk (c.reg b)) (c.reg b)]

/-- GSEND (R184). -/
def execGsend (d : SReg) (vp : VReg) (b : SReg) (s : State) : Out := s.gsendEnter (.gsend d vp b) d b
/-- GSENDC (R184). -/
def execGsendc (d : SReg) (vp : VReg) (b : SReg) (s : State) : Out := s.gsendEnter (.gsendc d vp b) d b
/-- GLD (R186). -/
def execGld (vp : VReg) (a b : SReg) (s : State) : Out :=
  s.gaussEnter (.gld vp a b) [a] a 0 [b] fun c => [illegalUnless (decide ((c.reg a).toNat < 1024)) (c.reg a)]

/-- The range word of GSUM and GSUMX (R187). -/
def rangeFirst (v : Word) : Nat := bitsOf v.toNat 9 0
def rangeCnt (v : Word) : Nat := bitsOf v.toNat 26 16
def rangeX (v : Word) : Nat := bitsOf v.toNat 41 32
def rangeOk (cavity : Bool) (v : Word) : Bool :=
  v.toNat / 2 ^ 42 == 0 && bitsOf v.toNat 31 27 == 0 && bitsOf v.toNat 15 10 == 0 &&
    decide (1 ≤ rangeCnt v) && decide (rangeCnt v ≤ 1024) && (cavity || rangeX v == 0)

/-- GSUM (R187). -/
def execGsum (vp : VReg) (a : SReg) (s : State) : Out :=
  s.gaussEnter (.gsum vp a) [a] a 0 [] fun c => [illegalUnless (rangeOk false (c.reg a)) (c.reg a)]
/-- GSUMX (R187). -/
def execGsumx (vp : VReg) (a : SReg) (s : State) : Out :=
  s.gaussEnter (.gsumx vp a) [a] a 0 [] fun c => [illegalUnless (rangeOk true (c.reg a)) (c.reg a)]
/-- GDAMP (R188). -/
def execGdamp (vp vq : VReg) (b : SReg) (s : State) : Out :=
  s.gaussEnter (.gdamp vp vq b) [b] 0 b [] fun c => [illegalUnless (decide ((c.reg b).toNat < 256)) (c.reg b)]

/-- R189: a keep mask. -/
def keepOk (k : Nat) (v : Word) : Bool := v != 0 && decide (v.toNat < 2 ^ k)
/-- The positions a keep mask names. -/
def kept (k : Nat) (v : Word) : List Nat := (List.range k).filter fun i => bit v.toNat i
def dropped (k : Nat) (v : Word) : List Nat := (List.range k).filter fun i => !bit v.toNat i
/-- The check of a keep mask. -/
def keepCheck (b : SReg) (c : Ctx) : List (Option TrapInfo) := [illegalUnless (keepOk c.vgrp.toNat (c.reg b)) (c.reg b)]

/-- GMARG (R189). -/
def execGmarg (vp vq : VReg) (b : SReg) (s : State) : Out := s.gaussEnter (.gmarg vp vq b) [b] 0 b [] (keepCheck b)
/-- GEMBED (R189). -/
def execGembed (vp vq : VReg) (b : SReg) (s : State) : Out := s.gaussEnter (.gembed vp vq b) [b] 0 b [] (keepCheck b)
/-- GMEAN (R190). -/
def execGmean (vp vq : VReg) (s : State) : Out := s.gaussEnter (.gmean vp vq) [] 0 0 [] fun _ => []

/-! ### The held instructions (R192, R193) -/

/-- GCFG (R192). -/
def execGcfg (n : Fin 16) (a : SReg) (s : State) : Out :=
  s.heldOp [a] [] fun s =>
    let c := s.curCtx
    let v := c.reg a
    let core := coreOf s.sched.cur
    let o := s.tenantOf c
    if n.val ≠ 0 ∨ v.toNat / 2 ^ 48 ≠ 0 ∨ bitsOf v.toNat 15 11 ≠ 0 ∨ 1024 < mbCount v ∨ mbBase v % 64 ≠ 0 then
      s.trapCur .illegalInstruction v
    else if (s.coreRegion core o).2 < mbBase v + 192 * mbCount v then s.trapCur .windowBounds v
    else .next ((s.modCore core fun k => { k with mbtab := k.mbtab.set 0 o v }).complete id)

/-- GSTAT (R193): it waits until the context's older vector-queue instructions have completed. -/
def execGstat (d : SReg) (sel : Fin 16) (s : State) : Out :=
  s.heldOp [] [d] fun s =>
    let c := s.curCtx
    let core := coreOf s.sched.cur
    let o := s.tenantOf c
    let k := s.core core
    let put (s : State) (v : Word) : Out := if c.vq.isEmpty then .next (s.complete fun c => c.setReg d v) else .next s
    match sel.val with
    | 0 => put s (k.mbtab.get 0 o)
    | 1 => put s (BitVec.ofNat 64 (k.drops.get 0 o))
    | 2 => put s (k.merges.get 0 o)
    | 3 => put s c.sent
    | 4 => put s c.skipped
    | 8 =>
      if c.vq.isEmpty then put (s.modCore core fun k => { k with drops := k.drops.set 0 o 0 }) (BitVec.ofNat 64 (k.drops.get 0 o))
      else .next s
    | _ => s.trapCur .illegalInstruction 0

/-! ### What the register instructions compute (R188 to R191) -/

/-- A result of a pair instruction: the two registers' elements, flags, and whether a pivot was bad. -/
structure PairResult where
  lam : List Nat
  eta : List Nat
  fl : Flags
  bad : Bool
  deriving DecidableEq, Repr

/-- GDAMP (R188). -/
def gdampOf (vp vq : VReg) (e : VEntry) (c : Ctx) : PairResult :=
  let k := e.vgrp
  let d := e.sb.toNat % 256
  { lam := hermResult k (dampAll d (hermBits k (c.elems64 vp (k * k))) (hermBits k (c.elems64 vq (k * k))))
    eta := dampAll d (c.elems64 (pairHi vp) k) (c.elems64 (pairHi vq) k), fl := 0, bad := false }

/-- GEMBED (R189). -/
def gembedOf (vq : VReg) (e : VEntry) (c : Ctx) : PairResult :=
  let k := e.vgrp
  let t := kept k e.sb
  let n := t.length
  let h := hermBits n (c.elems64 vq (n * n))
  let x := c.elems64 (pairHi vq) n
  { lam := (List.range (k * k)).map fun m =>
      match t.idxOf? (m / k), t.idxOf? (m % k) with
      | some a, some b => h.getD (a * n + b) 0
      | _, _ => 0
    eta := (List.range k).map fun m =>
      match t.idxOf? m with
      | some a => x.getD a 0
      | none => 0
    fl := 0, bad := false }

/-- The eliminations of GMARG in ascending order: the matrix, the vector, and whether a pivot was bad. -/
def gmargSteps (g : Guard) (k : Nat) : List Nat → CMat → CVec → Bool → CMat × CVec × Bool
  | [], m, h, bad => (m, h, bad)
  | p :: ps, m, h, bad =>
    let r := schur g k p m
    let v := schurVec g k p m h
    gmargSteps g k ps r.1 v.1 (bad || r.2)

/-- GMARG (R189). -/
def gmargOf (vq : VReg) (e : VEntry) (c : Ctx) : PairResult :=
  let k := e.vgrp
  let t := kept k e.sb
  let n := t.length
  let l := hermBits k (c.elems64 vq (k * k))
  let x := c.elems64 (pairHi vq) k
  let pad (m : Nat) (l : List Nat) : List Nat := l ++ List.replicate (m - l.length) 0
  if (dropped k e.sb).isEmpty then { lam := l, eta := x, fl := 0, bad := false }
  else
    let (m, h, bad) := gmargSteps e.guard k (dropped k e.sb) (matOf k l) (vecOf k x) false
    let lam := (List.range (n * n)).map fun i => m.at (t.getD (i / n) 0) (t.getD (i % n) 0)
    let eta := t.map h.at
    { lam := pad (k * k) (lam.map (CV.bits .f32)), eta := pad k (eta.map (CV.bits .f32))
      fl := orFlags (lam.map CV.flags) ||| orFlags (eta.map CV.flags), bad := bad }

/-- GMEAN (R190). -/
def gmeanOf (vq : VReg) (e : VEntry) (c : Ctx) : PairResult :=
  let k := e.vgrp
  let r := sweeps e.guard k (c.matAt vq k 0)
  let m := CMat.hermitian k r.1
  let h := c.vecAt (pairHi vq) k 0
  let mu := CVec.make k fun i => (CV.addProducts e.mode.rm [] ((List.range k).map fun l => (m.at i l, h.at l))).rnd .f32 e.mode
  { lam := (m.elems k).map (CV.bits .f32), eta := mu.map (CV.bits .f32)
    fl := orFlags ((r.1.elems k).map CV.flags) ||| orFlags (mu.map CV.flags), bad := r.2 }

/-- The page's instructions over registers alone. -/
def gaussRegs (e : VEntry) (c : Ctx) : Option (VReg × PairResult) :=
  match e.ins with
  | .gdamp vp vq _ => some (vp, gdampOf vp vq e c)
  | .gmarg vp vq _ => some (vp, gmargOf vq e c)
  | .gembed vp vq _ => some (vp, gembedOf vq e c)
  | .gmean vp vq => some (vp, gmeanOf vq e c)
  | _ => none

/-! ### Mailbox reads (R186, R187) -/

/-- A component of a sum with its exact-zero sign (R44, R187). -/
def sumBits (m : RMode) (xs : List Nat) : Nat × Flags :=
  let vs := xs.map (decodeF .f32)
  let (v, fl) := sumV false vs
  let (r, fl') := encodeF .f32 m v
  (r, fl ||| fl' ||| orFlags (vs.map FV.snanFlag))

/-- A complex element of a sum. -/
def sumBits64 (m : RMode) (xs : List Nat) : Nat × Flags :=
  let re := sumBits m (xs.map (· % 2 ^ 32))
  let im := sumBits m (xs.map (· / 2 ^ 32 % 2 ^ 32))
  (pairOf 32 re.1 im.1, re.2 ||| im.2)

/-- GSUM and GSUMX over the messages of the mailboxes (R187): the elements from the diagonal and lower triangle, written
whole. -/
def gsumOf (vp : VReg) (ms : List (List Nat × List Nat)) (e : VEntry) (c : Ctx) : PairResult :=
  let k := e.vgrp
  let l := hermBits k (c.elems64 vp (k * k))
  let x := c.elems64 (pairHi vp) k
  let lam := (List.range (k * k)).map fun n =>
    let xs := l.getD n 0 :: ms.map fun m => m.1.getD n 0
    if n % k < n / k then sumBits64 e.mode xs
    else if n % k = n / k then sumBits e.mode (xs.map (· % 2 ^ 32))
    else (0, 0)
  let eta := (List.range k).map fun n => sumBits64 e.mode (x.getD n 0 :: ms.map fun m => m.2.getD n 0)
  { lam := hermResult k (lam.map (·.1)), eta := eta.map (·.1)
    fl := orFlags (lam.map (·.2)) ||| orFlags (eta.map (·.2)), bad := false }

/-- The indices of a range word, ascending (R187). -/
def rangeIdx (cavity : Bool) (v : Word) : List Nat :=
  ((List.range (rangeCnt v)).map (rangeFirst v + ·)).filter fun i => !(cavity && i == rangeX v)

/-- GLD's status word (R186). -/
def Mail.status (m : Mail) : Word := BitVec.ofNat 64 (m.order % 8 * 2 ^ 33 + m.valid.toNat * 2 ^ 32 + m.version)

/-! ### The residual test (R184) -/

/-- The square of a difference; none for NaN, and whether it is infinite. -/
def diffSq (x y : FV) : Option (Bool × Rat) :=
  match sumV false [x, y.negate] with
  | (.nan _, _) => none
  | (.inf _, _) => some (true, 0)
  | (.fin _ d, _) => some (false, d * d)

/-- The sum of the squares over pairs of f32 encodings. -/
def residual (ps : List (Nat × Nat)) : Option (Bool × Rat) :=
  ps.foldl (fun acc p =>
    match acc, diffSq (decodeF .f32 p.1) (decodeF .f32 p.2) with
    | some (i, q), some (j, r) => some (i || j, q + r)
    | _, _ => none) (some (false, 0))

/-- R184: whether a residual lets GSENDC skip the send. -/
def residualSettled (gtau : FV) (ps : List (Nat × Nat)) : Bool :=
  match gtau, residual ps with
  | .fin _ g, some (inf, q) => decide (0 ≤ g) && !inf && decide (q ≤ g * g)
  | .inf false, some _ => true
  | _, _ => false

/-- The real components of two lists of complex elements, paired. -/
def parts (xs ys : List Nat) : List (Nat × Nat) :=
  (List.zip xs ys).flatMap fun p => [(p.1 % 2 ^ 32, p.2 % 2 ^ 32), (p.1 / 2 ^ 32, p.2 / 2 ^ 32)]

/-! ### The merge unit (R181, R182, R195) -/

/-- The deadline of a handler for a tag: the message's, or the time of acceptance plus RELDL (R182, R305). -/
def RouteTag.deadlineOf (t : RouteTag) (dl : Word) (now : Nat) : Word := if t.reldl = 0 then dl else BitVec.ofNat 64 (now + t.reldl)

/-- The deadline of the handler that an entry starts under its tag as it now is (R182, R300, R305). -/
def HandlerEntry.due (e : HandlerEntry) (t : RouteTag) : Word :=
  match e.kind with
  | .trigger _ => e.deadline
  | _ => t.deadlineOf e.deadline e.ready

/-- Whether an entry is the pending trigger of a tag. -/
def HandlerEntry.triggers (x : HandlerEntry) (tag : Nat) : Bool :=
  match x.kind with
  | .trigger _ => x.tag == tag
  | _ => false

/-- One more merge folded into a pending trigger (R182); MSRC becomes the sender of the message folded in
(notes/assumptions/105.md). -/
def HandlerEntry.fold (x : HandlerEntry) (word : Word) (version : Nat) (m : GaussMsg) : HandlerEntry :=
  let n := match x.kind with
    | .trigger t => t.merges
    | _ => 0
  { x with
    kind := .trigger { mailbox := word, version := version, merges := Nat.min (n + 1) (2 ^ 32 - 1) }
    tenant := m.tenant, group := m.group, src := some m.src }

/-- A trigger of a route tag (R182): folded into the pending one, or a new entry. -/
def State.trigger (s : State) (core tag : Nat) (m : GaussMsg) (version : Nat) : State :=
  match s.sluice.table with
  | none => s
  | some t =>
    if t.tagOwner core tag ≠ m.tenant then s
    else
      let (now, s) := s.clusterNow (clusterOf core)
      let k := s.core core
      let word := BitVec.ofNat 64 (m.index * 256 + core)
      if k.entries.any (·.triggers tag) then
        s.setCore core { k with entries := k.entries.map fun x => if x.triggers tag then x.fold word version m else x }
      else
        let h : HandlerEntry := {
          kind := .trigger { mailbox := word, version := version, merges := 1 }
          tag := tag, tenant := m.tenant, group := m.group
          deadline := (k.tags.get {} tag).deadlineOf m.deadline now, payload := [], src := some m.src, ready := now }
        (s.setCore core { k with entries := k.entries ++ [h] }).startGroup m.group

/-- R181: the merge of an arriving message. -/
def State.merge (s : State) (m : GaussMsg) : State :=
  let k := s.core m.core
  let tab := k.mbtab.get 0 m.tenant
  let s :=
    if m.order < 1 ∨ 4 < m.order ∨ mbCount tab ≤ m.index then
      s.setCore m.core { k with drops := k.drops.set 0 m.tenant (Nat.min (k.drops.get 0 m.tenant + 1) (2 ^ 32 - 1)) }
    else
      let p := s.mailbox m.core m.tenant m.index
      let b := Mail.of fun o n => s.mem.readN (p + o) n
      let first := !b.valid || b.order != m.order
      let lam := if first then m.lam else hermResult m.order (dampAll b.d (hermBits m.order b.lam) m.lam)
      let eta := if first then m.eta else dampAll b.d (b.eta.take m.order) m.eta
      let version := (b.version + 1) % 2 ^ 32
      let s := s.putMail p version m.order lam eta
      let s := s.modCore m.core fun k => { k with merges := k.merges.set 0 m.tenant (k.merges.get 0 m.tenant + 1) }
      if bit b.tag 15 then s.trigger m.core (b.tag % 64) m version else s
  s.countRecv m.core m.group

/-- GMSG_MERGE (R8, R181, R184, R185, R306): the i-th message in flight reaches its core, after those sent before it from its node to
that node, or one arrives from the twin; its send is then complete. -/
def execGmsgMerge (x : GmSource) (s : State) : Out :=
  match x with
  | .twin m => if (s.twin.paired && decide (m.core < 96) && decide (128 ≤ m.src) && decide (m.src < 224)) = true then .next (s.merge { m with group := 0xFF }) else .next s
  | .sent i =>
    match s.gmsg[i]? with
    | none => .next s
    | some (m, from_) =>
      if (s.gmsg.take i).any (fun y => sameRoute y.1.src y.1.core m.src m.core) then .next s
      else
        let s := { s with gmsg := s.gmsg.eraseIdx i }
        let s := if m.core < 96 then s.merge m else s
        match from_ with
        | some y => .next (s.opDone y none)
        | none => .next s

end Sys2Proof.Machine
end

