-- ==== Sys2Proof/Machine/Matrix.lean ====
section
/-! DEFINITION. The matrix unit: the instructions of page 0x40 and the steps in which its commands begin, make rows ready and
complete (R154 to R175). -/

namespace Sys2Proof.Machine
open Sys2Proof

/-! ### STATUS and the unit's own state (R155, R169) -/

/-- STATUS (R169). -/
def MatrixUnit.status (m : MatrixUnit) : Word :=
  BitVec.ofNat 64 (m.fkind + 16 * m.mof.toNat + 32 * m.mnv.toNat + 128 * m.fpend.toNat + 1024 * m.fz + 4096 * m.fmaj +
    2 ^ 22 * m.pdepth + 2 ^ 24 * m.fdisc)

/-- STATUS as an image or a save area gives it (R171, R361). -/
def MatrixUnit.loadStatus (m : MatrixUnit) (v : Nat) : MatrixUnit :=
  { m with
    fkind := bitsOf v 3 0, mof := bit v 4, mnv := bit v 5, fpend := bit v 7, fz := bitsOf v 11 10, fmaj := bitsOf v 15 12
    pdepth := bitsOf v 23 22, fdisc := bitsOf v 31 24 }

/-- Element e of tile z, as f32 bits. -/
def MatrixUnit.elem (m : MatrixUnit) (z e : Nat) : Nat := m.tiles.get 0 (4096 * z + e)

/-- Elements of tile z written; a word of 64 bits of which both elements are written is whole again (R428). -/
def MatrixUnit.putElems (m : MatrixUnit) (z : Nat) (xs : List (Nat × Nat)) : MatrixUnit :=
  { m with
    tiles := xs.foldl (fun t x => t.set 0 (4096 * z + x.1) x.2) m.tiles
    ecc := m.ecc.filter fun w =>
      !((xs.any fun x => 4096 * z + x.1 == 2 * w.1) && xs.any fun x => 4096 * z + x.1 == 2 * w.1 + 1) }

/-- Whether the word of an element is poisoned. -/
def MatrixUnit.poisoned (m : MatrixUnit) (z e : Nat) : Bool := m.ecc.get false ((4096 * z + e) / 2)

/-! ### Issue (R160, R161, R168, R170) -/

/-- The checks of R155 and R170, and the pending fault of R168, before an instruction of page 0x40. -/
def State.mxGate (s : State) (raises : Bool) (k : MatrixUnit → Out) : Out :=
  let c := s.curCtx
  match s.mxOf s.sched.cur c with
  | none => s.trapCur .noMatrix 0
  | some m =>
    if m.pdepth < c.depth then s.trapCur .mxBusy 0
    else if raises && m.fpend then s.trapWith (·.setMx s.sched.cur { m with fpend := false }) .mxFault m.faddr
    else k m

/-- A matrix command issues (R161): its operands are read and checked, and it enters the queue unless that is full. -/
def State.mxIssue (s : State) (reads : List SReg) (check : Ctx → Option TrapInfo) (op : Ctx → MxOp) : Out :=
  s.heldOp reads [] fun s => s.mxGate true fun m =>
    let c := s.curCtx
    match check c with
    | some t => s.trapCur t.cause t.value
    | none =>
      if 16 ≤ m.queue.length || s.curFenced 2 then .next s
      else
        let cmd : MxCmd := { ord := c.ord, op := op c, begun := false, left := 0, rows := 0, ready := 0, sharing := false }
        .next ((s.setMx s.sched.cur { m with queue := m.queue ++ [cmd] }).complete id)

/-- No check on the operands. -/
def mxNoCheck (_ : Ctx) : Option TrapInfo := none

/-- R156: the pairs of formats. -/
def mxPair (fa fb : Nat) : Bool :=
  (fa == 5 && fb == 5) || ((fa == 7 || fa == 8) && (fb == 7 || fb == 8)) || (fa == 9 && fb == 9)

/-- R156: the operand check of MXCFG. -/
def mxcfgOk (n : Nat) (v : Word) : Bool :=
  let x := v.toNat
  match n with
  | 0 => x / 2 ^ 40 == 0 && bitsOf x 31 29 == 0 && !bit x 15 && !bit x 7 && decide (bitsOf x 6 0 ≤ 64) &&
      decide (bitsOf x 14 8 ≤ 64) && decide (bitsOf x 28 16 ≤ 4096) && mxPair (geomFA v) (geomFB v)
  | 1 => x / 2 ^ 48 == 0 && strideA v % 16 == 0 && strideB v % 16 == 0
  | 2 => x / 2 ^ 48 == 0
  | _ => false

/-- MXCFG (R156, R157). -/
def execMxcfg (n : Fin 16) (a : SReg) (s : State) : Out :=
  s.mxIssue [a] (fun c => illegalUnless (mxcfgOk n.val (c.reg a)) (c.reg a)) fun c => .cfg n.val (c.reg a)
/-- MMA (R162). -/
def execMma (z : ZReg) (a b : SReg) (s : State) : Out := s.mxIssue [a, b] mxNoCheck fun c => .mma z.val (c.reg a) (c.reg b) false
/-- MMAZ (R162). -/
def execMmaz (z : ZReg) (a b : SReg) (s : State) : Out := s.mxIssue [a, b] mxNoCheck fun c => .mma z.val (c.reg a) (c.reg b) true
/-- MXZERO (R164). -/
def execMxzero (z : ZReg) (s : State) : Out := s.mxIssue [] mxNoCheck fun _ => .zero z.val
/-- MXST (R164). -/
def execMxst (z : ZReg) (a b : SReg) (s : State) : Out := s.mxIssue [a, b] mxNoCheck fun c => .st z.val (c.reg a) (c.reg b)
/-- MXLD (R164). -/
def execMxld (z : ZReg) (a b : SReg) (s : State) : Out := s.mxIssue [a, b] mxNoCheck fun c => .ld z.val (c.reg a) (c.reg b)
/-- MXLDCB (R164). -/
def execMxldcb (cb : Fin 2) (a : SReg) (s : State) : Out := s.mxIssue [a] mxNoCheck fun c => .ldcb cb.val (c.reg a)
/-- MXSCALE (R157). -/
def execMxscale (a b : SReg) (s : State) : Out := s.mxIssue [a, b] mxNoCheck fun c => .scale (c.reg a) (c.reg b)
/-- MXSHARE (R167): bits 63:16 and 14:12 are zero. -/
def execMxshare (a : SReg) (s : State) : Out :=
  s.mxIssue [a] (fun c => illegalUnless ((c.reg a).toNat / 65536 == 0 && bitsOf (c.reg a).toNat 14 12 == 0) (c.reg a))
    fun c => .share (c.reg a)

/-- The formats of VMOVZ and VMOVTOZ (R165). -/
def accMove (f : Fmt) : Bool := Fmt.isF f

/-- VMOVZ and VMOVTOZ enter the vector queue (R155, R165, R170); that NO_MATRIX and MX_BUSY come before a format without such a move is
DESIGN CHOICE (notes/assumptions/85.md). -/
def State.mxMove (s : State) (ins : Instr) (b : SReg) (q : Qual) : Out :=
  s.mxGate false fun _ =>
    s.vEnter ins [b] [] (fun c => c.reg b) (fun _ => 0) (fun c => accMove (Qual.fmt q c.vtype))
      fun c => illegalUnless (decide ((c.reg b).toNat ≤ 4095)) (c.reg b)

/-- VMOVZ (R165). -/
def execVmovz (vd : VReg) (z : ZReg) (b : SReg) (q : Qual) (s : State) : Out := s.mxMove (.vmovz vd z b q) b q
/-- VMOVTOZ (R165). -/
def execVmovtoz (z : ZReg) (va : VReg) (b : SReg) (q : Qual) (s : State) : Out := s.mxMove (.vmovtoz z va b q) b q

/-- The item of MXSTAT (R169). -/
def MatrixUnit.item (m : MatrixUnit) (sel : Nat) : Word :=
  match sel with
  | 1 => m.faddr
  | 2 => m.geom
  | 3 => m.stride
  | 4 => m.sstride
  | 5 => m.sa
  | 6 => m.sb
  | 7 => m.share
  | _ => m.status

/-- MXSTAT (R169): it waits until the queue is empty; sel 8 clears the sticky fields. -/
def execMxstat (d : SReg) (sel : Fin 9) (s : State) : Out :=
  s.heldOp [] [d] fun s =>
    match s.mxOf s.sched.cur s.curCtx with
    | none => s.trapCur .noMatrix 0
    | some m =>
      if !m.queue.isEmpty then .next s
      else
        let m' := if sel.val = 8 then { m with mof := false, mnv := false, fkind := 0, fmaj := 0, fz := 0, fdisc := 0 } else m
        .next ((s.setMx s.sched.cur m').complete fun c => c.setReg d (m.item sel.val))

/-! ### Parking (R170, R171) -/

/-- The bytes of a save area. -/
def parkSize : Nat := 65664

/-- R171: the checks of a save area's address, and its place. -/
def State.parkPlace (s : State) (va : Word) : Except TrapInfo Nat :=
  let c := s.curCtx
  let x := va.toNat
  let r := s.coreRegion (coreOf s.sched.cur) (s.tenantOf c)
  if x % 256 ≠ 0 then .error { cause := .misaligned, value := va }
  else if x < 0x7F0000000000 ∨ 0x7F0000400000 ≤ x then .error { cause := .protection, value := va }
  else if r.2 < x - 0x7F0000000000 + parkSize then .error { cause := .windowBounds, value := va }
  else .ok (corePlace (coreOf s.sched.cur) (r.1 + (x - 0x7F0000000000)))

/-- Whether nothing of the context's own order holds an access of the front end to these bytes back (R225). -/
def State.ownClear (s : State) (place size : Nat) : Bool :=
  let c := s.curCtx
  !c.olderLoad c.ord place size && !c.olderStore c.ord place size && !c.olderVec c.ord place size

/-- Four-byte words as bytes, lowest first. -/
def wordsBytes (n : Nat) (ws : List Nat) : List Byte := ws.flatMap fun w => bytesOf w n

/-- The contents of a save area (R171). -/
def MatrixUnit.parkBytes (m : MatrixUnit) : List Byte :=
  wordsBytes 4 ((List.range 16384).map fun e => m.tiles.get 0 e) ++ wordsBytes 2 m.cba ++ wordsBytes 2 m.cbb ++
    wordsBytes 8 ([m.geom, m.stride, m.sstride, m.sa, m.sb, m.share, m.status, m.faddr].map (·.toNat))

/-- The zero fields of GEOM, STRIDE, SSTRIDE and SHARE ignore what a load of the unit would write (R2, R156, R167). -/
def MatrixUnit.zeroed (m : MatrixUnit) : MatrixUnit :=
  { m with geom := m.geom &&& 0xFF1FFF7F7F, stride := m.stride &&& 0xFFFFFFFFFFFF, sstride := m.sstride &&& 0xFFFFFFFFFFFF, share := m.share &&& 0x8FFF }

/-- The unit as a save area gives it (R171): rd n o reads n bytes at offset o.  Fields that a handler has altered beyond what MXCFG takes
stand as they are (notes/assumptions/28.md). -/
def MatrixUnit.unpark (m : MatrixUnit) (rd : Nat → Nat → Nat) : MatrixUnit :=
  let word (i : Nat) : Word := BitVec.ofNat 64 (rd 8 (0x10040 + 8 * i))
  let m' : MatrixUnit := { m with
    tiles := (List.range 16384).foldl (fun t e => t.set 0 e (rd 4 (4 * e))) []
    cba := (List.range 16).map fun e => rd 2 (0x10000 + 2 * e)
    cbb := (List.range 16).map fun e => rd 2 (0x10020 + 2 * e)
    geom := word 0, stride := word 1, sstride := word 2, sa := word 3, sb := word 4, share := word 5, faddr := word 7
    ecc := [] }
  { m'.zeroed.loadStatus (word 6).toNat with pdepth := m.pdepth - 1 }

/-- The words of the tiles, which fill the first 64 KiB of a save area: an error goes with its word (notes/assumptions/87.md). -/
def tileWords : List Nat := List.range 8192
/-- The errors of a unit's tiles in the save area at a place. -/
def State.parkEcc (s : State) (p : Nat) (m : MatrixUnit) : State :=
  { s with ecc := (tileWords.filter fun w => m.ecc.get false w).foldl (fun (e : FMap Bool) w => e.set false (p / 8 + w) true) s.ecc }
/-- The errors that the tile words of a save area hold. -/
def State.unparkEcc (s : State) (p : Nat) : FMap Bool :=
  (tileWords.filter fun w => s.ecc.get false (p / 8 + w)).foldl (fun (e : FMap Bool) w => e.set false w true) []

/-- What MXPARK and MXUNPARK wait for: the queue, older work on the area, a FENCE and an LDAQ (R171, R225, R229, R232). -/
def State.parkHeld (s : State) (m : MatrixUnit) (p : Nat) : Bool :=
  let c := s.curCtx
  !m.queue.isEmpty || !c.vq.isEmpty || !s.ownClear p parkSize || s.curFenced 2 || c.olderAcquire c.ord

/-- MXPARK (R170, R171). -/
def execMxpark (a : SReg) (s : State) : Out :=
  s.heldOp [a] [] fun s =>
    let c := s.curCtx
    let va := c.reg a
    match s.mxOf s.sched.cur c with
    | none => s.trapCur .noMatrix 0
    | some m =>
      if c.depth = 0 ∨ m.pdepth + 1 ≠ c.depth then s.trapCur .illegalInstruction 0
      else match s.parkPlace va with
      | .error t => s.trapCur t.cause t.value
      | .ok p =>
        if s.parkHeld m p then .next s
        else
          let s := (s.storeBytes p none m.parkBytes).parkEcc p m
          .next ((s.setMx s.sched.cur { job := m.job, pdepth := m.pdepth + 1 }).complete id)

/-- MXUNPARK (R170, R171); at depth 0 there is no park to undo. -/
def execMxunpark (a : SReg) (s : State) : Out :=
  s.heldOp [a] [] fun s =>
    let c := s.curCtx
    let va := c.reg a
    match s.mxOf s.sched.cur c with
    | none => s.trapCur .noMatrix 0
    | some m =>
      if c.depth = 0 ∨ m.pdepth ≠ c.depth then s.trapCur .illegalInstruction 0
      else match s.parkPlace va with
      | .error t => s.trapCur t.cause t.value
      | .ok p =>
        if s.parkHeld m p then .next s
        else if m.fpend then s.trapWith (·.setMx s.sched.cur { m with fpend := false }) .mxFault m.faddr
        else .next ((s.setMx s.sched.cur { m.unpark (fun n o => s.mem.readN (p + o) n) with ecc := s.unparkEcc p }
          |>.snoopRead p parkSize).complete id)

/-! ### What a command does (R159, R162 to R164, R168) -/

/-- FMAJ and FZ of a command (R169). -/
def MxOp.majorField : MxOp → Nat × Nat
  | .cfg n _ => (0, n % 4)
  | .mma z _ _ clear => (if clear then 2 else 1, z)
  | .zero z => (3, z)
  | .st z _ _ => (4, z)
  | .ld z _ _ => (5, z)
  | .ldcb cb _ => (6, cb)
  | .scale _ _ => (0xB, 0)
  | .share _ => (0xC, 0)

/-- A fault to record: FKIND and FADDR. -/
structure MxFault where
  kind : Nat
  addr : Word
  deriving DecidableEq, Repr

/-- R159, R164: the base whose alignment fails first. -/
def MxOp.misaligned (m : MatrixUnit) (op : MxOp) : Option Word :=
  if (op.ranges m).isEmpty then none
  else match op with
  | .mma _ a b _ => if a.toNat % 16 ≠ 0 then some a else if b.toNat % 16 ≠ 0 then some b else none
  | .st _ a t => if a.toNat % 4 ≠ 0 ∨ t.toNat % 4 ≠ 0 then some a else none
  | .ld _ a t => if a.toNat % 4 ≠ 0 ∨ t.toNat % 4 ≠ 0 then some a else none
  | .ldcb _ a => if a.toNat % 32 ≠ 0 then some a else none
  | _ => none

/-- R159: the first failing byte of a range. -/
def State.rangeFault (s : State) (a : Agent) (r : MxRange) : Option MxFault :=
  match s.mxWindow a r.base with
  | none => some { kind := 1, addr := r.base }
  | some (start, _, size) =>
    let o := r.base.toNat - start
    if size ≤ o then some { kind := 2, addr := r.base }
    else if size < o + r.len then some { kind := 2, addr := BitVec.ofNat 64 (start + size) }
    else none

/-- R159: the first failing check of a command. -/
def State.mxCheck (s : State) (a : Agent) (m : MatrixUnit) (op : MxOp) : Option MxFault :=
  match op.misaligned m with
  | some x => some { kind := 3, addr := x }
  | none => (op.ranges m).findSome? (s.rangeFault a)

/-- R168: the first word of a command's operands for the k-steps k0 to k1 − 1 that holds an uncorrectable error; a shared read brought
the errors of B with it (R167). -/
def State.mxEcc (s : State) (a : Agent) (m : MatrixUnit) (op : MxOp) (shared : Option SharedRead) (k0 k1 : Nat) : Option MxFault :=
  (op.readRows m k0 k1).findSome? fun r =>
    match s.mxPlace a r.base with
    | none => none
    | some p =>
      let ecc := match shared with
        | some x => if r.ofB then x.ecc else s.ecc
        | none => s.ecc
      match ((List.range ((p + r.len - 1) / 8 + 1 - p / 8)).map (p / 8 + ·)).find? fun w => ecc.get false w with
      | some w => some { kind := 4, addr := r.base + BitVec.ofNat 64 (8 * w - p) }
      | none => none

/-- The operand element at consecutive index k from a place (R158); a format code that only an altered save area can hold reads as e5m2
(notes/assumptions/28.md). -/
def operandAt (rd : Nat → Nat → Nat) (cb : List Nat) (code place k : Nat) : FV :=
  if code = 5 then decodeF .bf16 (rd 2 (place + 2 * k))
  else if code = 9 then decodeF .bf16 (cb.getD (rd 1 (place + k / 2) / 16 ^ (k % 2) % 16) 0)
  else decodeF (if code = 7 then .e4m3 else .e5m2) (rd 1 (place + k))

/-- An accumulator element with the sticky bits it raised (R162). -/
structure Accum where
  z : FV
  mof : Bool
  mnv : Bool
  deriving DecidableEq, Repr

/-- One group of R45: products, the scale applied to each, and one rounding. -/
def accumGroup (acc : Accum) (ps : List (FV × FV)) (sa sb : FV) : Accum :=
  let scaled (p : FV) : FV := (mulV (mulV p sa).1 sb).1
  let terms := ps.map fun p => scaled (mulV p.1 p.2).1
  let r := decodeF .f32 (encodeF .f32 rneMode (sumV false (acc.z :: terms)).1).1
  let ins := acc.z :: sa :: sb :: ps.flatMap fun p => [p.1, p.2]
  let isInf (v : FV) : Bool := v == .inf false || v == .inf true
  { z := r
    mof := acc.mof || (isInf r && !ins.any isInf)
    mnv := acc.mnv || (r.isNaN && !ins.any FV.isNaN) }

/-- R45: an element over the groups from index q0 on, k of them ending at k-step k1; a, b give operand elements and sa, sb scales by
group. -/
def accumulate (q0 k1 : Nat) (a b sa sb : Nat → FV) (z : FV) : Accum :=
  ((List.range ((k1 + 3) / 4 - q0)).map (q0 + ·)).foldl (fun acc q =>
    let ks := (List.range 4).map (4 * q + ·) |>.filter (· < k1)
    accumGroup acc (ks.map fun i => (a i, b i)) (sa q) (sb q)) { z := z, mof := false, mnv := false }

/-- The M × N region's elements: row, column. -/
def region (m n : Nat) : List (Nat × Nat) := (List.range m).flatMap fun i => (List.range n).map fun j => (i, j)

/-- A segment of an MMA or MMAZ (R162, R163, R174): the k-steps k0 to k1 − 1, k0 a multiple of 4; rd and rdB read bytes at places, for A
and for B with its scales; the bases are places.  With K = 0 an MMA leaves the tile as it is. -/
def MatrixUnit.multiply (u : MatrixUnit) (rd rdB : Nat → Nat → Nat) (z pa pb psa psb : Nat) (clear : Bool) (k0 k1 : Nat) : MatrixUnit :=
  if geomK u.geom = 0 && !clear then u
  else
  let fa := geomFA u.geom
  let fb := geomFB u.geom
  let scale (rd : Nat → Nat → Nat) (p : Nat) : FV := if fa = 5 then .fin false 1 else decodeE8m0 (rd 1 p)
  let rs := (region (geomM u.geom) (geomN u.geom)).map fun ij =>
    let (i, j) := ij
    let e := 64 * i + j
    (e, accumulate (k0 / 4) k1
      (fun k => operandAt rd u.cba fa (pa + i * strideA u.stride) k)
      (fun k => operandAt rdB u.cbb fb (pb + j * strideB u.stride) k)
      (fun q => scale rd (psa + i * strideA u.sstride + q))
      (fun q => scale rdB (psb + j * strideB u.sstride + q))
      (if clear then .fin false 0 else decodeF .f32 (u.elem z e)))
  { u.putElems z (rs.map fun r => (r.1, if geomK u.geom = 0 then 0 else (encodeF .f32 rneMode r.2.z).1)) with
    mof := u.mof || rs.any fun r => r.2.mof
    mnv := u.mnv || rs.any fun r => r.2.mnv }

/-- Whether the M × N region of a tile holds a poisoned word (R168). -/
def MatrixUnit.regionPoisoned (u : MatrixUnit) (z : Nat) : Bool :=
  (region (geomM u.geom) (geomN u.geom)).any fun ij => u.poisoned z (64 * ij.1 + ij.2)

/-- R168: the region set to the canonical NaN. -/
def MatrixUnit.nanRegion (u : MatrixUnit) (z : Nat) : MatrixUnit :=
  u.putElems z ((region (geomM u.geom) (geomN u.geom)).map fun ij => (64 * ij.1 + ij.2, 0x7FC00000))

/-- A fault recorded; the younger commands of the queue are discarded (R168). -/
def MatrixUnit.record (u : MatrixUnit) (op : MxOp) (f : MxFault) : MatrixUnit :=
  { u with
    fkind := f.kind, fmaj := op.majorField.1, fz := op.majorField.2, fpend := true, faddr := f.addr
    queue := u.queue.filter (·.begun)
    fdisc := min 255 (u.fdisc + (u.queue.filter fun c => !c.begun).length) }

/-- MXST: the rows it writes, those before a poisoned one (R164, R168). -/
def MatrixUnit.outRows (u : MatrixUnit) (z p t rows : Nat) : List MxOut :=
  (List.range rows).map fun i =>
    { place := p + i * t, bytes := wordsBytes 4 ((List.range (geomN u.geom)).map fun j => u.elem z (64 * i + j)) }

/-- The row of the first poisoned word of a tile's region. -/
def MatrixUnit.badRow (u : MatrixUnit) (z : Nat) : Option Nat :=
  (List.range (geomM u.geom)).find? fun i => (List.range (geomN u.geom)).any fun j => u.poisoned z (64 * i + j)

/-- What a segment of a command leaves: the unit, the rows that an MXST is to write, and the fault it met in its data. -/
structure MxStep where
  unit : MatrixUnit
  out : List MxOut := []
  fault : Option MxFault := none
  deriving DecidableEq, Repr

/-- What segment q of a command does (R168, R174); the ranges have passed; the address of an error in a tile is free. -/
def State.mxEffect (s : State) (a : Agent) (u : MatrixUnit) (op : MxOp) (shared : Option SharedRead) (q : Nat) : MxStep :=
  let k0 := 64 * q
  let k1 := min (geomK u.geom) (k0 + 64)
  let at_ (va : Word) : Nat := (s.mxPlace a va).getD 0
  let rd (n p : Nat) : Nat := s.mem.readN p n
  let rdB (n p : Nat) : Nat := ((shared.map (·.mem)).getD s.mem).readN p n
  let tileFault : MxFault := { kind := 4, addr := BitVec.ofNat 64 s.drawNat.1 }
  match op with
  | .mma z x y clear =>
    match s.mxEcc a u op shared k0 k1 with
    | some f => { unit := u.nanRegion z, fault := some f }
    | none =>
      if geomK u.geom != 0 && u.regionPoisoned z then { unit := u.nanRegion z, fault := some tileFault }
      else { unit := u.multiply rd rdB z (at_ x) (at_ y) (at_ u.sa) (at_ u.sb) (clear && q == 0) k0 k1 }
  | .zero z => { unit := u.putElems z ((List.range 4096).map fun e => (e, 0)) }
  | .st z x t =>
    if (op.ranges u).isEmpty then { unit := u }
    else match u.badRow z with
    | some i => { unit := u, out := u.outRows z (at_ x) t.toNat i, fault := some tileFault }
    | none => { unit := u, out := u.outRows z (at_ x) t.toNat (geomM u.geom) }
  | .ld z x t =>
    match s.mxEcc a u op none k0 k1 with
    | some f => { unit := u.nanRegion z, fault := some f }
    | none =>
      if u.regionPoisoned z then { unit := u.nanRegion z, fault := some tileFault }
      else { unit := u.putElems z ((region (geomM u.geom) (geomN u.geom)).map fun ij =>
        (64 * ij.1 + ij.2, rd 4 (at_ x + ij.1 * t.toNat + 4 * ij.2))) }
  | .ldcb cb x =>
    match s.mxEcc a u op none k0 k1 with
    | some f => { unit := u, fault := some f }
    | none =>
      let es := if x = 0 then resetCodebook else (List.range 16).map fun e => rd 2 (at_ x + 2 * e)
      { unit := if cb = 0 then { u with cba := es } else { u with cbb := es } }
  | op => { unit := u.configure op }

/-- The tile a command names. -/
def MxOp.tile : MxOp → Option Nat
  | .mma z _ _ _ => some z
  | .zero z => some z
  | .st z _ _ => some z
  | .ld z _ _ => some z
  | _ => none

/-- How many rows a command writes (R166). -/
def MxOp.rowsOf (m : MatrixUnit) : MxOp → Nat
  | .mma _ _ _ _ => if geomN m.geom = 0 then 0 else geomM m.geom
  | .zero _ => 64
  | .ld _ _ _ => if geomN m.geom = 0 then 0 else geomM m.geom
  | _ => 0

/-! ### A command begins (R161, R166, R167, R172) -/

/-- The command whose next segment runs: one of which some are left, else the first that has not begun (R161, R174). -/
def MatrixUnit.next (m : MatrixUnit) : Option MxCmd := m.queue.find? fun c => !c.begun || decide (0 < c.left)

/-- A vector-queue instruction that moves a tile's elements. -/
def movesTile (z : Nat) : Instr → Bool
  | .vmovz _ t _ _ => t.val == z
  | .vmovtoz t _ _ _ => t.val == z
  | _ => false

/-- The context of the job that holds a core's unit. -/
def State.mxHolder (s : State) (core : Nat) : Option Nat :=
  (s.core core).mx.job.bind fun h =>
    (s.job? h).bind fun j =>
      match j.state with
      | .running cx => some cx
      | .abandoning cx _ => if cx < numCtx then some cx else none
      | _ => none

/-- Whether the context's own order lets a command begin (R26, R166, R172, R225, R232). -/
def State.mxDue (s : State) (cx : Nat) (m : MatrixUnit) (cmd : MxCmd) : Bool :=
  let c := s.ctx cx
  let older := c.vq.filter fun e => e.ord < cmd.ord
  let tile := match cmd.op.tile with
    | some z => older.any fun e => movesTile z e.ins
    | none => false
  let book := match cmd.op with
    | .ldcb _ _ => !older.isEmpty
    | _ => false
  !tile && !book && !c.olderAcquire cmd.ord && (cmd.op.ranges m).all fun r =>
    match s.mxPlace (s.agentOf cx c) r.base with
    | some p =>
      !c.olderLoad cmd.ord p r.len && !c.olderStore cmd.ord p r.len && !c.olderVec cmd.ord p r.len &&
        !m.queue.any fun q => q.ord < cmd.ord && q.out.any fun o => overlaps o.place o.bytes.length p r.len
    | none => true

/-- The fields of SHARE (R167). -/
def shareOn (v : Word) : Bool := v.getLsbD 15
def shareGroup (v : Word) : Nat := bitsOf v.toNat 11 8
def shareMembers (v : Word) : Nat := bitsOf v.toNat 7 0

/-- What two shared commands must agree on (R167): the place of B, LDB, K, N and FB, and for scaled formats those of SB. -/
def State.sharedB (s : State) (core : Nat) : Option (Nat × Nat × Nat × Nat × Nat × Nat × Nat) :=
  match s.mxHolder core with
  | none => none
  | some cx =>
    let m := (s.core core).mx
    m.next.bind fun cmd =>
      if cmd.begun then none
      else match cmd.op with
      | .mma _ _ b _ =>
        let a := s.agentOf cx (s.ctx cx)
        let scaled := geomFA m.geom != 5
        (s.mxPlace a b).map fun p => (p, strideB m.stride, geomK m.geom, geomN m.geom, geomFB m.geom,
          if scaled then (s.mxPlace a m.sb).getD 0 else 0, if scaled then strideB m.sstride else 0)
      | _ => none

/-- R167: the other cores of a unit's share group. -/
def State.shareGroupOf (s : State) (core : Nat) : List Nat :=
  let m := (s.core core).mx
  let k := clusterOf core
  if !shareOn m.share then []
  else ((List.range 8).map (8 * k + ·)).filter fun c =>
    let v := (s.core c).mx.share
    c != core && bit (shareMembers m.share) (c % 8) && shareOn v && shareGroup v == shareGroup m.share &&
      shareMembers v == shareMembers m.share && (s.core c).mx.job.isSome && (s.core c).owner == (s.core core).owner

/-- The command whose next segment runs, changed; a command without place in the queue is dropped. -/
def updateNext (f : MxCmd → Option MxCmd) : List MxCmd → List MxCmd
  | [] => []
  | c :: cs => if c.begun && c.left == 0 then c :: updateNext f cs else (f c).toList ++ cs

/-- The reads of segment q of a command at their homes (R174, R385, R420); of an MMA that took B from a shared read, those of A (R167). -/
def State.mxReads (s : State) (a : Agent) (m : MatrixUnit) (cmd : MxCmd) (q : Nat) : State :=
  (cmd.op.readRows m (64 * q) (min (geomK m.geom) (64 * q + 64))).foldl (fun (s : State) r =>
    if r.ofB && cmd.shared.isSome then s else ((s.mxPlace a r.base).map fun p => s.snoopRead p r.len).getD s) s

/-- A command runs its next segment, alone: at its begin a pending fault discards it and a failing check is recorded; an error in its
data ends it (R161, R162, R168, R174). -/
def State.mxBegin (s : State) (core cx : Nat) (m : MatrixUnit) (cmd : MxCmd) : State :=
  let a := s.agentOf cx (s.ctx cx)
  let put (s : State) (m : MatrixUnit) : State := s.modCore core fun k => { k with mx := m }
  let gone (m : MatrixUnit) : MatrixUnit := { m with queue := updateNext (fun _ => none) m.queue }
  if m.fpend && !cmd.begun then put s { gone m with fdisc := min 255 (m.fdisc + 1) }
  else match if cmd.begun then none else s.mxCheck a m cmd.op with
  | some f => put s ((gone m).record cmd.op f)
  | none =>
    let n := cmd.op.segments m
    let q := if cmd.begun then n - cmd.left else 0
    let r := s.mxEffect a m cmd.op cmd.shared q
    let rows := cmd.op.rowsOf m
    let done := rows == 0 || geomK m.geom == 0
    let m' := { r.unit with queue := updateNext (fun c => some { c with
      begun := true, left := if r.fault.isSome then 0 else n - (q + 1), sharing := false, rows := rows
      ready := if done then rows else 0, ranges := if cmd.begun then c.ranges else cmd.op.ranges m, out := r.out }) r.unit.queue }
    let s := s.mxReads a m cmd q
    match r.fault with
    | some f => put s.drawNat.2 (m'.record cmd.op f)
    | none => put s m'

/-- Whether a command is an MMA or MMAZ that takes part in sharing. -/
def MxOp.shares : MxOp → Bool
  | .mma _ _ _ _ => true
  | _ => false

/-- The command of a core's queue whose next segment can run, with its context, where nothing holds it back; at an edge none does
(R174, R341). -/
def State.mxReady (s : State) (core : Nat) : Option (Nat × MxCmd) :=
  match s.mxHolder core, (s.core core).mx.next with
  | some cx, some cmd => if (s.core core).edge.isNone && s.mxDue cx (s.core core).mx cmd then some (cx, cmd) else none
  | _, _ => none

/-- The command of a core that is ready begins. -/
def State.mxBeginOn (s : State) (core : Nat) : State :=
  match s.mxReady core with
  | some (cx, cmd) => s.mxBegin core cx (s.core core).mx cmd
  | none => s

/-- R167: the places and lengths of the B operand of a core's next command, and of its scales. -/
def State.sharedPlaces (s : State) (core : Nat) : List (Nat × Nat) :=
  match s.mxReady core with
  | none => []
  | some (cx, cmd) =>
    let m := (s.core core).mx
    ((cmd.op.ranges m).zipIdx.filter fun r => r.2 % 2 == 1).filterMap fun r =>
      (s.mxPlace (s.agentOf cx (s.ctx cx)) r.1.base).map fun p => (p, r.1.len)

/-- What a shared read of places delivers (R167). -/
def State.readShared (s : State) (rs : List (Nat × Nat)) : SharedRead :=
  { mem := s.mem.filter fun b => rs.any fun r => decide (r.1 ≤ b.1) && decide (b.1 < r.1 + r.2)
    ecc := s.ecc.filter fun w => rs.any fun r => overlaps (8 * w.1) 8 r.1 r.2 }

/-- A member of a share group takes what the shared read delivered, and begins. -/
def State.mxBeginShared (x : SharedRead) (s : State) (core : Nat) : State :=
  (s.modCore core fun k => { k with mx := { k.mx with queue := updateNext (fun c => some { c with shared := some x }) k.mx.queue } }).mxBeginOn core

/-- MX_CMD_BEGIN (R161, R166, R167, R172, R174): the next segment of a core's queue, where nothing holds it back.  An MMA of a share
group waits for the others; when each of them is about to read the same B, it is read once and they begin together. -/
def execMxCmdBegin (core : Nat) (s : State) : Out :=
  match s.mxReady core with
  | none => .next s
  | some (_, cmd) =>
    let m := (s.core core).mx
    let others := s.shareGroupOf core
    if cmd.op.shares && !cmd.begun && !others.isEmpty && !m.fpend then
      if others.all fun c => (s.mxReady c).isSome && (s.sharedB core).isSome && s.sharedB c == s.sharedB core then
        let rs := s.sharedPlaces core
        .next ((core :: others).foldl (State.mxBeginShared (s.readShared rs)) (rs.foldl (fun (s : State) r => s.snoopRead r.1 r.2) s))
      else .next (s.modCore core fun k => { k with mx := { m with
        queue := updateNext (fun c => some { c with sharing := true }) m.queue } })
    else .next (s.mxBeginOn core)

/-- MX_SHARE_TIMEOUT (R167): a command that waits for its share group reads B alone. -/
def execMxShareTimeout (core : Nat) (s : State) : Out :=
  match s.mxReady core with
  | some (_, cmd) => if cmd.sharing then .next (s.mxBeginOn core) else .next s
  | none => .next s

/-- The oldest begun command that still owes a row of a tile gets it ready. -/
def rowReady (z row : Nat) : List MxCmd → List MxCmd
  | [] => []
  | c :: cs =>
    if c.begun && c.left == 0 && c.op.tile == some z && c.ready < c.rows then
      (if c.ready = row then { c with ready := row + 1 } else c) :: cs
    else c :: rowReady z row cs

/-- MX_ROW_READY (R166): rows become ready in ascending order. -/
def execMxRowReady (core : Nat) (z : ZReg) (row : Nat) (s : State) : Out :=
  let m := (s.core core).mx
  .next (s.modCore core fun k => { k with mx := { m with queue := rowReady z.val row m.queue } })

/-- R161: the last row of a command is ready, and its last write is done. -/
def MxCmd.over (c : MxCmd) : Bool := c.begun && c.left == 0 && c.ready == c.rows && c.out.isEmpty

/-- MX_CMD_COMPLETE (R161): the first command whose work is done leaves the queue, also from behind one that still drains its rows. -/
def execMxCmdComplete (core : Nat) (s : State) : Out :=
  .next (s.modCore core fun k => { k with mx := { k.mx with queue := k.mx.queue.eraseP MxCmd.over } })

/-- The rows of a command that may be written next: rows that overlap are written in ascending order (R164). -/
def nextOuts : List MxOut → List MxOut
  | [] => []
  | r :: rs => r :: (nextOuts rs).filter fun x => !overlaps x.place x.bytes.length r.place r.bytes.length

/-- The rows that a context's commands may write next. -/
def State.mxOuts (s : State) (cx : Nat) (c : Ctx) : List (Nat × MxOut) :=
  match s.mxOf cx c with
  | none => []
  | some m => m.queue.flatMap fun q => (nextOuts q.out).map fun o => (q.ord, o)

/-- A row of an MXST is written (R164, R228). -/
def State.mxWrite (s : State) (cx : Nat) (c : Ctx) (j : Nat) : State :=
  match (s.mxOuts cx c)[j]?, s.mxOf cx c with
  | some (o, r), some m =>
    (s.setMx cx { m with queue := m.queue.map fun q => if q.ord = o then { q with out := q.out.erase r } else q }).storeBytes r.place none r.bytes
  | _, _ => s

/-! ### VMOVZ and VMOVTOZ (R165, R166) -/

/-- R166: every older command on the tile has passed its last k-step, so the move can start. -/
def MatrixUnit.moveDue (m : MatrixUnit) (o z : Nat) : Bool :=
  !m.queue.any fun c => c.ord < o && c.op.tile == some z && (!c.begun || decide (0 < c.left))

/-- R166: the rows a move touches are ready. -/
def MatrixUnit.rowsReady (m : MatrixUnit) (o z first last : Nat) : Bool :=
  !m.queue.any fun c => c.ord < o && c.op.tile == some z && c.begun && c.ready < c.rows && c.ready ≤ last && first < c.rows

/-- The elements a move touches: active, below the count and within the tile (R165). -/
def moveElems (q : Qual) (e : VEntry) (c : Ctx) : List Nat :=
  let f := Qual.fmt q e.vtype
  (c.activeList q f (e.count f)).filter fun i => e.sa.toNat + i ≤ 4095

/-- VMOVZ: tile elements to a vector register. -/
def vmovzEffect (m : MatrixUnit) (vd : VReg) (z : Nat) (q : Qual) (e : VEntry) (c : Ctx) : Ctx :=
  let f := Qual.fmt q e.vtype
  let rs := (moveElems q e c).map fun i => (i, cvtToF (cplxFmt f) e.mode (decodeF .f32 (m.elem z (e.sa.toNat + i))))
  (c.setVreg vd (putAll (c.vreg vd) (Fmt.bits f) (rs.map fun r => (r.1, r.2.1)))).addFlags (orFlags (rs.map fun r => r.2.2))

/-- VMOVTOZ: vector elements to a tile, with the flags of the conversion. -/
def vmovtozEffect (m : MatrixUnit) (z : Nat) (va : VReg) (q : Qual) (e : VEntry) (c : Ctx) : MatrixUnit × Flags :=
  let f := Qual.fmt q e.vtype
  let rs := (moveElems q e c).map fun i =>
    (e.sa.toNat + i, cvtToF .f32 e.mode (decodeF (cplxFmt f) (elemAt (c.vreg va) (Fmt.bits f) i)))
  (m.putElems z (rs.map fun r => (r.1, r.2.1)), orFlags (rs.map fun r => r.2.2))

end Sys2Proof.Machine
end

