-- ==== Sys2Proof/Machine/VecMem.lean ====
section
/-! DEFINITION. Vector memory instructions, page 0x52: their entry into the queue, their element addresses, and the probe
pass (R207, R216 to R219). -/

namespace Sys2Proof.Machine
open Sys2Proof

/-- How an element's address is formed (R216). -/
inductive VAddr where
  | unit
  | strided
  | indexed (vb : VReg) (amt : Nat)
  | same
  deriving DecidableEq, Repr

/-- A vector memory instruction. -/
structure VMem where
  reg : VReg
  addr : VAddr
  q : Qual
  write : Bool
  deriving DecidableEq, Repr

def vmemOf : Instr → Option VMem
  | .vld vd _ q => some { reg := vd, addr := .unit, q := q, write := false }
  | .vst vd _ q => some { reg := vd, addr := .unit, q := q, write := true }
  | .vlds vd _ _ q => some { reg := vd, addr := .strided, q := q, write := false }
  | .vsts vd _ _ q => some { reg := vd, addr := .strided, q := q, write := true }
  | .vldx vd _ vb amt q => some { reg := vd, addr := .indexed vb amt.val, q := q, write := false }
  | .vstx vd _ vb amt q => some { reg := vd, addr := .indexed vb amt.val, q := q, write := true }
  | .vldb vd _ q => some { reg := vd, addr := .same, q := q, write := false }
  | .vamoadd vd _ vb amt q => some { reg := vd, addr := .indexed vb amt.val, q := q, write := true }
  | .vldff vd _ q => some { reg := vd, addr := .unit, q := q, write := false }
  | _ => none

/-- Bytes an element's access takes; a cb4 element lies in one byte (R24). -/
def elemBytes (f : Fmt) : Nat := (Fmt.bits f + 7) / 8

/-- The address of element i (R216). -/
def VMem.address (m : VMem) (e : VEntry) (c : Ctx) (f : Fmt) (i : Nat) : Word :=
  match m.addr with
  | .unit => e.sa + BitVec.ofNat 64 (i * Fmt.bits f / 8)
  | .strided => e.sa + BitVec.ofNat 64 i * e.sb
  | .indexed vb amt => e.sa + BitVec.ofNat 64 (elemAt (c.vreg vb) (Fmt.bits f) i * 2 ^ amt)
  | .same => e.sa

/-- The elements an instruction accesses: active and below the count (R207). -/
def VMem.elems (m : VMem) (e : VEntry) (c : Ctx) : List Nat :=
  let f := Qual.fmt m.q e.vtype
  c.activeList m.q f (e.count f)

/-- What a pass over the elements found: the accesses in order up to the first failing element, and that failure. -/
structure Probe where
  acc : List ElemAccess
  fail : Option (Nat × TrapInfo)
  deriving DecidableEq, Repr

/-- How the elements of a vector access are translated (R205): a unit-stride access once per page, an indexed or strided one each
element in its lane's bank. -/
inductive Lanes where
  | pages | banks
  deriving DecidableEq, Repr

def VMem.lanes (m : VMem) : Lanes :=
  match m.addr with
  | .strided => .banks
  | .indexed _ _ => .banks
  | _ => .pages

/-- A page that a unit-stride access has translated: its first address and where that lies (R205). -/
structure PageHit where
  va : Nat
  at_ : Xlat
  deriving DecidableEq, Repr

/-- One element's access (R205, R206), with the page it translated last. -/
def State.probeElem (s : State) (a : Agent) (k : AccessKind) (setD : Bool) (size : Nat) (l : Lanes) (hit : Option PageHit) (i : Nat) (va : Word) :
    Except TrapInfo Xlat × State :=
  match l, hit.filter fun h => h.va == va.toNat / 4096 with
  | .banks, _ => s.access { a with lane := some (i % 16) } va size k setD
  | .pages, none => s.access a va size k setD
  | .pages, some h =>
    let x : Xlat := { h.at_ with place := h.at_.place / 4096 * 4096 + va.toNat % 4096 }
    if va.toNat % size ≠ 0 then (.error { cause := .misaligned, value := va }, s)
    else match s.barred a size k x with
      | some t => (.error { cause := t, value := va }, s)
      | none => (.ok x, s)

/-- R207: the elements checked in index order. -/
def State.probeElems (s : State) (a : Agent) (k : AccessKind) (setD : Bool) (size : Nat) (l : Lanes) (xs : List (Nat × Word)) : Probe × State :=
  let r := xs.foldl (fun (r : (Probe × Option PageHit) × State) x =>
    match r.1.1.fail with
    | some _ => r
    | none =>
      match r.2.probeElem a k setD size l r.1.2 x.1 x.2 with
      | (.ok p, s) =>
        (({ r.1.1 with acc := r.1.1.acc ++ [{ idx := x.1, place := p.place, size := size, cached := p.cached }] },
          if x.2.toNat < 0x7F0000000000 ∨ 2 ^ 47 ≤ x.2.toNat then some { va := x.2.toNat / 4096, at_ := p } else none), s)
      | (.error t, s) => (({ r.1.1 with fail := some (x.1, t) }, none), s)) (({ acc := [], fail := none }, none), s)
  (r.1.1, r.2)

/-- The probe pass of an instruction; D bits are set only once every element has passed (R204, R207). -/
def State.probeMem (s : State) (cx : Nat) (c : Ctx) (e : VEntry) (m : VMem) : Probe × State :=
  let f := Qual.fmt m.q e.vtype
  let xs := (m.elems e c).map fun i => (i, m.address e c f i)
  let a := s.agentOf cx c
  let k : AccessKind := if m.write then .write else .read
  let (p, s) := s.probeElems a k false (elemBytes f) m.lanes xs
  if m.write && p.fail.isNone then s.probeElems a k true (elemBytes f) m.lanes xs else (p, s)

/-! ### Entry (R216, R218) -/

/-- Every format but cb4. -/
def notCb4 (f : Fmt) : Bool := f != .cb4
/-- The formats of VAMOADD (R218). -/
def accVamo (f : Fmt) : Bool := f == .i32 || f == .i64 || f == .f32

/-- A vector memory instruction enters the queue; it waits while its counter is full (R104). -/
def State.vMemEnter (s : State) (ins : Instr) (reads : List SReg) (b : SReg) (q : Qual) (ok : Fmt → Bool) : Out :=
  let n := if isVecStore ins then s.curCtx.cntSt else s.curCtx.cntLd
  if 255 ≤ n then .next s
  else s.vIssue ins reads [] (fun c => c.reg (reads.headD 0)) (fun c => c.reg b) fun c => ok (Qual.fmt q c.vtype)

/-- VLD (R216). -/
def execVld (vd : VReg) (a : SReg) (q : Qual) (s : State) : Out := s.vMemEnter (.vld vd a q) [a] 0 q fun _ => true
/-- VST (R216). -/
def execVst (vd : VReg) (a : SReg) (q : Qual) (s : State) : Out := s.vMemEnter (.vst vd a q) [a] 0 q fun _ => true
/-- VLDS (R216). -/
def execVlds (vd : VReg) (a b : SReg) (q : Qual) (s : State) : Out := s.vMemEnter (.vlds vd a b q) [a, b] b q notCb4
/-- VSTS (R216). -/
def execVsts (vd : VReg) (a b : SReg) (q : Qual) (s : State) : Out := s.vMemEnter (.vsts vd a b q) [a, b] b q notCb4
/-- VLDX (R216). -/
def execVldx (vd : VReg) (a : SReg) (vb : VReg) (amt : Fin 7) (q : Qual) (s : State) : Out :=
  s.vMemEnter (.vldx vd a vb amt q) [a] 0 q notCb4
/-- VSTX (R216). -/
def execVstx (vd : VReg) (a : SReg) (vb : VReg) (amt : Fin 7) (q : Qual) (s : State) : Out :=
  s.vMemEnter (.vstx vd a vb amt q) [a] 0 q notCb4
/-- VLDB (R216). -/
def execVldb (vd : VReg) (a : SReg) (q : Qual) (s : State) : Out := s.vMemEnter (.vldb vd a q) [a] 0 q notCb4
/-- VAMOADD (R216, R218). -/
def execVamoadd (vd : VReg) (a : SReg) (vb : VReg) (amt : Fin 7) (q : Qual) (s : State) : Out :=
  s.vMemEnter (.vamoadd vd a vb amt q) [a] 0 q accVamo
/-- VLDFF (R216, R219). -/
def execVldff (vd : VReg) (a : SReg) (q : Qual) (s : State) : Out := s.vMemEnter (.vldff vd a q) [a] 0 q fun _ => true

/-! ### Completion (R217 to R219) -/

/-- Instructions whose elements or mailboxes are read one by one (R194, R224). -/
def VEntry.reads (e : VEntry) : Bool :=
  isVecLoad e.ins || (match e.ins with
    | .gld _ _ _ => true
    | .gsum _ _ => true
    | .gsumx _ _ => true
    | _ => false)

/-- The accesses still to be read. -/
def VEntry.unread (e : VEntry) : List ElemAccess :=
  if e.reads then e.accesses.filter fun a => !e.got.any fun g => g.1 == a.idx else e.accesses

/-- The element that a load takes from its bytes (R24, R217). -/
def loadElem (f : Fmt) (i v : Nat) : Nat := if f = .cb4 then (if i % 2 = 0 then v % 16 else v / 16) else v

/-- A load writes its elements, given as index and bytes; VLDFF sets VL where it was cut short (R217, R219). -/
def vLoaded (m : VMem) (e : VEntry) (c : Ctx) (got : List (Nat × Nat)) : Ctx :=
  let f := Qual.fmt m.q e.vtype
  let xs := got.map fun g => (g.1, loadElem f g.1 g.2)
  let c := c.setVreg m.reg (putAll (c.vreg m.reg) (Fmt.bits f) xs)
  match e.cut with
  | some n => { c with vl := n }
  | none => c

/-- What a store or VAMOADD does in one element's place (R217, R218). -/
def VMem.storeKind (ins : Instr) (f : Fmt) (i v : Nat) : StoreKind :=
  match ins with
  | .vamoadd _ _ _ _ _ => .add f v
  | _ => if f = .cb4 then .nibble (i % 2 == 1) v else .data (bytesOf v (elemBytes f))

/-- The words of 8 bytes of which the elements of a store write every byte, of cb4 both nibbles; VAMOADD reads what it writes (R428). -/
def VMem.words (ins : Instr) (f : Fmt) (acc : List ElemAccess) : List Nat :=
  let covers (b : Nat) : Bool :=
    if f = .cb4 then (acc.any fun a => a.place == b && a.idx % 2 == 0) && acc.any fun a => a.place == b && a.idx % 2 == 1
    else acc.any fun a => decide (a.place ≤ b) && decide (b < a.place + a.size)
  match ins with
  | .vamoadd _ _ _ _ _ => []
  | _ => ((acc.map fun a => a.place / 8).eraseDups).filter fun w => (List.range 8).all fun i => covers (8 * w + i)

/-- A store hands its elements over, in index order (R217, R225). -/
def vStored (m : VMem) (e : VEntry) (c : Ctx) : Ctx :=
  let f := Qual.fmt m.q e.vtype
  let ws := VMem.words e.ins f e.accesses
  let ps := e.accesses.map fun a =>
    { ord := e.ord, place := a.place, size := a.size
      kind := VMem.storeKind e.ins f a.idx (elemAt (c.vreg m.reg) (Fmt.bits f) a.idx)
      cached := a.cached, release := false, vec := true, words := ws.filter fun w => decide (a.place < 8 * w + 8) && decide (8 * w < a.place + a.size) : PendStore }
  { c with stores := c.stores ++ ps }

end Sys2Proof.Machine
end

