-- ==== Sys2Proof/Machine/VectorQueue.lean ====
section
/-! DEFINITION. The vector queue's two steps: an instruction starts with its probe pass, and completes (R84, R87, R88, R110
to R112, R150, R207, R226). -/

namespace Sys2Proof.Machine
open Sys2Proof

/-! ### Source beats (R111) -/

/-- Elements of a register that an instruction reads: their width, and the index of the register's element 0 for VFAULT. -/
structure Span where
  reg : VReg
  width : Nat
  elems : List Nat
  first : Nat
  deriving DecidableEq, Repr

/-- n elements from element 0 of each of the registers. -/
def spansOf (f : Fmt) (regs : List VReg) (es : List Nat) : List Span :=
  regs.map fun r => { reg := r, width := Fmt.bits f, elems := es, first := 0 }

/-- The active elements below the count, in each of the registers. -/
def VEntry.plainSpans (e : VEntry) (c : Ctx) (q : Qual) (regs : List VReg) : List Span :=
  let f := Qual.fmt q e.vtype
  spansOf f regs (c.activeList q f (e.count f))

/-- Every element below the count, in each of the registers. -/
def VEntry.allSpans (e : VEntry) (q : Qual) (regs : List VReg) : List Span :=
  let f := Qual.fmt q e.vtype
  spansOf f regs (List.range (e.count f))

/-- n elements of a register group from its first register on (R126). -/
def VEntry.groupSpans (e : VEntry) (va : VReg) (f : Fmt) (n : Nat) : List Span :=
  let et := e.vlmax f
  (List.range 8).map fun r =>
    { reg := Fin.ofNat 32 (va.val + r), width := Fmt.bits f, elems := List.range (Nat.min (n - r * et) et), first := r * et }

/-- The scales of a block-scaled instruction, for n elements under group g (R38, R129). -/
def VEntry.scaleSpan (e : VEntry) (vb : VReg) (f : Fmt) (g n : Nat) : Span :=
  { reg := vb, width := 8, elems := (List.range ((n + 3) / 4)).map (g * (e.vlmax f / 4) + ·), first := 0 }

/-- A pair of message registers at order k (R176). -/
def pairSpans (k : Nat) (v : VReg) : List Span :=
  [{ reg := v, width := 64, elems := List.range (k * k), first := 0 },
   { reg := pairHi v, width := 64, elems := List.range k, first := 0 }]

/-- The elements of the active groups of a batch, each of size elements (R146). -/
def VEntry.batchElems (e : VEntry) (c : Ctx) (q : Qual) (size : Nat) : List Nat :=
  (groupsOf q e c).flatMap fun b => (List.range size).map (b * size + ·)

/-- A batch's matrices, and its vectors. -/
def VEntry.matSpans (e : VEntry) (c : Ctx) (q : Qual) (regs : List VReg) : List Span :=
  spansOf .cf32 regs (e.batchElems c q (e.vgrp * e.vgrp))
def VEntry.vecSpans (e : VEntry) (c : Ctx) (q : Qual) (reg : VReg) : List Span := spansOf .cf32 [reg] (e.batchElems c q e.vgrp)

/-- The elements of the active butterflies, from a leg on (R142). -/
def VEntry.bflyElems (e : VEntry) (c : Ctx) (q : Qual) (r leg : Nat) : List Nat :=
  (bflyStarts r q e c).flatMap fun i => ((List.range r).filter (leg ≤ ·)).map fun j => i + j * bflyL e.sa

/-- A butterfly's data and its twiddles, of legs 1 on (R142). -/
def VEntry.bflySpans (e : VEntry) (c : Ctx) (q : Qual) (r : Nat) (va vt : VReg) : List Span :=
  let f := Qual.fmt q e.vtype
  spansOf f [va] (e.bflyElems c q r 0) ++ (if bflyNotw e.sa then [] else spansOf f [vt] (e.bflyElems c q r 1))

/-- The elements in whole blocks of p (R144, R145). -/
def VEntry.blockElems (e : VEntry) (q : Qual) (p : Nat) : List Nat := List.range (e.count (Qual.fmt q e.vtype) / p * p)
/-- The block sizes of VDREV and VTRANS. -/
def drevSize (d : Word) : Nat := (drevRadices d).foldl (· * ·) 1
def transSize (d : Word) : Nat := bitsOf d.toNat 15 0 * bitsOf d.toNat 31 16

/-- The source beats an instruction uses. -/
def VEntry.sources (e : VEntry) (c : Ctx) : List Span :=
  match e.ins with
  | .vadd _ va vb q => e.plainSpans c q [va, vb]
  | .vsub _ va vb q => e.plainSpans c q [va, vb]
  | .vmul _ va vb q => e.plainSpans c q [va, vb]
  | .vmac vd va vb q => e.plainSpans c q [vd, va, vb]
  | .vmin _ va vb q => e.plainSpans c q [va, vb]
  | .vmax _ va vb q => e.plainSpans c q [va, vb]
  | .vminn _ va vb q => e.plainSpans c q [va, vb]
  | .vmaxn _ va vb q => e.plainSpans c q [va, vb]
  | .vand _ va vb q => e.plainSpans c q [va, vb]
  | .vor _ va vb q => e.plainSpans c q [va, vb]
  | .vxor _ va vb q => e.plainSpans c q [va, vb]
  | .vsll _ va vb q => e.plainSpans c q [va, vb]
  | .vsrl _ va vb q => e.plainSpans c q [va, vb]
  | .vsra _ va vb q => e.plainSpans c q [va, vb]
  | .vdiv _ va vb q => e.plainSpans c q [va, vb]
  | .vdivn _ va vb q => e.plainSpans c q [va, vb]
  | .vrem _ va vb q => e.plainSpans c q [va, vb]
  | .vremn _ va vb q => e.plainSpans c q [va, vb]
  | .vadds _ va vb q => e.plainSpans c q [va, vb]
  | .vsubs _ va vb q => e.plainSpans c q [va, vb]
  | .vmulhq _ va vb q => e.plainSpans c q [va, vb]
  | .vabs _ va q => e.plainSpans c q [va]
  | .vneg _ va q => e.plainSpans c q [va]
  | .vrcp _ va q => e.plainSpans c q [va]
  | .vrsqrt _ va q => e.plainSpans c q [va]
  | .vexp2 _ va q => e.plainSpans c q [va]
  | .vlog2 _ va q => e.plainSpans c q [va]
  | .vsqrt _ va q => e.plainSpans c q [va]
  | .vclass _ va q => e.plainSpans c q [va]
  | .vscale _ va vb q => e.plainSpans c q [va, vb]
  | .vceq _ va vb q => e.plainSpans c q [va, vb]
  | .vcne _ va vb q => e.plainSpans c q [va, vb]
  | .vclt _ va vb q => e.plainSpans c q [va, vb]
  | .vcle _ va vb q => e.plainSpans c q [va, vb]
  | .vcltn _ va vb q => e.plainSpans c q [va, vb]
  | .vclen _ va vb q => e.plainSpans c q [va, vb]
  | .vceqi _ va _ q => e.plainSpans c q [va]
  | .vclti _ va _ q => e.plainSpans c q [va]
  | .vmv _ va q => e.plainSpans c q [va]
  | .vslideup _ va _ q =>
    let f := Qual.fmt q e.vtype
    spansOf f [va] (List.range (e.count f - e.sa.toNat))
  | .vcompress _ va q => e.plainSpans c q [va]
  | .vexpand _ va q =>
    let f := Qual.fmt q e.vtype
    spansOf f [va] (List.range (c.activeList q f (e.count f)).length)
  | .vmerge _ va vb q => e.allSpans q [va, vb]
  | .vredsum _ va q => e.plainSpans c q [va]
  | .vredmax _ va q => e.plainSpans c q [va]
  | .vredmin _ va q => e.plainSpans c q [va]
  | .vcvt _ va _ q => e.plainSpans c q [va]
  | .vcblk _ va _ q => e.plainSpans c q [va]
  | .vwidenlo _ va _ q =>
    let f := Qual.fmt q e.vtype
    spansOf f [va] (List.range (Nat.min (e.count f) (e.vlmax f / 2)))
  | .vnarrow _ va vb _ q => e.allSpans q [va, vb]
  | .vcadd _ va vb q => e.plainSpans c q [va, vb]
  | .vcsub _ va vb q => e.plainSpans c q [va, vb]
  | .vcmul _ va vb q => e.plainSpans c q [va, vb]
  | .vcmulj _ va vb q => e.plainSpans c q [va, vb]
  | .vcmac vd va vb q => e.plainSpans c q [vd, va, vb]
  | .vcmacj vd va vb q => e.plainSpans c q [vd, va, vb]
  | .vconj _ va q => e.plainSpans c q [va]
  | .vcrot _ va _ q => e.plainSpans c q [va]
  | .vcabs2 _ va q => e.plainSpans c q [va]
  | .vcscale _ va vb q => e.plainSpans c q [va, vb]
  | .vcdot _ va vb q => e.plainSpans c q [va, vb]
  | .vcreal _ va q => e.plainSpans c q [va]
  | .vcswap _ va q => e.plainSpans c q [va]
  | .vcmag _ va q => e.plainSpans c q [va]
  | .vcmacs vd va vb q => e.plainSpans c q [vd, va, vb]
  | .vbfly2 _ va _ vt q => e.bflySpans c q 2 va vt
  | .vbfly3 _ va _ vt q => e.bflySpans c q 3 va vt
  | .vbfly4 _ va _ vt q => e.bflySpans c q 4 va vt
  | .vbfly5 _ va _ vt q => e.bflySpans c q 5 va vt
  | .vdrev _ va _ q => spansOf (Qual.fmt q e.vtype) [va] (e.blockElems q (drevSize e.sa))
  | .vtrans _ va _ q => spansOf (Qual.fmt q e.vtype) [va] (e.blockElems q (transSize e.sa))
  | .vmgmul _ va vb q => e.matSpans c q [va, vb]
  | .vmgmulh _ va vb q => e.matSpans c q [va, vb]
  | .vmgmv _ va vb q => e.matSpans c q [va] ++ e.vecSpans c q vb
  | .vhchol _ va q => e.matSpans c q [va]
  | .vhinv _ va q => e.matSpans c q [va]
  | .vschur _ va _ q => e.matSpans c q [va]
  | .vschurv _ va vb _ q => e.matSpans c q [va] ++ e.vecSpans c q vb
  | .vhsolve _ va vb q => e.matSpans c q [va] ++ e.vecSpans c q vb
  | .vmgtr _ va q => e.matSpans c q [va]
  | .vhreg _ va _ q => e.matSpans c q [va]
  | .vqscale _ va _ sf q => e.groupSpans va sf (e.count (Qual.fmt q e.vtype))
  | .vquant vd va vb sf q =>
    let tf := Qual.fmt q e.vtype
    e.groupSpans va sf (e.count tf) ++ [e.scaleSpan vb tf (vd.val % scaleGroup tf) (e.count tf)]
  | .vdeq _ va vb _ q =>
    let qf := Qual.fmt q e.vtype
    e.plainSpans c q [va] ++ [e.scaleSpan vb qf (va.val % scaleGroup qf) (e.count qf)]
  | .vext _ va _ fo =>
    let f := fo.getD e.vtype
    spansOf f [va] (if e.sa.toNat < e.count f then [e.sa.toNat] else [])
  | .vperm _ va vb q =>
    let f := Qual.fmt q e.vtype
    let js := (c.activeList q f (e.count f)).map fun i => elemAt (c.vreg vb) (Fmt.bits f) i
    spansOf f [va] (js.filter (· < e.vlmax f)) ++ e.plainSpans c q [vb]
  | .vslidedn _ va _ q =>
    let f := Qual.fmt q e.vtype
    let k := Nat.min e.sa.toNat (e.vlmax f)
    spansOf f [va] ((List.range (Nat.min (e.count f) (e.vlmax f - k))).map (k + ·))
  | .vwidenhi _ va _ q =>
    let f := Qual.fmt q e.vtype
    let h := e.vlmax f / 2
    spansOf f [va] ((List.range (e.count f - h)).map (h + ·))
  | .vmovtoz _ va _ q =>
    let f := Qual.fmt q e.vtype
    spansOf f [va] ((List.range (e.count f)).filter fun i => decide (e.sa.toNat + i ≤ 4095))
  | .vst vd _ q => e.plainSpans c q [vd]
  | .vsts vd _ _ q => e.plainSpans c q [vd]
  | .vldx _ _ vb _ q => e.plainSpans c q [vb]
  | .vstx vd _ vb _ q => e.plainSpans c q [vd, vb]
  | .vamoadd vd _ vb _ q => e.plainSpans c q [vd, vb]
  | .gsend _ vp _ => pairSpans e.vgrp vp
  | .gsendc _ vp _ => pairSpans e.vgrp vp
  | .gsum vp _ => pairSpans e.vgrp vp
  | .gsumx vp _ => pairSpans e.vgrp vp
  | .gdamp vp vq _ => pairSpans e.vgrp vp ++ pairSpans e.vgrp vq
  | .gmarg _ vq _ => pairSpans e.vgrp vq
  | .gembed _ vq _ => pairSpans (kept e.vgrp e.sb).length vq
  | .gmean _ vq => pairSpans e.vgrp vq
  | _ => []

/-- The lowest element index of a failing beat that holds an element read, with the beat's error (R111, R389). -/
def Ctx.spanError (c : Ctx) (x : Span) : Option (Nat × BadReg) :=
  (List.range 16).findSome? fun b =>
    if x.elems.any fun i => i * x.width / 256 == b then (c.vecEcc.find? (16 * x.reg.val + b)).map fun m => (x.first + 256 * b / x.width, m)
    else none

/-- The one of two optional errors with the smaller index. -/
def minIdx (a b : Option (Nat × BadReg)) : Option (Nat × BadReg) :=
  match a, b with
  | some x, some y => some (if y.1 < x.1 then y else x)
  | none, b => b
  | a, none => a

/-- The lowest element index in a failing source beat (R111). -/
def VEntry.sourceError (e : VEntry) (c : Ctx) : Option (Nat × BadReg) :=
  if c.vecEcc.isEmpty then none else (e.sources c).foldl (fun a x => minIdx a (c.spanError x)) none

/-! ### Destination beats (R428) -/

/-- Elements written in place: those active and below the count, as register, first bit and width. -/
def VEntry.plainWrites (e : VEntry) (c : Ctx) (q : Qual) (vd : VReg) : List (VReg × Nat × Nat) :=
  let f := Qual.fmt q e.vtype
  (c.activeList q f (e.count f)).map fun i => (vd, i * Fmt.bits f, Fmt.bits f)

/-- Elements of a width written at indices of a register. -/
def writesAt (vd : VReg) (w : Nat) (is : List Nat) : List (VReg × Nat × Nat) := is.map fun i => (vd, i * w, w)

/-- Elements written at indices of a register group. -/
def groupWrites (vd : VReg) (f : Fmt) (et : Nat) (is : List Nat) : List (VReg × Nat × Nat) :=
  is.map fun i => (Fin.ofNat 32 (vd.val + i / et), i % et * Fmt.bits f, Fmt.bits f)

/-- The groups of a batched instruction, each of size elements. -/
def VEntry.batchWrites (e : VEntry) (c : Ctx) (q : Qual) (vd : VReg) (size : Nat) : List (VReg × Nat × Nat) :=
  writesAt vd 64 (e.batchElems c q size)

/-- The active elements in whole blocks of p, and the elements of active butterflies. -/
def VEntry.blockWrites (e : VEntry) (c : Ctx) (q : Qual) (vd : VReg) (p : Nat) : List (VReg × Nat × Nat) :=
  let f := Qual.fmt q e.vtype
  writesAt vd (Fmt.bits f) (c.activeList q f (e.blockElems q p).length)
def VEntry.bflyWrites (e : VEntry) (c : Ctx) (q : Qual) (vd : VReg) (r : Nat) : List (VReg × Nat × Nat) :=
  writesAt vd (Fmt.bits (Qual.fmt q e.vtype)) (e.bflyElems c q r 0)

/-- The elements a vector instruction has written into vector registers. -/
def VEntry.writes (e : VEntry) (c : Ctx) : List (VReg × Nat × Nat) :=
  let k := e.vgrp
  let pair (v : VReg) : List (VReg × Nat × Nat) := writesAt v 64 (List.range (k * k)) ++ writesAt (pairHi v) 64 (List.range k)
  match e.ins with
  | .vadd vd _ _ q => e.plainWrites c q vd
  | .vsub vd _ _ q => e.plainWrites c q vd
  | .vmul vd _ _ q => e.plainWrites c q vd
  | .vmac vd _ _ q => e.plainWrites c q vd
  | .vmin vd _ _ q => e.plainWrites c q vd
  | .vmax vd _ _ q => e.plainWrites c q vd
  | .vminn vd _ _ q => e.plainWrites c q vd
  | .vmaxn vd _ _ q => e.plainWrites c q vd
  | .vand vd _ _ q => e.plainWrites c q vd
  | .vor vd _ _ q => e.plainWrites c q vd
  | .vxor vd _ _ q => e.plainWrites c q vd
  | .vsll vd _ _ q => e.plainWrites c q vd
  | .vsrl vd _ _ q => e.plainWrites c q vd
  | .vsra vd _ _ q => e.plainWrites c q vd
  | .vdiv vd _ _ q => e.plainWrites c q vd
  | .vdivn vd _ _ q => e.plainWrites c q vd
  | .vrem vd _ _ q => e.plainWrites c q vd
  | .vremn vd _ _ q => e.plainWrites c q vd
  | .vadds vd _ _ q => e.plainWrites c q vd
  | .vsubs vd _ _ q => e.plainWrites c q vd
  | .vmulhq vd _ _ q => e.plainWrites c q vd
  | .vabs vd _ q => e.plainWrites c q vd
  | .vneg vd _ q => e.plainWrites c q vd
  | .vrcp vd _ q => e.plainWrites c q vd
  | .vrsqrt vd _ q => e.plainWrites c q vd
  | .vexp2 vd _ q => e.plainWrites c q vd
  | .vlog2 vd _ q => e.plainWrites c q vd
  | .vsqrt vd _ q => e.plainWrites c q vd
  | .vclass vd _ q => e.plainWrites c q vd
  | .vscale vd _ _ q => e.plainWrites c q vd
  | .vmv vd _ q => e.plainWrites c q vd
  | .vsplat vd _ q => e.plainWrites c q vd
  | .vslideup vd _ _ q =>
    let f := Qual.fmt q e.vtype
    writesAt vd (Fmt.bits f) ((c.activeList q f (e.count f)).filter fun i => e.sa.toNat ≤ i)
  | .vslidedn vd _ _ q => e.plainWrites c q vd
  | .vperm vd _ _ q => e.plainWrites c q vd
  | .vexpand vd _ q => e.plainWrites c q vd
  | .viota vd q => e.plainWrites c q vd
  | .vid vd q => e.plainWrites c q vd
  | .vquant vd _ _ _ q => e.plainWrites c q vd
  | .vcadd vd _ _ q => e.plainWrites c q vd
  | .vcsub vd _ _ q => e.plainWrites c q vd
  | .vcmul vd _ _ q => e.plainWrites c q vd
  | .vcmulj vd _ _ q => e.plainWrites c q vd
  | .vcmac vd _ _ q => e.plainWrites c q vd
  | .vcmacj vd _ _ q => e.plainWrites c q vd
  | .vconj vd _ q => e.plainWrites c q vd
  | .vcrot vd _ _ q => e.plainWrites c q vd
  | .vcabs2 vd _ q => e.plainWrites c q vd
  | .vcscale vd _ _ q => e.plainWrites c q vd
  | .vcreal vd _ q => e.plainWrites c q vd
  | .vcswap vd _ q => e.plainWrites c q vd
  | .vcmag vd _ q => e.plainWrites c q vd
  | .vcmacs vd _ _ q => e.plainWrites c q vd
  | .vbfly2 vd _ _ _ q => e.bflyWrites c q vd 2
  | .vbfly3 vd _ _ _ q => e.bflyWrites c q vd 3
  | .vbfly4 vd _ _ _ q => e.bflyWrites c q vd 4
  | .vbfly5 vd _ _ _ q => e.bflyWrites c q vd 5
  | .vtwid vd _ _ q => e.plainWrites c q vd
  | .vdrev vd _ _ q => e.blockWrites c q vd (drevSize e.sa)
  | .vtrans vd _ _ q => e.blockWrites c q vd (transSize e.sa)
  | .vcompress vd _ q =>
    let f := Qual.fmt q e.vtype
    writesAt vd (Fmt.bits f) (List.range (c.activeList q f (e.count f)).length)
  | .vmerge vd _ _ q => e.plainWrites c { q with mask := none } vd
  | .vcvt vd _ tf q =>
    let sf := Qual.fmt q e.vtype
    groupWrites vd tf (if Fmt.bits sf < Fmt.bits tf then e.vlmax tf else 4096) (c.activeList q sf (e.count sf))
  | .vdeq vd _ _ tf q => groupWrites vd tf (e.vlmax tf) (c.activeList q (Qual.fmt q e.vtype) (e.count (Qual.fmt q e.vtype)))
  | .vcblk vd _ _ q => groupWrites vd .bf16 (e.vlmax .bf16) (c.activeList q .cb4 (e.count .cb4))
  | .vqscale vd _ g _ q =>
    let tf := Qual.fmt q e.vtype
    writesAt vd 8 ((List.range ((e.count tf + 3) / 4)).map (g.val * (e.vlmax tf / 4) + ·))
  | .vnarrow vd _ _ tf q =>
    let wide := Qual.fmt q e.vtype
    let n := e.count wide
    writesAt vd (Fmt.bits tf) ((List.range n ++ (List.range n).map (e.vlmax wide + ·)).filter (c.active q wide))
  | .vwidenlo vd _ _ q =>
    let sf := Qual.fmt q e.vtype
    writesAt vd (2 * Fmt.bits sf) (c.activeList q sf (Nat.min (e.count sf) (e.vlmax sf / 2)))
  | .vwidenhi vd _ _ q =>
    let sf := Qual.fmt q e.vtype
    writesAt vd (2 * Fmt.bits sf) (c.activeList q sf (e.count sf - e.vlmax sf / 2))
  | .vhchol vd _ q => e.batchWrites c q vd (k * k)
  | .vhinv vd _ q => e.batchWrites c q vd (k * k)
  | .vschur vd _ _ q => e.batchWrites c q vd (k * k)
  | .vschurv vd _ _ _ q => e.batchWrites c q vd k
  | .vhsolve vd _ _ q => e.batchWrites c q vd k
  | .vmgmul vd _ _ q => e.batchWrites c q vd (k * k)
  | .vmgmulh vd _ _ q => e.batchWrites c q vd (k * k)
  | .vmgmv vd _ _ q => e.batchWrites c q vd k
  | .vmgtr vd _ q => e.batchWrites c q vd (k * k)
  | .vhreg vd _ _ q => e.batchWrites c q vd (k * k)
  | .vmovz vd _ _ q => writesAt vd (Fmt.bits (Qual.fmt q e.vtype)) (moveElems q e c)
  | .vld vd _ q => writesAt vd (Fmt.bits (Qual.fmt q e.vtype)) (e.accesses.map (·.idx))
  | .vlds vd _ _ q => writesAt vd (Fmt.bits (Qual.fmt q e.vtype)) (e.accesses.map (·.idx))
  | .vldx vd _ _ _ q => writesAt vd (Fmt.bits (Qual.fmt q e.vtype)) (e.accesses.map (·.idx))
  | .vldb vd _ q => writesAt vd (Fmt.bits (Qual.fmt q e.vtype)) (e.accesses.map (·.idx))
  | .vldff vd _ q => writesAt vd (Fmt.bits (Qual.fmt q e.vtype)) (e.accesses.map (·.idx))
  | .gld vp _ _ => pair vp
  | .gsum vp _ => pair vp
  | .gsumx vp _ => pair vp
  | .gdamp vp _ _ => pair vp
  | .gmarg vp _ _ => pair vp
  | .gembed vp _ _ => pair vp
  | .gmean vp _ => pair vp
  | _ => []

/-- R428: the beats whose every bit was written lose their error. -/
def Ctx.clearBeats (c : Ctx) (ws : List (VReg × Nat × Nat)) : Ctx :=
  if c.vecEcc.isEmpty then c
  else { c with vecEcc := c.vecEcc.filter fun b =>
    (ws.filter fun w => 16 * w.1.val + w.2.1 / 256 == b.1).foldl (fun n w => n + w.2.2) 0 != 256 }

/-- R389: the beats of a load's destination that took data poisoned by a lost link. -/
def Ctx.poisonBeats (c : Ctx) (e : VEntry) : Ctx :=
  match vmemOf e.ins with
  | none => c
  | some m => e.lost.foldl (fun (c : Ctx) x =>
      { c with vecEcc := c.vecEcc.insert (16 * m.reg.val + x.1 * Fmt.bits (Qual.fmt m.q e.vtype) / 256) { link := true, addr := x.2 } }) c

/-! ### VECTOR_START -/

/-- The vector registers an instruction may write, whatever its mask. -/
def VEntry.dests (e : VEntry) (c : Ctx) : List VReg :=
  let masked (v : BitVec 512) : Ctx := { c with mregs := (List.range 16).foldl (fun m i => m.set 0 i v) c.mregs }
  ((e.writes (masked (BitVec.allOnes 512)) ++ e.writes (masked 0)).map (·.1)).eraseDups

/-- The mask register an instruction writes (R120, R121). -/
def maskDst : Instr → Option MReg
  | .vceq m _ _ _ => some m
  | .vcne m _ _ _ => some m
  | .vclt m _ _ _ => some m
  | .vcle m _ _ _ => some m
  | .vcltn m _ _ _ => some m
  | .vclen m _ _ _ => some m
  | .vceqi m _ _ _ => some m
  | .vclti m _ _ _ => some m
  | .mand m _ _ => some m
  | .mor m _ _ => some m
  | .mxor m _ _ => some m
  | .mnot m _ => some m
  | _ => none

/-- Instructions that start only at the head of the queue: those on the Schur unit and those of page 0x48 that compute as they start
(R110, R151, R184, R191). -/
def startsAtHead (i : Instr) : Bool :=
  match i with
  | .vhchol _ _ _ => true
  | .vhinv _ _ _ => true
  | .vschur _ _ _ _ => true
  | .vschurv _ _ _ _ _ => true
  | .vhsolve _ _ _ _ => true
  | .gsend _ _ _ => true
  | .gsendc _ _ _ => true
  | .gdamp _ _ _ => true
  | .gmarg _ _ _ => true
  | .gembed _ _ _ => true
  | .gmean _ _ => true
  | _ => false

/-- The mask and the index register that choose the elements of a memory access or of VMOVZ: the probe pass reads them (R165, R207). -/
def startReads (i : Instr) : Option MReg × Option VReg :=
  match i with
  | .vmovz _ _ _ q => (q.mask.map (·.1), none)
  | i => match vmemOf i with
    | some m => (m.q.mask.map (·.1), match m.addr with
      | .indexed vb _ => some vb
      | _ => none)
    | none => (none, none)

/-- An older instruction of the queue has still to write what an instruction's probe pass reads. -/
def Ctx.startWaits (c : Ctx) (e : VEntry) : Bool :=
  let r := startReads e.ins
  c.vq.any fun x => x.ord < e.ord && ((r.1.isSome && maskDst x.ins == r.1) || r.2.any fun v => (x.dests c).contains v)

/-- Instructions that may read a codebook (R26). -/
def readsBook : Instr → Bool
  | .vcvt _ _ _ _ => true
  | .vqscale _ _ _ _ _ => true
  | .vquant _ _ _ _ _ => true
  | .vdeq _ _ _ _ _ => true
  | .vcblk _ _ _ _ => true
  | _ => false

/-- Whether a command loads a codebook. -/
def MxOp.isBook : MxOp → Bool
  | .ldcb _ _ => true
  | _ => false

/-- The instructions of the Schur unit (R151, R191). -/
def onSchur (i : Instr) : Bool :=
  match i with
  | .vhchol _ _ _ => true
  | .vhinv _ _ _ => true
  | .vschur _ _ _ _ => true
  | .vschurv _ _ _ _ _ => true
  | .vhsolve _ _ _ _ => true
  | .gmarg _ _ _ => true
  | .gmean _ _ => true
  | _ => false

/-- R151: another context of the core has the Schur unit. -/
def State.schurTaken (s : State) (cx : Nat) : Bool :=
  (List.range 4).any fun i => coreOf cx * 4 + i != cx && (s.ctx (coreOf cx * 4 + i)).vq.any fun x => x.started && onSchur x.ins

/-- An older VMOVTOZ of the context to a tile has not completed (R166). -/
def Ctx.tileMoving (c : Ctx) (o z : Nat) : Bool :=
  c.vq.any fun x => x.ord < o && (match x.ins with
    | .vmovtoz t _ _ _ => t.val == z
    | _ => false)

/-- What keeps the oldest unstarted instruction from starting (R26, R110, R151, R166, R229, R233). -/
def State.vHeld (s : State) (cx : Nat) (c : Ctx) (e : VEntry) : Bool :=
  let mx := s.mxOf cx c
  (onSchur e.ins && s.schurTaken cx) ||
  ((startsAtHead e.ins || !c.vecEcc.isEmpty) && c.vq.any (fun x => x.ord < e.ord)) || c.startWaits e ||
  (isClassV e.ins && (s.fenced cx c e.ord 1 || c.olderAcquire e.ord)) ||
  (match e.ins with
   | .gsend _ _ _ => s.fenced cx c e.ord 3 || c.olderAcquire e.ord
   | .gsendc _ _ _ => s.fenced cx c e.ord 3 || c.olderAcquire e.ord
   | .vmovz _ z _ _ => !(mx.map (·.moveDue e.ord z.val)).getD false || c.tileMoving e.ord z.val
   | .vmovtoz z _ _ _ => !(mx.map (·.moveDue e.ord z.val)).getD false
   | i => readsBook i && (match mx with
     | some m => m.queue.any fun q => q.ord < e.ord && q.op.isBook
     | none => false))

/-- How a probe pass fails: the element index for VFAULT, the trap, and the bits for SGMASK (R88, R150). -/
structure VFail where
  idx : Nat
  trap : TrapInfo
  sg : Word
  deriving DecidableEq, Repr

/-- A failure that marks no group. -/
def VFail.plain (idx : Nat) (cause : Cause) (v : Word) : VFail := { idx := idx, trap := { cause := cause, value := v }, sg := 0 }

/-- The accesses an entry has found, with where a load is cut short, or its failure; wait asks for another try later. -/
inductive ProbeResult where
  | wait
  | fail (f : VFail)
  | pass (acc : List ElemAccess) (cut : Option Nat) (sends : Bool)
  deriving DecidableEq, Repr

/-- R207, R225, R428: a read's data with an uncorrectable error, by VFAULT of the access; it waits while an older access of the context
may still write the word.  No rule names a TVAL, which is then 0 (R322). -/
def State.probeData (s : State) (cx : Nat) (c : Ctx) (e : VEntry) (vfault : ElemAccess → Nat) (acc : List ElemAccess) (cut : Option Nat) :
    ProbeResult :=
  match acc.find? fun a => s.eccAt a.place a.size with
  | none => .pass acc cut false
  | some a =>
    if c.olderStore e.ord a.place a.size || c.olderVec e.ord a.place a.size || s.mxBlocks cx c e.ord a.place a.size then .wait
    else .fail (.plain (vfault a) .eccUncorrectable 0)

/-- The probe pass of a vector memory instruction (R207, R219). -/
def State.probeVMem (s : State) (cx : Nat) (c : Ctx) (e : VEntry) (m : VMem) : ProbeResult × State :=
  let (p, s) := s.probeMem cx c e m
  match p.fail with
  | none => (if m.write then .pass p.acc none false else s.probeData cx c e (·.idx) p.acc none, s)
  | some (i, t) =>
    let ff := match e.ins with
      | .vldff _ _ _ => true
      | _ => false
    (if ff && i != 0 then s.probeData cx c e (·.idx) p.acc (some i) else .fail { idx := i, trap := t, sg := 0 }, s)

/-- The shadow's access, when the instruction names one (R184): its place and the offset of its failing byte. -/
def State.shadowProbe (s : State) (cx : Nat) (c : Ctx) (v : Word) : Except Word (List ElemAccess) :=
  if v = 0 then .ok []
  else
    let o := v.toNat - 0x7F0000000000
    let r := s.coreRegion (coreOf cx) (s.tenantOf c)
    if o + 192 ≤ r.2 then .ok [{ idx := 0, place := corePlace (coreOf cx) (r.1 + o), size := 192, cached := none }]
    else .error (BitVec.ofNat 64 (0x7F0000000000 + max o r.2))

/-- Whether the accesses may be performed: nothing older of the context to the same bytes remains that a read cannot see
through (R225, R172). -/
def State.accessDue (s : State) (cx : Nat) (c : Ctx) (o : Nat) (write : Bool) (acc : List ElemAccess) : Bool :=
  acc.all fun a =>
    !c.olderLoad o a.place a.size && !s.mxBlocks cx c o a.place a.size &&
    !(c.stores.any fun p => p.ord < o && overlaps p.place p.size a.place a.size && (write || !p.forwards))

/-- A mailbox or shadow as the context reads it. -/
def State.ownMail (s : State) (c : Ctx) (o place : Nat) : Mail := Mail.of fun off n => s.ownBytes c o none (place + off) n

/-- The probe pass of GSEND and GSENDC, with the decision to send (R184).  A shadow register that holds 0 names no shadow, though
only s0 is said to: there is then no residual test and no shadow is written (notes/assumptions/88.md). -/
def State.probeSend (s : State) (cx : Nat) (c : Ctx) (e : VEntry) (vp : VReg) (cond : Bool) : ProbeResult :=
  match s.shadowProbe cx c e.sb with
  | .error v => .fail (.plain 0 .windowBounds v)
  | .ok acc =>
    if !s.accessDue cx c e.ord false acc then .wait
    else if cond && acc.any (fun a => s.ownEcc c e.ord a.place a.size) then .fail (.plain 0 .eccUncorrectable 0)
    else
      match acc.head? with
      | some a =>
        let b := s.ownMail c e.ord a.place
        let k := e.vgrp
        let skip := cond && b.valid && b.order == k &&
          residualSettled (decodeF .f32 c.gtau.toNat)
            (parts (hermBits k (c.elems64 vp (k * k))) (hermBits k b.lam) ++ parts (c.elems64 (pairHi vp) k) (b.eta.take k))
        .pass acc none (!skip)
      | none => .pass [] none true

/-- The accesses of mailboxes by index. -/
def State.mailAccesses (s : State) (cx : Nat) (c : Ctx) (is : List Nat) : List ElemAccess :=
  is.map fun i => { idx := i, place := s.mailbox (coreOf cx) (s.tenantOf c) i, size := 192, cached := none }

/-- COUNT of the context's table. -/
def State.mailCount (s : State) (cx : Nat) (c : Ctx) : Nat := mbCount ((s.core (coreOf cx)).mbtab.get 0 (s.tenantOf c))

/-- Mailboxes to be read; an uncorrectable error in one leaves VFAULT 0, as the bounds check does (R186, R187, R428). -/
def State.probeMail (s : State) (cx : Nat) (c : Ctx) (e : VEntry) (is : List Nat) : ProbeResult :=
  s.probeData cx c e (fun _ => 0) (s.mailAccesses cx c is) none

/-- The pivot check of the Schur unit (R50, R150, R191). -/
def VEntry.pivotFail (e : VEntry) (c : Ctx) : Option VFail :=
  if e.pivmode then none
  else
    match schurResults e c with
    | some (_, size, rs) =>
      (rs.find? fun r => r.2.bad).map fun r =>
        { idx := r.1 * size, trap := { cause := .singularBlock, value := badBits rs }, sg := badBits rs }
    | none =>
      (gaussRegs e c).bind fun r =>
        if r.2.bad then some { idx := 0, trap := { cause := .singularBlock, value := 1 }, sg := 1 } else none

/-- R165: the first element a VMOVZ would read from a poisoned word. -/
def MatrixUnit.moveError (m : MatrixUnit) (z : Nat) (q : Qual) (e : VEntry) (c : Ctx) : Option Nat :=
  (moveElems q e c).find? fun i => m.poisoned z (e.sa.toNat + i)

/-- An instruction's own probe pass (R111, R150, R165, R184, R186, R187, R207). -/
def State.probeOwn (s : State) (cx : Nat) (c : Ctx) (e : VEntry) : ProbeResult × State :=
  match e.ins with
  | .gsend _ vp _ => (s.probeSend cx c e vp false, s)
  | .gsendc _ vp _ => (s.probeSend cx c e vp true, s)
  | .gld _ _ _ =>
    (if e.sa.toNat < s.mailCount cx c then s.probeMail cx c e [e.sa.toNat] else .fail (.plain 0 .windowBounds e.sa), s)
  | .gsum _ _ =>
    (if rangeFirst e.sa + rangeCnt e.sa ≤ s.mailCount cx c then s.probeMail cx c e (rangeIdx false e.sa) else .fail (.plain 0 .windowBounds e.sa), s)
  | .gsumx _ _ =>
    (if rangeFirst e.sa + rangeCnt e.sa ≤ s.mailCount cx c then s.probeMail cx c e (rangeIdx true e.sa) else .fail (.plain 0 .windowBounds e.sa), s)
  | .vmovz _ z _ q =>
    (match (s.mxOf cx c).bind fun m => m.moveError z.val q e c with
     | some i => .fail (.plain i .eccUncorrectable 0)
     | none => .pass [] none false, s)
  | i =>
    match vmemOf i with
    | some m => s.probeVMem cx c e m
    | none =>
      (match e.pivotFail c with
       | some f => .fail f
       | none => .pass [] none false, s)

/-- The source beats first, unless a lower element fails on its own (R111, R207). -/
def State.probe (s : State) (cx : Nat) (c : Ctx) (e : VEntry) : ProbeResult × State :=
  match e.sourceError c with
  | none => s.probeOwn cx c e
  | some (i, b) =>
    let err : ProbeResult := .fail (if b.link then .plain i .linkPoison b.addr else .plain i .eccUncorrectable 0)
    match vmemOf e.ins with
    | none => (err, s)
    | some _ =>
      let (r, s') := s.probeOwn cx c e
      match r with
      | .fail f => if f.idx < i then (r, s') else (err, s)
      | _ => (err, s)

/-- A fault of the probe pass (R88): the instruction, which has started and so retires (R103), and all younger are discarded, and the
trap is taken at it. -/
def State.vFault (s : State) (cx : Nat) (e : VEntry) (f : VFail) : State :=
  let s := s.modCtx cx fun c =>
    let c := c.squash
    { c with instret := c.instret + 1, vfault := BitVec.ofNat 16 f.idx, sgmask := c.sgmask ||| f.sg }
  s.takeTrap cx f.trap e.pc

/-- R226: the context goes back to a scalar load that ran ahead. -/
def Ctx.rollback (c : Ctx) (l : AheadLoad) : Ctx :=
  let c := (c.undo.filter fun u => l.ord ≤ u.ord).reverse.foldl Ctx.undoOne c
  let vq := c.vq.filter fun e => e.ord < l.ord
  let guess := c.guess.filter fun g => g.ord < l.ord
  let vq := match vq.getLast? with
    | some e => vq.dropLast ++ [{ e with after := (guess.map (·.ord)).getD l.ord - e.ord - 1 }]
    | none => vq
  { c with
    pc := l.pc, ord := l.ord, vq := vq, status := .running, guess := guess
    undo := c.undo.filter fun u => u.ord < l.ord
    loads := c.loads.filter fun x => x.ord < l.ord
    ahead := c.ahead.filter fun a => a.ord < l.ord }

/-- R226: the oldest run-ahead load that an access overlaps. -/
def Ctx.aheadHit (c : Ctx) (o : Nat) (acc : List ElemAccess) : Option AheadLoad :=
  c.ahead.find? fun l => decide (o < l.ord) && acc.any fun a => overlaps a.place a.size l.place l.size

/-- The entry with an order number replaced. -/
def Ctx.setEntry (c : Ctx) (e : VEntry) : Ctx := { c with vq := c.vq.map fun x => if x.ord = e.ord then e else x }

/-- A GSENDC, which counts in CNTEN from its start on (R104, R184). -/
def VEntry.isProbedSend (e : VEntry) : Bool :=
  match e.ins with
  | .gsendc _ _ _ => true
  | _ => false

/-- VECTOR_START (R84, R103, R111): the oldest unstarted instruction of a context's queue runs its probe pass. -/
def execVectorStart (cx : Nat) (s : State) : Out :=
  let c := s.ctx cx
  match c.vq.find? fun e => !e.started with
  | none => .next s
  | some e =>
    if s.vHeld cx c e then .next s
    else
      match s.probe cx c e with
      | (.wait, _) => .next s
      | (.fail f, s') => if s.trapHeld cx c.squash then .next s else .next (s'.vFault cx e f)
      | (.pass acc cut sends, s') => if sends && e.isProbedSend && decide (255 ≤ c.cntEn) then .next s else .next (s'.modCtx cx fun c =>
          let c := match c.aheadHit e.ord acc with
            | some l => c.rollback l
            | none => c
          let after := ((c.vq.find? fun x => x.ord == e.ord).map (·.after)).getD 0
          let c := c.setEntry { e with started := true, accesses := acc, cut := cut, sends := sends, after := 0 }
          { c with instret := c.instret + BitVec.ofNat 64 (1 + after) }.freeUndo)

/-! ### VECTOR_COMPLETE -/

/-- GSEND and GSENDC put the message on GMSG, or skip it (R184, R195). -/
def State.sendMail (s : State) (cx : Nat) (c : Ctx) (e : VEntry) (vp : VReg) : State :=
  if !e.sends then s.modCtx cx fun c => { c with skipped := c.skipped + 1 }
  else
    match s.jobOf c, c.job with
    | some j, some h =>
      let k := e.vgrp
      let lam := hermBits k (c.elems64 vp (k * k))
      let eta := c.elems64 (pairHi vp) k
      let core := coreOf cx
      let g := s.namedGroup j.group j.tenant
      let m : GaussMsg := { order := k, lam := lam, eta := eta, tenant := j.tenant, group := if e.sa.toNat % 256 < 96 then g else 0xFF, deadline := j.deadline
                            src := core, core := e.sa.toNat % 256, index := bitsOf e.sa.toNat 17 8 }
      let from_ : Sender := { job := h, ord := e.ord }
      let op : PendOp := { ord := e.ord, cls := .en, dst := 0, outbox := false }
      let s : State := { s with gmsg := s.gmsg ++ [(m, some from_)] }
      let s := s.modCtx cx fun c => { c with sent := c.sent + 1, ops := c.ops ++ [op] }
      let s := s.countSent core m.group
      match e.accesses.head? with
      | some a => s.putMail a.place (((s.ownMail c e.ord a.place).version + 1) % 2 ^ 32) k lam eta
      | none => s
    | _, _ => s

/-- What the instruction read or reads of one access (R194, R224). -/
def State.readOf (s : State) (c : Ctx) (e : VEntry) (a : ElemAccess) : Nat :=
  match e.got.find? fun g => g.1 == a.idx with
  | some g => g.2
  | none => s.ownBytes c e.ord a.cached a.place a.size

/-- A mailbox from its 192 bytes. -/
def Mail.ofBytes (v : Nat) : Mail := Mail.of fun off n => v / 256 ^ off % 256 ^ n

/-- Whether what a started instruction reads and writes is ready (R166, R225). -/
def State.completeDue (s : State) (cx : Nat) (c : Ctx) (e : VEntry) : Bool :=
  let rows (z : Nat) (q : Qual) : Bool :=
    match s.mxOf cx c, moveElems q e c with
    | some m, i :: is => m.rowsReady e.ord z ((e.sa.toNat + i) / 64) ((e.sa.toNat + (i :: is).getLastD 0) / 64)
    | _, _ => true
  match e.ins with
  | .vmovz _ z _ q => rows z.val q
  | .vmovtoz z _ _ q => rows z.val q
  | .gsend _ _ _ => s.accessDue cx c e.ord true e.accesses
  | .gsendc _ _ _ => s.accessDue cx c e.ord true e.accesses
  | i => isVecStore i || s.accessDue cx c e.ord false e.unread

/-- A result of page 0x48 written to its pair. -/
def Ctx.putResult (c : Ctx) (vp : VReg) (r : PairResult) (sg : Bool) : Ctx :=
  let c := (c.putPair vp r.lam r.eta).addFlags r.fl
  if sg && r.bad then { c with sgmask := c.sgmask ||| 1 } else c

/-- The effect of the head of the queue (R113, R137, R165, R184 to R190, R217).  GLD copies a mailbox's slots as they are stored, also
where they are not Hermitian (notes/assumptions/89.md). -/
def State.vEffect (s : State) (cx : Nat) (c : Ctx) (e : VEntry) : State :=
  let mails : List Mail := e.accesses.map fun a => .ofBytes (s.readOf c e a)
  let msgs : List (List Nat × List Nat) := mails.map (·.message e.vgrp)
  match e.ins with
  | .gsend _ vp _ => s.sendMail cx c e vp
  | .gsendc _ vp _ => s.sendMail cx c e vp
  | .gld vp _ b =>
    match mails.head?, msgs.head? with
    | some m, some x => s.setCtx cx ((c.putPair vp x.1 x.2).setReg b m.status)
    | _, _ => s
  | .gsum vp _ => s.setCtx cx (c.putResult vp (gsumOf vp msgs e c) false)
  | .gsumx vp _ => s.setCtx cx (c.putResult vp (gsumOf vp msgs e c) false)
  | .vmovz vd z _ q =>
    match s.mxOf cx c with
    | some m => s.setCtx cx (vmovzEffect m vd z.val q e c)
    | none => s
  | .vmovtoz z va _ q =>
    match s.mxOf cx c with
    | some m =>
      let (m, fl) := vmovtozEffect m z.val va q e c
      (s.setCtx cx (c.addFlags fl)).setMx cx m
    | none => s
  | i =>
    match vmemOf i with
    | some m =>
      if m.write then (if e.handed then s else s.setCtx cx (vStored m e c))
      else s.setCtx cx (vLoaded m e c (e.accesses.map fun a => (a.idx, s.readOf c e a)))
    | none =>
      match gaussRegs e c with
      | some (vp, r) => s.setCtx cx (c.putResult vp r true)
      | none =>
        let (cba, cbb) := match s.mxOf cx c with
          | some m => (m.cba, m.cbb)
          | none => (resetCodebook, resetCodebook)
        s.setCtx cx (complexEffect e (vectorEffect cba cbb e c))

/-- Elements of a load that come back poisoned (R389). -/
def VEntry.lose (e : VEntry) (c : Ctx) (xs : List ElemAccess) : VEntry :=
  match vmemOf e.ins with
  | none => e
  | some m => { e with lost := e.lost ++ xs.map fun a => (a.idx, m.address e c (Qual.fmt m.q e.vtype) a.idx) }

/-- VECTOR_COMPLETE (R110, R112): the head of a context's queue, once started, has its effect and leaves the queue. -/
def execVectorComplete (cx : Nat) (s : State) : Out :=
  let c := s.ctx cx
  match c.vq with
  | [] => .next s
  | e :: _ =>
    if e.started && s.completeDue cx c e then
      let s := (if e.reads then e.unread else e.accesses).foldl (fun (s : State) a => s.snoopRead a.place a.size) s
      let e := e.lose c ((if e.reads then e.unread else []).filter fun a => s.poisoned a.place)
      .next ((s.vEffect cx c e).modCtx cx fun x => { (x.clearBeats (e.writes c)).poisonBeats e with vq := x.vq.tail })
    else .next s

/-! ### Elements on their own (R194, R217, R224, R228) -/

/-- The next elements that may be read on their own: GSUM and GSUMX read their mailboxes in ascending order (R194). -/
def VEntry.nextReads (e : VEntry) : List ElemAccess :=
  if !e.started then []
  else
    match e.ins with
    | .gsum _ _ => e.unread.take 1
    | .gsumx _ _ => e.unread.take 1
    | _ => e.unread

/-- An older vector instruction of the context may still touch these bytes (R225). -/
def Ctx.vecBefore (c : Ctx) (o place size : Nat) : Bool :=
  c.vq.any fun x => x.ord < o && !(isVecStore x.ins && x.handed) &&
    (if x.reads then x.unread else x.accesses).any fun a => overlaps a.place a.size place size

/-- The accesses that reading one element makes: VLDB reads its element once for all (R217). -/
def VEntry.together (e : VEntry) (a : ElemAccess) : List ElemAccess :=
  match e.ins with
  | .vldb _ _ _ => e.accesses
  | _ => [a]

/-- A started instruction that has read one element more, bad where it came back poisoned (R389). -/
def VEntry.take (e : VEntry) (c : Ctx) (a : ElemAccess) (v : Nat) (bad : Bool) : VEntry :=
  let xs := e.together a
  let e := if bad then e.lose c xs else e
  { e with got := e.got ++ xs.map fun x => (x.idx, v) }

/-- An element, or a mailbox, of a started instruction is read before the instruction completes (R194, R224, R228). -/
def State.elemRead (s : State) (cx : Nat) (c : Ctx) (j : Nat) : State :=
  match (c.vq.flatMap fun e => e.nextReads.map fun a => (e, a))[j]? with
  | none => s
  | some (e, a) =>
    if s.accessDue cx c e.ord false [a] && !c.vecBefore e.ord a.place a.size then
      (s.snoopRead a.place a.size).setCtx cx (c.setEntry (e.take c a (s.readOf c e a) (s.poisoned a.place)))
    else s

/-- SCALAR_LOAD_RETURN (R85, R104, R213, R342): the i-th pending load of a context, or of a saved image, returns; beyond them, an
element of a started vector instruction is read. -/
def execScalarLoadReturn (cx i : Nat) (s : State) : Out :=
  let c := s.ctx cx
  match c.loads[i]? with
  | some l => if s.loadDue cx c l then .next (s.loadReturn cx c i l) else .next s
  | none => .next (s.elemRead cx c (i - c.loads.length))

/-- The started vector stores that have still to hand their elements over. -/
def Ctx.toHand (c : Ctx) : List VEntry := c.vq.filter fun e => e.started && isVecStore e.ins && !e.handed

/-- A started store hands its elements over before it completes, once its data can no longer change (R228). -/
def State.handOver (s : State) (cx : Nat) (c : Ctx) (j : Nat) : State :=
  match c.toHand[j]? with
  | none => s
  | some e =>
    match vmemOf e.ins with
    | none => s
    | some m =>
      if c.vq.any fun x => x.ord < e.ord && (x.dests c).contains m.reg then s
      else s.setCtx cx ((vStored m e c).setEntry { e with handed := true })

/-- STORE_PERFORMED (R104, R164, R211, R214, R217, R221): the i-th pending store of a context, or of a saved image; beyond them, a
started vector store hands its elements over; beyond these, a row of an MXST is written. -/
def execStorePerformed (cx i : Nat) (s : State) : Out :=
  let c := s.ctx cx
  match c.stores[i]? with
  | some p =>
    if s.storeDue cx c p && c.elementDue i p then
      .next ((s.setCtx cx { c with stores := c.stores.eraseIdx i }).performOne (c.stores.eraseIdx i) p)
    else .next s
  | none =>
    let j := i - c.stores.length
    if j < c.toHand.length then .next (s.handOver cx c j) else .next (s.mxWrite cx c (j - c.toHand.length))

end Sys2Proof.Machine
end

