-- ==== Sys2Proof/Machine/Messages.lean ====
section
/-! DEFINITION. Active messages, route tags, weirs, barriers and launch groups: pages 0x70 and 0x71 with the steps in which
messages and arrivals land (R298 to R316). -/

namespace Sys2Proof.Machine
open Sys2Proof

/-! ### Inboxes (R301 to R305) -/

/-- The loaded table, an empty one before any load. -/
def State.tbl (s : State) : Table := s.sluice.table.getD { img := [] }
/-- The owner code of an object; 63 with no table (R328). -/
def State.tagOwner (s : State) (c t : Nat) : Nat := if s.sluice.table.isSome then s.tbl.tagOwner c t else 63
def State.weirOwner (s : State) (w : Nat) : Nat := if s.sluice.table.isSome then s.tbl.weirOwner (w / 512) (w % 512) else 63
def State.barrierOwner (s : State) (c b : Nat) : Nat := if s.sluice.table.isSome then s.tbl.barrierOwner c b else 63

/-- Entries of a kind that an owner holds on a core. -/
def Core.held (k : Core) (kind : EntryKind) (owner : Nat) : Nat := (k.entries.filter fun e => e.kind == kind && e.tenant == owner).length

/-- Free ARSP entries of an owner on a core: neither filled nor reserved (R301, R304). -/
def State.freeReply (s : State) (core owner : Nat) : Nat :=
  let k := s.core core
  s.tbl.arspSize core owner - (k.held .reply owner + k.reserved.get 0 owner)

/-- A reserved ARSP slot given back. -/
def State.unreserve (s : State) (core owner : Nat) : State :=
  s.modCore core fun k => { k with reserved := k.reserved.set 0 owner (k.reserved.get 0 owner - 1) }

/-- An empty release leaves for the requesting core (R304). -/
def State.sendRelease (s : State) (src core owner : Nat) : State :=
  { s with slotReleases := s.slotReleases ++ [{ src := src, core := core, owner := owner, sent := s.sched.steps }] }

/-- R301: an address word, with a core of this device or of a paired twin. -/
def State.msgWordOk (s : State) (v : Word) : Bool :=
  let core := bitsOf v.toNat 7 0
  v.toNat / 2 ^ 14 == 0 && (decide (core < 96) || (s.twin.paired && decide (128 ≤ core) && decide (core < 224)))

/-- Outbox entries a context holds (R301). -/
def Ctx.outbox (c : Ctx) : Nat := (c.ops.filter (·.outbox)).length

/-- The full-outbox rule (R303). -/
def State.outboxFull (s : State) (sa : Word) (slot : Bool) : Out :=
  let c := s.curCtx
  if c.deleg.getLsbD 0x0E && c.depth == 0 then s.trapCur .sendqFull (if slot then sa ||| BitVec.ofNat 64 (2 ^ 63) else sa)
  else .next s

/-- The payload registers (R301). -/
def payloadRegs (p : SReg) (n : Nat) : List SReg := (List.range n).map fun i => Fin.ofNat 32 (p.val + i)

/-- MSENDRQ and MSENDRP (R301 to R304). -/
def State.sendMsg (s : State) (reply : Bool) (d a p : SReg) (n : Nat) : Out :=
  s.heldOp (a :: payloadRegs p n) [d] fun s =>
    let c := s.curCtx
    let core := coreOf s.sched.cur
    let sa := c.reg a
    let o := s.tenantOf c
    if !s.msgWordOk sa then s.trapCur .illegalInstruction sa
    else if !reply && s.tbl.arspSize core o == 0 then s.trapCur .protection 0
    else if s.sendHeld || 255 ≤ c.cntEn then .next s
    else if c.oblim.toNat ≤ c.outbox then s.outboxFull sa false
    else if !reply && s.freeReply core o == 0 then s.outboxFull sa true
    else
      match s.jobOf c, c.job with
      | some j, some h =>
        let dst := bitsOf sa.toNat 7 0
        let right := reply && c.replyRight == some dst
        let from_ : Sender := { job := h, ord := c.ord }
        let m : ActiveMsg := {
          reply := reply, right := right, tenant := o, deadline := j.deadline, group := s.namedGroup j.group o, src := core
          dst := dst, tag := bitsOf sa.toNat 13 8, payload := (payloadRegs p n).map c.reg, sender := some from_, sent := s.sched.steps }
        let op : PendOp := { ord := c.ord, cls := .en, dst := d, outbox := true }
        let s : State := { s with am := s.am ++ [m] }
        let s := if reply then s else s.modCore core fun k => { k with reserved := k.reserved.set 0 o (k.reserved.get 0 o + 1) }
        .next (s.complete fun c => { c with ops := c.ops ++ [op], replyRight := if right then none else c.replyRight })
      | _, _ => .next s

/-- MSENDRQ (R301). -/
def execMsendrq (d a p : SReg) (n : Fin 9) (s : State) : Out := s.sendMsg false d a p n.val
/-- MSENDRP (R301, R304). -/
def execMsendrp (d a p : SReg) (n : Fin 9) (s : State) : Out := s.sendMsg true d a p n.val

/-! ### Route tags (R299, R300) -/

/-- PEND (R299). -/
def Core.pend (k : Core) (tag : Nat) : Bool := k.entries.any fun e => e.tag == tag

/-- MTAG (R300). -/
def execMtag (d a : SReg) (mx : Fin 2) (s : State) : Out :=
  if s.curFenced 0 then .next s
  else s.heldOp [d, a] [] fun s =>
    let c := s.curCtx
    let core := coreOf s.sched.cur
    let st := c.reg d
    let sr := c.reg a
    if 64 ≤ st.toNat then s.trapCur .illegalInstruction st
    else if s.tagOwner core st.toNat ≠ s.tenantOf c then s.trapCur .protection 0
    else
      match s.access (s.agentOf s.sched.cur c) sr 16 .read false with
      | (.error t, s) => s.trapCur t.cause t.value
      | (.ok x, s) =>
        let acc : List ElemAccess := [{ idx := 0, place := x.place, size := 16, cached := x.cached }]
        if !s.accessDue s.sched.cur c c.ord false acc || c.olderVec c.ord x.place 16 || c.olderAcquire c.ord then .next s
        else if s.ownEcc c c.ord x.place 16 then s.trapCur .eccUncorrectable sr
        else
          let s := s.snoopRead x.place 16
          let rd (o n : Nat) : Nat := s.ownBytes c c.ord x.cached (x.place + o) n
          let h := rd 0 8
          if rd 8 1 ≠ st.toNat ∨ 1 < rd 9 1 ∨ 2 < rd 10 1 ∨ rd 11 1 ≠ 0 ∨ h % 2 ≠ 0 ∨ h / 2 ^ 48 ≠ 0 then
            s.trapCur .illegalInstruction sr
          else
            let s := s.modCore core fun k =>
              let t := k.tags.get {} st.toNat
              let t := { t with handler := BitVec.ofNat 64 h, matrix := mx.val == 1, be := rd 9 1 == 1, vlc := rd 10 1, reldl := rd 12 4 }
              { k with tags := k.tags.set {} st.toNat t }
            .next (s.complete id)

/-- Tags of a mask. -/
def maskTags (v : Word) : List Nat := (List.range 64).filter fun t => v.getLsbD t

/-- A tag instruction over a mask: a tag of another owner raises PROTECTION (R300). -/
def State.tagMask (s : State) (a : SReg) (writes : List SReg) (k : State → Nat → List Nat → Out) : Out :=
  s.heldOp [a] writes fun s =>
    let c := s.curCtx
    let core := coreOf s.sched.cur
    let ts := maskTags (c.reg a)
    if ts.any fun t => s.tagOwner core t != s.tenantOf c then s.trapCur .protection (c.reg a) else k s core ts

/-- EN of tags set to a value. -/
def State.enableTags (s : State) (core : Nat) (ts : List Nat) (en : Bool) : State :=
  s.modCore core fun k => { k with tags := ts.foldl (fun m t => m.set {} t { m.get {} t with en := en }) k.tags }

/-- MEN (R300). -/
def execMen (a : SReg) (s : State) : Out := s.tagMask a [] fun s core ts => .next ((s.enableTags core ts true).complete id)
/-- MDIS (R300). -/
def execMdis (a : SReg) (s : State) : Out := s.tagMask a [] fun s core ts => .next ((s.enableTags core ts false).complete id)
/-- MPEND (R300). -/
def execMpend (d : SReg) (s : State) : Out :=
  s.heldOp [] [d] fun s =>
    let core := coreOf s.sched.cur
    let o := s.tenantOf s.curCtx
    let k := s.core core
    let v := (List.range 64).foldl (fun n t => if k.pend t && s.tagOwner core t == o then n + 2 ^ t else n) 0
    .next (s.complete fun c => c.setReg d (BitVec.ofNat 64 v))

/-- A waiting entry goes without a start: a request's reply slot is released (R300, R304). -/
def State.dropEntry (s : State) (core : Nat) (e : HandlerEntry) : State :=
  match e.kind, e.src with
  | .request, some c => s.sendRelease core c e.tenant
  | _, _ => s

/-- MCLR (R300). -/
def execMclr (d a : SReg) (s : State) : Out :=
  s.tagMask a [d] fun s core ts =>
    let k := s.core core
    let gone := k.entries.filter fun e => ts.contains e.tag
    let s := s.setCore core { k with entries := k.entries.filter fun e => !ts.contains e.tag }
    .next ((gone.foldl (·.dropEntry core) s).complete fun c => c.setReg d (BitVec.ofNat 64 gone.length))

/-! ### Arrival of active messages (R302, R304 to R306, R314) -/

/-- An entry is taken: it waits for its handler, and its launch group has a ready job (R305, R313). -/
def State.acceptEntry (s : State) (core : Nat) (kind : EntryKind) (tag tenant group : Nat) (dl : Word) (payload : List Word)
    (src : Option Nat) : State :=
  let (now, s) := s.clusterNow (clusterOf core)
  let k := s.core core
  let e : HandlerEntry := {
    kind := kind, tag := tag, tenant := tenant, group := group, deadline := dl
    payload := payload, src := src, ready := now }
  (s.setCore core { k with entries := k.entries ++ [e] }).startGroup group

/-- The destination's answer to a message (R301, R302, R304): the status, and the state with the message taken or refused.  A reply under a
reply right to a tag of another owner gives its slot back (notes/assumptions/90.md). -/
def State.receive (s : State) (m : ActiveMsg) : Nat × State :=
  let k := s.core m.dst
  let s' := s.countRecv m.dst m.group
  if s.tagOwner m.dst m.tag ≠ m.tenant then (2, if m.reply && m.right then s'.unreserve m.dst m.tenant else s')
  else if m.reply then
    if m.right then (0, (s'.unreserve m.dst m.tenant).acceptEntry m.dst .reply m.tag m.tenant m.group m.deadline m.payload (some m.src))
    else if s.freeReply m.dst m.tenant = 0 then (1, s')
    else (0, s'.acceptEntry m.dst .reply m.tag m.tenant m.group m.deadline m.payload (some m.src))
  else if k.held .request m.tenant < s.tbl.areqSize m.dst m.tenant then
    (0, s'.acceptEntry m.dst .request m.tag m.tenant m.group m.deadline m.payload (some m.src))
  else (1, s')

/-- R8, R316: an earlier message x arrives before m: one that has left its node for the same node on the same network, or one of the same
context to the same tag. -/
def State.amFirst (s : State) (x m : ActiveMsg) : Bool :=
  (x.reply == m.reply && sameRoute x.src x.dst m.src m.dst && s.released x.sender 3) ||
    (m.sender.isSome && x.sender.map Sender.job == m.sender.map Sender.job && x.dst == m.dst && x.tag == m.tag)

/-- The node of an engine (R8, R260). -/
def engineNode (e : Nat) : Nat × Nat := sliceNode (e / 2)

/-- What stands before the i-th message in flight: earlier messages, on AREQ earlier engine commands, and on ARSP earlier empty releases
(R8). -/
def State.amHeld (s : State) (i : Nat) (m : ActiveMsg) : Bool :=
  (s.am.take i).any (s.amFirst · m) ||
    (!m.reply && s.cmds.any fun c => c.stage == .flight && decide (c.sent < m.sent) && coreNode c.src == coreNode m.src &&
      engineNode c.engine == coreNode m.dst && s.released c.sender 3) ||
    (m.reply && s.slotReleases.any fun r => decide (r.sent < m.sent) && sameRoute r.src r.core m.src m.dst)

/-- AM_ARRIVAL (R301 to R306): the i-th message in flight reaches its core in the order of R8, after the accesses it releases; the
twin's answer to one that crosses the link is free, but for a reply under a reply right. -/
def execAmArrival (m : AmSource) (s : State) : Out :=
  match m with
  | .twin t =>
    if s.twin.paired && decide (t.core < 96) && decide (128 ≤ t.src) && decide (t.src < 224) then
      .next (s.receive { reply := t.reply, right := t.right, tenant := t.tenant, deadline := t.deadline, group := 0xFF, src := t.src
                         dst := t.core, tag := t.tag, payload := t.payload, sender := none, sent := s.sched.steps }).2
    else .next s
  | .sent i =>
    match s.am[i]? with
    | none => .next s
    | some m =>
      if s.amHeld i m || !s.released m.sender 3 then .next s
      else
        let s := { s with am := s.am.eraseIdx i }
        let (st, s) := if m.dst < 96 then s.receive m else if m.right then (0, s) else
          let (n, s) := s.drawNat
          (n % 3, s)
        match m.sender with
        | none => .next s
        | some x =>
          let a : Answer := {
            sender := x, status := BitVec.ofNat 64 st, slot := if !m.reply && st != 0 then some (m.src, m.tenant) else none
            counted := if m.dst < 96 then some (m.src, m.group) else none }
          .next { s with answers := s.answers ++ [a] }

/-- R82, R317, R409: the sender's context can issue the instruction behind its send and has not had its turn, which comes within 4 cycles;
an answer takes at least 24 (notes/assumptions/91.md). -/
def State.answerEarly (s : State) (a : Answer) : Bool :=
  match (s.job? a.sender.job).map Job.state with
  | some (.running cx) =>
    s.mayIssue cx && decide ((s.ctx cx).ord ≤ a.sender.ord + 1) && s.sched.tried.get none cx != some { job := a.sender.job, ord := (s.ctx cx).ord }
  | _ => false

/-- AM_ANSWER (R301, R314, R318). -/
def execAmAnswer (i : Nat) (s : State) : Out :=
  match s.answers[i]? with
  | none => .next s
  | some a =>
    if s.answerEarly a then .next s
    else
    let s := { s with answers := s.answers.eraseIdx i }
    let s := s.opDone a.sender (some a.status)
    let s := match a.slot with
      | some (c, o) => s.unreserve c o
      | none => s
    match a.counted with
    | some (c, g) => .next (s.countSent c g)
    | none => .next s

/-- Whether the i-th empty release comes before all else on its way (R8). -/
def State.releaseFirst (s : State) (i : Nat) (x : SlotRelease) : Bool :=
  !(s.slotReleases.take i).any (fun y => sameRoute y.src y.core x.src x.core) &&
    !s.am.any fun m => m.reply && decide (m.sent < x.sent) && sameRoute m.src m.dst x.src x.core && s.released m.sender 3

/-- EMPTY_RELEASE (R304), on ARSP in the order of R8. -/
def execEmptyRelease (r : ReleaseSource) (s : State) : Out :=
  match r with
  | .twin core owner => if s.twin.paired then .next (s.unreserve core owner) else .next s
  | .sent i =>
    match s.slotReleases[i]? with
    | none => .next s
    | some x =>
      if !s.releaseFirst i x then .next s
      else
      let s := { s with slotReleases := s.slotReleases.eraseIdx i }
      if x.core < 96 then .next (s.unreserve x.core x.owner) else .next s

/-! ### ENG (R8, R302) -/

/-- The nodes packets of ENG leave. -/
def EngSource.node : EngSource → Nat × Nat
  | .engine e => engineNode e
  | .weir w => clusterNode (w / 512)
  | .service x => sliceNode x
  | .group => clusterNode 0
def ArrivalSource.node : ArrivalSource → Nat × Nat
  | .core c => coreNode c
  | .engine e => engineNode e
  | .flume k => clusterNode k
  | .cluster k => clusterNode k
  | .slice x => sliceNode x

/-- R302: a delivery finds a completion entry, or needs none; else it waits at its source. -/
def State.engRoom (s : State) (p : EngPacket) : Bool :=
  decide (96 ≤ p.dst) || s.tagOwner p.dst p.tag != p.tenant ||
    decide ((s.core p.dst).held .completion p.tenant < s.tbl.completionSize p.dst p.tenant)

/-- R8 (notes/assumptions/113.md): packets of ENG that come before one sent in a step from a node to a node: those of the three lists that have left and were sent in
an earlier step, or stand before it in its own list. -/
def State.engHeld (s : State) (src dst : Nat × Nat) (sent eng weir bar : Nat) : Bool :=
  (s.eng.zipIdx).any (fun (y : EngPacket × Nat) =>
    (decide (y.2 < eng) || decide (y.1.sent < sent)) && y.1.source.node == src && coreNode y.1.dst == dst && s.engRoom y.1) ||
  (s.weirArrivals.zipIdx).any (fun (y : WeirArrival × Nat) =>
    (decide (y.2 < weir) || decide (y.1.sent < sent)) && y.1.source.node == src && clusterNode (y.1.weir / 512) == dst && s.released y.1.sender 3) ||
  (s.barrierArrivals.zipIdx).any fun (y : BarrierArrival × Nat) =>
    (decide (y.2 < bar) || decide (y.1.sent < sent)) && coreNode y.1.src == src && coreNode y.1.core == dst && s.released y.1.sender 7

/-- A delivery reaches its core (R302, R305, R306, R314); on one of this device it starts a handler, or is dropped. -/
def State.engTake (s : State) (p : EngPacket) : State :=
  let s' := s.countRecv p.dst (p.counted.getD 0xFF)
  if 96 ≤ p.dst then s
  else if s.tagOwner p.dst p.tag ≠ p.tenant then s'
  else s'.acceptEntry p.dst .completion p.tag p.tenant (p.counted.getD 0xFF) p.deadline p.payload none

/-- ENG_DELIVERY (R8, R302, R305, R306, R314): the i-th delivery in flight, or one of the twin; it waits at its source while the
completion partition is full, behind those of its source for its tenant. -/
def execEngDelivery (m : EngIn) (s : State) : Out :=
  match m with
  | .twin t =>
    let p : EngPacket := {
      source := .group, tenant := t.tenant, dst := t.core, tag := t.tag, payload := t.payload, deadline := t.deadline, counted := none }
    if s.twin.paired && decide (t.core < 96) && s.engRoom p then .next (s.engTake p) else .next s
  | .sent i =>
    match s.eng[i]? with
    | none => .next s
    | some p =>
      if !s.engRoom p || (s.eng.take i).any (fun x => x.source == p.source && x.dst == p.dst && x.tenant == p.tenant) ||
          s.engHeld p.source.node (coreNode p.dst) p.sent i 0 0 then .next s
      else .next (({ s with eng := s.eng.eraseIdx i } : State).engTake p)

/-! ### Weirs (R307 to R310) -/

/-- A weir by its global id. -/
def State.weir (s : State) (w : Nat) : Weir := (s.cluster (w / 512)).weirs.get {} (w % 512)
def State.modWeir (s : State) (w : Nat) (f : Weir → Weir) : State :=
  s.modCluster (w / 512) fun k => { k with weirs := k.weirs.set {} (w % 512) (f (k.weirs.get {} (w % 512))) }

/-- WSTAT's word (R307). -/
def Weir.word (w : Weir) : Word :=
  BitVec.ofNat 64 (w.count + 2 ^ 28 * w.pktFail.toNat + 2 ^ 29 * w.armed.toNat + 2 ^ 30 * w.kind + 2 ^ 32 * w.excess +
    2 ^ 52 * w.abortSeen.toNat + 2 ^ 53 * w.lastAbort.toNat + 2 ^ 54 * w.ovf.toNat + 2 ^ 55 * w.foreign.toNat + 2 ^ 56 * w.fires)

/-- R307: a weir global id as an operand. -/
def weirIdOk (v : Word) : Bool := v.toNat / 2 ^ 13 == 0 && decide (bitsOf v.toNat 12 9 < 12)
/-- R308, R309: a count, increment or weight. -/
def weightOk (v : Word) : Bool := decide (1 ≤ v.toNat) && decide (v.toNat < 2 ^ 20)
/-- R308: the packet word. -/
def packetOk (v : Word) : Bool :=
  let p := bitsOf v.toNat 46 0
  bitsOf v.toNat 61 47 == 0 && (match bitsOf v.toNat 63 62 with
    | 2 => p % 16 == 0
    | 3 => p == 0
    | _ => p % 64 == 0)

/-- An operation on a weir (R307): its checks, and its turn after the arrivals its core has sent to that cluster. -/
def State.weirOp (s : State) (reads : List SReg) (a : SReg) (writes : List SReg) (checks : Ctx → List (Option TrapInfo))
    (k : State → Nat → Out) : Out :=
  s.heldOp (a :: reads) writes fun s =>
    let c := s.curCtx
    let v := c.reg a
    match firstTrap (illegalUnless (weirIdOk v) v :: checks c) with
    | some t => s.trapCur t.cause t.value
    | none =>
      if s.weirOwner v.toNat ≠ s.tenantOf c then s.trapCur .protection v
      else if s.weirArrivals.any fun x => x.source == .core (coreOf s.sched.cur) && x.weir / 512 == v.toNat / 512 then .next s
      else k s v.toNat

/-- WARM (R308). -/
def execWarm (d a b c : SReg) (s : State) : Out :=
  s.weirOp [b, c] a [d] (fun x => [illegalUnless (weightOk (x.reg b)) (x.reg b), illegalUnless (packetOk (x.reg c)) (x.reg c)])
    fun s w =>
      let x := s.curCtx
      if (s.weir w).armed then .next (s.complete fun c => c.setReg d 1)
      else
        let sk := (x.reg c).toNat
        let who : Captured := match s.jobOf x with
          | some j => { tenant := j.tenant, deadline := j.deadline, be := j.be || j.late, group := j.group, root := x.ptbase }
          | none => {}
        let s := s.modWeir w fun y => { y with
          count := (x.reg b).toNat, kind := bitsOf sk 63 62, pointer := BitVec.ofNat 64 (bitsOf sk 46 0), armed := true
          abortSeen := false, excess := 0, ovf := false, foreign := false, pktFail := false, who := who }
        .next (s.complete fun c => c.setReg d 0)

/-- WPOST (R308). -/
def execWpost (d a b : SReg) (s : State) : Out :=
  s.weirOp [b] a [d] (fun x => [illegalUnless (weightOk (x.reg b)) (x.reg b)]) fun s w =>
    let n := (s.weir w).count + (s.curCtx.reg b).toNat
    if !(s.weir w).armed then .next (s.complete fun c => c.setReg d 1)
    else if 2 ^ 20 ≤ n then s.trapCur .weirOvf 0
    else .next ((s.modWeir w fun y => { y with count := n }).complete fun c => c.setReg d 0)

/-- WSTAT (R307). -/
def execWstat (d a : SReg) (s : State) : Out :=
  s.weirOp [] a [d] (fun _ => []) fun s w => .next (s.complete fun c => c.setReg d (s.weir w).word)

/-- WSIG (R309): an arrival leaves for the weir. -/
def execWsig (a b : SReg) (s : State) : Out :=
  s.heldOp [a, b] [] fun s =>
    let c := s.curCtx
    let v := c.reg a
    let n := c.reg b
    match firstTrap [illegalUnless (weirIdOk v) v, illegalUnless (b.val == 0 || weightOk n) n] with
    | some t => s.trapCur t.cause t.value
    | none =>
      if s.weirOwner v.toNat ≠ s.tenantOf c then s.trapCur .protection v
      else
        let x : WeirArrival := {
          source := .core (coreOf s.sched.cur), weir := v.toNat, tenant := s.tenantOf c, weight := if b.val = 0 then 1 else n.toNat
          abort := false, sender := c.job.map fun h => { job := h, ord := c.ord }, sent := s.sched.steps }
        .next (({ s with weirArrivals := s.weirArrivals ++ [x] } : State).complete id)

/-- A refused arrival of an engine or a flume is logged (R309, R352). -/
def State.logWeirOvf (s : State) (x : WeirArrival) : State :=
  let put (src : Nat) : State :=
    let (t, s) := s.clusterNow (x.weir / 512)
    s.log { tns := t, kind := 5, owner := s.weirOwner x.weir, unit := x.weir, cause := 0, v0 := BitVec.ofNat 64 src, v1 := BitVec.ofNat 64 x.weight }
  match x.source with
  | .engine _ => put 0
  | .flume _ => put 1
  | _ => s

/-- The firing of a weir (R310): its packet is still to be made. -/
def State.fireWeir (s : State) (w : Nat) : State :=
  let y := s.weir w
  let f : Firing := { weir := w, kind := y.kind, pointer := y.pointer, abort := y.abortSeen, who := y.who }
  let s := s.modWeir w fun y => { y with armed := false, fires := (y.fires + 1) % 256, lastAbort := y.abortSeen }
  { s with firings := s.firings ++ [f] }

/-- An arrival handled (R309). -/
def State.weirArrive (s : State) (x : WeirArrival) : State :=
  let y := s.weir x.weir
  let cap := 2 ^ 20 - 1
  if x.tenant ≠ s.weirOwner x.weir then s.modWeir x.weir fun y => { y with foreign := true }
  else if !y.armed then
    if cap < y.excess + x.weight then (s.modWeir x.weir fun y => { y with excess := cap, ovf := true }).logWeirOvf x
    else s.modWeir x.weir fun y => { y with excess := y.excess + x.weight }
  else if x.weight < y.count then
    s.modWeir x.weir fun y => { y with abortSeen := y.abortSeen || x.abort, count := y.count - x.weight }
  else
    (s.modWeir x.weir fun y => { y with
      abortSeen := y.abortSeen || x.abort, excess := min (y.excess + x.weight - y.count) cap, count := 0 }).fireWeir x.weir

/-- WEIR_ARRIVAL (R8, R307, R309, R234): an arrival is handled after what left its node for the same node on ENG before it, and after the
accesses it releases. -/
def execWeirArrival (i : Nat) (s : State) : Out :=
  match s.weirArrivals[i]? with
  | none => .next s
  | some x =>
    if !s.released x.sender 3 || s.engHeld x.source.node (clusterNode (x.weir / 512)) x.sent 0 i 0 then .next s
    else .next (({ s with weirArrivals := s.weirArrivals.eraseIdx i } : State).weirArrive x)

/-! ### Barriers (R311, R312) -/

def State.barrier (s : State) (c b : Nat) : Barrier := (s.core c).barriers.get {} b
def State.setBarrier (s : State) (c b : Nat) (x : Barrier) : State := s.modCore c fun k => { k with barriers := k.barriers.set {} b x }

/-- R311: a barrier address. -/
def barrierIdOk (v : Word) : Bool := v.toNat / 2 ^ 16 == 0 && decide (v.toNat % 256 < 96)

/-- An arrival (R312). -/
def Barrier.arrive (x : Barrier) : Barrier :=
  if x.part = 0 then { x with err := true }
  else if x.rem ≤ 1 then { x with rem := x.part, gen := (x.gen + 1) % 65536 }
  else { x with rem := x.rem - 1 }

/-- An instruction on a barrier of the executing core (R311). -/
def State.barrierOp (s : State) (reads : List SReg) (b : SReg) (d : SReg) (checks : Ctx → List (Option TrapInfo))
    (k : State → Nat → Nat → Out) : Out :=
  s.heldOp (b :: reads) [d] fun s =>
    let c := s.curCtx
    let v := c.reg b
    let core := coreOf s.sched.cur
    match firstTrap (illegalUnless (barrierIdOk v && v.toNat % 256 == core) v :: checks c) with
    | some t => s.trapCur t.cause t.value
    | none =>
      if s.barrierOwner core (v.toNat / 256) ≠ s.tenantOf c then s.trapCur .protection 0
      else k s core (v.toNat / 256)

/-- BINIT (R312). -/
def execBinit (d a b : SReg) (s : State) : Out :=
  s.barrierOp [b] a d (fun c => [illegalUnless (decide (1 ≤ (c.reg b).toNat) && decide ((c.reg b).toNat < 4096)) (c.reg b)]) fun s core id =>
    let x := s.barrier core id
    let n := (s.curCtx.reg b).toNat
    if x.rem ≠ x.part ∧ !x.err then s.trapCur .barrierError 0
    else .next ((s.setBarrier core id { x with part := n, rem := n, err := false }).complete fun c => c.setReg d (BitVec.ofNat 64 x.gen))

/-- The wait of BWAIT and BSYNC for a generation other than g (R312). -/
def State.barrierWait (s : State) (d : SReg) (core id g : Nat) : Out :=
  let x := s.barrier core id
  if x.err then s.trapWith (fun s => s.setCur { s.curCtx with bsync := none }) .barrierError 0
  else if x.gen ≠ g then .next (s.complete fun c => { c.setReg d (BitVec.ofNat 64 x.gen) with bsync := none })
  else .next (s.waitOn (.barrier core id g))

/-- BWAIT (R312). -/
def execBwait (d a b : SReg) (s : State) : Out :=
  s.barrierOp [b] a d (fun c => [illegalUnless (decide ((c.reg b).toNat < 65536)) (c.reg b)]) fun s core id =>
    s.barrierWait d core id (s.curCtx.reg b).toNat

/-- BSYNC (R312): its arrival, once what it releases is performed, and then its wait. -/
def execBsync (d a : SReg) (s : State) : Out :=
  s.barrierOp [] a d (fun _ => []) fun s core id =>
    let c := s.curCtx
    match c.bsync with
    | some y => s.barrierWait d core id y.gen
    | none =>
      if s.pendClasses s.sched.cur c 7 c.ord then .next s
      else
        let g := (s.barrier core id).gen
        let s := s.setBarrier core id (s.barrier core id).arrive
        (s.setCur { c with bsync := some { gen := g, core := core, id := id } }).barrierWait d core id g

/-- BARRIVE (R311, R312). -/
def execBarrive (a : SReg) (s : State) : Out :=
  s.heldOp [a] [] fun s =>
    let c := s.curCtx
    let v := c.reg a
    if !barrierIdOk v then s.trapCur .illegalInstruction v
    else
      let x : BarrierArrival := {
        src := coreOf s.sched.cur, core := v.toNat % 256, id := v.toNat / 256, tenant := s.tenantOf c
        sender := c.job.map fun h => { job := h, ord := c.ord }, sent := s.sched.steps }
      .next (({ s with barrierArrivals := s.barrierArrivals ++ [x] } : State).complete id)

/-- BARRIER_ARRIVAL (R8, R311, R312, R234). -/
def execBarrierArrival (i : Nat) (s : State) : Out :=
  match s.barrierArrivals[i]? with
  | none => .next s
  | some x =>
    if !s.released x.sender 7 || s.engHeld (coreNode x.src) (coreNode x.core) x.sent 0 0 i then .next s
    else
      let s := { s with barrierArrivals := s.barrierArrivals.eraseIdx i }
      if s.barrierOwner x.core x.id ≠ x.tenant then .next (s.modCore x.core fun k => { k with foreign := k.foreign + 1 })
      else .next (s.setBarrier x.core x.id (s.barrier x.core x.id).arrive)

/-! ### Launch groups (R313 to R315) -/

/-- R313: a group number. -/
def groupNumOk (v : Word) : Bool := decide (v.toNat ≤ 254)
/-- R313: a completion word of a tenant. -/
def State.completionOk (s : State) (tenant : Nat) (v : Word) : Bool :=
  if v.getLsbD 63 then bitsOf v.toNat 62 13 == 0 && decide (bitsOf v.toNat 12 9 < 12) && s.weirOwner (v.toNat % 2 ^ 13) == tenant
  else s.msgWordOk v

/-- QOPEN (R313). -/
def execQopen (d a b : SReg) (s : State) : Out :=
  s.heldOp [a, b] [d] fun s =>
    let c := s.curCtx
    let g := c.reg a
    let sc := c.reg b
    if !groupNumOk g then s.trapCur .illegalInstruction g
    else if !s.completionOk (s.tenantOf c) sc then s.trapCur .illegalInstruction sc
    else if (s.groupOf g.toNat).state ≠ .free then .next (s.complete fun c => c.setReg d 1)
    else
      let dl := ((s.jobOf c).map (·.deadline)).getD 0
      let s := { s with
        groups := s.groups.set {} g.toNat { state := .open_, owner := s.tenantOf c, completion := sc, deadline := dl }
        reports := s.reports.map fun (x : Nat × FMap GroupReport) => (x.1, x.2.erase g.toNat) }
      let s := (List.range 96).foldl (fun (s : State) k => s.modCore k fun k =>
        { k with sent := k.sent.erase g.toNat, recv := k.recv.erase g.toNat }) s
      .next (s.complete fun c => c.setReg d 0)

/-- QCLOSE (R313). -/
def execQclose (d a : SReg) (s : State) : Out :=
  s.heldOp [a] [d] fun s =>
    let c := s.curCtx
    let g := c.reg a
    if !groupNumOk g then s.trapCur .illegalInstruction g
    else if (s.groupOf g.toNat).state = .open_ ∧ (s.groupOf g.toNat).owner = s.tenantOf c then
      .next ((s.modGroup g.toNat fun x => { x with state := .closing }).complete fun c => c.setReg d 0)
    else .next (s.complete fun c => c.setReg d 1)

/-- The code of a group's state (R313). -/
def GroupState.code : GroupState → Nat
  | .free => 0
  | .open_ => 1
  | .closing => 2

/-- QSTAT's item (R313). -/
def Group.item (x : Group) : Nat → Option Word
  | 0 => some (BitVec.ofNat 64 (x.state.code + 4 * x.started.toNat + 256 * x.owner))
  | 1 => some (BitVec.ofNat 64 x.swSent)
  | 2 => some (BitVec.ofNat 64 x.swRecv)
  | 3 => some (BitVec.ofNat 64 x.swEnded)
  | 4 => some (BitVec.ofNat 64 x.swAbandoned)
  | 5 => some x.completion
  | _ => none

/-- QSTAT (R313). -/
def execQstat (d a : SReg) (sel : Fin 6) (s : State) : Out :=
  s.heldOp [a] [d] fun s =>
    let c := s.curCtx
    let g := c.reg a
    match (s.groupOf g.toNat).item sel.val with
    | none => s.trapCur .illegalInstruction 0
    | some v =>
      if !groupNumOk g then s.trapCur .illegalInstruction g
      else .next (s.complete fun x => x.setReg d (if (s.groupOf g.toNat).owner = s.tenantOf c then v else 0))

/-- R314: a cluster is idle for a group; a weir of it that has fired for the group has its packet to make, which counts from the firing. -/
def State.groupIdle (s : State) (k g : Nat) : Bool :=
  !(s.jobs.any fun j => j.2.group == g && j.2.cluster == k && j.2.state != .moving) &&
    !(s.cores.any fun c => clusterOf c.1 == k && c.2.entries.any fun e => e.group == g) &&
    !(s.firings.any fun f => f.weir / 512 == k && s.namedGroup f.who.group f.who.tenant == g) &&
    !(s.moves.any fun m => m.group == g && m.from_ == k)

/-- A cluster's sum of a total of a group (R314). -/
def State.groupTotal (s : State) (f : Core → FMap Nat) (k g : Nat) : Nat :=
  (List.range 8).foldl (fun n i => n + (f (s.core (8 * k + i))).get 0 g) 0

/-- R315: what a cluster reports, of each STARTED group. -/
def State.reportOf (s : State) (k : Nat) : FMap GroupReport :=
  (s.groups.filter fun (x : Nat × Group) => x.2.started).map fun (x : Nat × Group) =>
    (x.1, { idle := s.groupIdle k x.1, sent := s.groupTotal Core.sent k x.1, recv := s.groupTotal Core.recv k x.1 })

/-- R315: one group at a sweep, from the twelve reports. -/
def State.sweepGroup (s : State) (g : Nat) : State :=
  let x := s.groupOf g
  let rs : List GroupReport := (List.range 12).filterMap fun k => FMap.find? (s.reports.get [] k) g
  if !x.started || rs.length != 12 then s
  else
    let sent := rs.foldl (fun n r => n + r.sent) 0 % 2 ^ 64
    let recv := rs.foldl (fun n r => n + r.recv) 0 % 2 ^ 64
    let quiet := rs.all (·.idle) && sent == recv
    if quiet && x.quiet == some sent then
      let s := { s with groups := s.groups.set {} g {} }
      if x.state = .open_ then
        { s with groupDone := s.groupDone ++ [{ group := g, owner := x.owner, completion := x.completion, deadline := x.deadline
                                                ended := x.ended, abandoned := x.abandoned, sent := sent }] }
      else s
    else s.modGroup g fun x => { x with
      swSent := sent, swRecv := recv, swEnded := x.ended, swAbandoned := x.abandoned, quiet := if quiet then some sent else none }

/-- The clusters that have not reported at the sweep under way. -/
def State.unreported (s : State) : List Nat := (List.range 12).filter fun k => (s.reports.find? k).isNone
/-- R317, R407: an empty release that left before the last sweep was combined and still travels lands before the next sweep
(notes/assumptions/92.md). -/
def State.landing (s : State) : Option Nat :=
  ((s.slotReleases.zipIdx).find? fun (x : SlotRelease × Nat) => decide (x.1.sent < s.sweptAt) && s.releaseFirst x.2 x.1).map (·.2)
/-- The sweep under way, or the next multiple of SWEEP. -/
def State.sweepTime (s : State) : Nat :=
  if s.reports.isEmpty then (s.lastSweep / (500 * s.sweep) + 1) * (500 * s.sweep) else s.lastSweep
/-- R315: a sweep has come by a cluster's counter. -/
def State.sweepCome (s : State) (now : Nat) : Bool := decide (s.sweepTime ≤ now)
/-- Whether a sweep is to be seen: a group counts, or a job is in transit. -/
def State.sweeps (s : State) : Bool := s.groups.any (fun (x : Nat × Group) => x.2.started) || !s.moves.isEmpty || !s.reports.isEmpty

/-- A cluster reports at the sweep of time t; jobs of its that arrived 16 ns before are no longer in transit (R315). -/
def State.report (s : State) (k t : Nat) : State :=
  let s := { s with lastSweep := t, moves := s.moves.filter fun m => m.from_ != k || (match m.arrived with
    | some a => decide (t < a + 16)
    | none => true) }
  { s with reports := s.reports.set [] k (s.reportOf k) }

/-- SWEEP (R315): a cluster whose own counter has come to the sweep reports; cluster 0 combines the twelve reports. -/
def execSweep (s : State) : Out :=
  let (n, s) := s.drawNat
  let ks := s.unreported
  let k := ks.getD (n % ks.length) 0
  let (now, s) := s.clusterNow k
  if !s.sweepCome now || (s.reports.isEmpty && s.landing.isSome) then .next s
  else
    let s := s.report k s.sweepTime
    if !s.unreported.isEmpty then .next s
    else .next { (s.groups.map (·.1)).foldl State.sweepGroup s with reports := [], sweptAt := s.sched.steps }

/-- GROUP_COMPLETION_SEND (R313, R315): an ended group's completion leaves. -/
def execGroupCompletionSend (g : Nat) (s : State) : Out :=
  match s.groupDone.find? fun x => x.group == g with
  | none => .next s
  | some x =>
    let s := { s with groupDone := s.groupDone.filter fun y => y.group != g }
    if x.completion.getLsbD 63 then
      let a : WeirArrival := {
        source := .cluster 0, weir := x.completion.toNat % 2 ^ 13, tenant := x.owner, weight := 1, abort := false, sender := none
        sent := s.sched.steps }
      .next { s with weirArrivals := s.weirArrivals ++ [a] }
    else
      let p : EngPacket := {
        source := .group, tenant := x.owner, dst := bitsOf x.completion.toNat 7 0, tag := bitsOf x.completion.toNat 13 8
        payload := [BitVec.ofNat 64 x.group, BitVec.ofNat 64 x.ended, BitVec.ofNat 64 x.abandoned, BitVec.ofNat 64 x.sent]
        deadline := x.deadline, counted := none, sent := s.sched.steps }
      .next { s with eng := s.eng ++ [p] }

end Sys2Proof.Machine
end

