-- ==== Sys2Proof/Machine/Streams.lean ====
section
/-! DEFINITION. The stream engine, chunk maps and flumes: page 0x60 up to FLDONE, and the steps that serve a chunk and set its
bit (R241 to R254). -/

namespace Sys2Proof.Machine
open Sys2Proof

/-! ### Stream words and chunk maps (R243, R244, R249) -/

def swPort (v : Word) : Nat := bitsOf v.toNat 19 16
def swFirst (v : Word) : Nat := bitsOf v.toNat 14 9
def swMap (v : Word) : Nat := v.toNat % 64
/-- R244: the zero bits of a stream word. -/
def streamWordOk (v : Word) : Bool := v.toNat / 2 ^ 20 == 0 && !v.getLsbD 15 && bitsOf v.toNat 8 6 == 0
/-- R244: a map operand; bits 19:9 are ignored. -/
def mapOperandOk (v : Word) : Bool := v.toNat / 2 ^ 20 == 0 && bitsOf v.toNat 8 6 == 0

def State.mapOwner (s : State) (k m : Nat) : Nat := if s.sluice.table.isSome then s.tbl.mapOwner k m else 63
def State.chunkMap (s : State) (k m : Nat) : Word := (s.cluster k).maps.get 0 m
def State.setChunkMap (s : State) (k m : Nat) (v : Word) : State := s.modCluster k fun c => { c with maps := c.maps.set 0 m v }

/-- The cluster of the current context. -/
def State.curCluster (s : State) : Nat := clusterOf (coreOf s.sched.cur)

/-- A chunk-map instruction (R243, R249). -/
def State.mapOp (s : State) (a b : SReg) (writes : List SReg) (k : State → Nat → Nat → Word → Out) : Out :=
  s.heldOp [a, b] writes fun s =>
    let c := s.curCtx
    let v := c.reg a
    if !mapOperandOk v then s.trapCur .illegalInstruction v
    else if s.mapOwner s.curCluster (swMap v) ≠ s.tenantOf c then s.trapCur .protection v
    else k s s.curCluster (swMap v) (c.reg b)

/-- SWAITM (R249). -/
def execSwaitm (a b : SReg) (s : State) : Out :=
  s.mapOp a b [] fun s k m mask =>
    if s.chunkMap k m &&& mask = mask then .next (s.complete id) else .next (s.waitOn (.chunks k m mask true))
/-- STESTM (R249). -/
def execStestm (d a b : SReg) (s : State) : Out :=
  s.mapOp a b [d] fun s k m mask => .next (s.complete fun c => c.setReg d (s.chunkMap k m &&& mask))
/-- SCLRM (R249). -/
def execSclrm (a b : SReg) (s : State) : Out :=
  s.mapOp a b [] fun s k m mask => .next ((s.setChunkMap k m (s.chunkMap k m &&& ~~~mask)).complete id)

/-! ### Pieces and their probe (R198, R203, R246) -/

/-- A cut of a strip: offset, length, source and destination address. -/
structure CutPiece where
  at_ : Nat
  len : Nat
  src : Word
  dst : Word
  deriving DecidableEq, Repr

/-- n bytes cut where the source or the destination reaches a line's end; fuel bounds the pieces. -/
def cutRow : Nat → Nat → Nat → Word → Word → List CutPiece
  | 0, _, _, _, _ => []
  | fuel + 1, o, n, src, dst =>
    if n = 0 then []
    else
      let k := min n (min (64 - src.toNat % 64) (64 - dst.toNat % 64))
      { at_ := o, len := k, src := src, dst := dst } ::
        cutRow fuel (o + k) (n - k) (src + BitVec.ofNat 64 k) (dst + BitVec.ofNat 64 k)

/-- Addresses with lengths probed in order, each within a page, from its first byte or a line on; the first failure decides (R208). -/
def State.probeRange (s : State) (a : Agent) (k : AccessKind) (setD : Bool) (xs : List (Word × Nat)) : Except TrapInfo (List Xlat) × State :=
  xs.foldl (fun (r : Except TrapInfo (List Xlat) × State) x =>
    match r with
    | (.error t, s) => (.error t, s)
    | (.ok ps, s) =>
      match s.reach a x.1 x.2 k setD with
      | (.ok p, s) =>
        match (List.range ((x.2 + 63) / 64)).find? fun i => s.poisoned (p.place + 64 * i) with
        | some i => (.error { cause := .linkPoison, value := x.1 + BitVec.ofNat 64 (64 * i) }, s)
        | none => (.ok (ps ++ [p]), s)
      | (.error t, s) => (.error t, s)) (.ok [], s)

/-- A write range probed; D bits are set only when all of it passes. -/
def State.probeWrite (s : State) (a : Agent) (xs : List (Word × Nat)) : Except TrapInfo (List Xlat) × State :=
  match s.probeRange a .write false xs with
  | (.ok _, s) => s.probeRange a .write true xs
  | r => r

/-- R246: the source bytes for read, then the destination bytes for write. -/
def State.probeStrip (s : State) (a : Agent) (cs : List CutPiece) : Except TrapInfo (List Piece) × State :=
  match s.probeRange a .read false (cs.map fun c => (c.src, c.len)) with
  | (.error t, s) => (.error t, s)
  | (.ok xs, s) =>
    match s.probeWrite a (cs.map fun c => (c.dst, c.len)) with
    | (.error t, s) => (.error t, s)
    | (.ok ys, s) =>
      (.ok ((cs.zip (xs.zip ys)).map fun p =>
        { at_ := p.1.at_, len := p.1.len, src := p.2.1.place, dst := p.2.2.place, from_ := p.2.1.cached, cached := p.2.2.cached }), s)

/-! ### Budgets (R242) -/

/-- Bytes of chunk c of a strip. -/
def Strip.chunkLen (x : Strip) (c : Nat) : Nat := min 512 (x.bytes - 512 * c)
/-- Bytes a strip still counts against the budget. -/
def Strip.outstanding (x : Strip) : Nat := (x.todo ++ x.served).foldl (fun n c => n + x.chunkLen c) 0
/-- free(T) on a cluster's engine. -/
def State.stripFree (s : State) (k tenant : Nat) : Nat :=
  65536 - ((s.cluster k).strips.filter fun x => x.tenant == tenant).foldl (fun n x => n + x.outstanding) 0

/-! ### Flumes (R250 to R254) -/

def State.flume (s : State) (k f : Nat) : Flume := (s.cluster k).flumes.get {} f
def State.setFlume (s : State) (k f : Nat) (x : Flume) : State := s.modCluster k fun c => { c with flumes := c.flumes.set {} f x }
/-- A difference of 16-bit counters. -/
def ctr16 (a b : Nat) : Nat := (a + 65536 - b) % 65536
/-- Slots that are claimed and not released: the ring is full at N. -/
def Flume.full (x : Flume) : Bool := decide (2 ^ x.log2n ≤ ctr16 x.claim x.rel)
/-- The offset of slot i in the owner's cluster region. -/
def Flume.offset (x : Flume) (i : Nat) : Nat := x.base + i % 2 ^ x.log2n * x.slotsz
/-- R251: the address of a slot as a context of cluster own sees it. -/
def Flume.address (x : Flume) (own k i : Nat) : Word :=
  BitVec.ofNat 64 ((if own = k then 0x7F2000000000 else 0x7F3000000000 + k * 0x1000000) + x.offset i)
/-- The counters from lo up to hi. -/
def slotsBetween (lo hi : Nat) : List Nat := (List.range (ctr16 hi lo)).map fun j => (lo + j) % 65536

/-- Filled slots in ring order: the counter after them, what stays marked, and how many were filled (R252). -/
def advance : Nat → Nat → Nat → List Nat → Nat × List Nat × Nat
  | 0, at_, _, marks => (at_, marks, 0)
  | fuel + 1, at_, top, marks =>
    if at_ ≠ top ∧ marks.contains at_ then
      let (a, m, n) := advance fuel ((at_ + 1) % 65536) top (marks.filter (· != at_))
      (a, m, n + 1)
    else (at_, marks, 0)

/-- FLDONE's effect on slot i (R252): slots fill in ring order, each with an arrival for the flume's weir. -/
def State.flumeDone (s : State) (k f i : Nat) : State :=
  let x := s.flume k f
  let (fill, done, n) := advance 4096 x.fill x.claim (i :: x.done)
  let s := s.setFlume k f { x with fill := fill, done := done }
  if x.weir = 0x1FFF then s
  else
    let a : WeirArrival := { source := .flume k, weir := x.weir, tenant := x.owner, weight := 1, abort := false, sender := none, sent := s.sched.steps }
    { s with weirArrivals := s.weirArrivals ++ List.replicate n a }

/-- FLREL's effect on slot i (R252). -/
def State.flumeRel (s : State) (k f i : Nat) : State :=
  let x := s.flume k f
  let (rel, released, _) := advance 4096 x.rel x.pop (i :: x.released)
  s.setFlume k f { x with rel := rel, released := released }

/-- R251: the checks of a flume word; push marks FLPUSH and FLDONE. -/
def State.flumeCheck (s : State) (tenant : Nat) (v : Word) (push : Bool) : Option Cause :=
  let n := v.toNat
  let x := s.flume (bitsOf n 11 8) (n % 64)
  if n / 2 ^ 16 ≠ 0 ∨ bitsOf n 14 12 ≠ 0 ∨ bitsOf n 7 6 ≠ 0 ∨ 12 ≤ bitsOf n 11 8 then some .illegalInstruction
  else if x.owner ≠ tenant then some .protection
  else if !x.en then some .illegalInstruction
  else if push && x.prod != 0 then some .illegalInstruction
  else none

/-- A flume instruction, with the cluster and number its word names; pushes and releases are of class E (R222), and all wait for an
older acquire (R232). -/
def State.flumeOp (s : State) (reads : List SReg) (a : SReg) (writes : List SReg) (fenced push : Bool) (k : State → Nat → Nat → Out) : Out :=
  if fenced && s.curFenced 3 || s.curCtx.olderAcquire s.curCtx.ord then .next s
  else s.heldOp (a :: reads) writes fun s =>
    let v := s.curCtx.reg a
    match s.flumeCheck (s.tenantOf s.curCtx) v push with
    | some cause => s.trapCur cause v
    | none => k s (bitsOf v.toNat 11 8) (v.toNat % 64)

/-- FLPOP and FLPUSH (R252, R253).  R253's "would add a ninth" leaves open a form with NB = 1 that finds no slot and so adds none: the
model traps on a full list whether or not a slot is there (notes/assumptions/99.md). -/
def State.flumeTake (s : State) (d a : SReg) (push : Bool) : Out :=
  s.flumeOp [] a [d] push push fun s k f =>
    let c := s.curCtx
    let x := s.flume k f
    let none_ := if push then x.full else ctr16 x.fill x.pop == 0
    if 8 ≤ c.flumes.length then s.trapCur .illegalInstruction 0
    else if none_ then
      if (c.reg a).getLsbD 15 then .next (s.complete fun c => c.setReg d 0) else .next (s.waitOn (.flume k f push))
    else
      let i := if push then x.claim else x.pop
      let va := x.address s.curCluster k i
      let x := if push then { x with claim := (i + 1) % 65536 } else { x with pop := (i + 1) % 65536 }
      let h : HeldSlot := { cluster := k, flume := f, slot := i, push := push, addr := va }
      .next ((s.setFlume k f x).complete fun c => { c.setReg d va with flumes := c.flumes ++ [h] })

/-- FLPOP (R252). -/
def execFlpop (d a : SReg) (s : State) : Out := s.flumeTake d a false
/-- FLPUSH (R252). -/
def execFlpush (d a : SReg) (s : State) : Out := s.flumeTake d a true

/-- A slot leaves the context's list (R253). -/
def Ctx.dropSlot (c : Ctx) (k f i : Nat) (push : Bool) : Ctx :=
  { c with flumes := c.flumes.filter fun h => !(h.cluster == k && h.flume == f && h.slot == i && h.push == push) }

/-- FLREL and FLDONE (R252): the slot of an address among those open to it. -/
def State.flumeGive (s : State) (a b : SReg) (push : Bool) : Out :=
  s.flumeOp [b] a [] true push fun s k f =>
    let c := s.curCtx
    let x := s.flume k f
    let va := c.reg b
    let open_ := if push then (slotsBetween x.fill x.claim).filter fun i => !x.done.contains i
      else (slotsBetween x.rel x.pop).filter fun i => !x.released.contains i
    match open_.find? fun i => x.address s.curCluster k i == va with
    | none => s.trapCur .illegalInstruction va
    | some i =>
      if push then
        if s.pendClasses s.sched.cur c 7 c.ord then .next s
        else .next ((s.flumeDone k f i).complete fun c => c.dropSlot k f i true)
      else .next ((s.flumeRel k f i).complete fun c => c.dropSlot k f i false)

/-- FLREL (R252). -/
def execFlrel (a b : SReg) (s : State) : Out := s.flumeGive a b false
/-- FLDONE (R234, R252). -/
def execFldone (a b : SReg) (s : State) : Out := s.flumeGive a b true

/-- R253: what the abandon action does with a job's list. -/
def State.finishSlots (s : State) (hs : List HeldSlot) : State :=
  hs.foldl (fun s h =>
    let x := s.flume h.cluster h.flume
    if h.push then
      if (slotsBetween x.fill x.claim).contains h.slot && !x.done.contains h.slot then s.flumeDone h.cluster h.flume h.slot else s
    else
      if (slotsBetween x.rel x.pop).contains h.slot && !x.released.contains h.slot then s.flumeRel h.cluster h.flume h.slot else s) s

/-- R254: the tenant's flume that a port feeds. -/
def State.portFed (s : State) (k tenant port : Nat) : Option Nat :=
  (List.find? (fun (x : Nat × Flume) => x.2.en && x.2.owner == tenant && x.2.prod == 2 && x.2.src == port) (s.cluster k).flumes).map (·.1)

/-! ### Strip commands (R246 to R248, R254) -/

/-- A strip as it is granted: a chunk for each 512 bytes. -/
def newStrip (tenant : Nat) (x : Sender) (sw : Word) (bytes : Nat) (ps : List Piece) (slot : Option (Nat × Nat)) : Strip :=
  { tenant := tenant, sender := x, port := swPort sw, map := swMap sw, first := swFirst sw, bytes := bytes, pieces := ps
    begun := false, todo := List.range ((bytes + 511) / 512), served := [], slot := slot }

/-- The strip is queued, its flume slot claimed, and it counts in CNTCP. -/
def State.queueStrip (s : State) (k : Nat) (x : Strip) (f : Ctx → Ctx) : State :=
  let s := match x.slot with
    | some (fl, i) => s.setFlume k fl { s.flume k fl with claim := (i + 1) % 65536 }
    | none => s
  let s := s.modCluster k fun c => { c with strips := c.strips ++ [x] }
  s.complete fun c =>
    let op : PendOp := { ord := c.ord, cls := .cp, dst := 0, outbox := false }
    { f c with ops := c.ops ++ [op] }

/-- The destination of a strip command: its register's address, or the next slot of the flume its port feeds (R254). -/
inductive StripDst where
  | at_ (va : Word)
  | slot (f i size : Nat) (va : Word)
  | wait
  | bad
  deriving DecidableEq, Repr

def State.stripDst (s : State) (d : SReg) (sw : Word) : StripDst :=
  if d.val ≠ 0 then .at_ (s.curCtx.reg d)
  else
    let k := s.curCluster
    match s.portFed k (s.tenantOf s.curCtx) (swPort sw) with
    | none => .bad
    | some f =>
      let x := s.flume k f
      if x.full then .wait else .slot f x.claim x.slotsz (x.address k k x.claim)

def StripDst.va : StripDst → Word
  | .at_ v => v
  | .slot _ _ _ v => v
  | _ => 0
def StripDst.fills : StripDst → Option (Nat × Nat)
  | .slot f i _ _ => some (f, i)
  | _ => none
def StripDst.clip (x : StripDst) (n : Nat) : Nat :=
  match x with
  | .slot _ _ size _ => min n size
  | _ => n

/-- SCOPY (R246, R254). -/
def execScopy (sn sd ss sc : SReg) (fo : Option Fmt) (s : State) : Out :=
  if s.sendHeld || s.curCtx.vlPending || 255 ≤ s.curCtx.cntCp then .next s
  else if fo.getD s.curCtx.vtype = .cb4 then s.heldOp [] [] fun s => s.trapCur .illegalInstruction 0
  else s.heldOp [sn, sd, ss, sc] [] fun s =>
    let c := s.curCtx
    let f := fo.getD c.vtype
    let sw := c.reg sc
    let k := s.curCluster
    let t := s.tenantOf c
    if !streamWordOk sw then s.trapCur .illegalInstruction sw
    else if s.mapOwner k (swMap sw) ≠ t then s.trapCur .protection sw
    else
      let dst := s.stripDst sd sw
      if dst = .bad then s.trapCur .illegalInstruction sw
      else if c.reg sn = 0 then .next (s.complete fun c => { c with vl := 0 })
      else
        let e := Fmt.bits f / 8
        let free := s.stripFree k t
        let rq := dst.clip (min ((c.reg sn).toNat * e) ((64 - swFirst sw) * 512))
        if dst = .wait || free < 512 then .next s
        else
          let b := min rq free
          let b := if 512 ≤ rq then b / 512 * 512 else b
          let va := dst.va
          let src := c.reg ss
          if va.toNat % e ≠ 0 then s.trapCur .misaligned va
          else if src.toNat % e ≠ 0 then s.trapCur .misaligned src
          else
            match s.probeStrip (s.agentOf s.sched.cur c) (cutRow b 0 b src va), c.job with
            | (.error x, s), _ => s.trapCur x.cause x.value
            | (.ok ps, s), some h =>
              .next (s.queueStrip k (newStrip t { job := h, ord := c.ord } sw b ps dst.fills) fun c => { c with vl := b / e, vlOver := false })
            | (.ok _, s), none => .next s

/-- SPAT (R247). -/
def patRows (v : Nat) : Nat := bitsOf v 63 48
def patLen (v : Nat) : Nat := bitsOf v 16 0
def patSstr (v : Nat) : Word := BitVec.ofNat 64 (v / 2 ^ 64)
def patDstr (v : Nat) : Word := BitVec.ofNat 64 (v / 2 ^ 128)
def patWord (v : Nat) : Word := BitVec.ofNat 64 (v / 2 ^ 192)
/-- R247: the checks of a descriptor. -/
def patOk (v : Nat) : Bool :=
  decide (1 ≤ patRows v) && bitsOf v 47 17 == 0 && decide (1 ≤ patLen v) && decide (patLen v ≤ 32768) && streamWordOk (patWord v) &&
    decide ((patRows v * patLen v + 511) / 512 ≤ 64 - swFirst (patWord v))

/-- Where consecutive 8-byte words lie that a class S load reads. -/
def State.wordPlaces (s : State) (a : Agent) (va : Word) (n : Nat) : Except TrapInfo (List Xlat) × State :=
  (List.range n).foldl (fun (r : Except TrapInfo (List Xlat) × State) i =>
    match r with
    | (.error t, s) => (.error t, s)
    | (.ok ps, s) =>
      match s.access a (va + BitVec.ofNat 64 (8 * i)) 8 .read false with
      | (.ok x, s) => (.ok (ps ++ [x]), s)
      | (.error t, s) => (.error t, s)) (.ok [], s)

/-- A class S load of words by a held instruction: the faults of LDD, then the words as the context reads them, once nothing of
its own stands in the way (R225). -/
def State.loadWords (s : State) (va : Word) (n : Nat) (k : State → List Nat → Out) : Out :=
  let c := s.curCtx
  match s.wordPlaces (s.agentOf s.sched.cur c) va n with
  | (.error t, s) => s.trapCur t.cause t.value
  | (.ok ps, s) =>
    let acc : List ElemAccess := ps.map fun p => { idx := 0, place := p.place, size := 8, cached := p.cached }
    if s.curFenced 0 || !s.accessDue s.sched.cur c c.ord false acc || c.olderAcquire c.ord || ps.any (fun p => c.olderVec c.ord p.place 8) then .next s
    else
      match ps.zipIdx.find? fun p => s.ownEcc c c.ord p.1.place 8 with
      | some p => s.trapCur .eccUncorrectable (va + BitVec.ofNat 64 (8 * p.2))
      | none => k (ps.foldl (fun (s : State) p => s.snoopRead p.place 8) s) (ps.map fun p => s.ownBytes c c.ord p.cached p.place 8)

/-- SPAT (R247). -/
def execSpat (n : Fin 8) (a : SReg) (s : State) : Out :=
  s.heldOp [a] [] fun s =>
    let va := s.curCtx.reg a
    s.loadWords va 4 fun s ws =>
      let v := ws.foldr (fun w acc => w + 2 ^ 64 * acc) 0
      if patOk v then .next (s.complete fun c => { c with patterns := c.patterns.set 0 n.val (BitVec.ofNat 256 v) })
      else s.trapCur .illegalInstruction va

/-- The pieces of a pattern: row after row (R248). -/
def patPieces (v : Nat) (src dst : Word) : List CutPiece :=
  (List.range (patRows v)).flatMap fun r =>
    cutRow (patLen v) (r * patLen v) (patLen v) (src + BitVec.ofNat 64 r * patSstr v) (dst + BitVec.ofNat 64 r * patDstr v)

/-- SSTRM (R248, R254). -/
def execSstrm (n : Fin 8) (sd ss : SReg) (s : State) : Out :=
  if s.sendHeld || 255 ≤ s.curCtx.cntCp then .next s
  else s.heldOp [sd, ss] [] fun s =>
    let c := s.curCtx
    let v := (c.patterns.get 0 n.val).toNat
    let sw := patWord v
    let k := s.curCluster
    let t := s.tenantOf c
    let b := patRows v * patLen v
    if v = 0 then s.trapCur .illegalInstruction 0
    else if s.mapOwner k (swMap sw) ≠ t then s.trapCur .protection sw
    else
      let dst := s.stripDst sd sw
      let tooLong := match (s.portFed k t (swPort sw)), sd.val with
        | some f, 0 => decide ((s.flume k f).slotsz < b)
        | _, _ => false
      if dst = .bad || tooLong then s.trapCur .illegalInstruction sw
      else if dst = .wait || s.stripFree k t < b then .next s
      else
        match s.probeStrip (s.agentOf s.sched.cur c) (patPieces v (c.reg ss) dst.va), c.job with
        | (.error x, s), _ => s.trapCur x.cause x.value
        | (.ok ps, s), some h => .next (s.queueStrip k (newStrip t { job := h, ord := c.ord } sw b ps dst.fills) id)
        | (.ok _, s), none => .next s

/-! ### The engine's steps (R241, R242, R246, R248) -/

/-- A strip that may be served now: no earlier command of its tenant and port waits to begin, and what it releases is
performed. -/
def State.stripDue (s : State) (xs : List Strip) (i : Nat) (x : Strip) : Bool :=
  !x.todo.isEmpty && (x.begun || !(xs.take i).any fun y => y.tenant == x.tenant && y.port == x.port && !y.begun) &&
    s.released (some x.sender) 3

/-- The next owner in ascending order after the last, among those listed (R241, R284). -/
def nextOwner (last : Nat) (os : List Nat) : Option Nat :=
  match (List.range 64).find? fun o => last < o && os.contains o with
  | some o => some o
  | none => (List.range 64).find? os.contains

/-- The chunks that the tenant in turn has queued: strip and chunk. -/
def State.servable (s : State) (k : Nat) : Option (Nat × List (Nat × Nat)) :=
  let xs := (s.cluster k).strips
  let due := xs.zipIdx.filter fun p => s.stripDue xs p.2 p.1
  (nextOwner (s.cluster k).lastTenant (due.map (·.1.tenant))).map fun t =>
    (t, (due.filter fun p => p.1.tenant == t).flatMap fun p => p.1.todo.map fun c => (p.2, c))

/-- The pieces that lie in a chunk. -/
def Strip.chunkPieces (x : Strip) (c : Nat) : List Piece := x.pieces.filter fun p => decide (p.at_ < 512 * c + 512) && decide (512 * c < p.at_ + p.len)

/-- A byte of the stream copied, unless a later row's byte has been written there already (R248). -/
def State.copyByte (s : State) (x : Strip) (done : List Piece) (p : Piece) (j : Nat) : State :=
  let o := p.at_ + j
  if done.any fun q => o < q.at_ + q.len && decide (q.dst ≤ p.dst + j) && decide (p.dst + j < q.dst + q.len) &&
      decide (o < q.at_ + (p.dst + j - q.dst)) && !(x.todo.contains ((q.at_ + (p.dst + j - q.dst)) / 512)) then s
  else
    let s := s.snoopRead (p.src + j) 1
    s.putBytes (p.dst + j) p.cached [s.byteAt p.from_ (p.src + j)]

/-- The bytes of a piece that lie in a chunk. -/
def Piece.inChunk (p : Piece) (c : Nat) : List Nat := (List.range p.len).filter fun j => (p.at_ + j) / 512 == c

/-- R389: what a strip would write to the host while the link is down is dropped: a UC write is logged, the line of a cached one is
poisoned. -/
def State.losePiece (s : State) (x : Strip) (p : Piece) : State :=
  if p.cached.isSome then { s with linkPoison := s.linkPoison.set false (lineOf p.dst) true }
  else s.dropHostWrite p.dst x.tenant

/-- The destination lines of a chunk whose source holds an error (R246, R389). -/
def State.chunkErrors (s : State) (x : Strip) (c : Nat) : List Nat :=
  ((x.chunkPieces c).filter fun p => (p.inChunk c).any fun j => s.eccAt (p.src + j) 1 || s.poisoned (p.src + j)).map fun p => lineOf p.dst

/-- The words of 8 bytes in a chunk's destination of which the chunks served so far have written every byte (R428). -/
def Strip.wholeWords (x : Strip) (c : Nat) : List Nat :=
  let writes (b : Nat) : Bool := x.pieces.any fun q =>
    decide (q.dst ≤ b) && decide (b < q.dst + q.len) && !x.todo.contains ((q.at_ + (b - q.dst)) / 512)
  (((x.chunkPieces c).flatMap fun p => (p.inChunk c).map fun j => (p.dst + j) / 8).eraseDups).filter fun w => (List.range 8).all fun i => writes (8 * w + i)

/-- A chunk copied, in stream order; a word written wholly loses its error, and a line whose source had one is poisoned (R246, R428). -/
def State.copyChunk (s : State) (x : Strip) (c : Nat) : State :=
  let bad := s.chunkErrors x c
  let s := (x.chunkPieces c).foldl (fun s p =>
    if isHostPa p.dst && !s.host.up then s.losePiece x p else (p.inChunk c).foldl (fun s j => s.copyByte x x.pieces p j) s) s
  let whole := (x.wholeWords c).filter fun w => !(x.bad ++ bad).contains (w / 8)
  { s with ecc := bad.foldl (fun m l => (List.range 8).foldl (fun m i => m.set false (8 * l + i) true) m) (s.ecc.filter fun e => !whole.contains e.1) }

/-- STREAM_CHUNK_SERVE (R241): one queued chunk of the tenant in turn; which one is the caller's choice. -/
def execStreamChunkServe (k i : Nat) (s : State) : Out :=
  match s.servable k with
  | none => .next s
  | some (t, cs) =>
    match cs[i % cs.length]? with
    | none => .next s
    | some (n, c) =>
      match (s.cluster k).strips[n]? with
      | none => .next s
      | some x =>
        let y := { x with begun := true, todo := x.todo.filter (· != c), served := x.served ++ [c], bad := x.bad ++ s.chunkErrors x c }
        let s := s.copyChunk y c
        .next (s.modCluster k fun q => { q with strips := q.strips.set n y, lastTenant := t })

/-- CHUNK_DONE (R242, R246, R254): the bit of a served chunk is set; the last one ends the command and fills its slot. -/
def execChunkDone (k i : Nat) (s : State) : Out :=
  let xs := (s.cluster k).strips
  let cs := xs.zipIdx.flatMap fun p => p.1.served.map fun c => (p.2, c)
  match cs[i % cs.length]? with
  | none => .next s
  | some (n, c) =>
    match xs[n]? with
    | none => .next s
    | some x =>
      let y := { x with served := x.served.filter (· != c) }
      let s := s.setChunkMap k x.map (s.chunkMap k x.map ||| BitVec.ofNat 64 (2 ^ (x.first + c)))
      if y.todo.isEmpty && y.served.isEmpty then
        let s := s.modCluster k fun q => { q with strips := q.strips.eraseIdx n }
        let s := s.opDone x.sender none
        match x.slot with
        | some (f, j) => .next (s.flumeDone k f j)
        | none => .next s
      else .next (s.modCluster k fun q => { q with strips := q.strips.set n y })

end Sys2Proof.Machine
end

