-- ==== Sys2Proof/Machine/Engines.lean ====
section
/-! DEFINITION. The coding engines: ECMD, ECANCEL and ESTAT, the arrival of commands, the operations and their completion (R235,
R260 to R267). -/

namespace Sys2Proof.Machine
open Sys2Proof

/-! ### The command block (R260, R262) -/

def EngCmd.word (c : EngCmd) (i : Nat) : Nat := (c.words.getD i 0).toNat
def EngCmd.opcode (c : EngCmd) : Nat := c.word 0 % 256
def EngCmd.bound (c : EngCmd) : Bool := bit (c.word 0) 8
def EngCmd.tag (c : EngCmd) : Nat := bitsOf (c.word 0) 31 16
def EngCmd.reply (c : EngCmd) : Word := c.words.getD 1 0
def EngCmd.opf (c : EngCmd) : Nat := bitsOf (c.word 6) 63 32
def EngCmd.param (c : EngCmd) : Nat := c.word 7

/-- A region: base and length in bytes. -/
structure Region where
  base : Nat
  len : Nat
  deriving DecidableEq, Repr

def EngCmd.r0 (c : EngCmd) : Region := { base := c.word 2, len := c.word 3 % 2 ^ 32 }
def EngCmd.r1 (c : EngCmd) : Region := { base := c.word 4, len := c.word 3 / 2 ^ 32 }
def EngCmd.wr (c : EngCmd) : Region := { base := c.word 5, len := c.word 6 % 2 ^ 32 }

/-- R235: two regions, widened to 64-byte lines, share a line. -/
def Region.meets (a b : Region) : Bool :=
  decide (a.len ≠ 0) && decide (b.len ≠ 0) && decide (a.base / 64 ≤ (b.base + b.len - 1) / 64) && decide (b.base / 64 ≤ (a.base + a.len - 1) / 64)

/-- R235: c waits on the earlier command e. -/
def EngCmd.waitsOn (c e : EngCmd) : Bool :=
  e.wr.meets c.r0 || e.wr.meets c.r1 || e.wr.meets c.wr || c.wr.meets e.r0 || c.wr.meets e.r1

/-- The parameters of the operations. -/
def opZc (o : Nat) : Nat := o % 512
def opBg (o : Nat) : Bool := bit o 9
def opPolar (o p : Nat) : Config.Polar :=
  { k := bitsOf o 19 10, e := p % 2 ^ 14, l := 2 ^ bitsOf o 21 20, crc := bitsOf o 23 22, iil := bit o 24, npc := bitsOf o 26 25, wm := bit o 27 }
/-- Of Qm's five values 8 is the one that three bits do not hold: the code 0 stands for it (notes/assumptions/13.md). -/
def opRate (o p : Nat) : Rate :=
  { eq := o % 65536, qm := if bitsOf o 18 16 = 0 then 8 else bitsOf o 18 16, rv := bitsOf o 20 19, combine := bit o 21, ncb := p % 2 ^ 32, f := bitsOf p 47 32
    zc := bitsOf p 56 48, bg := bit p 57 }

/-- The NR lifting sizes (R262; notes/assumptions/13.md). -/
def liftingSize (z : Nat) : Bool :=
  decide (z ≤ 384) && [2, 3, 5, 7, 9, 11, 13, 15].any fun a => (List.range 8).any fun j => a * 2 ^ j == z

/-- Block length of a polar code of K bits in E (TS 38.212; notes/assumptions/13.md). -/
def polarLen (k e : Nat) : Nat :=
  let cl (n : Nat) : Nat := if n ≤ 1 then 0 else Nat.log2 (n - 1) + 1
  let n1 := if 8 * e ≤ 9 * 2 ^ (cl e - 1) ∧ 16 * k < 9 * e then cl e - 1 else cl e
  2 ^ max 5 (min (min n1 (cl (8 * k))) 10)

/-- Bytes that n bits take. -/
def bitBytes (n : Nat) : Nat := (n + 7) / 8

/-- R262: the read lengths and the output size that the parameters imply; none where a parameter is out of range
(notes/assumptions/13.md names the ranges that the rule leaves open). -/
def opSizes (op o p : Nat) : Option (Nat × Nat × Nat) :=
  match op with
  | 1 =>
    let k := ldpcInfo (opBg o) * opZc o
    if liftingSize (opZc o) && decide (1 ≤ bitsOf o 14 10) && o / 2 ^ 17 == 0 && p / 2 ^ 16 == 0 && decide (p < k) then
      some ((ldpcCols (opBg o) - 2) * opZc o, 0, bitBytes k) else none
  | 2 =>
    let k := ldpcInfo (opBg o) * opZc o
    if liftingSize (opZc o) && bitsOf o 14 10 == 0 && o / 2 ^ 17 == 0 && p / 2 ^ 16 == 0 && decide (p < k) then
      some (bitBytes k, 0, bitBytes ((ldpcCols (opBg o) - 2) * opZc o)) else none
  | 3 => (polarOk o p).map fun a => ((opPolar o p).e, 0, bitBytes a)
  | 4 => (polarOk o p).map fun a => (bitBytes a, 0, bitBytes (opPolar o p).e)
  | 5 => if rateOk o p then some ((opRate o p).eq * (opRate o p).qm, if (opRate o p).combine then (opRate o p).ncb else 0, (opRate o p).ncb) else none
  | 6 =>
    if rateOk o p && !(opRate o p).combine then
      some (bitBytes ((ldpcCols (opRate o p).bg - 2) * (opRate o p).zc), 0, bitBytes ((opRate o p).eq * (opRate o p).qm)) else none
  | 7 =>
    let l := o % 2 ^ 24
    let t := bitsOf o 26 24
    if o / 2 ^ 27 == 0 && decide (t < 6) && p == 0 && decide ((crcPoly t).1 < l) then some (bitBytes l, 0, 0) else none
  | _ => none
where
  /-- The number A of a polar command. -/
  polarOk (o p : Nat) : Option Nat :=
    let x := opPolar o p
    let c := (polarCrc x.crc).1
    if o % 1024 == 0 && x.crc != 3 && (x.npc == 0 || x.npc == 3) && o / 2 ^ 28 == 0 && p / 2 ^ 14 == 0 && decide (1 ≤ x.e) &&
        decide (x.e ≤ 8192) && decide (c < x.k) && decide (x.k + x.npc ≤ min (polarLen x.k x.e) x.e) then some (x.k - c) else none
  rateOk (o p : Nat) : Bool :=
    let r := opRate o p
    o / 2 ^ 22 == 0 && [1, 2, 4, 6, 8].contains r.qm && decide (1 ≤ r.eq) && p / 2 ^ 58 == 0 && liftingSize r.zc &&
      decide (1 ≤ r.ncb) && decide (r.ncb ≤ (ldpcCols r.bg - 2) * r.zc) && decide (r.f < ldpcInfo r.bg * r.zc)

/-- R260: the reply word. -/
def State.replyOk (s : State) (v : Word) : Bool :=
  if v.getLsbD 63 then bitsOf v.toNat 62 13 == 0 && decide (bitsOf v.toNat 12 9 < 12)
  else if v.getLsbD 62 then v.toNat % 2 ^ 62 == 0
  else s.msgWordOk v

/-- The first byte of a region that the tables of a root place in twin memory (R392). -/
def State.twinByte (s : State) (root : Word) (r : Region) : Option Nat :=
  if r.len = 0 then none
  else (List.range ((r.base + r.len - 1) / 4096 + 1 - r.base / 4096)).findSome? fun i =>
    let va := max r.base (4096 * (r.base / 4096 + i))
    if 0x7F0000000000 ≤ va then none
    else match walk s.mem va 3 (ptePpn root.toNat) with
    | some l => if isTwinPa (ptePpn l.entry) then some va else none
    | none => none

/-- The first byte of a command's regions in twin memory, as its tables stand (R392; notes/assumptions/96.md). -/
def State.cmdTwin (s : State) (c : EngCmd) : Option Nat := s.twinByte c.root c.r0 <|> s.twinByte c.root c.r1 <|> s.twinByte c.root c.wr

/-- R260, R262, R392: every field of a block, and no region in twin memory. -/
def State.blockOk (s : State) (c : EngCmd) : Bool :=
  let w0 := c.word 0
  bitsOf w0 11 9 == 0 && w0 / 2 ^ 32 == 0 && s.replyOk c.reply && decide (c.r0.len ≤ 2 ^ 24) && decide (c.r1.len ≤ 2 ^ 24) &&
    c.wr.base % 64 == 0 && decide (64 ≤ c.wr.len) && decide (c.wr.len ≤ 2 ^ 24) &&
    (match opSizes c.opcode c.opf c.param with
     | some (a, b, o) => c.r0.len == a && c.r1.len == b && decide (64 + o ≤ c.wr.len)
     | none => false) && (s.cmdTwin c).isNone

/-- Whether a command's reply is a message to a core of this device. -/
def EngCmd.messages (c : EngCmd) : Bool := !c.reply.getLsbD 63 && !c.reply.getLsbD 62 && decide (c.reply.toNat % 256 < 96)

/-! ### The footprint table and the inboxes (R235, R260) -/

/-- Whether a command holds a footprint entry. -/
def EngCmd.recorded (c : EngCmd) : Bool :=
  match c.stage with
  | .pending => false
  | .unrun _ => false
  | _ => true
def State.footprints (s : State) : Nat := (s.cmds.filter EngCmd.recorded).length
def State.footprintsOf (s : State) (t : Nat) : Nat := (s.cmds.filter fun c => c.recorded && c.tenant == t).length
/-- Whether a command waits at its engine. -/
def EngCmd.waits (c : EngCmd) (e : Nat) : Bool := c.engine == e && c.stage == .waiting
def State.inboxOf (s : State) (e t : Nat) : Nat := (s.cmds.filter fun c => c.waits e && c.tenant == t).length

/-- ECMD (R260). -/
def execEcmd (d a : SReg) (s : State) : Out :=
  s.heldOp [a] [d] fun s =>
    let c := s.curCtx
    let sb := c.reg a
    if sb.toNat % 64 ≠ 0 then s.trapCur .misaligned sb
    else s.loadWords sb 8 fun s ws =>
      match s.jobOf c, c.job with
      | some j, some h =>
        let x : EngCmd := {
          engine := bitsOf (ws.getD 0 0) 15 12, tenant := j.tenant, sender := some { job := h, ord := c.ord }, addr := sb
          words := ws.map (BitVec.ofNat 64), root := c.ptbase, deadline := j.deadline, be := j.be || j.late
          group := s.namedGroup j.group j.tenant, counted := false, stage := .flight, arrival := 0, discard := false
          src := coreOf s.sched.cur, sent := s.sched.steps }
        if !s.blockOk x then s.trapCur .engineRefused sb
        else if s.sendHeld || 1024 ≤ s.footprints || 64 ≤ s.footprintsOf j.tenant || 255 ≤ c.cntEn then .next s
        else
          let op : PendOp := { ord := c.ord, cls := .en, dst := d, outbox := false }
          .next (({ s with cmds := s.cmds ++ [x] } : State).complete fun c => { c with ops := c.ops ++ [op] })
      | _, _ => .next s

/-- The i-th command enters its inbox, in arrival order. -/
def State.acceptCmd (s : State) (i : Nat) (c : EngCmd) : State :=
  let g := if c.messages && c.group != 0xFF then some c.group else none
  let c := { c with stage := .waiting, arrival := s.cmdCount, counted := g.isSome }
  let s := { s with cmds := s.cmds.set i c, cmdCount := s.cmdCount + 1 }
  match g with
  | some g => s.countSent c.src g
  | none => s

/-- What stands before the i-th command on its way: earlier ones of its context, and on AREQ what left its node for the engine's before it
(R8, R260). -/
def State.cmdHeld (s : State) (i : Nat) (c : EngCmd) : Bool :=
  (s.cmds.take i).any (fun x => x.stage == .flight && (x.sender.map Sender.job == c.sender.map Sender.job ||
    (coreNode x.src == coreNode c.src && engineNode x.engine == engineNode c.engine && s.released x.sender 3))) ||
  s.am.any fun m => !m.reply && decide (m.sent < c.sent) && coreNode m.src == coreNode c.src && coreNode m.dst == engineNode c.engine &&
    s.released m.sender 3

/-- ENGINE_CMD_ARRIVE (R260, R310, R419): the i-th command reaches its engine, which is gated or accepts commands, after what stands before
it and the accesses it releases; one fired by a weir waits for its entries. -/
def execEngineCmdArrive (i : Nat) (s : State) : Out :=
  match s.cmds[i]? with
  | none => .next s
  | some c =>
    let room := decide (s.inboxOf c.engine c.tenant < 4) && !s.gated (.engine c.engine) && s.sliceReady (c.engine / 2)
    match c.stage with
    | .flight =>
      if s.cmdHeld i c || !s.released c.sender 3 then .next s
      else
        let s' := if room then s.acceptCmd i c else { s with cmds := s.cmds.eraseIdx i }
        match c.sender with
        | some x => .next { s' with engAnswers := s'.engAnswers ++ [{ sender := x, status := if room then 0 else 1, slot := none, counted := none }] }
        | none => .next s'
    | .pending => if room && decide (s.footprints < 1024) && decide (s.footprintsOf c.tenant < 64) then .next (s.acceptCmd i c) else .next s
    | _ => .next s

/-- ENGINE_ANSWER (R260). -/
def execEngineAnswer (i : Nat) (s : State) : Out :=
  match s.engAnswers[i]? with
  | none => .next s
  | some a => .next (({ s with engAnswers := s.engAnswers.eraseIdx i } : State).opDone a.sender (some a.status))

/-! ### Completion (R263) -/

def State.engCount (s : State) (e t : Nat) : EngCounts := s.engCounts.get {} (64 * e + t)
def State.modEngCount (s : State) (e t : Nat) (f : EngCounts → EngCounts) : State :=
  { s with engCounts := s.engCounts.set {} (64 * e + t) (f (s.engCount e t)) }

/-- A completion counted as received where it was counted as sent, but went no further (R314). -/
def State.countDropped (s : State) (c : EngCmd) : State := if c.counted then s.countRecv (c.reply.toNat % 256) c.group else s

/-- A completion leaves for its reply (R263): by message, by weir arrival, or not at all. -/
def State.engReply (s : State) (c : EngCmd) (status header : Nat) (fault : Word) : State :=
  if c.discard then (s.modEngCount c.engine c.tenant fun x => { x with discard := min (x.discard + 1) (2 ^ 32 - 1) }).countDropped c
  else if c.reply.getLsbD 63 then
    let a : WeirArrival := {
      source := .engine c.engine, weir := c.reply.toNat % 2 ^ 13, tenant := c.tenant, weight := 1
      abort := status == 2 || status == 3 || status == 8, sender := none, sent := s.sched.steps }
    { s with weirArrivals := s.weirArrivals ++ [a] }
  else if c.reply.getLsbD 62 then s
  else
    let p : EngPacket := {
      source := .engine c.engine, tenant := c.tenant, dst := c.reply.toNat % 256, tag := bitsOf c.reply.toNat 13 8
      payload := [BitVec.ofNat 64 (status + 256 * c.opcode + 65536 * c.tag), BitVec.ofNat 64 header, c.addr, fault, BitVec.ofNat 64 c.engine]
      deadline := c.deadline, counted := if c.counted then some c.group else none, sent := s.sched.steps }
    { s with eng := s.eng ++ [p] }

/-- Undelivered message completions of a tenant at an engine (R263). -/
def State.undelivered (s : State) (e t : Nat) : Nat := (s.eng.filter fun p => p.source == .engine e && p.tenant == t).length
/-- Whether a command has run and not completed. -/
def EngCmd.isDone (c : EngCmd) : Bool :=
  match c.stage with
  | .done _ _ _ => true
  | _ => false
/-- Whether a command's completion is a message (R260). -/
def EngCmd.byMessage (c : EngCmd) : Bool := !c.discard && !c.reply.getLsbD 63 && !c.reply.getLsbD 62
/-- R263: the engine has one of its four places free for a message completion, beside that of a command that has run. -/
def State.replyFree (s : State) (c : EngCmd) : Bool :=
  decide (s.undelivered c.engine c.tenant +
    (s.cmds.filter fun x => x.engine == c.engine && x.tenant == c.tenant && x.isDone && x.byMessage).length < 4)

/-- A command that does not run leaves the table: it completes at once, or waits for a place of its engine (R263). -/
def State.engLeave (s : State) (c : EngCmd) (status : Nat) : State :=
  if c.byMessage && !s.replyFree c then { s with cmds := s.cmds ++ [{ c with stage := .unrun status }] } else s.engReply c status 0 0

/-- A command that never ran completes (R263, R264). -/
def State.engUnrun (s : State) (c : EngCmd) (status : Nat) : State :=
  (s.modEngCount c.engine c.tenant fun x =>
    if status = 3 then { x with cancelled := x.cancelled + 1 } else { x with aborted := x.aborted + 1 }).engLeave c status

/-- Whether a command of a job may still be cancelled (R264). -/
def EngCmd.ofJob (c : EngCmd) (h : Nat) : Bool := c.sender.map Sender.job == some h && c.stage == .waiting

/-- Commands leave the table as CANCELLED (R264). -/
def State.cancelCmds (s : State) (sel : EngCmd → Bool) : State :=
  (s.cmds.filter sel).foldl (fun s c => s.engUnrun c 3) { s with cmds := s.cmds.filter fun c => !sel c }

/-- ECANCEL (R264); it reaches the engines after the job's commands that are still on their way. -/
def execEcancel (d a : SReg) (s : State) : Out :=
  s.heldOp [a] [d] fun s =>
    let c := s.curCtx
    let st := c.reg a
    if st.toNat / 2 ^ 17 ≠ 0 then s.trapCur .illegalInstruction st
    else
      match c.job with
      | none => .next s
      | some h =>
        if s.cmds.any fun x => x.stage == .flight && x.sender.map Sender.job == some h then .next s
        else
          let sel (x : EngCmd) : Bool := x.ofJob h && (st.getLsbD 16 || x.tag == st.toNat % 65536)
          let n := (s.cmds.filter sel).length
          .next ((s.cancelCmds sel).complete fun c => c.setReg d (BitVec.ofNat 64 n))

/-- ESTAT (R265). -/
def execEstat (d a : SReg) (sel : Fin 7) (s : State) : Out :=
  s.heldOp [a] [d] fun s =>
    let c := s.curCtx
    let e := c.reg a
    if 16 ≤ e.toNat then s.trapCur .illegalInstruction e
    else
      let t := s.tenantOf c
      let x := s.engCount e.toNat t
      let n (v : Nat) : Word := BitVec.ofNat 64 v
      let v : Word := match sel.val with
        | 0 => n (s.cmds.filter fun c => c.engine == e.toNat && c.tenant == t && c.stage != .flight && c.recorded).length
        | 1 => x.completed
        | 2 => n x.discard
        | 3 => n x.aborted
        | 4 => n x.cancelled
        | 5 => n (s.footprintsOf t)
        | _ => x.fault
      .next (s.complete fun c => c.setReg d v)

/-! ### Running a command (R261 to R263) -/

/-- Whether the earlier commands of its tenant let a command begin (R235). -/
def State.cmdFree (s : State) (c : EngCmd) : Bool :=
  !s.cmds.any fun e => e.tenant == c.tenant && e.recorded && e.stage != .flight && decide (e.arrival < c.arrival) && c.waitsOn e

/-- R261: RT before BE, then the earlier deadline, then the earlier arrival. -/
def EngCmd.before (a b : EngCmd) : Bool :=
  if a.be != b.be then !a.be
  else if a.deadline ≠ b.deadline then a.deadline.ult b.deadline
  else decide (a.arrival < b.arrival)

/-- The command an engine takes next (R261, R263). -/
def State.enginePick (s : State) (e : Nat) : Option EngCmd :=
  if s.cmds.any fun c => c.engine == e && c.isDone then none
  else
    (s.cmds.filter fun c => c.waits e && s.cmdFree c && s.replyFree c).foldl (fun best c =>
      match best with
      | some b => if c.before b then some c else some b
      | none => some c) none

/-- The agent of a command's accesses (R431). -/
def EngCmd.agent (c : EngCmd) : Agent := { owner := c.tenant, root := c.root, user := true, core := none, cluster := none }

/-- R263: the status of a fault. -/
def engStatus (t : Cause) : Nat :=
  match t with
  | .pageFaultRead => 4
  | .pageFaultWrite => 4
  | .pageFaultExec => 4
  | .linkPoison => 7
  | _ => 5

/-- A region's stretches by line. -/
def Region.cuts (r : Region) : List (Word × Nat) := (cutRow r.len 0 r.len (BitVec.ofNat 64 r.base) (BitVec.ofNat 64 r.base)).map fun c => (c.src, c.len)

/-- A region read: its bytes, or the status and address of the first failure. -/
def State.readRegion (s : State) (a : Agent) (r : Region) : Except (Nat × Word) (List Byte) × State :=
  match s.probeRange a .read false r.cuts with
  | (.error t, s) => (.error (engStatus t.cause, t.value), s)
  | (.ok ps, s) =>
    let zs := r.cuts.zip ps
    match zs.find? fun z => s.eccAt z.2.place z.1.2 with
    | some z => (.error (6, z.1.1), s)
    | none => (.ok (zs.flatMap fun z => (List.range z.1.2).map fun i => s.byteAt z.2.cached (z.2.place + i)), zs.foldl (fun s z => s.snoopRead z.2.place z.1.2) s)

/-- Bytes written to a region whose stretches have been translated. -/
def State.writeCuts (s : State) : List ((Word × Nat) × Xlat) → List Byte → State
  | [], _ => s
  | z :: zs, bs => (s.putBytes z.2.place z.2.cached (bs.take z.1.2)).writeCuts zs (bs.drop z.1.2)

/-- Header bits of a decoder's answer (R261). -/
def Decoded.header (r : Decoded) : Nat := r.iters * 256 + r.synOk.toNat * 2 ^ 16 + r.crcOk.toNat * 2 ^ 17 + r.crc * 2 ^ 24

/-- The operation of a command on its inputs: the status, the header bits above it, and the output (R262, R263). -/
def EngCmd.compute (c : EngCmd) (d0 d1 : List Byte) : Nat × Nat × List Byte :=
  let o := c.opf
  let p := c.param
  let done (r : Decoded) : Nat × Nat × List Byte := (if r.ok then 0 else 1, r.header, packBits r.out)
  match c.opcode with
  | 1 => done (ldpcDecode (opBg o) (opZc o) p (bitsOf o 16 15) (bitsOf o 14 10) (d0.map llrOf))
  | 2 => (0, 0, packBits (ldpcEncode (opBg o) (opZc o) (unpackBits d0 (ldpcInfo (opBg o) * opZc o))))
  | 3 => done (polarDecode (opPolar o p) (d0.map llrOf))
  | 4 => (0, 0, packBits (polarEncodeBits (opPolar o p) (unpackBits d0 ((opPolar o p).k - (polarCrc (opPolar o p).crc).1))))
  | 5 => (0, 0, (rateDematch (opRate o p) (d0.map llrOf) (d1.map llrOf)).map fun v => BitVec.ofInt 8 v)
  | 6 => (0, 0, packBits (rateMatch (opRate o p) (unpackBits d0 ((ldpcCols (opRate o p).bg - 2) * (opRate o p).zc))))
  | _ =>
    let r := crcCheck (crcPoly (bitsOf o 26 24)) (unpackBits d0 (o % 2 ^ 24))
    (if r.2 then 0 else 1, r.2.toNat * 2 ^ 17 + r.1 * 2 ^ 24, [])

/-- A command starts, reads its regions, and writes its output behind the header's place (R236, R261). -/
def State.runCmd (s : State) (c : EngCmd) : State :=
  let put (s : State) (st h : Nat) (f : Word) : State :=
    { s with cmds := s.cmds.map fun x => if x = c then { c with stage := .done st (st + h) f } else x }
  match s.cmdTwin c with
  | some va => put s 5 0 (BitVec.ofNat 64 va)
  | none =>
  match s.readRegion c.agent c.r0 with
  | (.error f, s) => put s f.1 0 f.2
  | (.ok d0, s) =>
    match s.readRegion c.agent c.r1 with
    | (.error f, s) => put s f.1 0 f.2
    | (.ok d1, s) =>
      let (st, h, out) := c.compute d0 d1
      let w : Region := { base := c.wr.base, len := 64 + out.length }
      match s.probeWrite c.agent w.cuts with
      | (.error t, s) => put s (engStatus t.cause) 0 t.value
      | (.ok ps, s) => put (s.writeCuts ((w.cuts.zip ps).drop 1) out) st h 0

/-- The engine's next command runs when it is of this operation. -/
def State.engineRun (s : State) (e opcode : Nat) : Out :=
  match s.enginePick e with
  | some c => if c.opcode = opcode then .next (s.runCmd c) else .next s
  | none => .next s

/-- LDPC_DECODE (R262). -/
def execLdpcDecode (e : Nat) (s : State) : Out := s.engineRun e 1
/-- LDPC_ENCODE (R262). -/
def execLdpcEncode (e : Nat) (s : State) : Out := s.engineRun e 2
/-- POLAR_DECODE (R262). -/
def execPolarDecode (e : Nat) (s : State) : Out := s.engineRun e 3
/-- POLAR_ENCODE (R262). -/
def execPolarEncode (e : Nat) (s : State) : Out := s.engineRun e 4
/-- RATE_DEMATCH (R262). -/
def execRateDematch (e : Nat) (s : State) : Out := s.engineRun e 5
/-- RATE_MATCH (R262). -/
def execRateMatch (e : Nat) (s : State) : Out := s.engineRun e 6
/-- CRC_CHECK (R262). -/
def execCrcCheck (e : Nat) (s : State) : Out := s.engineRun e 7

/-- Whether a command has left the table without a run and not completed. -/
def EngCmd.isUnrun (c : EngCmd) : Bool :=
  match c.stage with
  | .unrun _ => true
  | _ => false

/-- ENGINE_COMPLETION (R261, R263): the header is written where it can be, the counts change, the footprint is released and the
completion leaves; the completion of one that did not run leaves once its engine has a place for it. -/
def execEngineCompletion (e : Nat) (s : State) : Out :=
  match s.cmds.find? fun c => c.engine == e && (c.isDone || (c.isUnrun && (!c.byMessage || s.replyFree c))) with
  | none => .next s
  | some c =>
    match c.stage with
    | .done st h f =>
      let (now, s) := s.sliceNow (e / 2)
      let w : Region := { base := c.wr.base, len := 64 }
      let (header, s) := if (s.twinByte c.root w).isSome then (0, s) else match s.probeWrite c.agent w.cuts with
        | (.ok ps, s) => (h, s.writeCuts (w.cuts.zip ps) (bytesOf h 8 ++ bytesOf now 8 ++ bytesOf f.toNat 8 ++ List.replicate 40 0))
        | (.error _, s) => (0, s)
      let s := { s with cmds := s.cmds.filter (· != c) }
      let s := s.modEngCount e c.tenant fun x => { x with
        completed := x.completed + 1, fault := if 4 ≤ st ∧ st ≤ 7 then f else x.fault }
      .next (s.engReply c st header f)
    | .unrun st => .next (({ s with cmds := s.cmds.filter (· != c) } : State).engReply c st 0 0)
    | _ => .next s

/-- R310: the command of a block fired by a weir, bound to no job. -/
def State.firedCmd (s : State) (w : Nat) (who : Captured) (addr : Word) (ws : List Word) : EngCmd :=
  { engine := bitsOf (ws.getD 0 0).toNat 15 12, tenant := s.weirOwner w, sender := none, addr := addr
    words := ws, root := who.root, deadline := who.deadline, be := who.be, group := s.namedGroup who.group who.tenant
    counted := false, stage := .pending, arrival := 0, discard := false, src := 8 * (w / 512) }

/-- R310: it is submitted; with abort it completes at once, and one that fails its checks completes INVALID. -/
def State.fireCmd (s : State) (w : Nat) (who : Captured) (addr : Word) (ws : List Word) (abort : Bool) : State :=
  let x := s.firedCmd w who addr ws
  if abort || !s.blockOk x then
    let st := if abort then 2 else 8
    if s.replyOk x.reply then s.engUnrun x st
    else s.modEngCount x.engine x.tenant fun y => { y with aborted := y.aborted + 1 }
  else { s with cmds := s.cmds ++ [x] }

end Sys2Proof.Machine
end

