-- ==== Sys2Proof/Machine/Fetch.lean ====
section
/-! DEFINITION. Fetching the words of a chain (R54, R61, R63). -/

namespace Sys2Proof.Machine
open Sys2Proof

/-- What a fetch at an address gives: the words of a chain up to its base word, five prefix words, or a failure at one of
the words. -/
inductive Fetched where
  | chain (ws : List Nat)
  | fifth
  | fails (t : TrapInfo)
  deriving DecidableEq, Repr

/-- One halfword, translated by itself (R61). -/
def State.fetchHalf (s : State) (a : Agent) (va : Word) : Except TrapInfo Nat × State :=
  match s.xlate a va .exec false with
  | (.error t, s) => (.error t, s)
  | (.ok x, s) =>
    if isTwinPa x.place && !s.twinGrants a.owner x.place 2 false then (.error { cause := .protection, value := va }, s)
    else if s.poisoned x.place then (.error { cause := .linkPoison, value := va }, s)
    else if s.eccAt x.place 2 then (.error { cause := .eccUncorrectable, value := va }, s)
    else (.ok (s.bytesAt x.cached x.place 2), s.snoopRead x.place 2)

/-- The words from an address on, with room for so many prefix words. -/
def State.fetchFrom (s : State) (a : Agent) : Nat → Word → List Nat → Fetched × State
  | room, va, ws =>
    match s.fetchHalf a va with
    | (.error t, s) => (.fails t, s)
    | (.ok w, s) =>
      if bitsOf w 15 12 = 15 then
        match room with
        | 0 => (.fifth, s)
        | room + 1 => s.fetchFrom a room (va + 2) (ws ++ [w])
      else (.chain (ws ++ [w]), s)

/-- The chain at an address as a context fetches it; an odd address is not fetched from (R54). -/
def State.fetchChain (s : State) (cx : Nat) (va : Word) : Fetched × State :=
  if va.getLsbD 0 then (.fails { cause := .misaligned, value := va }, s)
  else s.fetchFrom (s.agentOf cx (s.ctx cx)) 4 va []

end Sys2Proof.Machine
end

