-- ==== Sys2Proof/Machine/Jobs.lean ====
section
/-! DEFINITION. Launch records, jobs and the Governor: page 0x68, launches from every source, dispatch, displacement and
parking, deadlines and abandonment, budgets and load averaging, and the packets of fired weirs (R268 to R297, R305, R310). -/

namespace Sys2Proof.Machine
open Sys2Proof

/-! ### Launch records (R270 to R274) -/

/-- The words of a record (R270). -/
def LaunchRec.ofWords (ws : List Nat) : LaunchRec :=
  let w (i : Nat) : Word := BitVec.ofNat 64 (ws.getD i 0)
  { pc := w 0, arg := w 1, wid := w 2, deadline := w 3, control := w 4, layout := w 5, abword := w 6, abaddr := w 7 }

/-- The fields of the control word (R271). -/
def LaunchRec.rsv (r : LaunchRec) : Nat := bitsOf r.control.toNat 63 52
def LaunchRec.group (r : LaunchRec) : Nat := bitsOf r.control.toNat 51 44
def LaunchRec.clusters (r : LaunchRec) : Nat := bitsOf r.control.toNat 43 32
def LaunchRec.demote (r : LaunchRec) : Bool := bit r.control.toNat 28
def LaunchRec.be (r : LaunchRec) : Bool := bit r.control.toNat 27
def LaunchRec.matrix (r : LaunchRec) : Bool := bit r.control.toNat 26
def LaunchRec.vlc (r : LaunchRec) : Nat := bitsOf r.control.toNat 25 24
def LaunchRec.count (r : LaunchRec) : Nat := bitsOf r.control.toNat 23 8
def LaunchRec.level (r : LaunchRec) : Nat := bitsOf r.control.toNat 2 0
/-- The completion weir of the layout word (R272). -/
def LaunchRec.weir (r : LaunchRec) : Nat := bitsOf r.layout.toNat 60 48

/-- W(l) of a layout word (R272). -/
def widWidth (layout : Word) (l : Nat) : Nat := if l < 6 then bitsOf layout.toNat (35 - 6 * l) (30 - 6 * l) else 0
/-- lo(l) of a layout word (R272). -/
def widLo (layout : Word) (l : Nat) : Nat := 64 - (List.range (l + 1)).foldl (fun n i => n + widWidth layout i) 0
/-- The field of a level in a WID (R272, R295). -/
def widField (layout wid : Word) (l : Nat) : Nat := wid.toNat / 2 ^ widLo layout l % 2 ^ widWidth layout l
/-- wid(i) (R273). -/
def LaunchRec.childWid (r : LaunchRec) (i : Nat) : Word :=
  let l := widLo r.layout r.level
  (r.wid &&& ~~~(BitVec.ofNat 64 ((2 ^ widWidth r.layout r.level - 1) * 2 ^ l))) ||| BitVec.ofNat 64 (i * 2 ^ l)

/-- R274: whether a tenant owns a core of a cluster in any window of the table. -/
def State.ownsIn (s : State) (tenant k : Nat) : Bool :=
  match s.sluice.table with
  | none => false
  | some t => (List.range t.nwin).any fun i => (List.range 8).any fun c => t.coreOwner (t.winSet i) (8 * k + c) == tenant

/-- The reduced mask (R274); a cluster that is not ready accepts no launch (R420). -/
def State.reducedMask (s : State) (tenant clusters : Nat) : Nat :=
  (List.range 12).foldl (fun m k => if bit clusters k && s.ownsIn tenant k && s.power.cluster.get false k then m + 2 ^ k else m) 0

/-- R274: the abandon address of a record. -/
def LaunchRec.addrOk (r : LaunchRec) : Bool := r.abaddr.toNat % 8 == 0 && decide (r.abaddr.toNat < 2 ^ 47)
/-- R274: the completion weir of a record. -/
def LaunchRec.weirOk (r : LaunchRec) : Bool := r.weir == 0x1FFF || decide (r.weir / 512 < 12)

/-- R274. -/
def State.recordOk (s : State) (tenant : Nat) (r : LaunchRec) : Bool :=
  let c := r.control.toNat
  let l := r.layout.toNat
  bitsOf c 31 29 == 0 && bitsOf c 7 3 == 0 && bitsOf l 63 61 == 0 && bitsOf l 47 36 == 0 && r.vlc != 3 &&
    r.pc.toNat % 2 == 0 && decide (r.pc.toNat < 2 ^ 48) &&
    decide ((List.range 6).foldl (fun n i => n + widWidth r.layout i) 0 ≤ 64) && decide (r.level < 6) &&
    decide (1 ≤ r.count) && decide (r.count ≤ 2 ^ widWidth r.layout r.level) && r.weirOk &&
    (r.rsv == 0xFFF || (match s.rsvs.find? r.rsv with
      | some x => x.tenant == tenant
      | none => false)) &&
    r.addrOk && s.reducedMask tenant r.clusters != 0

/-- Which reservation an id names. -/
def State.rsvGen (s : State) (r : Nat) : Nat := ((s.rsvs.find? r).map (·.gen)).getD 0

/-- What every child of a launch takes (R275), where the launch has no parent; dl is the deadline a record's 0 stands for. -/
def State.template (s : State) (tenant : Nat) (r : LaunchRec) (origin : Origin) (dl : Word) : Job :=
  { tenant := tenant, layout := r.layout, deadline := if r.deadline = 0 then dl else r.deadline, be := r.be, demote := r.demote
    vlc := r.vlc, matrix := r.matrix, group := s.namedGroup r.group tenant
    reservation := if r.rsv = 0xFFF then none else some r.rsv, rsvGen := s.rsvGen r.rsv, weir := r.weir, abword := r.abword, abaddr := r.abaddr
    mask := s.reducedMask tenant r.clusters, pc := r.pc, arg := r.arg, origin := origin }

/-! ### Records of the Governors, readiness and handles (R275, R278, R281) -/

/-- Whether a job stands in a record of its cluster's Governor: parked or to be parked, or the lowest queued child of its range (R281). -/
def State.takesRecord (s : State) (h : Nat) (j : Job) : Bool :=
  match j.state with
  | .parked _ => true
  | .parking _ => true
  | .queued =>
    !s.jobs.any fun (x : Nat × Job) =>
      decide (x.1 < h) && x.2.state == .queued && x.2.launch == j.launch && x.2.range == j.range && x.2.cluster == j.cluster
  | _ => false

/-- Free records of a Governor (R281); a job on its way there has one. -/
def State.freeRecords (s : State) (k : Nat) : Nat :=
  1024 - (s.jobs.filter fun (x : Nat × Job) => x.2.cluster == k && s.takesRecord x.1 x.2).length -
    (s.moves.filter fun m => m.to_ == k && m.arrived.isNone).length

/-- The reservation of a job, while it is admitted (R278). -/
def State.rsvOf (s : State) (j : Job) : Option Rsv :=
  match j.reservation.bind s.rsvs.find? with
  | some r => if r.gen = j.rsvGen then some r else none
  | none => none

/-- R278: the budget of its reservation is used. -/
def State.heldJob (s : State) (j : Job) : Bool :=
  match s.rsvOf j with
  | some r => decide (r.q ≤ r.consumed)
  | none => false

/-- R268, R287: the deadline of an RT job has passed, at a time of its cluster. -/
def State.passed (s : State) (j : Job) (now : Nat) : Bool := s.time.everLocked && !j.be && !j.late && decide (j.deadline.toNat ≤ now)

/-- Handles that are not given: those of live jobs, of the first children of their launches (R281) and of their ancestors, and of jobs whose work is still outstanding
(notes/assumptions/15.md). -/
def State.handleBusy (s : State) (h : Nat) : Bool :=
  s.jobs.any (fun (x : Nat × Job) => x.1 == h || x.2.launch == h || x.2.ancestors.contains h) ||
    s.cmds.any (fun c => c.sender.map Sender.job == some h) ||
    s.clusters.any (fun (k : Nat × Cluster) => k.2.strips.any fun x => x.sender.job == h) ||
    s.weirArrivals.any (fun x => x.sender.map Sender.job == some h) ||
    s.barrierArrivals.any (fun x => x.sender.map Sender.job == some h)

/-- n consecutive handles from b on, none of them busy. -/
def State.handleRun (s : State) (n : Nat) : Nat → Nat → Nat
  | 0, b => b
  | fuel + 1, b =>
    match (List.range n).find? fun i => s.handleBusy ((b + i) % 2 ^ 32) with
    | none => b
    | some i => s.handleRun n fuel ((b + i + 1) % 2 ^ 32)

/-- How many busy handles there can be, so many tries find a free run. -/
def State.busyBound (s : State) : Nat :=
  s.jobs.foldl (fun n (x : Nat × Job) => n + 2 + x.2.ancestors.length) 1 + s.cmds.length +
    s.clusters.foldl (fun n (x : Nat × Cluster) => n + x.2.strips.length) 0 + s.weirArrivals.length + s.barrierArrivals.length

/-- COUNT consecutive handles: which is free (R275). -/
def State.takeHandles (s : State) (n : Nat) : Nat × State :=
  let (b, s) := s.drawNat
  (s.handleRun n s.busyBound (b % 2 ^ 32), s)

/-! ### Launches (R275, R281, R282) -/

/-- Clusters of a mask. -/
def maskClusters (m : Nat) : List Nat := (List.range 12).filter fun k => bit m k

/-- The user of a core: its owner in the current window, or its borrower (R284). -/
def State.userOf (s : State) (c : Nat) : Nat :=
  match (s.core c).loan with
  | some l => l.to_
  | none => (s.core c).owner

/-- R340: whether a core's next edge is at most 64 ns away at the last time its cluster read. -/
def State.guardDue (s : State) (c : Nat) : Bool :=
  match s.sluice.table, s.sluice.clusterWin.get none (clusterOf c) with
  | some t, some w => t.ownerIn (t.nextWin w) c != t.ownerIn w c && decide (t.winEnd w ≤ s.time.cluster.get 0 (clusterOf c) + 64)
  | _, _ => false

/-- R340, R341, R344, R358: whether jobs may be placed on a core for its user. -/
def State.coreOpen (s : State) (c : Nat) : Bool :=
  let k := s.core c
  k.edge.isNone && !k.guarded && !s.guardDue c && !s.gated (.core c) && !s.gated (.cluster (clusterOf c)) &&
    !(k.quarIdle && s.sluice.quar.getLsbD k.owner)

/-- Cores of a cluster on which jobs of a tenant may be placed. -/
def State.openCores (s : State) (k tenant : Nat) : List Nat :=
  ((List.range 8).map fun i => 8 * k + i).filter fun c => s.userOf c == tenant && s.coreOpen c

/-- A ready job: a queued one, or a handler that waits in its entry (R281, R305). -/
structure ReadyJob where
  ref : QueuedRef
  deadline : Nat
  since : Nat
  handle : Nat
  vlc : Nat
  matrix : Bool
  core : Option Nat
  deriving DecidableEq, Repr

/-- R281: the earlier deadline, then the earlier time of becoming ready, then the lower handle. -/
def ReadyJob.before (a b : ReadyJob) : Bool :=
  if a.deadline ≠ b.deadline then decide (a.deadline < b.deadline)
  else if a.since ≠ b.since then decide (a.since < b.since)
  else decide (a.handle < b.handle)

/-- Queued ready jobs of a tenant and class in a cluster. -/
def State.readyQueued (s : State) (k tenant : Nat) (be : Bool) (now : Nat) : List ReadyJob :=
  s.jobs.filterMap fun (x : Nat × Job) =>
    let j := x.2
    if j.state == .queued && j.cluster == k && j.tenant == tenant && j.be == be && !s.heldJob j && !s.passed j now then
      some { ref := .job x.1, deadline := j.deadline.toNat, since := j.ready, handle := x.1, vlc := j.vlc, matrix := j.matrix, core := none }
    else none

/-- R305: handlers of a tenant and class that may start on a core: the first of each enabled tag. -/
def State.readyHandlers (s : State) (c tenant : Nat) (be : Bool) (now : Nat) : List ReadyJob :=
  let k := s.core c
  (k.entries.zipIdx).filterMap fun (x : HandlerEntry × Nat) =>
    let e := x.1
    let t := k.tags.get {} e.tag
    if e.tenant == tenant && t.en && t.be == be && !(k.entries.take x.2).any (fun y => y.tag == e.tag) &&
        !(s.time.everLocked && !t.be && decide ((e.due t).toNat ≤ now)) then
      some { ref := .handler c x.2, deadline := (e.due t).toNat, since := e.ready, handle := 2 ^ 32, vlc := t.vlc, matrix := t.matrix, core := some c }
    else none

/-- The ready queue of a tenant and class in a cluster (R281). -/
def State.readyOf (s : State) (k tenant : Nat) (be : Bool) (now : Nat) : List ReadyJob :=
  s.readyQueued k tenant be now ++ (s.openCores k tenant).flatMap fun c => s.readyHandlers c tenant be now

def earliest (xs : List ReadyJob) : Option ReadyJob :=
  xs.foldl (fun b x => match b with
    | some y => if x.before y then some x else some y
    | none => some x) none

/-- R282: the clusters of a mask by rank. -/
def State.rankClusters (s : State) (mask tenant : Nat) (be : Bool) (home : Nat) : List Nat :=
  let ks := maskClusters mask
  if be then (if ks.contains home then home :: ks.filter (· != home) else ks)
  else
    let key (k : Nat) : Option Nat := (earliest (s.readyOf k tenant false (s.time.cluster.get 0 k))).map (·.deadline)
    let later (a b : Option Nat) : Bool := match a, b with
      | none, some _ => true
      | some x, some y => decide (y < x)
      | _, none => false
    let insert (k : Nat) (xs : List Nat) : List Nat := xs.takeWhile (fun y => !later (key k) (key y)) ++ k :: xs.dropWhile (fun y => !later (key k) (key y))
    ks.foldl (fun xs k => insert k xs) []

/-- A child enters its cluster's Governor. -/
def State.addChild (s : State) (r : LaunchRec) (t : Job) (base i k now : Nat) (lost : Bool) : State :=
  let h := (base + i) % 2 ^ 32
  let j := { t with wid := r.childWid i, cluster := k, launch := base, ready := now
                    state := if lost then .abandoning (numCtx + h) 0 else .queued }
  let s := s.putJob h j
  if lost || s.heldJob j then s else s.startGroup j.group

/-- A launch placed slice by slice (R282); where a Governor has no free record the slice is lost, unless the launch has waited
for records (R281). -/
def State.place (s : State) (r : LaunchRec) (t : Job) (home : Nat) (mayLose dead : Bool) : Nat × State :=
  let (base, s) := s.takeHandles r.count
  let ks := s.rankClusters t.mask t.tenant t.be home
  let per := (r.count + ks.length - 1) / ks.length
  let s := (ks.zipIdx).foldl (fun (s : State) (x : Nat × Nat) =>
    let kids := (List.range r.count).filter fun i => i / per == x.2
    if kids.isEmpty then s
    else
      let lost := mayLose && s.freeRecords x.1 == 0
      let (now, s) := s.clusterNow x.1
      let s := kids.foldl (fun s i => s.addChild r t base i x.1 now (lost || dead)) s
      if lost && !dead then { s with lostLaunch := s.lostLaunch.set 0 t.tenant (s.lostLaunch.get 0 t.tenant + kids.length) } else s) s
  (base, s)

/-- The root an owner's never-started jobs are served with (R431). -/
def State.rootOf (s : State) (owner : Nat) : Word := s.tbl.root owner

/-- R288 step 7: the abandon word under the tenant, and the ABORT arrival from a cluster. -/
def State.abandonAct (s : State) (a : Agent) (from_ : Nat) (abword abaddr : Word) (weir : Nat) : State :=
  let s := if abaddr = 0 then s else
    match s.access a abaddr 8 .write true with
    | (.ok x, s) => s.putBytes x.place x.cached (bytesOf abword.toNat 8)
    | (.error _, s) => { s with abwFail := s.abwFail.set 0 a.owner (s.abwFail.get 0 a.owner + 1) }
  if weir = 0x1FFF then s
  else
    let y : WeirArrival := {
      source := .cluster from_, weir := weir, tenant := a.owner, weight := 1, abort := true, sender := none, sent := s.sched.steps }
    { s with weirArrivals := s.weirArrivals ++ [y] }

/-- R274, R310: a launch without a valid record is not made; its abandon action still runs where its fields allow. -/
def State.recordFails (s : State) (tenant : Nat) (r : LaunchRec) : State :=
  if r.addrOk && r.weirOk then
    s.abandonAct { owner := tenant, root := s.rootOf tenant, user := true, core := none, cluster := none } 0 r.abword r.abaddr r.weir
  else s

/-- SPAWN (R292). -/
def execSpawn (d a : SReg) (s : State) : Out :=
  s.heldOp [a] [d] fun s =>
    let c := s.curCtx
    let sa := c.reg a
    if sa.toNat % 64 ≠ 0 then s.trapCur .misaligned sa
    else s.loadWords sa 8 fun s ws =>
      match s.jobOf c, c.job with
      | some j, some h =>
        let r := LaunchRec.ofWords ws
        if !s.recordOk j.tenant r then s.trapCur .launchInvalid sa
        else
          let mask := s.reducedMask j.tenant r.clusters
          if (maskClusters mask).any fun k => s.freeRecords k ≤ 128 then .next (s.waitOn (.records mask))
          else if s.pendClasses s.sched.cur c 3 c.ord then .next s
          else
            let t := s.template j.tenant r .spawn j.deadline
            let t := { t with
              be := r.be || j.be || j.late, reservation := if r.rsv = 0xFFF then j.reservation else some r.rsv
              rsvGen := if r.rsv = 0xFFF then j.rsvGen else s.rsvGen r.rsv
              parent := some h, ancestors := h :: j.ancestors }
            let (base, s) := s.place r t (clusterOf (coreOf s.sched.cur)) false false
            .next (s.complete fun c => c.setReg d (BitVec.ofNat 64 base))
      | _, _ => .next s

/-! ### The end of a job (R278, R288 step 8, R293, R304) -/

/-- R278: the budget of a job that holds a context is charged up to now. -/
def State.charge (s : State) (h : Nat) : State :=
  match s.job? h with
  | none => s
  | some j =>
    match j.reservation with
    | none => s
    | some r =>
      let (now, s) := s.clusterNow j.cluster
      let s := s.putJob h { j with charged := now }
      match s.rsvOf j with
      | some x => { s with rsvs := s.rsvs.insert r { x with consumed := x.consumed + (now - j.charged) } }
      | none => s

/-- Whether a job holds a context of a core. -/
def JobState.inContext : JobState → Option Nat
  | .running cx => some cx
  | .parking cx => some cx
  | .abandoning cx _ => if cx < numCtx then some cx else none
  | _ => none

/-- A context and the matrix unit its job held are cleared (R89, R155). -/
def State.clearContext (s : State) (cx h : Nat) : State :=
  let s := { s with ctxs := s.ctxs.erase cx }
  s.modCore (coreOf cx) fun k => { k with
    idleSince := s.time.cluster.get 0 (clusterOf (coreOf cx)), mx := if k.mx.job = some h then {} else k.mx }

/-- A job leaves the device: budget, launch group, reply right, context and handle. -/
def State.endJob (s : State) (h : Nat) (abandoned : Bool) : State :=
  match s.job? h with
  | none => s
  | some j =>
    let c := s.ctx (s.refOf h)
    let s := if j.state.inContext.isSome then s.charge h else s
    let s := if j.group = 0xFF then s else s.modGroup j.group fun g =>
      { g with ended := g.ended + 1, abandoned := g.abandoned + abandoned.toNat }
    let s := match c.replyRight with
      | some core => s.sendRelease (coreOf (j.lastCx.getD 0)) core j.tenant
      | none => s
    let s := match j.state.inContext with
      | some cx => s.clearContext cx h
      | none => s
    s.dropJob h

/-- Every access and operation JEND waits for (R293). -/
def State.drained (s : State) (cx : Nat) (c : Ctx) : Bool :=
  c.vq.isEmpty && c.cntLd == 0 && c.cntSt == 0 && s.cntMx cx c == 0 && c.cntEn == 0

/-- JEND (R293). -/
def execJend (s : State) : Out :=
  s.heldOp [] [] fun s =>
    let c := s.curCtx
    let cx := s.sched.cur
    if s.pdepth cx c ≠ 0 then s.trapCur .illegalInstruction 0
    else if !s.drained cx c then .next (s.waitOn .drained)
    else
      match s.mxOf cx c, s.jobOf c, c.job with
      | some m, some j, some h =>
        if m.fpend then s.trapWith (·.setMx cx { m with fpend := false }) .mxFault m.faddr else .next (commit s j h)
      | none, some j, some h => .next (commit s j h)
      | _, _, _ => .next s
where
  /-- The commit: the arrival at the completion weir, and the end of the job. -/
  commit (s : State) (j : Job) (h : Nat) : State :=
    let s := if j.weir = 0x1FFF then s
      else
        let y : WeirArrival := {
          source := .cluster j.cluster, weir := j.weir, tenant := j.tenant, weight := 1, abort := false, sender := none, sent := s.sched.steps }
        { s with weirArrivals := s.weirArrivals ++ [y] }
    s.endJob h false

/-! ### Deadline and identity instructions (R294 to R296) -/

/-- JDEAD (R294). -/
def execJdead (d : SReg) (s : State) : Out :=
  s.heldOp [] [d] fun s =>
    let (now, s) := s.clusterNow (clusterOf (coreOf s.sched.cur))
    let dl := ((s.jobOf s.curCtx).map (·.deadline)).getD 0
    .next (s.complete fun c => c.setReg d (dl - BitVec.ofNat 64 now))

/-- JTIGHT (R294). -/
def execJtight (d a : SReg) (s : State) : Out :=
  s.heldOp [a] [d] fun s =>
    let c := s.curCtx
    let v := c.reg a
    match c.job, s.jobOf c with
    | some h, some j =>
      let dl := if v ≠ 0 ∧ v.ult j.deadline then v else j.deadline
      .next ((s.putJob h { j with deadline := dl }).complete fun c => c.setReg d dl)
    | _, _ => .next s

/-- JWID (R295). -/
def execJwid (d a : SReg) (lvl : Fin 6) (s : State) : Out :=
  s.heldOp [a] [d] fun s =>
    let layout := ((s.jobOf s.curCtx).map (·.layout)).getD 0
    .next (s.complete fun c => c.setReg d (BitVec.ofNat 64 (widField layout (c.reg a) lvl.val)))

/-- JSELF's word (R295). -/
def selfWord (j : Job) (h cx : Nat) : Word :=
  BitVec.ofNat 64 (h + 2 ^ 32 * coreOf cx + 2 ^ 40 * (cx % 4) + 2 ^ 44 * clusterOf (coreOf cx) + 2 ^ 48 * j.late.toNat + 2 ^ 49 * (j.be || j.late).toNat)

/-- JSELF (R295). -/
def execJself (d : SReg) (s : State) : Out :=
  s.heldOp [] [d] fun s =>
    match s.jobOf s.curCtx, s.curCtx.job with
    | some j, some h => .next (s.complete fun c => c.setReg d (selfWord j h s.sched.cur))
    | _, _ => .next s

/-- A job of this device lives under a handle: not ended, abandoned or dropped (R290). -/
def State.live (s : State) (h : Nat) : Option Job :=
  match s.job? h with
  | some j =>
    match j.state with
    | .abandoning _ _ => none
    | _ => some j
  | none => none

/-- JABORT (R296). -/
def execJabort (d a : SReg) (s : State) : Out :=
  s.heldOp [a] [d] fun s =>
    let c := s.curCtx
    let v := c.reg a
    match c.job with
    | none => .next s
    | some h =>
      if v = 0 then .next (s.abandonJob h)
      else if v.toNat / 2 ^ 32 ≠ 0 then s.trapCur .illegalInstruction v
      else
        match s.live v.toNat with
        | some j =>
          if j.ancestors.contains h then .next ((s.abandonJob v.toNat).complete fun c => c.setReg d 0)
          else .next (s.complete fun c => c.setReg d 1)
        | none => .next (s.complete fun c => c.setReg d 1)

/-- JINFO's item (R295). -/
def State.jobInfo (s : State) (j : Job) : Nat → Word
  | 0 =>
    let started := match j.origin with
      | .message => true
      | .trigger => true
      | _ => false
    let root := match j.origin with
      | .root _ => true
      | _ => false
    BitVec.ofNat 64 (j.late.toNat + 2 * (j.be || j.late).toNat + 4 * j.vlc + 16 * j.matrix.toNat + 32 * started.toNat +
      64 * (j.origin == .weir).toNat + 128 * root.toNat)
  | 1 => match j.parent with
    | some p => BitVec.ofNat 64 p
    | none => BitVec.allOnes 64
  | 2 => BitVec.ofNat 64 (j.reservation.getD 0xFFF)
  | 3 => BitVec.ofNat 64 j.ready
  | 4 => BitVec.ofNat 64 (j.dispatched.getD 0)
  | 5 => match s.rsvOf j with
    | some r => BitVec.ofInt 64 ((r.q : Int) - r.consumed)
    | none => 0
  | 6 => BitVec.ofNat 64 j.weir
  | _ => j.abaddr

/-- JINFO (R295). -/
def execJinfo (d : SReg) (sel : Fin 8) (s : State) : Out :=
  s.heldOp [] [d] fun s =>
    match s.jobOf s.curCtx with
    | some j => .next (s.complete fun c => c.setReg d (s.jobInfo j sel.val))
    | none => .next s

/-! ### Waits (R290, R363) -/

/-- Whether what a context waits on has come (R105, R245, R281, R293, R312). -/
def State.waitOver (s : State) (cx : Nat) (c : Ctx) : Wait → Bool
  | .counters ld st cp mx en =>
    let within (n lim : Nat) : Bool := lim == 15 || decide (n ≤ lim)
    within c.cntLd ld && within c.cntSt st && within c.cntCp cp && within (s.cntMx cx c) mx && within c.cntEn en
  | .records mask => (maskClusters mask).all fun k => decide (128 < s.freeRecords k)
  | .drained => s.drained cx c
  | .chunks k m mask all => if all then s.chunkMap k m &&& mask == mask else s.chunkMap k m &&& mask != 0
  | .flume k f push => if push then !(s.flume k f).full else ctr16 (s.flume k f).fill (s.flume k f).pop != 0
  | .barrier core id gen => (s.barrier core id).err || (s.barrier core id).gen != gen
  | .until _ _ => false
  | .object => false
  | .stopped => false
  | .saving x => (s.ctx x).status != .running

/-- WAIT_SATISFIED (R290): the instruction executes again. -/
def execWaitSatisfied (cx : Nat) (s : State) : Out :=
  let c := s.ctx cx
  match c.status with
  | .waiting w => if s.waitOver cx c w then .next (s.setCtx cx { c with status := .running }) else .next s
  | _ => .next s

/-- IDLE_EXPIRE (R363). -/
def execIdleExpire (cx : Nat) (s : State) : Out :=
  let c := s.ctx cx
  match c.status with
  | .waiting (.until t _) =>
    let (now, s) := s.clusterNow (clusterOf (coreOf cx % 96))
    if t ≤ now then .next (s.modCtx cx fun c => { c with status := .running }) else .next s
  | _ => .next s

/-! ### Placement (R283, R284) -/

/-- Bits of a VL class (R5, R283). -/
def grantOf (vlc : Nat) : Nat := 1024 * 2 ^ vlc
/-- The quads a job holds from its lowest (R283). -/
def quadSpan (vlc q : Nat) : List Nat :=
  match vlc with
  | 0 => [q]
  | 1 => [q, q + 1]
  | _ => [0, 1, 2, 3]

/-- Jobs that hold contexts of a core, but for those in a list. -/
def State.onCore (s : State) (c : Nat) (gone : List Nat) : List (Nat × Job) :=
  (List.range 4).filterMap fun x =>
    match (s.ctx (4 * c + x)).job with
    | some h => if gone.contains h then none else (s.job? h).map fun j => (h, j)
    | none => none

/-- R283: whether a job of a class fits a core once the jobs of a list have left it, and its lowest quad. -/
def State.fitAt (s : State) (c vlc : Nat) (matrix : Bool) (gone : List Nat) : Option Nat :=
  let here := s.onCore c gone
  let busy (q : Nat) : Bool := s.gated (.quad c q) || here.any fun x => (quadSpan x.2.vlc x.2.quad).contains q
  let free (q : Nat) : Bool := (quadSpan vlc q).all fun i => !busy i
  let unit := !matrix || (!s.gated (.matrix c) && match (s.core c).mx.job with
    | none => true
    | some h => gone.contains h)
  if decide (here.length < 4) && unit then
    (match vlc with
     | 0 => [0, 1, 2, 3]
     | 1 => [0, 2]
     | _ => [0]).find? free
  else none

/-- A place for a job. -/
structure Fit where
  core : Nat
  quad : Nat
  deriving DecidableEq, Repr

/-- R283: the core a job takes among some, by the three ranks. -/
def State.pick (s : State) (cores : List Nat) (vlc : Nat) (matrix : Bool) : Option Fit :=
  let fits := cores.filterMap fun c => (s.fitAt c vlc matrix []).map fun q => ({ core := c, quad := q } : Fit)
  let first (p : List (Nat × Job) → Bool) : Option Fit := fits.find? fun f => p (s.onCore f.core [])
  (first fun js => js.any fun x => x.2.vlc == vlc) <|> (first fun js => !js.isEmpty) <|> fits.head?

/-- The context of a core that a job takes: the lowest free one (notes/assumptions/83.md). -/
def State.freeSlot (s : State) (c : Nat) : Nat :=
  4 * c + ((List.range 4).find? fun x => (s.ctx (4 * c + x)).job.isNone).getD 0

/-- R332: the stack top of a context. -/
def State.stackTop (s : State) (owner cx : Nat) : Word :=
  let w := s.tbl.coreRegion (coreOf cx) owner
  BitVec.ofNat 64 (0x7F0000000000 + regionSize w - cx % 4 * regionStack w)

/-- R89, R305, R326: a context at the start of a job. -/
def State.startCtx (s : State) (h : Nat) (j : Job) (cx : Nat) : Ctx :=
  let c : Ctx := { job := some h, status := .running, pc := j.pc, grant := grantOf j.vlc, ptbase := s.rootOf j.tenant, replyRight := j.replyRight }
  let c := ((c.setReg 2 (s.stackTop j.tenant cx)).setReg 3 j.arg).setReg 4 j.wid
  (j.payload.zipIdx).foldl (fun c (x : Word × Nat) => c.setReg (Fin.ofNat 32 (16 + x.2)) x.1) c

/-- The matrix unit of a job that starts or resumes on a core (R155, R174). -/
def State.giveMx (s : State) (c h : Nat) (j : Job) : State :=
  if j.matrix then s.modCore c fun k => { k with mx := { j.mx.getD {} with job := some h } } else s

/-- A job starts, or resumes from its image, in a context of a core. -/
def State.enter (s : State) (h : Nat) (j : Job) (cx quad : Nat) : State :=
  let (now, s) := s.clusterNow (clusterOf (coreOf cx))
  let c := j.img.getD (s.startCtx h j cx)
  let s := s.giveMx (coreOf cx) h j
  let j := { j with
    state := .running cx, img := none, mx := none, quad := quad, park := none, lastCx := some cx, charged := now, cluster := clusterOf (coreOf cx)
    dispatched := some (j.dispatched.getD now) }
  (s.putJob h j).setCtx cx c

/-- The registers and properties of a handler that starts from an entry (R182, R304, R305). -/
def HandlerEntry.job (e : HandlerEntry) (t : RouteTag) (c : Nat) : Job :=
  let (payload, origin) : List Word × Origin := match e.kind with
    | .trigger g => ([g.mailbox, BitVec.ofNat 64 g.version, BitVec.ofNat 64 g.merges], .trigger)
    | _ => (e.payload, .message)
  { tenant := e.tenant, deadline := e.due t, be := t.be, vlc := t.vlc, matrix := t.matrix, group := e.group, pc := t.handler
    payload := payload, origin := origin, msrc := e.src, mtag := some e.tag, cluster := clusterOf c, ready := e.ready
    replyRight := if e.kind == .request then e.src else none }

/-- A ready job starts on a core of a list, where it fits one (R284 steps 1 and 4). -/
def State.startOn (s : State) (cores : List Nat) (r : ReadyJob) : Option State :=
  let cores := match r.core with
    | some c => cores.filter (· == c)
    | none => cores
  match s.pick cores r.vlc r.matrix with
  | none => none
  | some f =>
    let cx := s.freeSlot f.core
    match r.ref with
    | .job h => (s.job? h).map fun j => s.enter h j cx f.quad
    | .handler c i =>
      (s.core c).entries[i]?.map fun e =>
        let (h, s) := s.takeHandles 1
        let s := s.modCore c fun k => { k with entries := k.entries.eraseIdx i }
        s.enter h { e.job ((s.core c).tags.get {} e.tag) c with launch := h } cx f.quad

/-! ### Displacement and parking (R285) -/

/-- A context stops for its image to be saved (R87, R341): a wait is left, a stopped context stays stopped. -/
def State.halted (s : State) (cx : Nat) (c : Ctx) : Ctx :=
  { s.squashed cx c with status := if c.status = .waiting .stopped then c.status else .running }

/-- R174: a matrix unit saved; a waiting share is abandoned. -/
def MatrixUnit.save (m : MatrixUnit) : MatrixUnit := { m with queue := m.queue.map fun c => { c with sharing := false, shared := none } }

/-- R174: no command of the unit is between its last segment and its completion. -/
def MatrixUnit.drained (m : MatrixUnit) : Bool := m.queue.all fun c => !c.begun || decide (0 < c.left)

/-- A job's context becomes its image (R107, R174). -/
def State.saveImage (s : State) (h cx : Nat) (st : JobState) : State :=
  let s := s.charge h
  let m := (s.core (coreOf cx)).mx
  let s := s.modJob h fun j => { j with
    state := st, img := some (s.ctx cx), mx := if m.job = some h then some m.save else none }
  s.clearContext cx h

/-- Bytes of a parked image: that of R360, which without a matrix unit leaves out the tiles (notes/assumptions/82.md). -/
def imageBytesOf (matrix : Bool) : Nat := if matrix then 0x15800 else 0x5800
def Job.imageBytes (j : Job) : Nat := imageBytesOf j.matrix

/-- A parked image, or one that will be parked once its started work is complete. -/
def JobState.parks : JobState → Option Nat
  | .parked cx => some cx
  | .parking cx => some cx
  | _ => none

/-- Bytes in use of a cluster's 640 KiB of parking space, which also takes the images saved at the end of a loan (R9, R351). -/
def State.parkedIn (s : State) (k : Nat) : Nat :=
  s.jobs.foldl (fun n (x : Nat × Job) =>
    let here (cx : Nat) : Bool := clusterOf (coreOf cx) == k
    match x.2.state with
    | .saved cx => if x.2.onLoan && here cx then n + x.2.imageBytes else n
    | st => match st.parks with
      | some cx => if x.2.park.isNone && here cx then n + x.2.imageBytes else n
      | none => n) 0

/-- Bytes in use of a slice's 64 KiB of overflow parking (R9). -/
def State.overflowIn (s : State) (sl : Nat) : Nat :=
  s.jobs.foldl (fun n (x : Nat × Job) => if x.2.state.parks.isSome && x.2.park == some sl then n + x.2.imageBytes else n) 0

/-- Where the image of a job of a cluster is parked: in the cluster's space, else in the overflow of the nearest slice; none where
neither has room, or the Governor has no record (R281). -/
def State.parkPlaceOf (s : State) (k : Nat) (j : Job) : Option (Option Nat) :=
  if s.freeRecords k = 0 then none
  else if s.parkedIn k + j.imageBytes ≤ 640 * 1024 then some none
  else if s.overflowIn (nearestSlice k) + j.imageBytes ≤ 64 * 1024 then some (some (nearestSlice k))
  else none

/-- A BE or demoted job is displaced: its context is squashed, and its image is parked once its started work is complete. -/
def State.displace (s : State) (h : Nat) : State :=
  match s.job? h with
  | some j =>
    match j.state, s.parkPlaceOf j.cluster j with
    | .running cx, some p => (s.setCtx cx (s.halted cx (s.ctx cx))).putJob h { j with state := .parking cx, park := p }
    | _, _ => s
  | none => s

/-- Whether every job of a list finds parking space, one after the other. -/
def State.canPark (s : State) : List Nat → Bool
  | [] => true
  | h :: hs =>
    match s.job? h with
    | some j => (s.parkPlaceOf j.cluster j).isSome && (s.displace h).canPark hs
    | none => false

/-- Displaced jobs of a cluster whose started vector and matrix work is complete are parked (R174). -/
def State.parkDisplaced (s : State) (k : Nat) : State :=
  s.jobs.foldl (fun (s : State) (x : Nat × Job) =>
    match x.2.state with
    | .parking cx => if clusterOf (coreOf cx) == k && (s.ctx cx).vq.isEmpty && ((s.mxOf cx (s.ctx cx)).all (·.drained)) then
        (s.saveImage x.1 cx (.parked cx)).modCore (coreOf cx) fun k => { k with branches := [] }
      else s
    | _ => s) s

/-- The sublists of a list. -/
def subsets {α : Type} : List α → List (List α)
  | [] => [[]]
  | x :: xs => subsets xs ++ (subsets xs).map (x :: ·)

/-- A number into a falling list. -/
def insertDesc (n : Nat) : List Nat → List Nat
  | [] => [n]
  | m :: ms => if m ≤ n then n :: m :: ms else m :: insertDesc n ms

/-- A choice of jobs to displace on a core, with their deadlines from the latest on. -/
structure Displacement where
  core : Nat
  jobs : List Nat
  deadlines : List Nat
  deriving DecidableEq, Repr

/-- The later of two falling lists of deadlines. -/
def laterList : List Nat → List Nat → Bool
  | x :: xs, y :: ys => if x = y then laterList xs ys else decide (y < x)
  | _, _ => false

/-- R285: fewest jobs, then the latest deadlines, then the lower core. -/
def Displacement.better (a b : Displacement) : Bool :=
  if a.jobs.length ≠ b.jobs.length then decide (a.jobs.length < b.jobs.length)
  else if a.deadlines = b.deadlines then decide (a.core < b.core)
  else laterList a.deadlines b.deadlines

/-- A job that runs, or waits, in a context. -/
def JobState.runs : JobState → Bool
  | .running _ => true
  | _ => false

/-- What R285 would displace for a ready RT job on one of some cores. -/
def State.displacement (s : State) (k : Nat) (cores : List Nat) (r : ReadyJob) : Option Displacement :=
  let running := s.jobs.filter fun (x : Nat × Job) => x.2.cluster == k && x.2.state.runs
  if !running.all (fun (x : Nat × Job) => decide (r.deadline < x.2.deadline.toNat)) then none
  else
    let cores := match r.core with
      | some c => cores.filter (· == c)
      | none => cores
    let options := cores.flatMap fun c =>
      let be := (s.onCore c []).filter fun x => (x.2.be || x.2.late) && x.2.state.runs
      (subsets be).filterMap fun xs =>
        if !xs.isEmpty && s.canPark (xs.map (·.1)) && (s.fitAt c r.vlc r.matrix (xs.map (·.1))).isSome then
          some { core := c, jobs := xs.map (·.1), deadlines := xs.foldl (fun ds x => insertDesc x.2.deadline.toNat ds) [] : Displacement }
        else none
    options.foldl (fun b x => match b with
      | some y => if x.better y then some x else some y
      | none => some x) none

/-- A displacement is under way for a tenant in a cluster: the place being freed is the RT job's (R285). -/
def State.displacing (s : State) (k tenant : Nat) : Bool :=
  s.jobs.any fun (x : Nat × Job) => x.2.cluster == k && x.2.tenant == tenant && (match x.2.state with
    | .parking _ => true
    | _ => false)

/-- R284 step 2; a displacement under way for the tenant is awaited. -/
def State.displaceFor (s : State) (k tenant : Nat) (cores : List Nat) (r : ReadyJob) : Option State :=
  if s.displacing k tenant then none
  else (s.displacement k cores r).map fun x => x.jobs.foldl State.displace s

/-- R284 step 3: the earliest BE job parked from one of some cores resumes where its own core fits it again. -/
def State.resumeParked (s : State) (tenant : Nat) (cores : List Nat) : Option State :=
  let parked := s.jobs.filterMap fun (x : Nat × Job) =>
    match x.2.state with
    | .parked cx =>
      if x.2.tenant == tenant && cores.contains (coreOf cx) then
        some ({ ref := .job x.1, deadline := x.2.deadline.toNat, since := x.2.ready, handle := x.1, vlc := x.2.vlc, matrix := x.2.matrix
                core := some (coreOf cx) } : ReadyJob)
      else none
    | _ => none
  (earliest parked).bind fun r => s.startOn cores r

/-! ### Dispatch (R284) -/

/-- One decision for an owner, where a step yields a job. -/
def State.decideFor (s : State) (k tenant now : Nat) : Option State :=
  let cores := s.openCores k tenant
  let rt := (earliest (s.readyOf k tenant false now)).bind fun r => s.startOn cores r <|> s.displaceFor k tenant cores r
  rt <|> (if s.power.throttle ≠ 0 || s.displacing k tenant then none
    else s.resumeParked tenant cores <|> (earliest (s.readyOf k tenant true now)).bind fun r => s.startOn cores r)

/-- The owners in round-robin order after one (R284). -/
def ownersAfter (last : Nat) : List Nat :=
  let all := List.range 32 ++ [62]
  all.filter (fun o => decide (last < o)) ++ all.filter (fun o => decide (o ≤ last))

/-- A ready job of a tenant that would fit a core (R349, R351). -/
def State.readyFits (s : State) (c tenant : Nat) (be : Bool) (gone : List Nat) (now : Nat) : Bool :=
  (s.readyQueued (clusterOf c) tenant be now ++ s.readyHandlers c tenant be now).any fun r => (s.fitAt c r.vlc r.matrix gone).isSome

/-- R349: a core whose owner has a ready job that fits it is not idle. -/
def State.markBusy (s : State) (k now : Nat) : State :=
  ((List.range 8).map fun i => 8 * k + i).foldl (fun (s : State) c =>
    let o := (s.core c).owner
    if o < 32 && (s.readyFits c o false [] now || s.readyFits c o true [] now) then s.modCore c fun x => { x with idleSince := now } else s) s

/-- GOVERNOR_DISPATCH (R284, R285, R305). -/
def execGovernorDispatch (k : Nat) (s : State) : Out :=
  if 12 ≤ k then .next s
  else
    let s := s.parkDisplaced k
    if s.sluice.loading then .next s
    else
      let (now, s) := s.clusterNow k
      let s := s.markBusy k now
      match (ownersAfter (s.cluster k).lastOwner).findSome? fun t => (s.decideFor k t now).map fun s => (t, s) with
      | none => .next (s.modCluster k fun c => { c with toDecide := false })
      | some (t, s) => .next (s.modCluster k fun c => { c with lastOwner := t })

/-! ### Deadlines and abandonment (R287 to R289) -/

/-- Whether a running job's comparator may act at a time: a micro-kernel handler in progress finishes first (R287). -/
def State.comparatorDue (s : State) (cx now : Nat) : Option (Nat × Job) :=
  let c := s.ctx cx
  match c.job with
  | none => none
  | some h =>
    match s.job? h with
    | some j => if j.state == .running cx && s.passed j now && (j.demote || c.mode == .user) then some (h, j) else none
    | none => none

/-- R363: a comparator that fires ends the wait of IDLE, and with it the instruction. -/
def Ctx.endIdle (c : Ctx) : Ctx :=
  match c.status with
  | .waiting (.until _ next) => ({ c with status := .running, pc := next } : Ctx).retire
  | _ => c

/-- DEADLINE_COMPARATOR (R287). -/
def execDeadlineComparator (cx : Nat) (s : State) : Out :=
  if numCtx ≤ cx then .next s
  else
    let (now, s) := s.clusterNow (clusterOf (coreOf cx))
    match s.comparatorDue cx now with
    | none => .next s
    | some (h, j) => if j.demote then .next ((s.putJob h { j with late := true }).modCtx cx Ctx.endIdle) else .next (s.abandonJob h)

/-- QUEUED_DEADLINE_PASS (R287, R289): a queued, held or saved RT job is abandoned; so is a handler that has not started, whose
entry is freed. -/
def execQueuedDeadlinePass (q : QueuedRef) (s : State) : Out :=
  match q with
  | .job h =>
    match s.job? h with
    | none => .next s
    | some j =>
      let (now, s) := s.clusterNow j.cluster
      match j.state with
      | .queued => if s.passed j now then .next (s.abandonJob h) else .next s
      | .saved _ => if s.passed j now then .next (s.abandonJob h) else .next s
      | _ => .next s
  | .handler c i =>
    match (s.core c).entries[i]? with
    | none => .next s
    | some e =>
      let (now, s) := s.clusterNow (clusterOf c)
      let t := (s.core c).tags.get {} e.tag
      if s.time.everLocked && !t.be && decide ((e.due t).toNat ≤ now) then
        let s := (s.modCore c fun k => { k with entries := k.entries.eraseIdx i }).dropEntry c e
        .next (if e.group = 0xFF then s else s.modGroup e.group fun g => { g with ended := g.ended + 1, abandoned := g.abandoned + 1 })
      else .next s

/-- R288 step 2: everything the job has issued is performed. -/
def Ctx.settled (c : Ctx) : Bool :=
  c.vq.isEmpty && c.stores.isEmpty && c.ops.isEmpty && !c.loads.any PendLoad.atomic

/-- Live descendants of a job (R275). -/
def State.descendants (s : State) (h : Nat) : List (Nat × Job) := s.jobs.filter fun (x : Nat × Job) => x.2.ancestors.contains h

/-- R288 steps 3 to 6. -/
def State.abandonMid (s : State) (h cx : Nat) : State :=
  let s := { s with cmds := s.cmds.map fun (x : EngCmd) => if x.sender.map Sender.job == some h && x.bound then ({ x with discard := true } : EngCmd) else x }
  let s := s.cancelCmds fun x => x.ofJob h
  let s := s.finishSlots (s.ctx cx).flumes
  let s := (s.descendants h).foldl (fun (s : State) (x : Nat × Job) =>
    match x.2.state, x.2.dispatched with
    | .abandoning _ _, _ => s
    | _, some _ => s.abandonJob x.1
    | _, none => ({ s with moves := s.moves.filter fun m => m.job != x.1 } : State).dropJob x.1) s
  s.modJob h fun j => { j with state := .abandoning cx 1 }

/-- R238, R288 steps 7 and 8. -/
def State.abandonEnd (s : State) (h cx : Nat) (j : Job) : State :=
  let started := j.dispatched.isSome
  let core := if started then j.lastCx.map coreOf else none
  let a : Agent := {
    owner := j.tenant, root := if started then (s.ctx cx).ptbase else s.rootOf j.tenant, user := true
    core := core, cluster := if started then some j.cluster else none }
  (s.abandonAct a j.cluster j.abword j.abaddr j.weir).endJob h true

/-- ABANDON_ACTION (R288). -/
def execAbandonAction (h : Nat) (s : State) : Out :=
  match s.job? h with
  | none => .next s
  | some j =>
    match j.state with
    | .abandoning cx 0 =>
      let c := s.ctx cx
      if c.settled && (decide (numCtx ≤ cx) || s.cntMx cx c == 0) then .next (s.abandonMid h cx) else .next s
    | .abandoning cx _ => if (s.descendants h).isEmpty then .next (s.abandonEnd h cx j) else .next s
    | _ => .next s

/-! ### Reservations and load averaging (R277, R278, R286) -/

/-- The held jobs of a reservation become ready, each by its cluster's counter (R281). -/
def State.unhold (s : State) (r gen : Nat) : State :=
  s.jobs.foldl (fun (s : State) (y : Nat × Job) =>
    if y.2.reservation == some r && y.2.rsvGen == gen && y.2.state == .queued then
      let (now, s) := s.clusterNow y.2.cluster
      (s.putJob y.1 { y.2 with ready := now }).startGroup y.2.group
    else s) s

/-- RESERVATION_RELEASE (R268, R269, R277, R281). -/
def execReservationRelease (r : Nat) (s : State) : Out :=
  match s.rsvs.find? r with
  | none => .next s
  | some x =>
    let (now, s) := s.clusterNow 0
    if !s.time.everLocked || decide (now < x.next) then .next s
    else
      let wasHeld := decide (x.q ≤ x.consumed)
      let s := { s with rsvs := s.rsvs.insert r { x with consumed := 0, next := x.next + x.p } }
      let s := if wasHeld then s.unhold r x.gen else s
      if !s.recordOk x.tenant x.root then .next (s.recordFails x.tenant x.root)
      else
        let dl := BitVec.ofNat 64 (x.next + x.d)
        let t := { s.template x.tenant x.root (.root r) dl with deadline := dl, reservation := some r, rsvGen := s.rsvGen r }
        .next (s.place x.root t 0 true false).2

/-- R278: the jobs that hold contexts of a cluster are charged, once each microsecond of its counter. -/
def State.chargeCluster (s : State) (k : Nat) : State :=
  let (now, s) := s.clusterNow k
  if now / 1000 ≤ (s.cluster k).lastBudget then s
  else
    s.jobs.foldl (fun (s : State) (x : Nat × Job) => if x.2.cluster == k && x.2.state.inContext.isSome then s.charge x.1 else s)
      (s.modCluster k fun c => { c with lastBudget := now / 1000 })

/-- BUDGET_UPDATE (R278): each cluster by its own counter (R13). -/
def execBudgetUpdate (s : State) : Out := .next ((List.range 12).foldl State.chargeCluster s)

/-- R6: whether two clusters are grid neighbours. -/
def gridNeighbours (a b : Nat) : Bool :=
  (a / 4 == b / 4 && (a % 4 + 1 == b % 4 || b % 4 + 1 == a % 4)) || (a % 4 == b % 4 && (a / 4 + 1 == b / 4 || b / 4 + 1 == a / 4))

/-- Queued BE jobs of a tenant in a cluster that have not started (R286). -/
def State.queuedBe (s : State) (k tenant : Nat) : List (Nat × Job) :=
  s.jobs.filter fun (x : Nat × Job) => x.2.state == .queued && x.2.cluster == k && x.2.tenant == tenant && x.2.be && !s.heldJob x.2

/-- The job of the latest deadline among some, of equal ones that of the highest handle (notes/assumptions/108.md). -/
def latestJob (xs : List (Nat × Job)) : Option Nat :=
  (xs.foldl (fun (b : Option (Nat × Job)) x => match b with
    | some y => if y.2.deadline.toNat ≤ x.2.deadline.toNat then some x else some y
    | none => some x) none).map (·.1)

/-- n jobs leave for a neighbour, the latest deadlines first (R286). -/
def State.sendJobs (s : State) (k to_ tenant : Nat) : Nat → State
  | 0 => s
  | n + 1 =>
    if s.freeRecords to_ = 0 then s
    else match latestJob ((s.queuedBe k tenant).filter fun x => bit x.2.mask to_) with
    | none => s
    | some h =>
      let g := ((s.job? h).map (·.group)).getD 0xFF
      let m : Move := { job := h, group := g, from_ := k, to_ := to_, arrived := none }
      (({ s with moves := s.moves ++ [m] } : State).modJob h fun j => { j with state := .moving }).sendJobs k to_ tenant n

/-- LOAD_AVERAGING (R286): each 2 µs of local time; neighbours are served by cluster, then tenant (notes/assumptions/108.md). -/
def execLoadAveraging (k : Nat) (s : State) : Out :=
  if 12 ≤ k then .next s
  else
    let (now, s) := s.clusterNow k
    if now / 2000 ≤ (s.cluster k).lastAverage then .next s
    else
      let own := (List.range 32 ++ [62]).foldl (fun m t => m.set 0 t (s.queuedBe k t).length) ([] : FMap Nat)
      let s := s.modCluster k fun c => { c with lastAverage := now / 2000, published := own }
      let sends := (List.range 12).filter (gridNeighbours k) |>.flatMap fun b => (List.range 32 ++ [62]).map fun t => (b, t)
      .next (sends.foldl (fun (s : State) (x : Nat × Nat) =>
        let mine := own.get 0 x.2
        let theirs := (s.cluster x.1).published.get 0 x.2
        if theirs + 4 ≤ mine then s.sendJobs k x.1 x.2 ((mine - theirs) / 4) else s) s)

/-- JOB_MOVE_ARRIVE (R286, R315). -/
def execJobMoveArrive (i : Nat) (s : State) : Out :=
  match s.moves[i]? with
  | none => .next s
  | some m =>
    if m.arrived.isSome then .next s
    else
      let (now, s) := s.clusterNow m.from_
      let s := { s with moves := s.moves.set i { m with arrived := some now } }
      .next (s.modJob m.job fun j => if j.state = .moving then { j with state := .queued, cluster := m.to_, range := m.job + 1 } else j)

/-! ### The packets of fired weirs (R310) -/

/-- A block of a fired weir: its 8-byte words under the captured identity, or none where it cannot be read. -/
def State.readBlock (s : State) (a : Agent) (va : Word) (n : Nat) : Option (List Nat) × State :=
  match s.wordPlaces a va n with
  | (.error _, s) => (none, s)
  | (.ok ps, s) =>
    let s := ps.foldl (fun (s : State) p => s.snoopRead p.place 8) s
    if ps.any fun p => s.eccAt p.place 8 then (none, s) else (some (ps.map fun p => s.bytesAt p.cached p.place 8), s)

/-- WEIR_PACKET_MAKE (R310). -/
def execWeirPacketMake (i : Nat) (s : State) : Out :=
  match s.firings[i]? with
  | none => .next s
  | some f =>
    let s := { s with firings := s.firings.eraseIdx i }
    let k := f.weir / 512
    let t := f.who.tenant
    let a : Agent := { owner := t, root := f.who.root, user := true, core := none, cluster := some k }
    let bad (s : State) : State := s.modWeir f.weir fun w => { w with pktFail := true }
    let lost (s : State) : State := { bad s with lostLaunch := s.lostLaunch.set 0 t (s.lostLaunch.get 0 t + 1) }
    match f.kind with
    | 0 =>
      match s.readBlock a f.pointer 8 with
      | (none, s) => .next (lost s)
      | (some ws, s) =>
        let r := LaunchRec.ofWords ws
        if !s.recordOk t r then .next ((lost s).recordFails t r)
        else .next (s.place r (s.template t r .weir f.who.deadline) k true f.abort).2
    | 1 =>
      match s.readBlock a f.pointer 8 with
      | (none, s) => .next (bad s)
      | (some ws, s) => .next (s.fireCmd f.weir f.who f.pointer (ws.map (BitVec.ofNat 64)) f.abort)
    | 2 =>
      if f.abort then .next s
      else
        match s.readBlock a f.pointer 10 with
        | (none, s) => .next (bad s)
        | (some ws, s) =>
          let v := BitVec.ofNat 64 (ws.getD 0 0)
          let n := ws.getD 1 0
          if !s.msgWordOk v || decide (8 < n) then .next (bad s)
          else
            let g := s.namedGroup f.who.group t
            let p : EngPacket := {
              source := .weir f.weir, tenant := t, dst := bitsOf v.toNat 7 0, tag := bitsOf v.toNat 13 8
              payload := ((ws.drop 2).take n).map (BitVec.ofNat 64), deadline := f.who.deadline
              counted := if g == 0xFF || decide (96 ≤ bitsOf v.toNat 7 0) then none else some g, sent := s.sched.steps }
            let s := if p.counted.isSome then s.countSent (8 * k) g else s
            .next { s with eng := s.eng ++ [p] }
    | _ => .next s

end Sys2Proof.Machine
end

