-- ==== Sys2Proof/Machine/StateRegs.lean ====
section
/-! DEFINITION. The state registers and the instructions that reach them, the counters and WAITC (R31, R89 to R93, R101, R103,
R105, R313, R325). -/

namespace Sys2Proof.Machine
open Sys2Proof

/-! ### The registers (R31, R91, R325) -/

/-- The window a cluster is in, as GATE shows it: window, assignment set, and whether the core is on loan (R91). -/
def State.gateWord (s : State) (core : Nat) : Nat :=
  let loan := 65536 * (s.core core).loan.isSome.toNat
  match s.sluice.table, s.sluice.clusterWin.get none (clusterOf core) with
  | some t, some w => w.idx + 256 * t.winSet w.idx + loan
  | _, _ => loan

/-- SLSTAT (R325). -/
def State.slstat (s : State) (core : Nat) : Nat :=
  s.gateWord core + 2 ^ 17 * (s.sluice.quar.getLsbD (s.core core).owner).toNat + 2 ^ 24 * s.sluice.table.isSome.toNat +
    2 ^ 32 * (s.tbl.tableId % 2 ^ 32)

/-- DLGOK of an owner (R325, R335). -/
def State.dlgokOf (s : State) (owner : Nat) : Word := if owner < 32 then s.tbl.dlgok owner else 0

/-- The causes that DELEG can hold for an owner: delegable, and allowed by DLGOK (R321). -/
def State.delegMask (s : State) (owner : Nat) : Word := s.dlgokOf owner &&& 0xDFFFF6 

/-- TSTATUS: DEPTH holds h in user mode too (R319). -/
def Ctx.tstatusNow (c : Ctx) : Nat := if c.mode = .user then c.tstatus.toNat / 4 * 4 + c.depth % 4 else c.tstatus.toNat

/-- A state register as GET reads it; none where the index is not listed (R90, R91, R325). -/
def State.stateReg (s : State) (cx : Nat) (c : Ctx) (idx : Nat) : Option Word :=
  let n (v : Nat) : Option Word := some (BitVec.ofNat 64 v)
  let j := (s.jobOf c).getD {}
  match idx with
  | 0x00 => n c.vl
  | 0x01 => n (Fmt.code c.vtype)
  | 0x02 => n (c.vlmaxOf c.vtype)
  | 0x03 => n c.grant
  | 0x04 => n c.rmode.toNat
  | 0x05 => n c.fflags.toNat
  | 0x06 => n c.vgrp.toNat
  | 0x07 => n c.piveps.toNat
  | 0x08 => n c.pivmode.toNat
  | 0x09 => some c.sgmask
  | 0x0A => n c.gtau.toNat
  | 0x0B => n c.vfault.toNat
  | 0x0C => n c.oblim.toNat
  | 0x0D => some c.utvec
  | 0x0E => some c.utepc
  | 0x0F => n c.utcause.toNat
  | 0x10 => some c.utval
  | 0x11 => some c.utsp
  | 0x18 => some j.wid
  | 0x19 => some j.deadline
  | 0x1A => n (c.job.getD 0)
  | 0x1B => n (s.tenantOf c)
  | 0x1C => n (coreOf cx)
  | 0x1D => n (cx % 4)
  | 0x1E => n (j.msrc.getD 0xFF)
  | 0x1F => n (j.mtag.getD 0x3F)
  | 0x20 => n (s.gateWord (coreOf cx))
  | 0x21 => n j.group
  | 0x28 => n c.cntLd
  | 0x29 => n c.cntSt
  | 0x2A => n c.cntCp
  | 0x2B => n (s.cntMx cx c)
  | 0x2C => n c.cntEn
  | 0x80 => n c.vlcap.toNat
  | 0x81 => some c.tvec
  | 0x82 => some c.tepc
  | 0x83 => n c.tcause.toNat
  | 0x84 => some c.tval
  | 0x85 => n c.tstatusNow
  | 0x86 => some c.deleg
  | 0x87 => some c.ptbase
  | 0x88 => some c.tsp
  | 0x89 => some c.tscratch
  | 0x8A => n (s.slstat (coreOf cx))
  | 0x8B => some s.sluice.quar
  | 0x8C => some (s.dlgokOf (s.tenantOf c))
  | _ => none

/-- Indices that a SET writes (R91, R325): RW, and SGMASK, which it clears. -/
def writableReg (idx : Nat) : Bool :=
  [0x00, 0x01, 0x04, 0x05, 0x06, 0x07, 0x08, 0x09, 0x0A, 0x0B, 0x0C, 0x0D, 0x0E, 0x0F, 0x10, 0x11, 0x21,
    0x80, 0x81, 0x82, 0x83, 0x84, 0x85, 0x86, 0x87, 0x88, 0x89].contains idx

/-- Whether a value is one that a SET of a register of the context takes (R31, R90, R91). -/
def stateValueOk (idx : Nat) (v : Word) : Bool :=
  match idx with
  | 0x01 => v.toNat % 16 != 15
  | 0x06 => decide (1 ≤ v.toNat % 8) && decide (v.toNat % 8 ≤ 4)
  | 0x0C => decide (1 ≤ v.toNat % 16) && decide (v.toNat % 16 ≤ 8)
  | 0x80 => [128, 256, 512, 1024, 2048, 4096].contains (v.toNat % 8192)
  | _ => true

/-- A register of the context written; zero fields ignore what is written (R2, R31, R91, R325); mask holds the causes DELEG can
hold.  A stack pointer written loses its error mark (notes/assumptions/79.md). -/
def Ctx.writeReg (c : Ctx) (mask : Word) (idx : Nat) (v : Word) : Ctx :=
  let n := v.toNat
  match idx with
  | 0x00 => { c with vl := min n (c.vlmaxOf c.vtype) }
  | 0x01 => let f := Fmt.ofCode (n % 16); { c with vtype := f, vl := min c.vl (c.vlmaxOf f) }
  | 0x04 => { c with rmode := BitVec.ofNat 3 n }
  | 0x05 => { c with fflags := BitVec.ofNat _ n }
  | 0x06 => { c with vgrp := BitVec.ofNat 3 n }
  | 0x07 => { c with piveps := BitVec.ofNat 32 n }
  | 0x08 => { c with pivmode := v.getLsbD 0 }
  | 0x09 => { c with sgmask := 0 }
  | 0x0A => { c with gtau := BitVec.ofNat 32 n }
  | 0x0B => { c with vfault := BitVec.ofNat 16 n }
  | 0x0C => { c with oblim := BitVec.ofNat 4 n }
  | 0x0D => { c with utvec := v &&& ~~~1 }
  | 0x0E => { c with utepc := v }
  | 0x0F => { c with utcause := BitVec.ofNat 6 n }
  | 0x10 => { c with utval := v }
  | 0x11 => { c with utsp := v, badRegs := c.badRegs.erase 32 }
  | 0x80 => { c with vlcap := BitVec.ofNat 13 n, vlOver := c.vlOver || decide (c.vl ≤ c.vlmaxOf c.vtype) }
  | 0x81 => { c with tvec := v }
  | 0x82 => { c with tepc := v }
  | 0x83 => { c with tcause := BitVec.ofNat 6 n }
  | 0x84 => { c with tval := v }
  | 0x85 => { c with tstatus := BitVec.ofNat 3 n, depth := n % 4 }
  | 0x86 => { c with deleg := v &&& mask }
  | 0x87 => { c with ptbase := v &&& 0xFFFFFFFFF000 }
  | 0x88 => { c with tsp := v, badRegs := c.badRegs.erase 33 }
  | 0x89 => { c with tscratch := v }
  | _ => c

/-- R313: a job moves to a launch group, or to none; none where the group is not open for its tenant. -/
def State.moveGroup (s : State) (h : Nat) (g : Nat) : Option State :=
  match s.job? h with
  | none => none
  | some j =>
    if g ≠ 0xFF ∧ s.namedGroup g j.tenant ≠ g then none
    else if g = j.group then some s
    else some ((s.putJob h { j with group := g }).startGroup g)

/-! ### GET and SET (R90, R92, R93, R101) -/

/-- Indices that wait for every older vector-queue instruction to complete (R92). -/
def waitsForVector (idx : Nat) : Bool := [0x05, 0x09, 0x0B].contains idx

/-- Whether an access to an index is held back (R92, R93). -/
def Ctx.regWaits (c : Ctx) (idx : Nat) : Bool :=
  (waitsForVector idx && !c.vq.isEmpty) || ([0x00, 0x01, 0x02].contains idx && c.vlPending)

/-- GET (R90 to R92, R101). -/
def execGet (d : SReg) (idx : BitVec 8) (s : State) : Out :=
  let c := s.curCtx
  let i := idx.toNat
  if c.mode == .user && decide (0x80 ≤ i) then s.trapCur .privileged 0
  else
    match s.stateReg s.sched.cur c i with
    | none => s.trapCur .illegalInstruction 0
    | some v =>
      if c.regWaits i && i != 0x01 then .next s
      else s.freeOp [] [d] false fun c => c.setReg d v

/-- SET (R90 to R92, R101, R313). -/
def execSet (a : SReg) (idx : BitVec 8) (s : State) : Out :=
  let i := idx.toNat
  if s.curCtx.mode == .user && decide (0x80 ≤ i) then s.trapCur .privileged 0
  else if !writableReg i then s.trapCur .illegalInstruction 0
  else s.heldOp [a] [] fun s =>
    let c := s.curCtx
    let v := c.reg a
    if c.regWaits i then .next s
    else if !stateValueOk i v then s.trapCur .illegalInstruction 0
    else if i = 0x21 then
      match c.job.bind fun h => s.moveGroup h (v.toNat % 256) with
      | none => s.trapCur .illegalInstruction 0
      | some s => .next (s.complete id)
    else
      let mask := s.delegMask (s.tenantOf c)
      .next (s.complete fun c => c.writeReg mask i v)

/-! ### RDCNT and WAITC (R103, R105) -/

/-- The cycle counter of a core (R103). -/
def State.coreCycles (s : State) (core : Nat) : Nat :=
  let k := s.core core
  k.gatedFrom.getD s.time.cycles - k.gatedCycles

/-- RDCNT (R103). -/
def execRdcnt (d : SReg) (sel : Fin 7) (s : State) : Out :=
  if s.curCtx.guess.isSome then .next s
  else s.freeIssue [] [d] false fun s c =>
    let cx := s.sched.cur
    let v := match sel.val with
      | 0 => BitVec.ofNat 64 c.cntLd
      | 1 => BitVec.ofNat 64 c.cntSt
      | 2 => BitVec.ofNat 64 c.cntCp
      | 3 => BitVec.ofNat 64 (s.cntMx cx c)
      | 4 => BitVec.ofNat 64 c.cntEn
      | 5 => BitVec.ofNat 64 (s.coreCycles (coreOf cx))
      | _ => c.instret
    .next (s.setCur (c.setReg d v).retire)

/-- WAITC (R105, R168, R231): a pending matrix fault is raised once the counters are within their limits. -/
def execWaitc (ld st cp mx en : Fin 16) (s : State) : Out :=
  let c := s.curCtx
  let cx := s.sched.cur
  let w : Wait := .counters ld.val st.val cp.val mx.val en.val
  if !s.waitOver cx c w then .next (s.waitOn w)
  else
    match s.mxOf cx c with
    | some m =>
      if m.fpend then s.trapWith (·.setMx cx { m with fpend := false }) .mxFault m.faddr
      else s.freeOp [] [] false id
    | none => s.freeOp [] [] false id

end Sys2Proof.Machine
end

