-- ==== Sys2Proof/Machine/System.lean ====
section
/-! DEFINITION. The instructions of page 0x78, admission, context images and the micro-kernel's actions (R276 to R280, R319 to
R327, R353 to R364). -/

namespace Sys2Proof.Machine
open Sys2Proof

/-! ### TRAP, BRK and the return from a trap (R323, R354) -/

/-- TRAP (R354). -/
def execTrap (imm : Nat) (s : State) : Out := s.heldOp [] [] fun s => s.trapCur .softwareTrap (BitVec.ofNat 64 imm)
/-- BRK (R354). -/
def execBrk (imm : BitVec 8) (s : State) : Out := s.heldOp [] [] fun s => s.trapCur .breakpoint (imm.setWidth 64)

/-- R323: a return to user mode from supervisor mode exchanges s2 and TSP. -/
def Ctx.leave (c : Ctx) : Ctx :=
  let c := { c with depth := c.tstatus.toNat % 4 - 1, mode := if c.tstatus.getLsbD 2 then .supervisor else .user }
  if c.mode = .user then { c.takeTop c.tsp 33 with tsp := c.reg regS2 } else c

/-- The frame words of a return inside the micro-kernel: their values, or the fault of a load (R323). -/
def State.frameWords (s : State) (cx : Nat) (c : Ctx) : Except TrapInfo (List Word) × State :=
  (List.range 4).foldl (fun (r : Except TrapInfo (List Word) × State) i =>
    match r with
    | (.error t, s) => (.error t, s)
    | (.ok ws, s) =>
      match s.access (s.agentOf cx c) (c.reg regS2 + BitVec.ofNat 64 (8 * i)) 8 .read false with
      | (.error t, s) => (.error t, s)
      | (.ok x, s) => (.ok (ws ++ [BitVec.ofNat 64 (s.ownBytes c c.ord x.cached x.place 8)]), s.snoopRead x.place 8)) (.ok [], s)

/-- R323: the transfer to t, which reads s2; inside the micro-kernel it comes after the older accesses, which may touch the frame. -/
def State.returnTo (s : State) (t : Word) : Out :=
  let c := s.curCtx
  if t.getLsbD 0 then s.trapCur .misaligned t
  else if s.trapHeld s.sched.cur c then .next s
  else
    match c.badRead [regS2] with
    | some (r, b) => s.badTrap r b
    | none =>
    let go (s : State) (f : Ctx → Ctx) : Out := .next (s.complete fun c => { f c with pc := t })
    if c.mode = .user then go s fun c => { c.takeTop c.utsp 32 with utsp := c.reg regS2, depth := 0 }
    else if !c.tstatus.getLsbD 2 then go s Ctx.leave
    else
      match s.frameWords s.sched.cur c with
      | (.error t, s) => s.trapCur t.cause t.value
      | (.ok ws, s) => go s fun c =>
          let c := c.leave
          let w (i : Nat) : Word := ws.getD i 0
          { c.setReg regS2 (c.reg regS2 + 32) with
            tepc := w 0, tcause := BitVec.ofNat 6 (w 1).toNat, tval := w 2, tstatus := BitVec.ofNat 3 (w 3).toNat }

/-- TRET and TRET SKIP (R323). -/
def State.trapReturn (s : State) (skip : Bool) : Out :=
  s.heldOp [] [regS2] fun s =>
    let c := s.curCtx
    let cx := s.sched.cur
    if c.depth = 0 ∨ c.depth ≤ s.pdepth cx c then s.trapCur .illegalInstruction 0
    else
      let e := if c.mode = .user then c.utepc else c.tepc
      if e.getLsbD 0 then s.trapCur .misaligned e
      else if skip then
        match s.fetchChain cx e with
        | (.chain ws, s) => s.returnTo (e + BitVec.ofNat 64 (2 * ws.length))
        | (.fifth, s) => s.trapCur .prefixChain 0
        | (.fails t, s) => s.trapCur t.cause t.value
      else s.returnTo e

/-- TRET (R323). -/
def execTret (s : State) : Out := s.trapReturn false
/-- TRET SKIP (R323). -/
def execTretSkip (s : State) : Out := s.trapReturn true

/-! ### SVC, GATEINFO and ENMTR (R355 to R357) -/

/-- SVC (R355). -/
def execSvc (d a b : SReg) (s : State) : Out :=
  s.heldOp [a, b] [d] fun s =>
    let c := s.curCtx
    let cx := s.sched.cur
    let sa := c.reg a
    let st := c.reg b
    let who := s.agentOf cx c
    if sa.toNat % 64 ≠ 0 then s.trapCur .misaligned sa
    else if st.toNat / 2 ^ 16 ≠ 0 then s.trapCur .illegalInstruction st
    else
      match s.xlate who sa .read false with
      | (.error t, s) => s.trapCur t.cause t.value
      | (.ok x, s) =>
        match s.xlate who sa .write true with
        | (.error t, s) => s.trapCur t.cause t.value
        | (.ok _, s) =>
          if !s.isLpddr x.place || x.uc then s.trapCur .serviceRefused sa
          else if decide (255 ≤ c.cntEn) then .next s
          else
            match s.jobOf c, c.job with
            | some j, some h =>
              let call : Call := {
                tenant := j.tenant, queue := j.tenant, token := st.toNat, block := sa, root := c.ptbase, deadline := j.deadline
                sender := some { job := h, ord := c.ord }, src := coreOf cx, slice := homeSlice x.place, begun := false }
              let op : PendOp := { ord := c.ord, cls := .en, dst := d, outbox := false, classE := false }
              .next (({ s with svcFlight := s.svcFlight ++ [call] } : State).complete fun c => { c with ops := c.ops ++ [op] })
            | _, _ => .next s

/-- GATEINFO's item (R356). -/
def State.gateItem (s : State) (core tenant sel : Nat) : Nat :=
  match s.sluice.table, s.sluice.clusterWin.get none (clusterOf core) with
  | some t, some w =>
    match sel with
    | 0 => t.winAt w
    | 1 => t.winEnd w
    | 2 => s.gateWord core
    | 3 => t.ownerIn (t.nextWin w) core
    | 4 => t.cycle
    | 5 => s.sluice.overruns.get 0 tenant
    | _ => if (s.core core).loan.isSome then t.winEnd w else 0
  | _, _ => if sel = 2 then s.gateWord core else if sel = 4 then s.tbl.cycle else 0

/-- GATEINFO (R356). -/
def execGateinfo (d : SReg) (sel : Fin 7) (s : State) : Out :=
  s.heldReg [] d fun c => BitVec.ofNat 64 (s.gateItem (coreOf s.sched.cur) (s.tenantOf c) sel.val)

/-- ENMTR (R357). -/
def execEnmtr (d a : SReg) (kind : Fin 3) (s : State) : Out :=
  if kind.val == 2 && s.curCtx.mode == .user then s.trapCur .privileged 0
  else s.heldOp [a] [d] fun s =>
    let c := s.curCtx
    let v := c.reg a
    let t := s.tenantOf c
    let put (n : Nat) : Out := .next (s.complete fun c => c.setReg d (BitVec.ofNat 64 n))
    match kind.val with
    | 0 => if c.mode == .user && v.toNat != t then s.trapCur .protection 0 else put (s.meters.tenant.get 0 v.toNat)
    | 1 =>
      match s.rsvs.find? v.toNat with
      | none => s.trapCur .illegalInstruction v
      | some r => if r.tenant ≠ t then s.trapCur .protection 0 else put (s.meters.rsv.get 0 v.toNat)
    | _ => put s.meters.device

/-! ### PGATE (R358, R423) -/

/-- The unit a unit word names; none where it names none (R358). -/
def unitOf (v : Word) : Option GateUnit :=
  let n := v.toNat
  let i := bitsOf n 15 8
  if n / 2 ^ 18 ≠ 0 ∨ bitsOf n 7 4 ≠ 0 then none
  else
    match n % 16 with
    | 0 => if i < 96 then some (.core i) else none
    | 1 => if i < 96 then some (.quad i (bitsOf n 17 16)) else none
    | 2 => if i < 96 then some (.matrix i) else none
    | 3 => if i < 16 then some (.engine i) else none
    | 4 => if i < 12 then some (.cluster i) else none
    | _ => none

/-- Whether a job holds a context of a core or lies saved in its shadow storage (R342, R358). -/
def Job.onCore (j : Job) (core : Nat) : Bool :=
  match j.state with
  | .saved cx => coreOf cx == core
  | st => match st.inContext with
    | some cx => coreOf cx == core
    | none => false

/-- Whether a unit holds a job, a command or a saved image (R358). -/
def State.unitHolds (s : State) : GateUnit → Bool
  | .core c => s.jobs.any fun (x : Nat × Job) => x.2.onCore c
  | .quad c q => s.jobs.any fun (x : Nat × Job) => x.2.onCore c && (quadSpan x.2.vlc x.2.quad).contains q
  | .matrix c => s.jobs.any fun (x : Nat × Job) => x.2.onCore c && x.2.matrix
  | .engine e => s.cmds.any fun x => x.engine == e && x.recorded
  | .cluster k => s.jobs.any fun (x : Nat × Job) => (List.range 8).any (fun i => x.2.onCore (8 * k + i)) || (match x.2.state with
      | .parked cx => clusterOf (coreOf cx) == k
      | _ => false)

/-- Whether a unit is under owner code 63 in the current window (R358). -/
def State.unitUnowned (s : State) : GateUnit → Bool
  | .core c => (s.core c).owner == 63
  | .quad c _ => (s.core c).owner == 63
  | .matrix c => (s.core c).owner == 63
  | .engine _ => false
  | .cluster k => (List.range 8).all fun i => (s.core (8 * k + i)).owner == 63

/-- What a core that loses its power outside an edge keeps no more (R423): an edge keeps what R347 lists. -/
def Core.forget (k : Core) : Core := { k with tlb := [], branches := [], mbtab := [], drops := [], merges := [], sent := [], recv := [], foreign := 0 }

/-- A gated core keeps its array, with its tags, inboxes and barriers; its cycle counter stops (R103, R347, R423; notes/assumptions/112.md). -/
def State.gateCore (s : State) (c : Nat) (edge : Bool) : State :=
  (s.modCore c fun k =>
    let k := if edge then { k with tlb := [], branches := [] } else k.forget
    { k with edgeGated := edge, gatedFrom := some (k.gatedFrom.getD s.time.cycles) }).setGated (.core c) true

/-- The cycle counter of a core runs again (R103). -/
def Core.runs (k : Core) (now : Nat) : Core :=
  { k with gatedFrom := none, gatedCycles := k.gatedCycles + (now - k.gatedFrom.getD now) }

/-- A core powered again; its cycles count once its cluster is powered too. -/
def State.ungateCore (s : State) (c : Nat) : State :=
  (s.modCore c fun k =>
    let k := { k with edgeGated := false }
    if s.gated (.cluster (clusterOf c)) then k else k.runs s.time.cycles).setGated (.core c) false

/-- A unit is gated; a cluster's cores with it: it keeps its arrays, images, flumes, weirs, barriers, tags and chunk maps; a coding engine
keeps nothing (R423). -/
def State.gateUnit (s : State) (u : GateUnit) : State :=
  match u with
  | .core c => s.gateCore c false
  | .cluster k =>
    let s := s.modCluster k fun c => { c with
      tlb := [], lastTenant := 63, lastOwner := 63, published := [], lastAverage := 0, lastBudget := 0, deficit := [], pointer := [] }
    ((List.range 8).foldl (fun (s : State) i => s.modCore (8 * k + i) fun c =>
      { c.forget with gatedFrom := some (c.gatedFrom.getD s.time.cycles) }) s).setGated u true
  | .engine e => ({ s with engCounts := s.engCounts.filter fun (x : Nat × EngCounts) => x.1 / 64 != e } : State).setGated u true
  | _ => s.setGated u true

/-- A unit is powered again. -/
def State.ungateUnit (s : State) (u : GateUnit) : State :=
  match u with
  | .core c => s.ungateCore c
  | .cluster k =>
    ((List.range 8).foldl (fun (s : State) i =>
      if s.gated (.core (8 * k + i)) then s else s.modCore (8 * k + i) fun c => c.runs s.time.cycles) s).setGated u false
  | _ => s.setGated u false

/-- A PGATE instruction with its unit. -/
def State.pgateOp (s : State) (d a : SReg) (k : State → GateUnit → Out) : Out :=
  s.supervisorOnly fun s => s.heldOp [a] [d] fun s =>
    match unitOf (s.curCtx.reg a) with
    | none => s.trapCur .illegalInstruction (s.curCtx.reg a)
    | some u => k s u

/-- PGATE's result. -/
def State.pgateDone (s : State) (d : SReg) (v : Word) : Out := .next (s.complete fun c => c.setReg d v)

/-- PGATE GATE (R358). -/
def execPgateGate (d a : SReg) (s : State) : Out :=
  s.pgateOp d a fun s u =>
    if s.unitUnowned u then s.pgateDone d 2
    else if s.unitHolds u then s.pgateDone d 1
    else (s.gateUnit u).pgateDone d 0

/-- PGATE UNGATE (R358, R423): it ends once the unit is powered. -/
def execPgateUngate (d a : SReg) (s : State) : Out :=
  s.pgateOp d a fun s u =>
    if s.unitUnowned u then s.pgateDone d 2
    else if !s.gated u then s.pgateDone d 0
    else .next { s with power := { s.power with waking := s.power.waking.set false (GateUnit.key u) true } }

/-- PGATE QUERY (R358). -/
def execPgateQuery (d a : SReg) (s : State) : Out :=
  s.pgateOp d a fun s u => s.pgateDone d (if s.gated u then 3 else 0)

/-- HALT (R359). -/
def execHalt (a : SReg) (s : State) : Out :=
  s.supervisorOnly fun s => s.heldOp [a] [] fun s =>
    let c := s.curCtx
    match c.job with
    | none => .next s
    | some h =>
      let s := s.logCore 6 (coreOf s.sched.cur) (s.tenantOf c) 0 (c.reg a &&& 0xFFFFFFFF) c.tepc
      .next (s.abandonJob h)

/-! ### Context images (R360, R361) -/

/-- The image of a context (R360): ref names the context as State.ctx takes it, cx the place it has or had on its core. -/
def State.imageBytes (s : State) (ref cx : Nat) : List Byte :=
  let c := s.ctx ref
  let j := (s.jobOf c).getD {}
  let word (v : Word) : List Byte := bytesOf v.toNat 8
  let pad (n : Nat) (bs : List Byte) : List Byte := bs ++ List.replicate (n - bs.length) 0
  let m := s.mxOf ref c
  let tiles : List Byte := match m with
    | some m => wordsBytes 4 ((List.range 16384).map fun e => m.tiles.get 0 e)
    | none => []
  let books : List Byte := match m with
    | some m => wordsBytes 2 m.cba ++ wordsBytes 2 m.cbb
    | none => []
  let cfg : List Byte := match m with
    | some m => [m.geom, m.stride, m.sstride, m.sa, m.sb, m.share, m.status, m.faddr].flatMap word
    | none => []
  let regs := (List.range 32).flatMap fun i => word (c.reg (Fin.ofNat 32 i))
  let state := (List.range 0x2D).flatMap fun i => word ((s.stateReg cx c i).getD 0)
  let sync : Nat := match c.bsync with
    | some y => 2 ^ 63 + 256 * y.gen + y.id
    | none => 0
  let sup : List Word := [
    BitVec.ofNat 64 (j.vlc + 4 * j.matrix.toNat + 8 * (j.be || j.late).toNat + 16 * j.late.toNat + 256 * j.group), j.deadline, j.wid,
    BitVec.ofNat 64 (c.job.getD 0), BitVec.ofNat 64 (c.replyRight.getD 0xFF), BitVec.ofNat 64 sync, c.sent, c.skipped,
    BitVec.ofNat 64 c.tstatusNow, c.ptbase]
  pad 0x4000 ((List.range 32).flatMap fun i => bytesOf ((c.vreg (Fin.ofNat 32 i)).toNat % 2 ^ c.grant) 512) ++
    pad 0x10000 tiles ++ (List.range 16).flatMap (fun i => bytesOf (c.mreg (Fin.ofNat 16 i)).toNat 64) ++
    (List.range 8).flatMap (fun i => bytesOf (c.patterns.get 0 i).toNat 32) ++
    pad 64 ((c.flumes.map (·.addr)).flatMap word) ++ pad 64 books ++ pad 0xA80 cfg ++
    pad 0x400 (pad 0x200 (regs ++ word c.pc ++ word c.instret) ++ state) ++ pad 0x400 (sup.flatMap word)

/-- Size of an image. -/
def imageSize : Nat := 88064

/-- The open slot of a tenant's flumes that an address names as its context sees it (R251, R253). -/
def State.slotAt (s : State) (tenant own : Nat) (va : Word) : Option HeldSlot :=
  (List.range 12).findSome? fun k => (s.cluster k).flumes.findSome? fun (x : Nat × Flume) =>
    if x.2.owner ≠ tenant then none
    else
      let at_ (push : Bool) (i : Nat) : Option HeldSlot :=
        if x.2.address own k i = va then some { cluster := k, flume := x.1, slot := i, push := push, addr := va } else none
      ((slotsBetween x.2.fill x.2.claim).filter (fun i => !x.2.done.contains i)).findSome? (at_ true) <|>
        ((slotsBetween x.2.rel x.2.pop).filter (fun i => !x.2.released.contains i)).findSome? (at_ false)

/-- An image loaded into a stopped context (R361): every area but the identity fields and the RO registers.  rd o n reads n
bytes at offset o; ref and cx as in State.imageBytes. -/
def State.loadImage (s : State) (ref cx : Nat) (rd : Nat → Nat → Nat) : State :=
  let c := s.ctx ref
  let word (o : Nat) : Word := BitVec.ofNat 64 (rd o 8)
  let t := s.tenantOf c
  let own := clusterOf (coreOf cx)
  let slots := ((List.range 8).map fun i => word (0x14500 + 8 * i)).filter (· != 0)
  let flumes := slots.filterMap fun va => (c.flumes.find? fun h => h.addr == va) <|> s.slotAt t own va
  let c := (List.range 31).foldl (fun (c : Ctx) i => c.setReg (Fin.ofNat 32 (i + 1)) (word (0x15000 + 8 * (i + 1)))) c
  let c := { c with
    vregs := (List.range 32).foldl (fun (m : FMap (BitVec 4096)) i => m.set 0 i (BitVec.ofNat 4096 (rd (512 * i) 512 % 2 ^ c.grant))) []
    mregs := (List.range 16).foldl (fun (m : FMap (BitVec 512)) i => m.set 0 i (BitVec.ofNat 512 (rd (0x14000 + 64 * i) 64))) []
    patterns := (List.range 8).foldl (fun (m : FMap (BitVec 256)) i => m.set 0 i (BitVec.ofNat 256 (rd (0x14400 + 32 * i) 32))) []
    flumes := flumes, vecEcc := [], pc := word 0x15100, instret := word 0x15108 }
  let regs := ((List.range 0x12).filter fun i => writableReg i && i != 9).reverse
  let c := regs.foldl (fun (c : Ctx) i => c.writeReg 0 i (word (0x15200 + 8 * i))) c
  let s := match s.mxOf ref c with
    | some m =>
      let m' : MatrixUnit := { m with
        tiles := (List.range 16384).foldl (fun (t : FMap Nat) e => t.set 0 e (rd (0x4000 + 4 * e) 4)) []
        cba := (List.range 16).map fun e => rd (0x14540 + 2 * e) 2
        cbb := (List.range 16).map fun e => rd (0x14560 + 2 * e) 2
        geom := word 0x14580, stride := word 0x14588, sstride := word 0x14590, sa := word 0x14598, sb := word 0x145A0
        share := word 0x145A8, faddr := word 0x145B8, ecc := [] }
      s.setMx ref (m'.zeroed.loadStatus (word 0x145B0).toNat)
    | none => s
  let s := s.setCtx ref c
  match c.job.bind fun h => s.moveGroup h ((word (0x15200 + 8 * 0x21)).toNat % 256) with
  | some s => s
  | none => s

/-- Whether an image is of another VL class or matrix grant than the job of a context (R361). -/
def State.imageDiffers (s : State) (ref : Nat) (rd : Nat → Nat → Nat) : Bool :=
  let j := (s.jobOf (s.ctx ref)).getD {}
  rd 0x15400 8 % 8 != j.vlc + 4 * j.matrix.toNat

/-- The pages of an image at an address. -/
def imagePages (va : Word) : List (Word × Nat) := (List.range 22).map fun i => (va + BitVec.ofNat 64 (4096 * i), min 4096 (imageSize - 4096 * i))

/-- The context a CTXSAVE or CTXLOAD names, after its checks (R361). -/
def State.ctxOp (s : State) (d a b : SReg) (zeroOk : Bool) (k : State → Nat → Word → Out) : Out :=
  s.supervisorOnly fun s => s.heldOp [a, b] [d] fun s =>
    let c := s.curCtx
    let sc := c.reg a
    let sa := c.reg b
    let cx := 4 * coreOf s.sched.cur + sc.toNat
    if 4 ≤ sc.toNat ∨ cx = s.sched.cur then s.trapCur .illegalInstruction sc
    else if !(zeroOk && sa == 0) && (sa.toNat % 4096 != 0 || decide (sa.toNat < 2 ^ 47) || decide (2 ^ 48 ≤ sa.toNat)) then s.trapCur .misaligned sa
    else k s cx sa

/-- CTXSAVE (R361). -/
def execCtxsave (d a b : SReg) (s : State) : Out :=
  s.ctxOp d a b false fun s cx sa =>
    let c := s.ctx cx
    let done (s : State) (v : Word) : Out := .next (s.complete fun x => x.setReg d v)
    if c.job.isNone || c.status == .waiting .stopped || c.status == .stopping then done s 1
    else if c.status ≠ .waiting (.saving s.sched.cur) then
      .next (s.setCtx cx { s.squashed cx c with status := .waiting (.saving s.sched.cur) })
    else if !s.drained cx c || s.curFenced 0 || s.pendClasses s.sched.cur s.curCtx 3 s.curCtx.ord then .next s
    else
      match s.probeWrite (s.agentOf s.sched.cur s.curCtx) (imagePages sa) with
      | (.error t, s) => s.trapWith (·.setCtx cx { c with status := .running }) t.cause t.value
      | (.ok ps, s) =>
        let s := s.writeCuts ((imagePages sa).zip ps) (s.imageBytes cx cx)
        done (s.setCtx cx { c with status := .waiting .stopped }) 0

/-- The bytes of probed pages, by offset. -/
def State.pageReader (s : State) (ps : List Xlat) (o n : Nat) : Nat :=
  let p := ps.getD (o / 4096) { place := 0, cached := none, uc := false }
  s.bytesAt p.cached (p.place + o % 4096) n

/-- CTXLOAD (R361). -/
def execCtxload (d a b : SReg) (s : State) : Out :=
  s.ctxOp d a b true fun s cx sa =>
    let c := s.ctx cx
    let done (s : State) (v : Word) : Out := .next (s.complete fun x => x.setReg d v)
    let resume (s : State) : Out := done (s.modCtx cx fun c => { c with status := .running }) 0
    if c.status ≠ .waiting .stopped then done s 1
    else if sa = 0 then resume s
    else
      match s.probeRange (s.agentOf s.sched.cur s.curCtx) .read false (imagePages sa) with
      | (.error t, s) => s.trapCur t.cause t.value
      | (.ok ps, s) =>
        if s.curFenced 0 || s.pendClasses s.sched.cur s.curCtx 3 s.curCtx.ord then .next s
        else
          match (ps.zip (imagePages sa)).find? fun x => s.eccAt x.1.place x.2.2 with
          | some x => s.trapCur .eccUncorrectable x.2.1
          | none =>
            let s := (ps.zip (imagePages sa)).foldl (fun (s : State) x => s.snoopRead x.1.place x.2.2) s
            let rd := s.pageReader ps
            if s.imageDiffers cx rd then done s 2 else resume (s.loadImage cx cx rd)

/-! ### TLBINV and IDLE (R362, R363) -/

/-- Whether a translation is one that a TLBINV names (R362). -/
def TlbEntry.named (e : TlbEntry) (scope owner va : Nat) : Bool :=
  scope == 2 || (e.owner == owner && (scope == 1 || (decide (e.va ≤ va) && decide (va < e.va + e.size))))

/-- R362: the named translations leave every TLB. -/
def State.dropTlb (s : State) (scope owner va : Nat) : State :=
  let keep (l : List TlbEntry) : List TlbEntry := l.filter fun e => !e.named scope owner va
  let s := (List.range 96).foldl (fun (s : State) c => s.modCore c fun k => { k with tlb := keep k.tlb }) s
  (List.range 12).foldl (fun (s : State) c => s.modCluster c fun k => { k with tlb := keep k.tlb }) s

/-- Whether an owner's contexts and strips have accesses under way, other than those of one context (R362). -/
def State.accessesOf (s : State) (scope owner but : Nat) : Bool :=
  let hits (o : Nat) : Bool := scope == 2 || o == owner
  let busy (x : Nat) (c : Ctx) : Bool := x != but && (!c.loads.isEmpty || !c.stores.isEmpty || c.vq.any (·.started))
  s.ctxs.any (fun (x : Nat × Ctx) => hits (s.tenantOf x.2) && busy x.1 x.2) ||
    s.jobs.any (fun (x : Nat × Job) => hits x.2.tenant && (match x.2.img with
      | some c => busy (numCtx + x.1) c
      | none => false)) ||
    s.clusters.any (fun (x : Nat × Cluster) => x.2.strips.any fun y => hits y.tenant)

/-- TLBINV (R362): the translations go at once; it ends once the accesses made through them are performed. -/
def execTlbinv (a b : SReg) (s : State) : Out :=
  s.supervisorOnly fun s => s.heldOp [a, b] [] fun s =>
    let c := s.curCtx
    let kw := (c.reg b).toNat
    let scope := kw % 4
    let owner := bitsOf kw 13 8
    if scope = 3 ∨ bitsOf kw 7 2 ≠ 0 ∨ kw / 2 ^ 14 ≠ 0 ∨ !(decide (owner < 32) || owner == 62) then s.trapCur .illegalInstruction (c.reg b)
    else
      let s := s.dropTlb scope owner (c.reg a).toNat
      if s.accessesOf scope owner s.sched.cur || s.pendClasses s.sched.cur s.curCtx 7 s.curCtx.ord then .next s
      else .next (s.complete id)

/-- IDLE (R363). -/
def execIdle (a : SReg) (s : State) : Out :=
  s.heldOp [a] [] fun s =>
    let (now, s) := s.clusterNow (clusterOf (coreOf s.sched.cur))
    let t := (s.curCtx.reg a).toNat
    if t ≤ now then .next (s.complete id) else .next (s.waitOn (.until t s.nextPc))

/-! ### Admission (R276 to R280, R364) -/

/-- dens(r) (R279). -/
def density (q p : Nat) : Nat := (q * 65536 + p - 1) / p
/-- cap(T) (R279). -/
def Table.capacity (t : Table) (tenant : Nat) : Nat :=
  let total := (List.range 96).foldl (fun n c => (List.range t.nwin).foldl (fun n w =>
    if t.coreOwner (t.winSet w) c = tenant then n + (t.winLength w - 500) else n) n) 0
  65536 * total / t.cycle

/-- A descriptor's words (R276). -/
structure RsvDesc where
  p : Nat
  q : Nat
  d : Nat
  o : Nat
  tenant : Nat
  zeros : Bool
  root : LaunchRec
  deriving DecidableEq, Repr

/-- The words of a descriptor; the tenant is the caller's unless the service call gives it. -/
def RsvDesc.ofWords (ws : List Nat) (tenant : Option Nat) : RsvDesc :=
  let w (i : Nat) : Nat := ws.getD i 0
  { p := w 0, q := w 1, d := w 2, o := w 3, tenant := tenant.getD (w 4 % 32), zeros := w 4 / 32 == 0 && w 5 == 0 && w 6 == 0 && w 7 == 0
    root := LaunchRec.ofWords (ws.drop 8) }

/-- R279, R280: the status of an admission. -/
def State.admitStatus (s : State) (x : RsvDesc) : Nat :=
  let mine := s.rsvs.filter fun (r : Nat × Rsv) => r.2.tenant == x.tenant
  match s.sluice.table with
  | none => 1
  | some t =>
    if !x.zeros ∨ 2 ^ 40 < x.p ∨ 2 ^ 40 < x.q ∨ 31 < x.tenant ∨ !s.recordOk x.tenant x.root then 2
    else if x.p = 0 then 3
    else if x.q = 0 then 4
    else if x.d = 0 then 5
    else if x.p < x.d then 6
    else if 1024 ≤ s.rsvs.length then 7
    else if 64 ≤ mine.length then 8
    else if t.capacity x.tenant < mine.foldl (fun n (r : Nat × Rsv) => n + density r.2.q r.2.p) (density x.q x.p) then 9
    else 0

/-- The lowest free reservation id (R280). -/
def State.freeRsv (s : State) : Nat := ((List.range 1024).find? fun i => (s.rsvs.find? i).isNone).getD 0

/-- R277: the first release not earlier than a time. -/
def firstRelease (o p now : Nat) : Nat := if now ≤ o then o else o + (now - o + p - 1) / p * p

/-- Admission (R280): RSVADD's word, and the state with the reservation added on status 0. -/
def State.addRsv (s : State) (x : RsvDesc) : Nat × State :=
  let st := s.admitStatus x
  if st ≠ 0 then (st, s)
  else
    let (now, s) := s.clusterNow 0
    let id := s.freeRsv
    let r : Rsv := { p := x.p, q := x.q, d := x.d, o := x.o, tenant := x.tenant, root := x.root, consumed := 0, next := firstRelease x.o x.p now
                     gen := s.sched.draws }
    (65536 * id, { s with rsvs := s.rsvs.insert id r })

/-- RSVADD (R364). -/
def execRsvadd (d a : SReg) (s : State) : Out :=
  s.supervisorOnly fun s => s.heldOp [a] [d] fun s =>
    let sa := s.curCtx.reg a
    if sa.toNat % 64 ≠ 0 then s.trapCur .misaligned sa
    else s.loadWords sa 16 fun s ws =>
      let (v, s) := s.addRsv (RsvDesc.ofWords ws (some (s.tenantOf s.curCtx)))
      .next (s.complete fun c => c.setReg d (BitVec.ofNat 64 v))

/-! ### The resident micro-kernel (R327) -/

/-- A mapped host object of a tenant that holds an address, unless it is being unmapped (R376, R379). -/
def State.objectAt (s : State) (tenant va : Nat) : Option (Nat × HostObj) :=
  List.find? (fun (x : Nat × HostObj) => x.1 / 256 == tenant && !x.2.gone && decide (x.2.va ≤ va) && decide (va < x.2.va + x.2.length)) s.objects

/-- The level-0 entry of an address: its own address and its value; none where the walk ends before level 0 (R203). -/
def leafSlot (mem : Memory) (va : Nat) : Nat → Nat → Option (Nat × Nat)
  | 0, table => let p := table + 8 * (va / 4096 % 512); some (p, mem.readN p 8)
  | level + 1, table =>
    let e := mem.readN (table + 8 * (va / 2 ^ (12 + 9 * (level + 1)) % 512)) 8
    if !pteValid e || bit e 8 || pteLeaf e then none else leafSlot mem va level (ptePpn e)

/-- The action ends with a return to the instruction at an address (R323). -/
def State.kernelReturn (s : State) (cx : Nat) (pc : Word) (status : CtxStatus) : State :=
  s.modCtx cx fun c => { c.leave with pc := pc, status := status }

/-- The last row of R327: the job is abandoned, and JOB_FAULT logged. -/
def State.kernelHalt (s : State) (cx : Nat) : State :=
  let c := s.ctx cx
  let s := s.logCore 3 (coreOf cx) (s.tenantOf c) c.tcause.toNat c.tepc c.tval
  match c.job with
  | some h => s.abandonJob h
  | none => s

/-- A return past the TRAP (R327). -/
def State.kernelSkip (s : State) (cx : Nat) : State :=
  let c := s.ctx cx
  match s.fetchFrom { s.agentOf cx c with user := true } 4 c.tepc [] with
  | (.chain ws, s) => s.kernelReturn cx (c.tepc + BitVec.ofNat 64 (2 * ws.length)) .running
  | (_, s) => s.kernelHalt cx

/-- s5. -/
def regS5 : SReg := 5

/-- R85: the micro-kernel's own read of s5; an uncorrectable load there is a trap inside it. -/
def State.kernelReadS5 (s : State) (cx : Nat) (k : State) : State :=
  let c := s.ctx cx
  match c.badRead [regS5] with
  | none => k
  | some (_, b) =>
    if s.trapHeld cx c then s
    else (s.modCtx cx fun c => { c with badRegs := c.badRegs.erase 5 }).takeTrap cx
      { cause := if b.link then .linkPoison else .eccUncorrectable, value := b.addr } c.pc

/-- R327: what the micro-kernel does with the trap that a context has taken.  Its own instructions are not in the job's INSTRET
(notes/assumptions/104.md). -/
def State.kernelAct (s : State) (cx : Nat) : State :=
  let c := s.ctx cx
  let t := s.tenantOf c
  let code := c.tcause.toNat
  let v := c.tval.toNat
  if c.mode = .user then s
  else if c.tstatus.getLsbD 2 then s.kernelHalt cx
  else if code = 0x13 ∧ v = 0x10000 then
    let deleg := c.reg regS5 &&& s.delegMask t
    s.kernelReadS5 cx ((s.setCtx cx ({ c.setReg regS5 deleg with deleg := deleg })).kernelSkip cx)
  else if code = 0x13 ∧ v = 0x10001 then (s.setCtx cx (c.setReg regS5 c.deleg)).kernelSkip cx
  else if code = 0x13 ∧ 0x10002 ≤ v ∧ v ≤ 0x3FFFF then (s.setCtx cx (c.setReg regS5 (BitVec.allOnes 64))).kernelSkip cx
  else if 5 ≤ code ∧ code ≤ 7 ∧ (s.objectAt t v).isSome then
    match leafSlot s.mem v 3 (ptePpn c.ptbase.toNat), c.job with
    | some (_, e), some h =>
      let sl := homeSlice (ptePpn e)
      let q := s.svc.get {} sl
      if 16 ≤ (q.faults.filter fun f => f.tenant == t).length then s
      else
        let f : ObjFault := { tenant := t, job := h, va := c.tval, write := code == 6 }
        ({ s with svc := s.svc.set {} sl { q with faults := q.faults ++ [f] } } : State).kernelReturn cx c.tepc (.waiting .object)
    | _, _ => s.kernelHalt cx
  else if code = 0x14 ∧ (s.sessions.find? t).isSome then
    if !s.drained cx c then s else
    let stop : Stop := { job := c.job.getD 0, core := coreOf cx, ctx := cx % 4, tepc := c.tepc, imm := c.tval }
    ({ s with sessions := s.sessions.insert t ((s.sessions.find? t).getD [] ++ [stop]) } : State).kernelReturn cx c.tepc (.waiting .stopped)
  else s.kernelHalt cx

end Sys2Proof.Machine
end

