-- ==== Sys2Proof/Machine/Gates.lean ====
section
/-! DEFINITION. Windows, gate edges, quarantine and loans of cores (R336, R339 to R351). -/

namespace Sys2Proof.Machine
open Sys2Proof

/-! ### The end of a loan and the start of an edge (R341, R350, R351) -/

/-- R350: the borrower's deficit at the end of a loan. -/
def State.finishLoan (s : State) (core now : Nat) : State :=
  let k := s.core core
  match k.loan with
  | none => s
  | some l =>
    let weight : Int := s.tbl.weight l.to_ * 1000
    let key := 64 * k.owner + l.to_
    let s := s.modCluster (clusterOf core) fun c => { c with
      deficit := c.deficit.set 0 key (max (c.deficit.get 0 key - ((now - l.start : Nat) : Int)) (-weight)) }
    s.modCore core fun k => { k with loan := none }

/-- R341 steps 1, 2 and 6: the contexts of a core are halted, and its L1 TLB and branch table emptied. -/
def State.haltCore (s : State) (core : Nat) : State :=
  let s := (List.range 4).foldl (fun (s : State) x =>
    match (s.jobOf (s.ctx (4 * core + x))).map Job.state with
    | some (.running cx) => s.setCtx cx (s.halted cx (s.ctx cx))
    | _ => s) s
  s.modCore core fun k => { k with tlb := [], branches := [] }

/-- An edge begins on a core: the time E, the window entered, the incoming owner. -/
def State.beginEdge (s : State) (core at_ window in_ : Nat) : State :=
  let out := s.userOf core
  let loan := (s.core core).loan.isSome
  let s := (s.finishLoan core at_).haltCore core
  s.modCore core fun k => { k with
    edge := some { at_ := at_, window := window, out := out, in_ := in_, loan := loan }
    owner := in_, guarded := false, quarIdle := s.sluice.quar.getLsbD in_ }

/-! ### The start of a window (R336, R339, R344) -/

/-- A core at the start of a window: an edge where its owner changes or it is on loan; a core gated by an edge is powered again
at the latest here (R341). -/
def State.switchCore (s : State) (t : Table) (w : WinPos) (core : Nat) : State :=
  let o := t.ownerIn w core
  let k := s.core core
  match k.edge with
  | some e => s.modCore core fun k => { k with edge := some { e with window := w.idx, in_ := o }, owner := o, quarIdle := s.sluice.quar.getLsbD o }
  | none =>
    if o = k.owner ∧ k.loan.isNone then s
    else
      let s := if k.edgeGated && o != 63 then s.ungateCore core else s
      s.beginEdge core (t.winAt w) w.idx o

/-- R344: the count of overruns restarts at every cycle. -/
def State.newCycle (s : State) (cycle : Nat) : State :=
  if s.sluice.overCycle < cycle then { s with sluice := { s.sluice with overCycle := cycle, overruns := [] } } else s

/-- WINDOW_START (R336). -/
def execWindowStart (u : TimeUnit) (s : State) : Out :=
  match s.sluice.table with
  | none => .next s
  | some t =>
    if !s.sluice.inForce || s.sluice.loading then .next s
    else
      match u with
      | .cluster k =>
        if 12 ≤ k then .next s
        else
          let (now, s) := s.clusterNow k
          let w := t.posAt now
          if now < t.epoch ∨ s.sluice.clusterWin.get none k = some w then .next s
          else
            let s := s.newCycle w.cycle
            let s := { s with sluice := { s.sluice with clusterWin := s.sluice.clusterWin.set none k (some w) } }
            .next (((List.range 8).map fun i => 8 * k + i).foldl (fun s c => s.switchCore t w c) s)
      | .slice x =>
        if 8 ≤ x then .next s
        else
          let (now, s) := s.sliceNow x
          if now < t.epoch then .next s
          else .next { s with sluice := { s.sluice with sliceWin := s.sluice.sliceWin.set none x (some (t.posAt now)) } }

/-- EDGE_GUARD (R340). -/
def execEdgeGuard (core : Nat) (s : State) : Out :=
  if 96 ≤ core then .next s
  else
    let (_, s) := s.clusterNow (clusterOf core)
    .next (if s.guardDue core then s.modCore core fun k => { k with guarded := true } else s)

/-! ### The swap (R341 to R344) -/

/-- Saved jobs of a tenant that belong on a core: those from its windows first, then those from its loans (R342, R351). -/
def State.savedOn (s : State) (core tenant : Nat) (onLoan : Bool) : List (Nat × Job) :=
  s.jobs.filter fun (x : Nat × Job) => x.2.tenant == tenant && x.2.onLoan == onLoan && (match x.2.state with
    | .saved cx => coreOf cx == core
    | _ => false)

/-- The outgoing contexts of a core are saved (R341 step 7, R351). -/
def State.saveCore (s : State) (core : Nat) (loan : Bool) : State :=
  (s.onCore core []).foldl (fun (s : State) x =>
    match x.2.state with
    | .running cx => (s.saveImage x.1 cx (.saved cx)).modJob x.1 fun j => { j with onLoan := loan }
    | .parking cx => s.saveImage x.1 cx (.parked cx)
    | .abandoning cx p => s.saveImage x.1 cx (.abandoning (numCtx + x.1) p)
    | _ => s) s

/-- R287, R289: a saved RT job whose deadline has passed is abandoned and never resumes. -/
def State.resumeSaved (s : State) (x : Nat × Job) (k : State → State) : State :=
  let (now, s) := s.clusterNow x.2.cluster
  if s.passed x.2 now then s.abandonJob x.1 else k s

/-- R426: a best-effort or demoted job does not resume while the power cap throttles. -/
def State.capHolds (s : State) (j : Job) : Bool := s.power.throttle != 0 && (j.be || j.late)

/-- Images saved at the end of a loan resume where they fit (R351). -/
def State.resumeLent (s : State) (core tenant : Nat) : State :=
  (s.savedOn core tenant true).foldl (fun (s : State) x => s.resumeSaved x fun s =>
    match s.fitAt core x.2.vlc x.2.matrix [] with
    | some q => if s.capHolds x.2 then s else s.enter x.1 { x.2 with onLoan := false } (s.freeSlot core) q
    | none => s) s

/-- The incoming owner's images are restored (R341 step 7); one that the power cap holds back is parked, to resume like a displaced job
(R285, R426), or without space waits like an image of a loan. -/
def State.restoreCore (s : State) (core tenant : Nat) : State :=
  let s := (s.savedOn core tenant false).foldl (fun (s : State) x => s.resumeSaved x fun s =>
    match x.2.state with
    | .saved cx =>
      if s.capHolds x.2 then
        s.putJob x.1 (match s.parkPlaceOf x.2.cluster x.2 with
          | some p => { x.2 with state := .parked cx, park := p }
          | none => { x.2 with onLoan := true })
      else s.enter x.1 x.2 cx x.2.quad
    | _ => s) s
  s.resumeLent core tenant

/-- R343, R344: an edge that ends late is logged and charged to the outgoing owner; the third in a cycle quarantines a tenant. -/
def State.chargeOverrun (s : State) (core now : Nat) (e : Edge) : State :=
  let limit := e.at_ + 500
  if now ≤ limit then s
  else
    let rec_ (kind unit v0 v1 : Nat) : LogRec :=
      { tns := now, kind := kind, owner := e.out, unit := unit, cause := 0, v0 := BitVec.ofNat 64 v0, v1 := BitVec.ofNat 64 v1 }
    let s := s.log (rec_ 1 core (now - limit) e.window)
    let n := s.sluice.overruns.get 0 e.out + 1
    let s := { s with sluice := { s.sluice with overruns := s.sluice.overruns.set 0 e.out n } }
    if n = 3 ∧ e.out < 32 then
      ({ s with sluice := { s.sluice with quar := s.sluice.quar ||| BitVec.ofNat 64 (2 ^ e.out) } } : State).log
        (rec_ 2 0xFFFF s.sluice.overCycle 0)
    else s

/-- EDGE_SWAP_COMPLETE (R133, R153, R174, R237, R341, R346): once the started vector work of the outgoing contexts is complete and the
matrix unit has drained its rows. -/
def execEdgeSwapComplete (core : Nat) (s : State) : Out :=
  if 96 ≤ core then .next s
  else
    match (s.core core).edge with
    | none => .next s
    | some e =>
      if ((List.range 4).any fun x => !(s.ctx (4 * core + x)).vq.isEmpty) || !(s.core core).mx.drained then .next s
      else
        let (now, s) := s.clusterNow (clusterOf core)
        let s := (s.saveCore core e.loan).chargeOverrun core now e
        let s := if e.in_ = 63 ∨ (s.core core).quarIdle then s else s.restoreCore core e.in_
        let s := s.modCore core fun k => { k with edge := none, idleSince := now }
        .next (if e.in_ = 63 && !s.gated (.core core) then s.gateCore core true else s)

/-- CORE_REPOWER (R341): 2 µs before the next window whose owner is not 63, or at once when less is left. -/
def execCoreRepower (core : Nat) (s : State) : Out :=
  if 96 ≤ core || !(s.core core).edgeGated then .next s
  else
    let (now, s) := s.clusterNow (clusterOf core)
    match s.sluice.table, s.sluice.clusterWin.get none (clusterOf core) with
    | some t, some w =>
      match t.nextOwned core t.nwin w with
      | some v => if t.winAt v ≤ now + 2000 then .next (s.ungateCore core) else .next s
      | none => .next s
    | _, _ => .next s

/-! ### Loans (R349 to R351) -/

/-- R349: a ready job of a beneficiary that fits a core, and whose image the cluster's parking space can hold. -/
def State.lendsTo (s : State) (core tenant : Nat) (be : Bool) (now : Nat) : Bool :=
  (s.readyQueued (clusterOf core) tenant be now ++ s.readyHandlers core tenant be now).any fun r =>
    (s.fitAt core r.vlc r.matrix []).isSome && decide (s.parkedIn (clusterOf core) + imageBytesOf r.matrix ≤ 640 * 1024)

/-- R349: the conditions on the owner of a core. -/
def State.lendable (s : State) (t : Table) (w : WinPos) (core now : Nat) : Bool :=
  let k := s.core core
  k.loan.isNone && decide (k.owner < 32) && s.coreOpen core && !s.sluice.quar.getLsbD k.owner && (s.onCore core []).isEmpty &&
    !s.readyFits core k.owner false [] now && !s.readyFits core k.owner true [] now &&
    decide (k.idleSince + 2000 ≤ now) && decide (now + 2000 ≤ t.winEnd w)

/-- R350: the beneficiaries of a donor's list, starting after the pointer and wrapping. -/
def donationOrder (list : List Nat) (pointer : Nat) : List Nat :=
  let after := (list.dropWhile (· != pointer)).drop 1
  if list.contains pointer then after ++ list.takeWhile (· != pointer) ++ [pointer] else list

/-- R350: one pass over the eligible beneficiaries: the deficits, and the one the core is lent to. -/
def lendPass (t : Table) (donor : Nat) : FMap Int → List Nat → FMap Int × Option Nat
  | m, [] => (m, none)
  | m, b :: bs =>
    let key := 64 * donor + b
    let d := m.get 0 key
    let d' := if d ≤ 0 then d + t.weight b * 1000 else d
    let m := m.set 0 key d'
    if 0 < d' then (m, some b) else lendPass t donor m bs

/-- R349, R350: the beneficiaries that a core could go to, in the order of the pass. -/
def State.beneficiaries (s : State) (t : Table) (core now : Nat) : List Nat :=
  let donor := (s.core core).owner
  (donationOrder (t.donation donor) ((s.cluster (clusterOf core)).pointer.get 63 donor)).filter fun b =>
    b != donor && decide (b < 32) && decide (0 < t.weight b) && (s.lendsTo core b false now || s.lendsTo core b true now)

/-- LOAN_START (R349, R350). -/
def execLoanStart (core : Nat) (s : State) : Out :=
  if 96 ≤ core then .next s
  else
    let k := clusterOf core
    let (now, s) := s.clusterNow k
    match s.sluice.table, s.sluice.clusterWin.get none k with
    | some t, some w =>
      if !s.lendable t w core now || s.sluice.loading then .next s
      else
        let donor := (s.core core).owner
        let (m, lent) := lendPass t donor (s.cluster k).deficit (s.beneficiaries t core now)
        let s := s.modCluster k fun c => { c with deficit := m }
        match lent with
        | none => .next s
        | some b =>
          let s := s.modCluster k fun c => { c with pointer := c.pointer.set 63 donor b, toDecide := true }
          let s := s.modCore core fun x => { x with loan := some { to_ := b, start := now } }
          .next (s.resumeLent core b)
    | _, _ => .next s

/-- R351: the owner of a lent core has a ready RT job in the cluster that fits it once the borrower's have left. -/
def State.ownerWants (s : State) (core now : Nat) : Bool :=
  s.readyFits core (s.core core).owner false ((s.onCore core []).map (·.1)) now

/-- LOAN_END (R351): at the donor's window end, or at the decision that finds the owner's job. -/
def execLoanEnd (core : Nat) (s : State) : Out :=
  if 96 ≤ core then .next s
  else
    let k := s.core core
    match k.loan, k.edge, s.sluice.table, s.sluice.clusterWin.get none (clusterOf core) with
    | some _, none, some t, some w =>
      let (now, s) := s.clusterNow (clusterOf core)
      if t.winEnd w ≤ now || s.ownerWants core now then .next (s.beginEdge core (min now (t.winEnd w)) w.idx k.owner)
      else .next s
    | _, _, _, _ => .next s

/-! ### A new table (R337) -/

/-- TABLE_EPOCH (R337 step 6): the earliest unit's counter has reached EPOCH. -/
def execTableEpoch (s : State) : Out :=
  match s.sluice.table with
  | some t =>
    if s.sluice.loading || decide (s.time.ref + 8 < t.epoch) then .next s
    else .next { s with sluice := { s.sluice with inForce := true } }
  | none => .next s

end Sys2Proof.Machine
end

