-- ==== Sys2Proof/Machine/Service.lean ====
section
/-! DEFINITION. The service cores: the arrival of calls, the choice of the next work, how a call executes and completes, and the
functions of R372 but for those of the headrace and of the links (R365 to R379, R250, R352, R337, R338). -/

namespace Sys2Proof.Machine
open Sys2Proof

/-! ### Queueing (R355, R366, R368) -/

/-- Calls an owner has queued at a service core. -/
def SvcCore.queued (q : SvcCore) (owner : Nat) : Nat := (q.calls.filter fun c => c.queue == owner).length

/-- SVC_CALL_ARRIVE (R355, R368): a call reaches its service core after the earlier ones of its context to that slice, and after
the accesses it releases. -/
def execSvcCallArrive (i : Nat) (s : State) : Out :=
  match s.svcFlight[i]? with
  | none => .next s
  | some c =>
    if (s.svcFlight.take i).any (fun x => x.sender.map Sender.job == c.sender.map Sender.job && x.slice == c.slice) ||
        !s.released c.sender 3 then .next s
    else
      let s := { s with svcFlight := s.svcFlight.eraseIdx i }
      let q := s.svc.get {} c.slice
      let full := decide (32 ≤ q.queued c.queue)
      let s := if full then s else { s with svc := s.svc.set {} c.slice { q with calls := q.calls ++ [c] } }
      match c.sender with
      | some x => .next { s with svcAnswers := s.svcAnswers ++ [{ sender := x, status := if full then 1 else 0, slot := none, counted := none }] }
      | none => .next s

/-- SVC_ANSWER (R355). -/
def execSvcAnswer (i : Nat) (s : State) : Out :=
  match s.svcAnswers[i]? with
  | none => .next s
  | some a => .next (({ s with svcAnswers := s.svcAnswers.eraseIdx i } : State).opDone a.sender (some a.status))

/-! ### The next work of a service core (R365, R369, R375) -/

/-- R365: x0 to x31 of a service core; x0 is 0. -/
def Hart.reg (h : Hart) (i : Nat) : Word := if i = 0 then 0 else h.x.getD (i - 1) 0

/-- R365, R427: what a service core holds after a step of its kernel, which may have read the telemetry SRAM, is free
(notes/assumptions/95.md). -/
def Hart.free (n : Nat) (telemetry : FMap Nat) : Hart :=
  let ws := (List.range 32768).map (telemetry.get 0)
  { x := (List.range 31).map fun i => Config.hartX n ws (i + 1), f := (List.range 32).map (Config.hartF n ws)
    csr := (List.range 4096).map (Config.hartCsr n ws), pc := Config.hartPc n ws, mode := Config.hartMode n ws % 3 }

/-- A piece of work: an entry of the fault queue or a call, by its place in the core's list. -/
inductive SvcWork where
  | fault (i : Nat)
  | call (i : Nat)
  deriving DecidableEq, Repr

/-- Calls of an owner that may go on: not one behind another of its token (R369), nor one that waits for other instances. -/
def SvcCore.ready (q : SvcCore) (owner : Nat) : List Nat :=
  (q.calls.zipIdx).filterMap fun x =>
    if x.1.queue == owner && !x.1.begun &&
        !(x.1.token != 0xFFFF && (q.calls.take x.2).any fun y => y.queue == owner && y.token == x.1.token) then some x.2
    else none

/-- Whether an owner has queued work. -/
def SvcCore.busy (q : SvcCore) (owner : Nat) : Bool := q.faults.any (fun f => f.tenant == owner) || q.calls.any fun c => c.queue == owner

/-- The work of an owner: the fault queue first, then the calls; which call of several is free. -/
def SvcCore.workOf (q : SvcCore) (owner draw : Nat) : Option SvcWork :=
  match (q.faults.zipIdx).find? fun x => x.1.tenant == owner && x.1.asks.isNone with
  | some x => some (.fault x.2)
  | none =>
    let is := q.ready owner
    (is[draw % is.length]?).map .call

/-- The service weight of an owner (R335, R375). -/
def State.svcWeightOf (s : State) (owner : Nat) : Nat := if owner = 62 then 1000 else s.tbl.svcWeight owner

/-- Passes after which an owner of some credit and gain is served (R375). -/
def passesFor (credit : Int) (gain : Nat) : Nat := if 0 < credit then 1 else (-credit).toNat / gain + 1

/-- R375: the owner served next among those whose work is ready, and the credits after the passes that this takes; queued are the
owners with queued work, in the order of a pass. -/
def State.svcOwner (s : State) (q : SvcCore) (queued : List Nat) (ready : Nat → Bool) : Option (Nat × FMap Int) :=
  let weighted := queued.filter fun o => s.svcWeightOf o != 0
  let live := weighted.filter ready
  if weighted.isEmpty then (queued.find? ready).map fun o => (o, q.credit)
  else if live.contains q.last && decide (0 < q.credit.get 0 q.last) then some (q.last, q.credit)
  else
    let need (o : Nat) : Nat := passesFor (q.credit.get 0 o) (10 * s.svcWeightOf o)
    let n := live.foldl (fun n o => min n (need o)) (need (live.headD 0))
    (live.find? fun o => need o == n).map fun o =>
      let upTo := weighted.takeWhile (· != o) ++ [o]
      (o, weighted.foldl (fun (m : FMap Int) x =>
        m.set 0 x (m.get 0 x + (10 * s.svcWeightOf x * (if upTo.contains x then n else n - 1) : Nat))) q.credit)

/-- What a service core does next: the owner, its work and the credits. -/
structure SvcTurn where
  owner : Nat
  work : SvcWork
  credit : FMap Int
  deriving DecidableEq, Repr

/-- The next turn of a ready service core. -/
def State.svcTurn (s : State) (sl : Nat) : Option SvcTurn :=
  if !s.power.svc.get false sl then none
  else
    let q := s.svc.get {} sl
    let draw := Config.freeNat s.sched.draws
    (s.svcOwner q ((ownersAfter q.last).filter q.busy) fun o => (q.workOf o draw).isSome).bind fun x =>
      (q.workOf x.1 draw).map fun w => { owner := x.1, work := w, credit := x.2 }

/-- The queues of a service core written, and the time of a step, at most 20 µs, charged to the owner of its turn (R375); an owner
whose queues are empty keeps no credit.  The step leaves the core's registers, and may raise an MSI-X vector (R365, R382;
notes/assumptions/93.md and 95.md). -/
def State.svcCharge (s : State) (sl : Nat) (t : SvcTurn) (q : SvcCore) : State :=
  let (_, s) := s.drawNat
  let (cost, s) := s.drawNat
  let (hart, s) := s.drawNat
  let (v, s) := s.drawNat
  let credit := t.credit.set 0 t.owner (if q.busy t.owner then t.credit.get 0 t.owner - (cost % 20000 + 1 : Nat) else 0)
  { s with
    svc := s.svc.set {} sl { q with last := t.owner, credit := credit, hart := Hart.free hart s.telemetry }
    host := if s.host.up && decide (v < 64) then { s.host with msix := s.host.msix.set 0 v (s.host.msix.get 0 v + 1) } else s.host }

/-- A turn is taken: its work leaves the queues. -/
def State.svcTake (s : State) (sl : Nat) (t : SvcTurn) : State :=
  let q := s.svc.get {} sl
  s.svcCharge sl t (match t.work with
    | .fault i => { q with faults := q.faults.eraseIdx i }
    | .call i => { q with calls := q.calls.eraseIdx i })

/-- A step of a call that is not its last: the call stays, as c, and the core turns to others as R375 has it. -/
def State.svcKeep (s : State) (sl : Nat) (t : SvcTurn) (i : Nat) (c : Call) : State :=
  let q := s.svc.get {} sl
  s.svcCharge sl t { q with calls := q.calls.set i c }

/-! ### Memory as a call reaches it (R368, R431) -/

/-- The agent of a call's accesses. -/
def Call.agent (c : Call) : Agent := { owner := c.tenant, root := c.root, user := true, core := none, cluster := none }

/-- Whether a stretch of LPDDR 6 exists (R200). -/
def State.inLpddr (s : State) (pa n : Nat) : Bool := decide (pa + n ≤ s.lpddr)

/-- n bytes at an argument address; else the status and RESULT of the failure. -/
def State.svcRead (s : State) (c : Call) (va n : Nat) : Except (Nat × Nat) (List Byte) × State :=
  if c.own.isSome then (if s.inLpddr va n then .ok (s.mem.readBytes va n) else .error (3, 0), s.snoopRead va n)
  else
    match s.readRegion c.agent { base := va, len := n } with
    | (.ok bs, s) => (.ok bs, s)
    | (.error f, s) => (.error (4, f.2.toNat), s)

/-- The 8-byte words of bytes. -/
def wordsOf (bs : List Byte) : List Nat :=
  (List.range (bs.length / 8)).map fun i => ((bs.drop (8 * i)).take 8).foldr (fun b n => b.toNat + 256 * n) 0

/-- The words of a call's block, or of a kernel instance's own call. -/
def State.svcBlock (s : State) (c : Call) : Option (List Nat) × State :=
  match c.own with
  | some ws => (some (ws.map BitVec.toNat), s)
  | none =>
    match s.readRegion c.agent { base := c.block.toNat, len := 64 } with
    | (.ok bs, s) => (some (wordsOf bs), s)
    | (.error _, s) => (none, s)

/-! ### How a call executes (R367, R370, R371) -/

/-- A completion under REPLY; one for another owner's tag or weir is dropped. -/
def State.svcReply (s : State) (sl : Nat) (c : Call) (reply word : Nat) : State :=
  if bit reply 62 then s
  else if bit reply 63 then
    let w := reply % 2 ^ 13
    if bitsOf reply 62 13 ≠ 0 ∨ 12 ≤ w / 512 ∨ s.weirOwner w ≠ c.tenant then s
    else
      let a : WeirArrival := { source := .slice sl, weir := w, tenant := c.tenant, weight := 1, abort := false, sender := none, sent := s.sched.steps }
      { s with weirArrivals := s.weirArrivals ++ [a] }
  else if reply / 2 ^ 14 ≠ 0 ∨ 96 ≤ reply % 256 then s
  else
    let p : EngPacket := {
      source := .service sl, tenant := c.tenant, dst := reply % 256, tag := bitsOf reply 13 8
      payload := [c.block, BitVec.ofNat 64 word], deadline := c.deadline, counted := none, sent := s.sched.steps }
    { s with eng := s.eng ++ [p] }

/-- Every call of every service core changed. -/
def State.mapCalls (s : State) (f : Call → Call) : State :=
  { s with svc := s.svc.map fun (x : Nat × SvcCore) => (x.1, { x.2 with calls := x.2.calls.map f }) }

/-- RESULT, then word 0x38 with DONE, then the completion; a forwarded debug call's go back to the instance it came from (R374). -/
def State.svcFinish (s : State) (sl : Nat) (c : Call) (ws : List Nat) (r : Nat × Nat) : State :=
  let word := 2 ^ 63 + r.1
  let s := match c.own with
    | some _ => if c.copyOf.isNone then s else s.mapCalls fun x => if x.begun && x.asks == c.copyOf then { x with begun := false, answer := some r } else x
    | none =>
      let xs := [(c.block + 0x30, 16)]
      match s.probeWrite c.agent xs with
      | (.ok ps, s) => s.writeCuts (xs.zip ps) (bytesOf r.2 8 ++ bytesOf word 8)
      | (.error _, s) => s
  s.svcReply sl c (ws.getD 1 0) word

/-- The functions of R372. -/
def svcFuncs : List Nat :=
  [0x0001, 0x0010, 0x0011, 0x0020, 0x0030, 0x0031, 0x0032, 0x0040, 0x0041, 0x0050, 0x0051, 0x0052, 0x0053, 0x0054, 0x0060, 0x0061,
    0x0070, 0x0071, 0x0072, 0x0073, 0x0080, 0x0081, 0x0082, 0x0083, 0x0084]

/-- Who may call a function (R372). -/
inductive Caller where
  | tenant | service | both
  deriving DecidableEq, Repr

def Caller.allows (k : Caller) (tenant : Nat) : Bool :=
  match k with
  | .tenant => tenant != 62
  | .service => tenant == 62
  | .both => true

/-- What a function gives: STATUS and RESULT, and the state it leaves. -/
abbrev SvcResult := (Nat × Nat) × State

/-- A call begins: its block is read, and how many steps it makes is free; one whose block cannot be read leaves. -/
def State.svcBegin (s : State) (sl : Nat) (t : SvcTurn) (i : Nat) (c : Call) : State :=
  match s.svcBlock c with
  | (none, s) => s.svcTake sl t
  | (some ws, s) =>
    let (n, s) := s.drawNat
    s.svcKeep sl t i { c with work := some (ws, n) }

/-- A service core's next turn, when it is a call: it begins, or makes a step (R370, R375); its last step is k's, for a function that
ok names, given the turn, the call's place, the call and its words; one answered by instance 0 completes (R374). -/
def State.svcLast (s : State) (sl : Nat) (ok : Nat → Bool) (k : SvcTurn → Nat → Call → List Nat → Out) : Out :=
  match s.svcTurn sl with
  | none => .next s
  | some t =>
    match t.work with
    | .fault _ => .next s
    | .call i =>
      match (s.svc.get {} sl).calls[i]? with
      | none => .next s
      | some c =>
        match c.work with
        | none => .next (s.svcBegin sl t i c)
        | some (ws, n + 1) => .next (s.svcKeep sl t i { c with work := some (ws, n) })
        | some (ws, 0) =>
          match c.answer with
          | some r => .next ((s.svcTake sl t).svcFinish sl c ws r)
          | none => if ok (ws.getD 0 0) then k t i c ws else .next s

/-- The last step of a call of a function that ok names, and a step that changes nothing but is charged (R375) where due does not let it be
made yet; arg gives the words ARG0 to ARG3. -/
def State.svcServeWhen (s : State) (sl : Nat) (ok : Nat → Bool) (who : Caller) (due : Call → Bool)
    (fn : State → Call → (Nat → Nat) → SvcResult) : Out :=
  s.svcLast sl ok fun t i c ws =>
    if !due c then .next (s.svcKeep sl t i c)
    else
      let s := s.svcTake sl t
      if !who.allows c.tenant then .next (s.svcFinish sl c ws (2, 0))
      else
        let (r, s) := fn s c fun i => ws.getD (2 + i) 0
        .next (s.svcFinish sl c ws r)

/-- A function that may run at once. -/
def State.svcServe (s : State) (sl : Nat) (ok : Nat → Bool) (who : Caller) (fn : State → Call → (Nat → Nat) → SvcResult) : Out :=
  s.svcServeWhen sl ok who (fun _ => true) fn

/-- A function of instance 0 is served there; elsewhere a permitted call waits to be forwarded (R374). -/
def State.svcServe0 (s : State) (sl : Nat) (ok : Nat → Bool) (fn : State → Call → (Nat → Nat) → SvcResult) : Out :=
  s.svcServeWhen sl ok .service (fun c => sl == 0 || c.tenant != 62) fn

/-! ### Pages of other instances (R366) -/

/-- Where a kernel instance writes. -/
def PageWrite.place : PageWrite → Nat
  | .clean p => p
  | .invalid p => p
  | .valid p _ => p
  | .bytes p _ => p

/-- A page is written by its owner, a leaf by one atomic update at L2, host memory by UC writes at the host (R366, R377, R378, R389). -/
def State.pageWrite (s : State) (w : PageWrite) : State :=
  let leaf (p : Nat) (f : Nat → Nat) : State := s.putWord p 8 (f (s.mem.readN p 8))
  match w with
  | .clean p => leaf p fun e => if bit e 6 then e - 64 else e
  | .invalid p => leaf p ptePpn
  | .valid p low => leaf p fun e => ptePpn e + low
  | .bytes p bs =>
    if !isHostPa p then s.storeBytes p none bs else if s.host.up then s.putBytes p none bs else s.dropHostWrite p 62

/-- Those of some writes that fall to the instance of a slice. -/
def writesOf (sl : Nat) (ws : List PageWrite) : List PageWrite := ws.filter fun w => homeSlice w.place == sl
def State.ownWrites (s : State) (sl : Nat) (ws : List PageWrite) : State := (writesOf sl ws).foldl State.pageWrite s

/-- FUNC of the calls by which kernel instances ask each other for writes (notes/assumptions/94.md). -/
def askFunc : Nat := 0x10000

/-- The call that asks an instance for its writes. -/
def askCall (sl dst id : Nat) (ws : List PageWrite) : Call :=
  { tenant := 62, queue := 62, token := 0xFFFF, block := 0, root := 0, deadline := BitVec.allOnes 64, sender := none, src := sl, slice := dst
    own := some [BitVec.ofNat 64 askFunc, 1 <<< 62], begun := false, asks := some id, writes := ws }

/-- Whether the instances that own pages of some writes are ready and have room for a call. -/
def State.canAsk (s : State) (sl : Nat) (ws : List PageWrite) : Bool :=
  ws.all fun w =>
    let k := homeSlice w.place
    k == sl || (s.power.svc.get false k && decide ((s.svc.get {} k).queued 62 < 32))

/-- R366: what falls to other instances is asked of them by internal calls. -/
def State.askOthers (s : State) (sl id : Nat) (ws : List PageWrite) : State :=
  ((List.range 8).filter fun k => k != sl && !(writesOf k ws).isEmpty).foldl (fun (s : State) k =>
    let q := s.svc.get {} k
    { s with svc := s.svc.set {} k { q with calls := q.calls ++ [askCall sl k id (writesOf k ws)] } }) s

/-- A function that writes pages, and remembers some: its last step, k, comes once the owners of the others have made their writes;
k is given what it remembers. -/
def State.withAsk (s : State) (sl : Nat) (t : SvcTurn) (i : Nat) (c : Call) (ws : List PageWrite) (pages : List Nat) (k : List Nat → Out) : Out :=
  if c.asks.isSome then k c.pages
  else if ws.all fun w => homeSlice w.place == sl then k pages
  else if !s.canAsk sl ws then .next (s.svcKeep sl t i c)
  else .next ((s.svcKeep sl t i { c with begun := true, asks := some s.sched.steps, pages := pages }).askOthers sl s.sched.steps ws)

/-- An instance has made the writes asked under a number: after the last one, what asked for them goes on. -/
def State.askServed (s : State) (id : Option Nat) : State :=
  if s.svc.any fun (x : Nat × SvcCore) => x.2.calls.any fun c => !c.writes.isEmpty && c.asks == id then s
  else
    let s := s.mapCalls fun c => if c.begun && c.asks == id then { c with begun := false } else c
    { s with svc := s.svc.map fun (x : Nat × SvcCore) =>
      (x.1, { x.2 with faults := x.2.faults.map fun f => if f.asks == id then { f with asks := none } else f }) }

/-- BAD_ARG. -/
def State.badArg (s : State) (result : Nat := 0) : SvcResult := ((3, result), s)
/-- DONE. -/
def State.svcDone (s : State) (result : Nat := 0) : SvcResult := ((0, result), s)

/-- A function that writes pages (R366): plan gives how it ends, or its writes and the effect it has once they are made. -/
def State.svcServeAsk (s : State) (sl : Nat) (ok : Nat → Bool) (who : Caller)
    (plan : State → Call → (Nat → Nat) → Except (Nat × Nat) (List PageWrite × (State → SvcResult)) × State) : Out :=
  s.svcLast sl ok fun t i c ws =>
    let ends (s : State) (r : Nat × Nat) : Out := .next ((s.svcTake sl t).svcFinish sl c ws r)
    if !who.allows c.tenant then ends s (2, 0)
    else
      match plan s c fun j => ws.getD (2 + j) 0 with
      | (.error r, s) => ends s r
      | (.ok (w, k), s) => s.withAsk sl t i c w [] fun _ =>
          let (r, s) := k ((s.svcTake sl t).ownWrites sl w)
          .next (s.svcFinish sl c ws r)

/-- A read of an argument block by a function. -/
def State.withRead (s : State) (c : Call) (va n : Nat) (k : State → List Byte → SvcResult) : SvcResult :=
  match s.svcRead c va n with
  | (.ok bs, s) => k s bs
  | (.error r, s) => (r, s)

/-- NOP, and every call of a function that R372 does not list, among them what one instance asks of another (R366, R370, R372). -/
def execNop (sl : Nat) (s : State) : Out :=
  s.svcLast sl (fun f => f == 1 || !svcFuncs.contains f) fun t _ c ws =>
    let s := s.svcTake sl t
    let f := ws.getD 0 0
    if f = 1 then
      let (now, s) := s.sliceNow sl
      .next (s.svcFinish sl c ws (0, now))
    else if c.writes.isEmpty then .next (s.svcFinish sl c ws (1, 0))
    else .next ((s.ownWrites sl c.writes).askServed c.asks)

/-- INTERNAL_CALL (R366, R374): a kernel instance queues a call of its own at another instance, or with no words forwards the
debug call that is its next turn to instance 0, which answers it; the call keeps its place until then (R369). -/
def execInternalCall (sl dst : Nat) (ws : List Word) (s : State) : Out :=
  let q := s.svc.get {} dst
  if 8 ≤ sl ∨ 8 ≤ dst ∨ !s.power.svc.get false sl ∨ !s.power.svc.get false dst ∨ 32 ≤ q.queued 62 then .next s
  else if !ws.isEmpty then
    let c : Call := {
      tenant := 62, queue := 62, token := 0xFFFF, block := 0, root := 0, deadline := BitVec.allOnes 64, sender := none, src := sl
      slice := dst, own := some ws, begun := false }
    .next { s with svc := s.svc.set {} dst { q with calls := q.calls ++ [c] } }
  else if dst ≠ 0 ∨ sl = 0 then .next s
  else
    s.svcLast sl (fun f => decide (0x80 ≤ f) && decide (f ≤ 0x84)) fun t i c ws =>
      if c.tenant ≠ 62 then .next s
      else
        let id := s.sched.steps
        let s := s.svcKeep sl t i { c with begun := true, asks := some id }
        let q := s.svc.get {} 0
        let x : Call := { askCall sl 0 id [] with asks := none, copyOf := some id, own := some ((ws.set 1 (2 ^ 62)).map (BitVec.ofNat 64)) }
        .next { s with svc := s.svc.set {} 0 { q with calls := q.calls ++ [x] } }

/-! ### Reservations and counters (R276 to R280, R258, R281, R288, R309) -/

/-- RSV_ADD (R372, R280). -/
def execRsvAdd (sl : Nat) (s : State) : Out :=
  s.svcServe sl (· == 0x10) .both fun s c arg =>
    if arg 0 % 64 ≠ 0 then s.badArg
    else s.withRead c (arg 0) 128 fun s bs =>
      let (v, s) := s.addRsv (RsvDesc.ofWords (wordsOf bs) (if c.tenant = 62 then none else some c.tenant))
      s.svcDone v

/-- RSV_REMOVE (R372). -/
def execRsvRemove (sl : Nat) (s : State) : Out :=
  s.svcServe sl (· == 0x11) .both fun s c arg =>
    match s.rsvs.find? (arg 0) with
    | none => s.badArg
    | some r =>
      if c.tenant ≠ 62 ∧ r.tenant ≠ c.tenant then s.badArg
      else
        let held := decide (r.q ≤ r.consumed)
        let s := { s with rsvs := s.rsvs.erase (arg 0) }
        (if held then s.unhold (arg 0) r.gen else s).svcDone

/-- A headrace counter of R372: which is 0 SAT, 1 DUP, 2 LATE, 3 EARLY, 4 SEQGAP, 5 OVR or 6 NOFLUME. -/
def HrRows.counter (r : HrRows) (stream which : Nat) : Nat :=
  let c := r.counters.get {} stream
  match which with
  | 0 => c.sat
  | 1 => c.dup
  | 2 => c.late
  | 3 => c.early
  | 4 => c.seqgap
  | 5 => c.ovr
  | _ => c.noflume

/-- A headrace counter cleared. -/
def HrRows.clear (r : HrRows) (stream which : Nat) : HrRows :=
  let put (f : HrCounters → HrCounters) : HrRows := { r with counters := r.counters.set {} stream (f (r.counters.get {} stream)) }
  match which with
  | 0 => put fun c => { c with sat := 0 }
  | 1 => put fun c => { c with dup := 0 }
  | 2 => put fun c => { c with late := 0 }
  | 3 => put fun c => { c with early := 0 }
  | 4 => put fun c => { c with seqgap := 0 }
  | 5 => put fun c => { c with ovr := 0 }
  | _ => put fun c => { c with noflume := 0 }

/-- The rows of a group of a port. -/
def State.hrRows (s : State) (port g : Nat) : HrRows := (s.ports.get {} port).rows.get {} g
def State.setHrRows (s : State) (port g : Nat) (r : HrRows) : State :=
  let p := s.ports.get {} port
  { s with ports := s.ports.set {} port { p with rows := p.rows.set {} g r } }

/-- Whether some assignment set maps a group to a flume that a tenant owns (R258). -/
def State.mapsToFlumeOf (s : State) (tenant port g : Nat) : Bool :=
  match s.sluice.table with
  | none => false
  | some t => (List.range t.nset).any fun j =>
      let e := t.headraceMap j port g
      bit e 15 && decide (bitsOf e 11 8 < 12) && (s.flume (bitsOf e 11 8) (e % 64)).owner == tenant

/-- COUNTER (R372). -/
def execCounter (sl : Nat) (s : State) : Out :=
  s.svcServe sl (· == 0x20) .both fun s c arg =>
    let a := arg 1
    let clear := bit (arg 2) 0
    let owner := if c.tenant = 62 then a else c.tenant
    match arg 0 with
    | 0 =>
      let (port, g, st, which) := (a % 4, bitsOf a 13 8, bitsOf a 19 16, bitsOf a 26 24)
      if a ≠ port + 256 * g + 65536 * st + 2 ^ 24 * which ∨ 6 < which then s.badArg
      else if c.tenant ≠ 62 ∧ !s.mapsToFlumeOf c.tenant port g then ((2, 0), s)
      else
        let r := s.hrRows port g
        (if clear then s.setHrRows port g (r.clear st which) else s).svcDone (r.counter st which)
    | 1 =>
      if !(decide (owner < 32) || owner == 62) then s.badArg
      else (if clear then { s with lostLaunch := s.lostLaunch.set 0 owner 0 } else s : State).svcDone (s.lostLaunch.get 0 owner)
    | 2 =>
      if !(decide (owner < 32) || owner == 62) then s.badArg
      else (if clear then { s with abwFail := s.abwFail.set 0 owner 0 } else s : State).svcDone (s.abwFail.get 0 owner)
    | 3 =>
      if c.tenant ≠ 62 then ((2, 0), s)
      else if 96 ≤ a then s.badArg
      else (if clear then s.modCore a fun k => { k with foreign := 0 } else s).svcDone (s.core a).foreign
    | _ => s.badArg

/-! ### Mapped host objects (R376 to R379) -/

/-- The physical base of host memory (R200). -/
def hostBase : Nat := 0x010000000000

/-- The pages of an object by offset. -/
def HostObj.pages (o : HostObj) : List Nat := (List.range (o.length / 4096)).map (4096 * ·)

/-- MAP_OBJECT's check of a page's level-0 entry (R376). -/
def State.backingOk (s : State) (root : Word) (va : Nat) : Bool :=
  match leafSlot s.mem va 3 (ptePpn root.toNat) with
  | none => false
  | some (_, e) =>
    let pa := ptePpn e
    !bit e 0 && bitsOf e 10 9 == 0 && s.inLpddr pa 4096 && !overlaps pa 4096 s.host.hb s.host.hs

/-- R376: the object a descriptor describes; none where a field is out of range. -/
def objOf (ws : List Nat) (root : Word) (now : Nat) : Option HostObj :=
  let w (i : Nat) : Nat := ws.getD i 0
  let f := w 3
  let auto := bit f 1
  let period := bitsOf f 47 32
  if w 0 % 4096 ≠ 0 ∨ w 1 % 4096 ≠ 0 ∨ w 1 = 0 ∨ 2 ^ 30 < w 1 ∨ 0x7F0000000000 < w 0 + w 1 ∨ w 2 % 4096 ≠ 0 ∨ 2 ^ 40 < w 2 + w 1 ∨
      bitsOf f 31 2 ≠ 0 ∨ f / 2 ^ 48 ≠ 0 ∨ (auto && period == 0) ∨ (ws.drop 4).any (· != 0) then none
  else some { va := w 0, length := w 1, host := w 2, w := bit f 0, auto := auto, period := period, root := root, due := now + period * 100000 }

/-- R385, R420: the walks of an object's pages are device reads. -/
def State.snoopPages (s : State) (o : HostObj) : State :=
  o.pages.foldl (fun s i => s.snoopWalk (ptePpn o.root.toNat) (o.va + i)) s

/-- MAP_OBJECT (R376). -/
def execMapObject (sl : Nat) (s : State) : Out :=
  s.svcServe sl (· == 0x30) .tenant fun s c arg =>
    s.withRead c (arg 0) 64 fun s bs =>
      let (now, s) := s.sliceNow sl
      match objOf (wordsOf bs) c.root now, (List.range 256).find? fun i => (s.objects.find? (256 * c.tenant + i)).isNone with
      | some o, some id =>
        let s := s.snoopPages o
        let clash := s.objects.any fun (x : Nat × HostObj) => x.1 / 256 == c.tenant && overlaps x.2.va x.2.length o.va o.length
        if clash || !o.pages.all fun i => s.backingOk c.root (o.va + i) then s.badArg
        else ({ s with objects := s.objects.insert (256 * c.tenant + id) o } : State).svcDone id
      | _, _ => s.badArg

/-- The dirty pages of an object: offset, the address of the leaf, and the leaf (R378). -/
def State.dirtyPages (s : State) (o : HostObj) : List (Nat × Nat × Nat) :=
  o.pages.filterMap fun i =>
    match leafSlot s.mem (o.va + i) 3 (ptePpn o.root.toNat) with
    | some (p, e) => if bit e 0 && bit e 6 then some (i, p, e) else none
    | none => none

/-- Whether an owner's accesses leave its pages alone: TLBINV could complete (R362). -/
def State.quietFor (s : State) (tenant : Nat) : Bool := !s.accessesOf 1 tenant (numCtx + 2 ^ 32)

/-- The offsets of the dirty pages. -/
def State.harvestPages (s : State) (o : HostObj) : List Nat := (s.dirtyPages o).map (·.1)
/-- R378 step 1: the leaves of some pages are cleaned. -/
def State.harvestWrites (s : State) (o : HostObj) (pages : List Nat) : List PageWrite :=
  pages.filterMap fun i => (leafSlot s.mem (o.va + i) 3 (ptePpn o.root.toNat)).map fun x => .clean x.1

/-- What stops a harvest of some pages: the address of the failure. -/
def State.harvestFails (s : State) (o : HostObj) (pages : List Nat) : Option Nat :=
  match pages.find? fun i => ((leafSlot s.mem (o.va + i) 3 (ptePpn o.root.toNat)).map fun x => s.eccAt (ptePpn x.2) 4096).getD false with
  | some i => some (o.va + i)
  | none => if !pages.isEmpty && !s.host.up then some (hostBase + o.host) else none

/-- R378 step 1 ends: this instance's leaves cleaned, and a TLBINV of each page. -/
def State.cleaned (s : State) (sl tenant : Nat) (o : HostObj) (pages : List Nat) : State :=
  pages.foldl (fun (s : State) i => s.dropTlb 0 tenant (o.va + i)) (s.ownWrites sl (s.harvestWrites o pages))

/-- R378 step 2: the pages as they stand, for the host. -/
def State.harvestCopies (s : State) (o : HostObj) (pages : List Nat) : List PageWrite :=
  pages.filterMap fun i => (leafSlot s.mem (o.va + i) 3 (ptePpn o.root.toNat)).map fun x =>
    .bytes (hostBase + o.host + i) (s.mem.readBytes (ptePpn x.2) 4096)

/-- The last steps of HARVEST and UNMAP_OBJECT: caller, id and object; while accesses of the owner are under way no TLBINV could
complete (R362). -/
def State.withObject (s : State) (sl : Nat) (t : SvcTurn) (i : Nat) (c : Call) (ws : List Nat) (k : State → Nat → HostObj → Out) : Out :=
  let ends (r : Nat × Nat) : Out := .next ((s.svcTake sl t).svcFinish sl c ws r)
  let id := ws.getD 2 0
  if c.tenant = 62 then ends (2, 0)
  else
    match s.objects.find? (256 * c.tenant + id) with
    | none => ends (3, 0)
    | some o => if 256 ≤ id then ends (3, 0) else if !s.quietFor c.tenant then .next (s.svcKeep sl t i c) else k (s.snoopPages o) id o

/-- A harvest (R378): the leaves of the dirty pages are cleaned, then the pages are copied, each by the instance that owns what is
written (R366); k goes on behind it. -/
def State.harvestRun (s : State) (sl : Nat) (t : SvcTurn) (i : Nat) (c : Call) (ws : List Nat) (o : HostObj)
    (k : State → List Nat → Out) : Out :=
  let copy (s : State) (c : Call) (pages : List Nat) : Out :=
    let s := pages.foldl (fun (s : State) i => (leafSlot s.mem (o.va + i) 3 (ptePpn o.root.toNat)).elim s fun x => s.snoopRead (ptePpn x.2) 4096) s
    let w := s.harvestCopies o pages
    s.withAsk sl t i c w pages fun pages => k (s.ownWrites sl w) pages
  if c.stage = 1 then copy s c c.pages
  else
    match s.harvestFails o (s.harvestPages o) with
    | some a => .next ((s.svcTake sl t).svcFinish sl c ws (4, a))
    | none => s.withAsk sl t i c (s.harvestWrites o (s.harvestPages o)) (s.harvestPages o) fun pages =>
        copy (s.cleaned sl c.tenant o pages) { c with stage := 1, asks := none, pages := pages } pages

/-- HARVEST (R372, R378). -/
def execHarvest (sl : Nat) (s : State) : Out :=
  s.svcLast sl (· == 0x32) fun t i c ws => s.withObject sl t i c ws fun s _ o =>
    s.harvestRun sl t i c ws o fun s pages => .next ((s.svcTake sl t).svcFinish sl c ws (0, pages.length))

/-- HARVEST_AUTO (R376, R378): every PERIOD the instance of the object's first page queues a HARVEST of its own. -/
def execHarvestAuto (t obj : Nat) (s : State) : Out :=
  let key := 256 * t + obj
  match s.objects.find? key with
  | none => .next s
  | some o =>
    let sl := homeSlice o.va
    let (now, s) := s.sliceNow sl
    let q := s.svc.get {} sl
    if !o.auto || decide (256 ≤ obj) || decide (now < o.due) || decide (32 ≤ q.queued 62) then .next s
    else
      let c : Call := { askCall sl sl 0 [] with tenant := t, asks := none, own := some [0x32, 1 <<< 62, BitVec.ofNat 64 obj] }
      .next { s with
        svc := s.svc.set {} sl { q with calls := q.calls ++ [c] }
        objects := s.objects.insert key { o with due := o.due + o.period * 100000 } }

/-- R379: the leaves of an object, left with their page numbers. -/
def State.unmapWrites (s : State) (o : HostObj) : List PageWrite :=
  o.pages.filterMap fun i => (leafSlot s.mem (o.va + i) 3 (ptePpn o.root.toNat)).map fun x => .invalid x.1

/-- UNMAP_OBJECT ends: this instance's leaves written, a TLBINV of each page, the object gone (R379). -/
def State.unmap (s : State) (sl tenant id : Nat) (o : HostObj) : State :=
  let s := s.ownWrites sl (s.unmapWrites o)
  let s := o.pages.foldl (fun (s : State) i => s.dropTlb 0 tenant (o.va + i)) s
  { s with objects := s.objects.erase (256 * tenant + id) }

/-- R379: from here on the object serves no fault. -/
def State.markGone (s : State) (key : Nat) (o : HostObj) : State := { s with objects := s.objects.insert key { o with gone := true } }

/-- A page of an object is filled, and its leaf not valid yet. -/
def State.filling (s : State) (tenant : Nat) (o : HostObj) : Bool :=
  s.svc.any fun (x : Nat × SvcCore) => x.2.faults.any fun f =>
    f.tenant == tenant && f.asks.isSome && decide (o.va ≤ f.va.toNat) && decide (f.va.toNat < o.va + o.length)

/-- UNMAP_OBJECT (R379): the harvest; then the leaves, each written by its owner (R366), once no fill of the object is under way. -/
def execUnmapObject (sl : Nat) (s : State) : Out :=
  s.svcLast sl (· == 0x31) fun t i c ws => s.withObject sl t i c ws fun s id o =>
    let leaves (s : State) (c : Call) : Out :=
      if s.filling c.tenant o then .next (s.svcKeep sl t i c)
      else s.withAsk sl t i c (s.unmapWrites o) [] fun _ => .next (((s.svcTake sl t).unmap sl c.tenant id o).svcFinish sl c ws (0, 0))
    if c.stage = 2 then leaves s c
    else s.harvestRun sl t i c ws o fun s _ => leaves (s.markGone (256 * c.tenant + id) o) { c with stage := 2, asks := none, pages := [] }

/-- A job that waits for an object page goes on (R377). -/
def State.resumeObject (s : State) (h : Nat) : State :=
  s.modCtx (s.refOf h) fun c => if c.status = .waiting .object then { c with status := .running } else c

/-- A fault returned unserved: the micro-kernel applies HALT (R327, R377). -/
def State.faultUnserved (s : State) (f : ObjFault) : State :=
  match s.job? f.job with
  | none => s
  | some j =>
    let ref := s.refOf f.job
    let c := s.ctx ref
    if c.status ≠ .waiting .object then s
    else
      let core := match j.state with
        | .saved cx => coreOf cx
        | .parked cx => coreOf cx
        | _ => coreOf ref
      (s.logCore 3 core f.tenant c.tcause.toNat c.tepc c.tval).abandonJob f.job

/-- The low bits of the leaf that R377 writes. -/
def HostObj.leafBits (o : HostObj) : Nat := 1 + 2 + 4 * o.w.toNat + 16

/-- OBJECT_FAULT_SERVE (R377): one copy, by UC reads of the host, serves the faults of a page; a leaf that another instance owns is made valid by it (R366). -/
def execObjectFaultServe (sl : Nat) (s : State) : Out :=
  match s.svcTurn sl with
  | none => .next s
  | some t =>
    match t.work with
    | .call _ => .next s
    | .fault i =>
      let q := s.svc.get {} sl
      match q.faults[i]? with
      | none => .next s
      | some f =>
        let asked (id : Option Nat) : State := s.svcCharge sl t { q with faults := q.faults.set i { f with asks := id } }
        let s := s.svcTake sl t
        let va := f.va.toNat
        match s.objectAt f.tenant va with
        | none => .next (s.faultUnserved f)
        | some (_, o) =>
          let s := s.snoopWalk (ptePpn o.root.toNat) va
          match leafSlot s.mem va 3 (ptePpn o.root.toNat) with
          | none => .next (s.faultUnserved f)
          | some (p, e) =>
            if bit e 0 then .next (s.resumeObject f.job)
            else if f.write && !o.w then .next (s.faultUnserved f)
            else if !s.host.up then .next (s.faultUnserved f)
            else
              let from_ := hostBase + o.host + (va / 4096 * 4096 - o.va)
              let fill (s : State) : State := (s.snoopRead from_ 4096).storeBytes (ptePpn e) none ((List.range 4096).map fun j => s.homeByte (from_ + j))
              let w : PageWrite := .valid p o.leafBits
              match q.faults.find? fun g => g.tenant == f.tenant && g.asks.isSome && g.va.toNat / 4096 == va / 4096 with
              | some g => .next (asked g.asks)
              | none =>
                if homeSlice p = sl then .next (((fill s).pageWrite w).resumeObject f.job)
                else if !s.canAsk sl [w] then .next (asked none)
                else .next ((fill (asked (some s.sched.steps))).askOthers sl s.sched.steps [w])

/-! ### Sluice settings (R315, R344, R352) -/

/-- QUAR_CLEAR (R344, R372). -/
def execQuarClear (sl : Nat) (s : State) : Out :=
  s.svcServe sl (· == 0x51) .service fun s _ arg =>
    ({ s with sluice := { s.sluice with quar := s.sluice.quar &&& ~~~(BitVec.ofNat 64 (arg 0)) } } : State).svcDone

/-- SWEEP_SET (R315, R372). -/
def execSweepSet (sl : Nat) (s : State) : Out :=
  s.svcServe sl (· == 0x52) .service fun s _ arg =>
    if arg 0 = 0 ∨ 32 < arg 0 then s.badArg else ({ s with sweep := arg 0 } : State).svcDone

/-- LOG_SET (R352, R372): the ring starts empty, with the records lost so far in LOST. -/
def execLogSet (sl : Nat) (s : State) : Out :=
  s.svcServeAsk sl (· == 0x53) .service fun s _ arg =>
    let (base, n) := (arg 0, arg 1)
    if base % 4096 ≠ 0 ∨ !((List.range 11).any fun i => n == 64 * 2 ^ i) ∨ !s.inLpddr base (64 + 32 * n) then (.error (3, 0), s)
    else
      (.ok ([.bytes base (bytesOf 0 8), .bytes (base + 16) (bytesOf s.sluice.logLost 8)], fun s =>
        ({ s with sluice := { s.sluice with log := some (base, n) } } : State).svcDone), s)

/-! ### Flumes and images (R250, R373) -/

/-- The row size of a headrace group (R257, R259). -/
def HrGroup.rowSize (g : HrGroup) : Nat := 64 + g.nstr * (if g.tds then 4 * g.nfft else 48 * g.nprb)

/-- The descriptor a FLCFG, FLBASE and FLSLOT word give; none where a field is out of range (R250). -/
def flumeOf (cfg base slot : Nat) : Option Flume :=
  let x : Flume := {
    en := bit cfg 63, owner := bitsOf cfg 55 48, prod := bitsOf cfg 45 44, src := bitsOf cfg 37 32, weir := bitsOf cfg 28 16
    log2n := cfg % 16, base := base, slotsz := slot }
  if bitsOf cfg 62 56 ≠ 0 ∨ bitsOf cfg 47 46 ≠ 0 ∨ bitsOf cfg 43 38 ≠ 0 ∨ bitsOf cfg 31 29 ≠ 0 ∨ bitsOf cfg 15 4 ≠ 0 ∨
      !(decide (x.owner < 32) || x.owner == 62) ∨ x.prod = 3 ∨ (x.prod == 2 && decide (16 ≤ x.src)) ∨
      !(x.weir == 0x1FFF || decide (x.weir / 512 < 12)) ∨ 12 < x.log2n ∨ 2 ^ 23 ≤ base ∨ base % 64 ≠ 0 ∨ slot < 64 ∨ 2 ^ 20 < slot ∨
      slot % 64 ≠ 0 then none
  else some x

/-- R250: what the service domain refuses beside fields out of range. -/
def State.flumeRefused (s : State) (k f : Nat) (x : Flume) : Bool :=
  decide ((s.clusterRegion k x.owner).2 < x.base + 2 ^ x.log2n * x.slotsz) ||
    (x.en && x.prod != 0 && (s.cluster k).flumes.any fun (y : Nat × Flume) => y.1 != f && y.2.en && y.2.prod == x.prod && y.2.src == x.src) ||
    (x.prod == 1 && s.ports.any fun (p : Nat × Port) => match p.2.groups.find? x.src with
      | some g => decide (x.slotsz < g.rowSize)
      | none => false)

/-- FLUME_SET (R250, R372). -/
def execFlumeSet (sl : Nat) (s : State) : Out :=
  s.svcServe sl (· == 0x60) .service fun s c arg =>
    let v := arg 0
    let (k, f) := (bitsOf v 11 8, v % 64)
    if v / 2 ^ 16 ≠ 0 ∨ bitsOf v 14 12 ≠ 0 ∨ bitsOf v 7 6 ≠ 0 ∨ 12 ≤ k then s.badArg
    else s.withRead c (arg 1) 32 fun s bs =>
      let ws := wordsOf bs
      match flumeOf (ws.getD 0 0) (ws.getD 1 0) (ws.getD 2 0) with
      | none => s.badArg
      | some x =>
        if s.flumeRefused k f x then s.badArg
        else
          let old := s.flume k f
          let x := if x.en then x else { x with
            rel := old.rel, pop := old.pop, fill := old.fill, claim := old.claim, done := old.done, released := old.released }
          (s.setFlume k f x).svcDone

/-- A load table in LPDDR 6 (R80). -/
structure LoadTable where
  at_ : Nat
  common : Nat × Nat
  cdata : Nat × Nat
  tags : Nat × Nat
  flumes : Nat × Nat
  pcb : Nat
  cores : Nat
  clusters : Nat
  deriving DecidableEq, Repr

def State.loadTable (s : State) (at_ : Nat) : LoadTable :=
  let w (o : Nat) : Nat := s.mem.readN (at_ + o) 8
  { at_ := at_, common := (w 0x30, w 0x38), cdata := (w 0x40, w 0x48), tags := (w 0x50, w 0x58), flumes := (w 0x60, w 0x68), pcb := w 0x70
    cores := s.mem.readN (at_ + 8) 32, clusters := w 0x28 }

/-- The selected cores of a load, with their entries of the core list (R373). -/
def LoadTable.selected (t : LoadTable) (half : Bool) : List (Nat × Nat) :=
  ((List.range 96).map fun c => (c, if half then c + 128 else c)).filter fun x => bit t.cores x.2
def LoadTable.listed (t : LoadTable) : List Nat := maskClusters t.clusters
/-- Offset and size of a core's part (R80). -/
def State.corePart (s : State) (t : LoadTable) (e : Nat) : Nat × Nat :=
  (s.mem.readN (t.at_ + 0x100 + 16 * e) 8, s.mem.readN (t.at_ + 0x108 + 16 * e) 8)

/-- A flume record: number, LOG2N, SLOTSZ, base in .cdata (R80). -/
def State.flumeRec (s : State) (t : LoadTable) (i : Nat) : Nat × Nat × Nat × Nat :=
  let o := t.at_ + t.flumes.1 + 16 * i
  let w := s.mem.readN o 8
  (w % 64, bitsOf w 11 8, w / 2 ^ 32, s.mem.readN (o + 8) 8)

/-- R373: the offset of the first failing item, in the order of the checks; the zero bytes of the table are those of its header and of
its tag and flume records (R78, R80). -/
def State.loadFails (s : State) (t : LoadTable) (tenant : Nat) (half : Bool) : Option Nat :=
  let cores := t.selected half
  let zero (o n : Nat) : Option Nat := (List.range n).findSome? fun i => if s.mem.read (t.at_ + o + i) = 0 then none else some (o + i)
  let size (c : Nat) : Nat := (s.coreRegion c tenant).2
  let first (f : Nat × Nat → Option Nat) : Option Nat := cores.findSome? f
  let rec_ (f : Nat → Nat → Option Nat) (xs : Nat × Nat) : Option Nat := (List.range xs.2).findSome? fun i => f i (xs.1 + 16 * i)
  (if s.mem.readN t.at_ 8 = 1 then none else some 0) <|>
    (if bitsOf t.cores 127 96 = 0 ∧ t.cores / 2 ^ 224 = 0 then none else some 8) <|>
    (if t.clusters / 2 ^ 12 = 0 then none else some 0x28) <|> zero 0x78 0x88 <|> rec_ (fun _ o => zero (o + 0x0B) 1) t.tags <|>
    rec_ (fun _ o => let w := s.mem.readN (t.at_ + o) 4; if bitsOf w 7 6 = 0 ∧ w / 2 ^ 12 = 0 then none else some o) t.flumes <|>
    (first fun x => if t.common.2 ≤ size x.1 then none else some 0x30) <|>
    (first fun x => let p := s.corePart t x.2; if p.2 = 0 ∨ t.pcb + p.2 ≤ size x.1 then none else some (0x100 + 16 * x.2)) <|>
    (if t.listed.all fun k => decide (t.cdata.2 ≤ (s.clusterRegion k tenant).2) then none else some 0x40) <|>
    rec_ (fun _ o =>
      let tag := s.mem.readN (t.at_ + o + 8) 1
      if tag < 64 ∧ cores.all (fun x => s.tagOwner x.1 tag == tenant) then none else some o) t.tags <|>
    rec_ (fun i o =>
      let r := s.flumeRec t i
      let free (k : Nat) : Bool := let x := s.flume k r.1; !x.en && (x.owner == 63 || x.owner == tenant)
      if t.listed.all free ∧ r.2.2.2 + 2 ^ r.2.1 * r.2.2.1 ≤ t.cdata.2 then none else some o) t.flumes

/-- The parts written to a selected core, and its tags programmed (R373 steps 1 and 3); what a record holds that MTAG would refuse is
programmed as it stands (notes/assumptions/103.md). -/
def State.loadCore (s : State) (t : LoadTable) (tenant : Nat) (x : Nat × Nat) : State :=
  let base := (s.coreRegion x.1 tenant).1
  let p := s.corePart t x.2
  let common := s.mem.readBytes (t.at_ + t.common.1) t.common.2
  let own := s.mem.readBytes (t.at_ + p.1) p.2
  let s := ((s.snoopRead (t.at_ + t.common.1) t.common.2).snoopRead (t.at_ + p.1) p.2).snoopRead (t.at_ + t.tags.1) (16 * t.tags.2)
  let s := (s.storeBytes (corePlace x.1 base) none common).storeBytes (corePlace x.1 (base + t.pcb)) none own
  (List.range t.tags.2).foldl (fun (s : State) i =>
    let o := t.at_ + t.tags.1 + 16 * i
    let rd (a n : Nat) : Nat := s.mem.readN (o + a) n
    s.modCore x.1 fun k => { k with tags := k.tags.set {} (rd 8 1) {
      handler := BitVec.ofNat 64 (rd 0 8), en := false, matrix := false, be := rd 9 1 == 1, vlc := rd 10 1, reldl := rd 12 4 } }) s

/-- .cdata written to a listed cluster, and its flumes programmed (R373 steps 2 and 4). -/
def State.loadCluster (s : State) (t : LoadTable) (tenant k : Nat) : State :=
  let data := s.mem.readBytes (t.at_ + t.cdata.1) t.cdata.2
  let s := (s.snoopRead (t.at_ + t.cdata.1) t.cdata.2).snoopRead (t.at_ + t.flumes.1) (16 * t.flumes.2)
  let s := s.storeBytes (clusterPlace k (s.clusterRegion k tenant).1) none data
  (List.range t.flumes.2).foldl (fun (s : State) i =>
    let r := s.flumeRec t i
    s.setFlume k r.1 { s.flume k r.1 with en := false, owner := tenant, log2n := r.2.1, slotsz := r.2.2.1, base := r.2.2.2 }) s

/-- IMAGE_LOAD (R373). -/
def execImageLoad (sl : Nat) (s : State) : Out :=
  s.svcServe sl (· == 0x54) .service fun s _ arg =>
    let half := bit (arg 2) 0
    let tenant := arg 1 % 32
    if !s.inLpddr (arg 0) 0xF00 then s.badArg
    else
      let s := s.snoopRead (arg 0) 0xF00
      let t := s.loadTable (arg 0)
      match s.loadFails t tenant half with
      | some o => s.badArg o
      | none =>
        let cores := t.selected half
        let n := cores.foldl (fun n x => n + t.common.2 + (s.corePart t x.2).2) (t.listed.length * t.cdata.2)
        let s := cores.foldl (fun s x => s.loadCore t tenant x) s
        (t.listed.foldl (fun s k => s.loadCluster t tenant k) s).svcDone n

/-! ### Debug sessions (R374) -/

/-- A stop of a session that still holds: the place, the job and the address it stopped at. -/
def State.stopAt (s : State) (core ctx : Nat) : Option Stop :=
  s.sessions.findSome? fun (x : Nat × List Stop) => x.2.find? fun p => p.core == core && p.ctx == ctx &&
    ((s.live p.job).isSome && (s.ctx (s.refOf p.job)).status == .waiting .stopped)

/-- A stopped context goes on at an address, and its stop is forgotten. -/
def State.resumeStop (s : State) (p : Stop) (pc : Word) : State :=
  let s := s.modCtx (s.refOf p.job) fun c => { c with status := .running, pc := pc }
  { s with sessions := s.sessions.map fun (x : Nat × List Stop) => (x.1, x.2.filter (· != p)) }

/-- The address past the BRK that stopped a context, as the context fetches it (R323, R374). -/
def State.pastStop (s : State) (p : Stop) : Word × State :=
  let ref := s.refOf p.job
  match s.fetchFrom (s.agentOf (4 * p.core + p.ctx) (s.ctx ref)) 4 p.tepc [] with
  | (.chain ws, s) => (p.tepc + BitVec.ofNat 64 (2 * ws.length), s)
  | (_, s) => (p.tepc, s)

/-- DEBUG_OPEN (R374). -/
def execDebugOpen (sl : Nat) (s : State) : Out :=
  s.svcServe0 sl (· == 0x80) fun s _ arg =>
    if 32 ≤ arg 0 then s.badArg
    else if (s.sessions.find? (arg 0)).isSome then ((5, 0), s)
    else ({ s with sessions := s.sessions.insert (arg 0) [] } : State).svcDone

/-- DEBUG_CLOSE (R374). -/
def execDebugClose (sl : Nat) (s : State) : Out :=
  s.svcServe0 sl (· == 0x81) fun s _ arg =>
    match s.sessions.find? (arg 0) with
    | none => s.badArg
    | some ps =>
      let live := ps.filter fun p => s.stopAt p.core p.ctx == some p
      let s := live.foldl (fun (s : State) p => let (pc, s) := s.pastStop p; s.resumeStop p pc) s
      ({ s with sessions := s.sessions.erase (arg 0) } : State).svcDone live.length

/-- DEBUG_WRITE: the stop and the buffer (R372, R374). -/
def State.debugBuffer (s : State) (arg : Nat → Nat) (k : State → Stop → Nat → SvcResult) : SvcResult :=
  match s.stopAt (arg 0) (arg 1) with
  | none => s.badArg
  | some p => if arg 2 % 4096 ≠ 0 ∨ !s.inLpddr (arg 2) imageSize then s.badArg else k s p (4 * p.core + p.ctx)

/-- The writes of an image, page by page (R366). -/
def pagesOf (place : Nat) (bs : List Byte) : List PageWrite :=
  (List.range ((bs.length + 4095) / 4096)).map fun k => .bytes (place + 4096 * k) ((bs.drop (4096 * k)).take 4096)

/-- DEBUG_READ (R374): the buffer's pages are written by the instances that own them (R366). -/
def execDebugRead (sl : Nat) (s : State) : Out :=
  s.svcLast sl (· == 0x82) fun t i c ws =>
    let arg (i : Nat) : Nat := ws.getD (2 + i) 0
    let ends (s : State) (r : Nat × Nat) : Out := .next (s.svcFinish sl c ws r)
    if c.tenant ≠ 62 then ends (s.svcTake sl t) (2, 0)
    else if sl ≠ 0 then .next (s.svcKeep sl t i c)
    else
      match s.stopAt (arg 0) (arg 1) with
      | none => ends (s.svcTake sl t) (3, 0)
      | some p =>
        if arg 2 % 4096 ≠ 0 ∨ !s.inLpddr (arg 2) imageSize then ends (s.svcTake sl t) (3, 0)
        else
          let image := pagesOf (arg 2) (s.imageBytes (s.refOf p.job) (4 * p.core + p.ctx))
          s.withAsk sl t i c image [] fun _ => ends ((s.svcTake sl t).ownWrites sl image) (0, p.tepc.toNat)

/-- DEBUG_WRITE (R361, R374). -/
def execDebugWrite (sl : Nat) (s : State) : Out :=
  s.svcServe0 sl (· == 0x83) fun s _ arg =>
    s.debugBuffer arg fun s p cx =>
      let s := s.snoopRead (arg 2) imageSize
      let rd (o n : Nat) : Nat := s.mem.readN (arg 2 + o) n
      let ref := s.refOf p.job
      if s.imageDiffers ref rd then s.svcDone 2 else (s.loadImage ref cx rd).svcDone

/-- DEBUG_RESUME (R374). -/
def execDebugResume (sl : Nat) (s : State) : Out :=
  s.svcServe0 sl (· == 0x84) fun s _ arg =>
    match s.stopAt (arg 0) (arg 1) with
    | none => s.badArg
    | some p =>
      if bit (arg 2) 0 then
        let (pc, s) := s.pastStop p
        (s.resumeStop p pc).svcDone
      else (s.resumeStop p p.tepc).svcDone

end Sys2Proof.Machine
end

