-- ==== Sys2Proof/Machine/TableLoad.lean ====
section
/-! DEFINITION. TABLE_LOAD: the checks of a Sluice Table and how an accepted one takes force (R328 to R338). -/

namespace Sys2Proof.Machine
open Sys2Proof

/-- Size of a table's image (R328). -/
def tableSize : Nat := 0x27700

/-- The table in an image of LPDDR 6. -/
def State.tableAt (s : State) (at_ : Nat) : Table :=
  { img := (s.mem.filter fun (c : Host.Cell) => decide (at_ ≤ c.1) && decide (c.1 < at_ + tableSize)).map fun (c : Host.Cell) => (c.1 - at_, c.2) }

/-- Whether n bytes from an offset are zero. -/
def Table.zeros (t : Table) (o n : Nat) : Bool := !t.img.any fun (c : Host.Cell) => decide (o ≤ c.1) && decide (c.1 < o + n) && c.2 != 0

/-- Owner codes that may own (R328, R338). -/
def ownerCode (o : Nat) : Bool := decide (o < 32) || o == 62 || o == 63
/-- The owners beside 63. -/
def owners : List Nat := List.range 32 ++ [62]
/-- The codes that own nothing: their bytes are zero (R331). -/
def spareCodes : List Nat := (List.range 30).map (32 + ·) ++ [63]

/-- R338 status 1: FORMAT, the zero bytes and fields, NWIN and NSET. -/
def Table.formatBad (t : Table) : Bool :=
  let w18 := t.u64 0x18
  let spare (f : Nat → Bool) : Bool := spareCodes.any f
  t.format != 1 || t.nwin == 0 || decide (64 < t.nwin) || t.nset == 0 || decide (16 < t.nset) ||
    w18 != t.nwin + 256 * t.nset || t.u64 0x28 % 4096 != 0 || decide (2 ^ 48 ≤ t.u64 0x28) || !t.zeros 0x30 0x10 ||
    !t.zeros (0x40 + 16 * t.nwin) (0x400 - 16 * t.nwin) || !t.zeros 0x440 0xBC0 ||
    (List.range t.nwin).any (fun i => decide (16 ≤ t.u32 (0x4C + 16 * i))) ||
    !t.zeros (Table.setBase t.nset) (4096 * (16 - t.nset)) ||
    (List.range t.nset).any (fun j =>
      let b := Table.setBase j
      !t.zeros (b + 0x60) 0x20 || !t.zeros (b + 0x240) 0x1C0 || !t.zeros (b + 0xC00) 0x400 ||
        spare fun o => t.linkShare j o != 0 || t.channelShare j o != 0) ||
    (List.range 96).any (fun c =>
      decide (4 ≤ t.u8 (Table.coreBase c)) || !t.zeros (Table.coreBase c + 1) 0x3F ||
        (spare fun o => t.areqSize c o != 0 || t.arspSize c o != 0 || t.completionSize c o != 0 || t.coreRegion c o != 0) ||
        owners.any fun o => decide (2 ^ 30 ≤ t.coreRegion c o)) ||
    (List.range 12).any (fun k => (spare fun o => t.clusterRegion k o != 0) || owners.any fun o => decide (2 ^ 23 ≤ t.clusterRegion k o)) ||
    (List.range 32).any fun o =>
      let b := Table.tenantBase o
      decide (2 ^ 17 ≤ t.u64 b) || decide (2 ^ 16 ≤ t.u64 (b + 0x18)) || t.u64 (b + 0x20) % 4096 != 0 || decide (2 ^ 48 ≤ t.u64 (b + 0x20)) ||
        !t.zeros (b + 0x28) 0x18

/-- R338 status 4. -/
def Table.layoutBad (t : Table) : Bool :=
  let ends := (List.range t.nwin).map fun i => t.winStart i + t.winLength i
  (List.range t.nwin).any (fun i => t.winStart i != (if i = 0 then 0 else ends.getD (i - 1) 0) || t.winStart i % 10 != 0 ||
    t.winLength i % 10 != 0 || decide (t.nset ≤ t.winSet i)) || ends.getLast? != some t.cycle

/-- The owner bytes of a set: cores, banks, L2 TLB ways and L1 ways. -/
def Table.setOwners (t : Table) (j : Nat) : List Nat :=
  (List.range 96).map (t.coreOwner j) ++ (List.range 128).map (t.bankOwner j) ++
    (List.range 192).map (fun w => t.l2tlbWayOwner j (w / 16) (w % 16)) ++ (List.range 1536).map fun w => t.l1WayOwner j (w / 16) (w % 16)

/-- R201, R338: a bank or way given to one tenant, and in another set to another tenant or to 62. -/
def oneOwner (os : List Nat) : Bool :=
  let used := os.filter (· != 63)
  !used.any fun o => decide (o < 32) && used.any (· != o)

/-- The object-owner bytes (R328). -/
def Table.objectOwners (t : Table) : List Nat :=
  (List.range 96).flatMap (fun c => (List.range 64).map (t.tagOwner c) ++ (List.range 256).map (t.barrierOwner c)) ++
    (List.range 12).flatMap fun k => (List.range 512).map (t.weirOwner k) ++ (List.range 64).map (t.mapOwner k)

/-- R338 status 5. -/
def Table.setBad (t : Table) : Bool :=
  let sets := List.range t.nset
  sets.any (fun j => (t.setOwners j).any fun o => !ownerCode o) ||
    t.objectOwners.any (fun o => !ownerCode o) ||
    sets.any (fun j => decide (256 < owners.foldl (fun n o => n + t.linkShare j o) 0) || decide (252 < owners.foldl (fun n o => n + t.channelShare j o) 0)) ||
    (List.range 128).any (fun b => !oneOwner (sets.map fun j => t.bankOwner j b)) ||
    (List.range 1536).any (fun w => !oneOwner (sets.map fun j => t.l1WayOwner j (w / 16) (w % 16))) ||
    sets.any fun j => (List.range 256).any fun e =>
      let h := t.headraceMap j (e / 64) (e % 64)
      bitsOf h 14 12 != 0 || bitsOf h 7 6 != 0 || decide (12 ≤ bitsOf h 11 8)

/-- Bytes of the L1 share of a core (R332). -/
def Table.l1Bytes (t : Table) (c : Nat) : Nat := [0, 0x40000, 0x80000, 0x100000].getD (t.l1Share c) 0

/-- The stretches of an array: base and size of each owner's region. -/
def Table.coreRegions (t : Table) (c : Nat) : List (Nat × Nat) := owners.map fun o => (regionBase (t.coreRegion c o), regionSize (t.coreRegion c o))
def Table.clusterRegions (t : Table) (k : Nat) : List (Nat × Nat) := owners.map fun o => (regionBase (t.clusterRegion k o), clusterRegionSize (t.clusterRegion k o))

/-- Whether two stretches of a list overlap. -/
def anyOverlap : List (Nat × Nat) → Bool
  | [] => false
  | r :: rs => (decide (r.2 ≠ 0) && rs.any fun q => decide (q.2 ≠ 0) && overlaps r.1 r.2 q.1 q.2) || anyOverlap rs

/-- R338 status 6. -/
def Table.regionsOverlap (t : Table) : Bool :=
  (List.range 96).any (fun c => anyOverlap ((0x400000 - t.l1Bytes c, t.l1Bytes c) :: t.coreRegions c)) ||
    (List.range 12).any fun k => anyOverlap (t.clusterRegions k)

/-- R338 status 7. -/
def Table.regionsOut (t : Table) : Bool :=
  (List.range 96).any (fun c => (t.coreRegions c).any (fun r => decide (0x400000 < r.1 + r.2)) ||
    owners.any fun o => decide (regionSize (t.coreRegion c o) < 4 * regionStack (t.coreRegion c o))) ||
    (List.range 12).any fun k => (t.clusterRegions k).any fun r => decide (0x800000 < r.1 + r.2)

/-- R338 status 9. -/
def Table.partitionBad (t : Table) : Bool :=
  (List.range 96).any fun c =>
    decide (128 < owners.foldl (fun n o => n + t.areqSize c o + t.arspSize c o) 0) || decide (32 < owners.foldl (fun n o => n + t.completionSize c o) 0)

/-- R338 status 10. -/
def Table.ownersBad (t : Table) : Bool :=
  (List.range 96).any fun c => decide (3 < (owners.filter fun o => (List.range t.nwin).any fun i => t.coreOwner (t.winSet i) c == o).length)

/-- R338 status 11: an owner code of a tenant whose EN is 0, wherever the table gives it something. -/
def Table.tenantBad (t : Table) : Bool :=
  let off (o : Nat) : Bool := decide (o < 32) && !t.enabled o
  (List.range t.nset).any (fun j => (t.setOwners j).any off || (List.range 32).any fun o => off o && (t.linkShare j o != 0 || t.channelShare j o != 0)) ||
    t.objectOwners.any off ||
    (List.range 32).any fun o => off o &&
      ((List.range 96).any (fun c => regionSize (t.coreRegion c o) != 0 || t.areqSize c o != 0 || t.arspSize c o != 0 || t.completionSize c o != 0) ||
        (List.range 12).any fun k => t.clusterRegion k o / 2048 != 0)

/-- R338: the first failing status of a load at a time. -/
def Table.status (t : Table) (now : Nat) : Nat :=
  if t.formatBad then 1
  else if t.cycle % 10 ≠ 0 ∨ t.cycle < 1000 ∨ 16000000 < t.cycle ∨ t.epoch < now + 100000 then 2
  else if (List.range t.nwin).any fun i => decide (t.winLength i < 1000) then 3
  else if t.layoutBad then 4
  else if t.setBad then 5
  else if t.regionsOverlap then 6
  else if t.regionsOut then 7
  else if (List.range 32).any fun o => decide (1000 < t.weight o) then 8
  else if t.partitionBad then 9
  else if t.ownersBad then 10
  else if t.tenantBad then 11
  else 0

/-- R337 step 2: every job is abandoned. -/
def State.abandonAll (s : State) : State := s.jobs.foldl (fun (s : State) (x : Nat × Job) => s.abandonJob x.1) s

/-- R337 steps 3 and 4 on a core. -/
def State.resetCore (s : State) (c : Nat) : State :=
  let s := s.modCore c fun k => { k with
    owner := 63, loan := none, edge := none, guarded := false, quarIdle := false, tags := [], entries := [], reserved := []
    barriers := [], sent := [], recv := [], mbtab := [], drops := [], merges := [] }
  if s.gated (.core c) then s else s.gateCore c true

/-- R337 step 4 on a cluster. -/
def State.resetCluster (s : State) (k : Nat) : State :=
  s.modCluster k fun c => { c with
    maps := [], weirs := [], deficit := [], pointer := [], flumes := c.flumes.map fun (x : Nat × Flume) => (x.1, { x.2 with en := false }) }

/-- R337 steps 3 to 5, once every job is gone. -/
def State.takeTable (s : State) (t : Table) : State :=
  let s := (List.range 96).foldl State.resetCore s
  let s := (List.range 12).foldl State.resetCluster s
  { s with
    rsvs := [], groups := [], reports := [], groupDone := [], firings := [], sessions := []
    power := { s.power with chain := Config.extend (Config.extend s.power.chain (t.img.readBytes 0 tableSize)) (t.img.readBytes (Table.tenantBase 0) 2048) }
    sluice := { s.sluice with
      table := some t, inForce := false, clusterWin := [], sliceWin := [], overruns := [], overCycle := 0, loading := false, next := none } }

/-- A load that has been accepted at a service core, with its place in the core's queue. -/
def State.begunLoad (s : State) (sl : Nat) : Option (Nat × Call) := ((s.svc.get {} sl).calls.zipIdx.find? fun x => x.1.begun && x.1.asks.isNone).map fun x => (x.2, x.1)

/-- The end of an accepted load: its table takes force and the call completes. -/
def State.endLoad (s : State) (sl i : Nat) (c : Call) : State :=
  let q := s.svc.get {} sl
  let s := { s with svc := s.svc.set {} sl { q with calls := q.calls.eraseIdx i } }
  let s := match s.sluice.next with
    | some t => s.takeTable t
    | none => s
  s.svcFinish sl c ((c.work.map (·.1)).getD []) (0, 0)

/-- TABLE_LOAD (R337, R338): checked and accepted, its jobs abandoned; then, once they are gone, in force. -/
def execTableLoad (sl : Nat) (s : State) : Out :=
  match s.begunLoad sl with
  | some (i, c) => if s.jobs.isEmpty then .next (s.endLoad sl i c) else .next s.abandonAll
  | none =>
      s.svcLast sl (· == 0x50) fun t i c ws =>
        if s.sluice.loading then .next (s.svcKeep sl t i c) else
        let at_ := ws.getD 2 0
        let s := s.svcTake sl t
        let (now, s) := s.sliceNow sl
        if c.tenant ≠ 62 then .next (s.svcFinish sl c ws (2, 0))
        else if !s.inLpddr at_ tableSize then .next (s.svcFinish sl c ws (3, 0))
        else
          let s := s.snoopRead at_ tableSize
          let t := s.tableAt at_
          let st := t.status now
          if st ≠ 0 then .next (s.svcFinish sl c ws (0, st))
          else
            let q := s.svc.get {} sl
            let s := { s with svc := s.svc.set {} sl { q with calls := { c with begun := true } :: q.calls } }
            .next ({ s with sluice := { s.sluice with loading := true, next := some t } } : State).abandonAll

end Sys2Proof.Machine
end

