-- ==== Sys2Proof/Machine/Links.lean ====
section
/-! DEFINITION. The host link, the host launch queues and the twin link (R380 to R394). -/

namespace Sys2Proof.Machine
open Sys2Proof

/-! ### Host launch queues (R380, R381) -/

/-- The queue a control block describes; none where the bind is refused (R380). -/
def State.queueOf (s : State) (block : Nat) : Option HostQueue :=
  let w (o : Nat) : Nat := s.mem.readN (block + o) 8
  let weirs := w 0x30
  let q : HostQueue := {
    block := block, ring := w 0, log2n := w 8 % 16, tenant := w 0x10 % 32, floor := w 0x18, ceil := w 0x20 % 16, flume := w 0x28 % 65536
    weir0 := bitsOf weirs 12 0, weirs := bitsOf weirs 28 16, head := 0 }
  let x := s.flume (bitsOf q.flume 11 8) (q.flume % 64)
  let flumeOk := !bit q.flume 15 || (decide (bitsOf q.flume 11 8 < 12) && x.owner == q.tenant && x.prod == 0)
  let weirOk := (List.range q.weirs).all fun i => decide ((q.weir0 + i) / 512 < 12) && s.weirOwner (q.weir0 + i) == q.tenant
  if q.log2n ≤ 12 && s.tbl.enabled q.tenant && flumeOk && weirOk && q.ring % 4096 == 0 && s.inLpddr q.ring (64 * 2 ^ q.log2n) then some q else none

/-- QUEUE_BIND (R372, R380): HEAD and DROPPED are written by the instance that owns the block's page (R366). -/
def execQueueBind (sl : Nat) (s : State) : Out :=
  s.svcServeAsk sl (· == 0x40) .service fun s c arg =>
    let place : Except Nat Nat × State :=
      if c.own.isSome then (.ok (arg 1), s)
      else
        match s.xlate c.agent (BitVec.ofNat 64 (arg 1)) .read false with
        | (.ok x, s) => (.ok x.place, s)
        | (.error t, s) => (.error t.value.toNat, s)
    match place with
    | (.error a, s) => (.error (4, a), s)
    | (.ok p, s) =>
      if 64 ≤ arg 0 ∨ p % 128 ≠ 0 ∨ !s.inLpddr p 128 then (.error (3, 0), s)
      else if (s.hqueues.find? (arg 0)).isSome then (.error (5, 0), s)
      else
        match s.queueOf p with
        | none => (.error (3, 0), s)
        | some q => (.ok ([.bytes (p + 0x40) (bytesOf 0 16)], fun s => ({ s with hqueues := s.hqueues.insert (arg 0) q } : State).svcDone), s.snoopRead p 64)

/-- A refusal record: a slot of the queue's flume claimed and filled without waiting, else DROPPED (R381). -/
def State.refuseRecord (s : State) (n : Nat) (q : HostQueue) (i reason now : Nat) : State :=
  let (k, f) := (bitsOf q.flume 11 8, q.flume % 64)
  let x := s.flume k f
  if bit q.flume 15 && x.en && x.prod == 0 && x.owner == q.tenant && !x.full then
    let place := clusterPlace k ((s.clusterRegion k x.owner).1 + x.offset x.claim)
    let body := wordsBytes 8 [n, i, reason, now]
    let s := s.storeBytes place none (body ++ List.replicate (x.slotsz - 32) 0)
    (s.setFlume k f { x with claim := (x.claim + 1) % 65536 }).flumeDone k f x.claim
  else
    let d := s.mem.readN (q.block + 0x48) 4
    s.putWord (q.block + 0x48) 8 ((d + 1) % 2 ^ 32)

/-- R381: the reason a record is refused for, 0 for none. -/
def State.recordReason (s : State) (q : HostQueue) (r : LaunchRec) : Nat :=
  if !s.recordOk q.tenant r then 1
  else if (bit q.ceil 0 && !r.be) || (bit q.ceil 1 && r.matrix) || decide (q.ceil / 4 < r.vlc) then 2
  else if r.weir ≠ 0x1FFF ∧ !(decide (q.weir0 ≤ r.weir) && decide (r.weir < q.weir0 + q.weirs)) then 3
  else
    let ks := s.rankClusters (s.reducedMask q.tenant r.clusters) q.tenant r.be 0
    let per := (r.count + ks.length - 1) / ks.length
    if (ks.zipIdx).any fun x => decide (x.2 * per < r.count) && s.freeRecords x.1 == 0 then 4 else 0

/-- One record of a queue, by its index (R381). -/
def State.queueRecord (s : State) (n : Nat) (q : HostQueue) : State :=
  let i := q.head
  let at_ := q.ring + 64 * (i % 2 ^ q.log2n)
  let r := LaunchRec.ofWords ((List.range 8).map fun j => s.mem.readN (at_ + 8 * j) 8)
  let (now, s) := (s.snoopRead at_ 64).clusterNow 0
  let reason := s.recordReason q r
  let s :=
    if reason ≠ 0 then s.refuseRecord n q i reason now
    else
      let dl := if r.deadline = 0 ∨ r.deadline.toNat < now + q.floor then BitVec.ofNat 64 (now + q.floor) else r.deadline
      (s.place r { s.template q.tenant r .hostQueue dl with deadline := dl } 0 false false).2
  let h := (i + 1) % 2 ^ 32
  { s.putWord (q.block + 0x40) 8 h with hqueues := s.hqueues.insert n { q with head := h } }

/-- The records of a queue up to its last tail, at most N (R381). -/
def State.readQueue (s : State) (n tail : Nat) : State :=
  match s.hqueues.find? n with
  | none => s
  | some q =>
    (List.range (min ((tail + 2 ^ 32 - q.head) % 2 ^ 32) (2 ^ q.log2n))).foldl (fun (s : State) _ =>
      match s.hqueues.find? n with
      | some q => s.queueRecord n q
      | none => s) s

/-- HLQDB (R381, R383). -/
def execHlqdb (q tail : Nat) (s : State) : Out :=
  if 64 ≤ q ∨ !s.host.up then .next s
  else
    let t := tail % 2 ^ 32
    .next (({ s with host := { s.host with tails := s.host.tails.set 0 q t } } : State).readQueue q t)

/-- QUEUE_UNBIND (R372, R380): the records up to a tail are read as the doorbell is rung, so none is left to read. -/
def execQueueUnbind (sl : Nat) (s : State) : Out :=
  s.svcServe sl (· == 0x41) .service fun s _ arg =>
    match s.hqueues.find? (arg 0) with
    | none => s.badArg
    | some q => ({ s with hqueues := s.hqueues.erase (arg 0) } : State).svcDone q.head

/-! ### BAR0 (R383) -/

/-- HOSTSIGW (R2, R383): bits 63:13 of what is written are not looked at. -/
def execHostsigw (v : Word) (s : State) : Out := .next { s with host := { s.host with sigw := v.toNat % 2 ^ 13 } }

/-- HOSTSIG (R383). -/
def execHostsig (s : State) : Out :=
  let w := s.host.sigw
  if !s.host.up || w == 0x1FFF || decide (12 ≤ w / 512) || s.weirOwner w != 62 then .next s
  else
    let a : WeirArrival := { source := .slice hostSlice, weir := w, tenant := 62, weight := 1, abort := false, sender := none, sent := s.sched.steps }
    .next { s with weirArrivals := s.weirArrivals ++ [a] }

/-- REGISTER_WRITE (R383): a write to a register with no behaviour of its own changes nothing. -/
def execRegisterWrite (_off : Nat) (_v : Word) (s : State) : Out := .next s

/-! ### Device memory seen by the host (R384 to R388) -/

/-- HDM_WINDOW_SET (R384): once, at bring-up. -/
def execHdmWindowSet (hb hs : Nat) (s : State) : Out :=
  if s.host.hs ≠ 0 ∨ hb % 2 ^ 30 ≠ 0 ∨ hs % 2 ^ 30 ≠ 0 ∨ !s.inLpddr hb hs then .next s
  else .next { s with host := { s.host with hb := hb, hs := hs } }

/-- Whether a page of LPDDR 6 lies in the window. -/
def State.inWindow (s : State) (page : Nat) : Bool := decide (s.host.hb ≤ page) && decide (page + 4096 ≤ s.host.hb + s.host.hs)

/-- A flip of a page's bias (R386). -/
def State.flip (s : State) (page : Nat) (device : Bool) : State :=
  let s := if device then { s with host := { s.host with snoop := s.host.snoop.filter fun x => 64 * x.1 / 4096 != page / 4096 } } else s
  { s with host := { s.host with bias := s.host.bias.set false (page / 4096) device } }

/-- BIASREQ (R383, R386). -/
def execBiasreq (v : Word) (s : State) : Out :=
  let page := ptePpn v.toNat
  if !s.host.up || !s.inWindow page then .next s else .next (s.flip page (v.getLsbD 0))

/-- BIAS_SET (R372, R386). -/
def execBiasSet (sl : Nat) (s : State) : Out :=
  s.svcServe sl (· == 0x71) .both fun s c arg =>
    let page : Option Nat × State :=
      if c.tenant = 62 then (some (arg 0 / 4096 * 4096), s)
      else
        match s.xlate c.agent (BitVec.ofNat 64 (arg 0)) .write false with
        | (.ok x, s) => if x.uc then (none, s) else (some (x.place / 4096 * 4096), s)
        | (.error _, s) => (none, s)
    match page with
    | (none, s) => s.badArg
    | (some p, s) =>
      if !s.inWindow p then s.badArg
      else (s.flip p (bit (arg 1) 0)).svcDone (s.host.bias.get false (p / 4096)).toNat

/-- The snoop filter's entries in a slice (R385). -/
def filterSize : Nat := 32768

/-- A window line enters the filter of its slice; a full filter loses its oldest entry (R385). -/
def State.enterFilter (s : State) (line : Nat) (excl : Bool) : State :=
  let old := s.host.snoop.filter fun x => x.1 != line
  let sl := homeSlice (64 * line)
  let here := old.filter fun x => homeSlice (64 * x.1) == sl
  let old := if here.length < filterSize then old
    else match here.head? with
      | some x => old.erase x
      | none => old
  { s with host := { s.host with snoop := old ++ [(line, excl)] } }

/-- The lines of n bytes. -/
def linesOf (place n : Nat) : List Nat := (List.range ((place + n + 63) / 64 - place / 64)).map fun i => place / 64 + i

/-- The handling of a host access at the home slice: device bias ends, and the lines enter the filter (R385). -/
def State.hostTouch (s : State) (place n : Nat) (excl : Bool) : State :=
  (linesOf place n).foldl (fun (s : State) l =>
    let s := if s.host.bias.get false (64 * l / 4096) then s.flip (64 * l / 4096 * 4096) false else s
    s.enterFilter l excl) s

/-- HOST_MEM_ACCESS (R384, R385, R387, R420, R424). -/
def execHostMemAccess (acc : HostAccess) (s : State) : Out :=
  if !s.host.up then .next s
  else
    match acc with
    | .read off len excl => if len = 0 ∨ s.host.hs < off + len then .next s else .next ((s.touch (s.host.hb + off) len).hostTouch (s.host.hb + off) len excl)
    | .write off bs =>
      if bs.isEmpty || decide (s.host.hs < off + bs.length) then .next s
      else
        let p := s.host.hb + off
        let (excl, s) := (s.touch p bs.length).drawBit
        .next (({ s.clearEcc p bs.length with mem := s.mem.writeBytes p bs } : State).hostTouch p bs.length excl)

/-- A line's bytes are free values. -/
def State.freeLine (s : State) (line : Nat) : State :=
  let (n, s) := s.drawNat
  { s with mem := s.mem.writeN (64 * line) 64 n }

/-- HOST_SNOOP (R388): dirty data go to the host; where the host takes the line, what it writes there is its own. -/
def execHostSnoop (line : Nat) (excl : Bool) (s : State) : Out :=
  if !s.host.up || !isHostPa (64 * line) then .next s
  else
    let s := s.flushLine line
    .next (if excl then s.freeLine line else s)

/-! ### Loss of the host link (R389) -/

/-- HOST_LINK_UP (R389). -/
def execHostLinkUp (s : State) : Out := .next { s with host := { s.host with up := true } }

/-- A dirty host line copied into the dump region, while it has room. -/
def State.dumpLine (s : State) (line : Nat) (d : CachedLine) (now : Nat) : State :=
  match s.host.dump with
  | none => s
  | some (base, size, n) =>
    if size < 128 * (n + 1) then s
    else
      let p := base + 128 * n
      let data := s.mem.readBytes (64 * line) 64
      let s := (s.storeBytes p none (wordsBytes 8 [64 * line - hostBase, d.owner, now])).storeBytes (p + 64) none data
      { s with host := { s.host with dump := some (base, size, n + 1) } }

/-- Every context, in a core or in an image, with its tenant. -/
def State.allCtxs (s : State) : List (Nat × Nat) :=
  (s.ctxs.map fun (x : Nat × Ctx) => (x.1, s.tenantOf x.2)) ++
    s.jobs.filterMap fun (x : Nat × Job) => if x.2.img.isSome then some (numCtx + x.1, x.2.tenant) else none

/-- A started vector load of a context takes the elements it has not read that sel names as poisoned; what their data are is free. -/
def VEntry.failElems (e : VEntry) (c : Ctx) (sel : Nat → Bool) (v : Nat) : VEntry :=
  if !e.started || !isVecLoad e.ins then e
  else
    let xs := e.unread.filter fun a => sel a.place
    { e.lose c xs with got := e.got ++ xs.map fun a => (a.idx, v % 256 ^ a.size) }

/-- Loads and atomics in flight to places that sel names come back poisoned, scalar ones at once, elements of vector loads with their
instruction; what they bring is free (R389, R394). -/
def State.failReads (s : State) (sel : Nat → Bool) : State :=
  s.allCtxs.foldl (fun (s : State) x =>
    let (v, s) := s.drawNat
    let c := s.ctx x.1
    let gone := c.loads.filter fun l => sel l.place
    let c := { c with loads := c.loads.filter (fun l => !sel l.place), vq := c.vq.map fun e => e.failElems c sel v }
    s.setCtx x.1 (gone.foldl (fun (c : Ctx) l => c.loadResult l (some true) (BitVec.ofNat 64 v)) c)) s

/-- Stores in flight to places that sel names are dropped; the uncached ones are logged by kind and address less base (R389,
R394).  Their count goes with the state. -/
def State.dropStores (s : State) (sel : Nat → Bool) (kind base : Nat) : Nat × State :=
  s.allCtxs.foldl (fun (r : Nat × State) x =>
    let c := r.2.ctx x.1
    let gone := c.stores.filter fun p => sel p.place
    let s := if gone.isEmpty then r.2 else r.2.setCtx x.1 { c with stores := c.stores.filter fun p => !sel p.place }
    (gone.filter fun p => p.cached.isNone).foldl (fun (r : Nat × State) p =>
      let sl := homeSlice p.place
      let (now, s) := r.2.sliceNow sl
      (r.1 + 1, s.log { tns := now, kind := kind, owner := x.2, unit := sl, cause := 0, v0 := BitVec.ofNat 64 (p.place - base), v1 := 0 }))
      (r.1, s)) (0, s)

/-- The lines of cached host stores in flight, which no line of the device can take any more (notes/assumptions/67.md). -/
def State.lostLines (s : State) : List Nat :=
  (s.allCtxs.flatMap fun x => ((s.ctx x.1).stores.filter fun p => isHostPa p.place && p.cached.isSome).map fun p => lineOf p.place).eraseDups

/-- HOST_LINK_DOWN (R389). -/
def execHostLinkDown (s : State) : Out :=
  if !s.host.up then .next s
  else
    let (now, s) := s.sliceNow 0
    let s := ((s.stale.filter fun (x : Nat × CachedLine) => isHostPa (64 * x.1) && !x.2.dirty).map (·.1)).foldl State.flushLine s
    let dirty := s.stale.filter fun (x : Nat × CachedLine) => isHostPa (64 * x.1)
    let held := s.host.snoop.filterMap fun x => if x.2 then some x.1 else none
    let lost := s.lostLines.filter fun l => !dirty.any fun (x : Nat × CachedLine) => x.1 == l
    let before := match s.host.dump with
      | some (_, _, n) => n
      | none => 0
    let s := dirty.foldl (fun (s : State) x =>
      let s := s.dumpLine x.1 x.2 now
      { s with stale := s.stale.erase x.1, linkPoison := s.linkPoison.set false x.1 true, mem := s.mem.writeBytes (64 * x.1) x.2.home }) s
    let s := held.foldl (fun (s : State) l => ({ s with linkPoison := s.linkPoison.set false l true } : State).freeLine l) s
    let s := { s with linkPoison := lost.foldl (fun (m : FMap Bool) l => m.set false l true) s.linkPoison }
    let after := match s.host.dump with
      | some (_, _, n) => n
      | none => 0
    let s := { s with host := { s.host with up := false, snoop := [] } }
    let s := ((s.failReads isHostPa).dropStores isHostPa 9 hostBase).2
    .next (s.log { tns := now, kind := 7, owner := 63, unit := 0xFFFF, cause := 0, v0 := BitVec.ofNat 64 (dirty.length + held.length + lost.length)
                   v1 := BitVec.ofNat 64 (after - before) })

/-- POISON_CLEAR (R372, R389). -/
def execPoisonClear (sl : Nat) (s : State) : Out :=
  s.svcServe sl (· == 0x70) .service fun s _ arg =>
    if arg 0 = 2 ^ 64 - 1 then ({ s with linkPoison := [] } : State).svcDone s.linkPoison.length
    else if arg 0 % 64 ≠ 0 ∨ 2 ^ 40 ≤ arg 0 then s.badArg
    else
      let l := (hostBase + arg 0) / 64
      ({ s with linkPoison := s.linkPoison.erase l } : State).svcDone (s.linkPoison.get false l).toNat

/-- LINK_DUMP (R372, R389). -/
def execLinkDump (sl : Nat) (s : State) : Out :=
  s.svcServe sl (· == 0x72) .service fun s _ arg =>
    if !s.inLpddr (arg 0) (arg 1) then s.badArg
    else ({ s with host := { s.host with dump := some (arg 0, arg 1, 0) } } : State).svcDone

/-! ### The twin link (R390 to R394) -/

/-- TWIN_PAIR (R390, R391): the twin's exports are this device's import table. -/
def execTwinPair (grants : List TwinGrant) (s : State) : Out :=
  if 64 < grants.length ∨ grants.any (fun g => g.base % 4096 != 0 || g.size % 4096 != 0) then .next s
  else .next { s with twin := { s.twin with paired := true, imports := grants } }

/-- The grant an export entry's two words give; none where they are out of form (R392).  What an entry with another bit than R392's set
does is left open: the model takes it as an argument that fails its check, BAD_ARG (notes/assumptions/97.md). -/
def grantOf? (w0 w1 : Nat) : Option TwinGrant :=
  if w0 % 4096 ≠ 0 ∨ bitsOf w1 31 28 ≠ 0 ∨ bitsOf w1 39 37 ≠ 0 ∨ w1 / 2 ^ 42 ≠ 0 then none
  else some { base := w0, size := w1 % 2 ^ 28 * 4096, owner := bitsOf w1 36 32, r := bit w1 40, w := bit w1 41 }

/-- TWIN_EXPORT (R372, R392). -/
def execTwinExport (sl : Nat) (s : State) : Out :=
  s.svcServe sl (· == 0x73) .service fun s c arg =>
    if 64 ≤ arg 0 then s.badArg
    else s.withRead c (arg 1) 16 fun s bs =>
      let ws := wordsOf bs
      match grantOf? (ws.getD 0 0) (ws.getD 1 0) with
      | none => s.badArg
      | some _ => ({ s with twin := { s.twin with exports := s.twin.exports.set 0 (arg 0) (ws.getD 0 0 + 2 ^ 64 * ws.getD 1 0) } } : State).svcDone

/-- Whether an export entry opens n bytes to a tenant of the twin (R391, R392). -/
def State.exported (s : State) (tenant pa n : Nat) (write : Bool) : Bool :=
  s.twin.exports.any fun (x : Nat × Nat) =>
    match grantOf? (x.2 % 2 ^ 64) (x.2 / 2 ^ 64) with
    | some g => g.owner == tenant && (if write then g.w else g.r) && decide (g.base ≤ pa) && decide (pa + n ≤ g.base + g.size)
    | none => false

/-- TWIN_MEMORY_ACCESS (R391): an access of the twin performed at its home slice here, or at its own memory, which this device sees at
the twin range. -/
def execTwinMemoryAccess (acc : TwinAccess) (s : State) : Out :=
  let pa := acc.addr
  let ok (n : Nat) (write : Bool) : Bool :=
    s.twin.paired && ((s.inLpddr pa n && s.exported acc.tenant pa n write) || (isTwinPa pa && isTwinPa (pa + n - 1)))
  match acc.op with
  | .read len => if ok len false then .next (s.snoopRead pa len) else .next s
  | .write bs => if ok bs.length true then .next (s.storeBytes pa none bs) else .next s
  | .amo op size b c =>
    if !(size == 4 || size == 8) || pa % size != 0 || !ok size true || !ok size false || s.eccAt pa size then .next s
    else
      match AmoOp.apply op (8 * size) (s.mem.readN pa size) b.toNat c.toNat with
      | some v => .next (s.storeBytes pa none (bytesOf v size))
      | none => .next (s.snoopRead pa size)

/-- Sends in flight to the twin are answered REFUSED (R394). -/
def State.refuseTwinSends (s : State) : Nat × State :=
  let gone := s.am.filter fun m => decide (96 ≤ m.dst)
  let s := { s with
    am := s.am.filter fun m => !decide (96 ≤ m.dst), slotReleases := s.slotReleases.filter fun r => decide (r.core < 96)
    eng := s.eng.filter fun p => decide (p.dst < 96) }
  let answers := gone.filterMap fun m => m.sender.map fun x =>
    ({ sender := x, status := 1, slot := if m.reply then none else some (m.src, m.tenant), counted := none } : Answer)
  let mails := s.gmsg.filter fun x => decide (96 ≤ x.1.core)
  let s := { s with answers := s.answers ++ answers, gmsg := s.gmsg.filter fun x => !decide (96 ≤ x.1.core) }
  (gone.length + mails.length, mails.foldl (fun (s : State) x => match x.2 with
    | some y => s.opDone y none
    | none => s) s)

/-- TWIN_LINK_DOWN (R394). -/
def execTwinLinkDown (s : State) : Out :=
  if !s.twin.paired then .next s
  else
    let (now, s) := s.sliceNow 7
    let s := s.failReads isTwinPa
    let (drops, s) := s.dropStores isTwinPa 10 0x020000000000
    let (sends, s) := s.refuseTwinSends
    let s := { s with twin := { s.twin with paired := false, imports := [] } }
    .next (s.log { tns := now, kind := 8, owner := 63, unit := 0xFFFF, cause := 0, v0 := BitVec.ofNat 64 drops, v1 := BitVec.ofNat 64 sends })

end Sys2Proof.Machine
end

