-- ==== Sys2Proof/Machine/Power.lean ====
section
/-! DEFINITION. Supplies, reset, readiness, time, operating points, gating, meters, scrubbing and attestation (R13, R268, R419 to
R430), and the traps of fetch and decode (R61, R63). -/

namespace Sys2Proof.Machine
open Sys2Proof

/-! ### Supplies, reset and firmware (R419, R429, R430) -/

/-- POWER_ON (R430). -/
def execPowerOn (s : State) : Out := .next { s with power := { s.power with supplies := true } }

/-- DEVICE_RESET (R419): the registers and the state of the units return to reset; what memory holds is kept. -/
def execDeviceReset (s : State) : Out :=
  .next { State.reset with mem := s.mem, ecc := s.ecc, sched := s.sched, power := { supplies := s.power.supplies } }

/-- BOOT_IMAGE_VERIFY (R420, R429). -/
def execBootImageVerify (u : ImageUnit) (image : List Byte) (good : Bool) (s : State) : Out :=
  if !good then .next s
  else
    let p : Power := { s.power with chain := Config.extend s.power.chain image }
    match u with
    | .service k => if 8 ≤ k then .next s else .next { s with power := { p with svc := p.svc.set false k true } }
    | .microKernel => .next { s with power := { p with microKernel := true } }

/-- SPDM_MEASUREMENTS (R429): the host reads the signed measurement. -/
def execSpdmMeasurements (s : State) : Out := .next { s with host := { s.host with spdm := Config.spdmSigned s.power.chain } }

/-! ### Readiness (R420) -/

/-- Bytes of LPDDR 6 that the trained slices give: eight times the smallest, in units of 1 MiB a channel; without one, the range in
which accesses wait for their slices (R200, R420). -/
def lpddrBytes (chan : FMap Nat) : Nat :=
  let slice (x : Nat) : Nat := (List.range 4).foldl (fun n i => min n (chan.get 0 (4 * x + i))) (chan.get 0 (4 * x))
  let ready := ((List.range 8).map slice).filter (· != 0)
  if ready.isEmpty then 2 ^ 38 else min (2 ^ 38) (8 * 4 * 2 ^ 20 * ready.foldl min (ready.headD 0))

/-- CHANNEL_TRAINED (R420). -/
def execChannelTrained (c units : Nat) (s : State) : Out :=
  if 32 ≤ c ∨ units = 0 then .next s
  else
    let chan := s.power.chan.set 0 c units
    .next { s with lpddr := lpddrBytes chan, power := { s.power with chan := chan } }

/-- Whether a word of 8 bytes lies in the arrays of a cluster (R9). -/
def inCluster (k w : Nat) : Bool :=
  (decide (corePlace (8 * k) 0 ≤ 8 * w) && decide (8 * w < corePlace (8 * k + 8) 0)) || (decide (clusterPlace k 0 ≤ 8 * w) && decide (8 * w < clusterPlace (k + 1) 0))

/-- CLUSTER_READY (R420, R429): its arrays hold valid check codes, and its cores have a verified micro-kernel. -/
def execClusterReady (k : Nat) (s : State) : Out :=
  if 12 ≤ k || !s.power.microKernel then .next s
  else .next { s with
    ecc := s.ecc.filter fun (e : Nat × Bool) => !inCluster k e.1, power := { s.power with cluster := s.power.cluster.set false k true } }

/-- HEADRACE_PORT_READY (R419). -/
def execHeadracePortReady (port : Nat) (s : State) : Out :=
  if 4 ≤ port then .next s else .next { s with power := { s.power with port := s.power.port.set false port true } }

/-! ### Time (R13, R268, R421) -/

/-- PTP_FIRST_LOCK (R268): every counter is set. -/
def execPtpFirstLock (t : Nat) (s : State) : Out :=
  if s.time.everLocked then .next s
  else .next { s with
    lastSweep := t / (500 * s.sweep) * (500 * s.sweep)
    time := { s.time with ref := t, cluster := [], slice := [], locked := true, everLocked := true } }

/-- PTP_LOCK_LOSS (R268). -/
def execPtpLockLoss (s : State) : Out := .next { s with time := { s.time with locked := false } }
/-- PTP_LOCK_REGAINED (R268). -/
def execPtpLockRegained (s : State) : Out := if s.time.everLocked then .next { s with time := { s.time with locked := true } } else .next s

/-- Whether the table in force has a window of a tenant (R343, R421). -/
def State.tenantWindows (s : State) : Bool :=
  match s.sluice.table with
  | some t => (List.range t.nwin).any fun i => (List.range 96).any fun c => decide (t.coreOwner (t.winSet i) c < 32)
  | none => false

/-- DVFS_STEP_CHANGE (R421, R343). -/
def execDvfsStepChange (step : Nat) (s : State) : Out :=
  if 4 < step ∨ (2 < step ∧ s.tenantWindows) then .next s else .next { s with power := { s.power with step := step } }

/-! ### The power cap (R426) -/

/-- Running BE and demoted jobs. -/
def State.beRunning (s : State) : List Nat := s.jobs.filterMap fun (x : Nat × Job) => if (x.2.be || x.2.late) && x.2.state.runs then some x.1 else none

/-- A word of the telemetry SRAM gains (R427, R428). -/
def State.tally (s : State) (w n : Nat) : State := { s with telemetry := s.telemetry.set 0 w ((s.telemetry.get 0 w + n) % 2 ^ 64) }

/-- The telemetry words of corrected errors and of entries lost; those of the tenants' excess energy stand before them. -/
def correctedWord : Nat := 32
def lostEntryWord : Nat := 33

/-- The excess over the cap, recorded against the tenants in free parts (R426). -/
def State.recordExcess (s : State) : State :=
  (List.range 32).foldl (fun (s : State) t =>
    let (n, s) := s.drawNat
    s.tally t n) s

/-- R426: since when the power has been below 90% of the cap, with a check that finds w. -/
def State.noteLow (s : State) (w : Nat) : State :=
  { s with power := { s.power with
    lowSince := if 100 * w < 90 * Config.powerCap then some (s.power.lowSince.getD s.time.ref) else none } }

/-- R426: the power has been below 90% of the cap for 1 ms. -/
def State.lowEnough (s : State) : Bool := s.power.lowSince.any fun t => decide (t + 1000000 ≤ s.time.ref)

/-- POWER_CAP_CHECK (R426): the modelled power, in W, is a free value; throttle counts the actions in force, the steps lowered
from 3 on.  Above the cap with RT work alone, the excess is recorded (notes/assumptions/71.md). -/
def execPowerCapCheck (s : State) : Out :=
  let (w, s) := s.drawNat
  let s := s.noteLow w
  let p := s.power
  let put (q : Power) : State := { s with power := q }
  if 95 * Config.powerCap < 100 * w ∧ p.throttle = 0 then .next (put { p with throttle := 1 })
  else if Config.powerCap < w then
    if !s.beRunning.isEmpty then .next (s.beRunning.foldl State.displace (put { p with throttle := max p.throttle 2 }))
    else .next (if p.step < (if s.tenantWindows then 2 else 4) then put { p with step := p.step + 1, throttle := max p.throttle 2 + 1 } else s).recordExcess
  else if s.lowEnough ∧ p.throttle ≠ 0 then
    .next (put { p with step := if 2 < p.throttle then p.step - 1 else p.step, throttle := p.throttle - 1 })
  else .next s

/-! ### Meters (R357, R425) -/

/-- The energy charged to someone: a tenant or owner 62, and a reservation of it (R357). -/
structure Bill where
  owner : Nat
  rsv : Option Nat := none
  deriving DecidableEq, Repr

/-- R357: whom a core's own energy goes to: the outgoing owner during an edge, the borrower on loan, else the owner; none for owner
code 63. -/
def Core.payer (k : Core) : Nat :=
  match k.edge, k.loan with
  | some e, _ => e.out
  | none, some l => l.to_
  | none, none => k.owner

/-- R357: who has traffic on the mesh and in LPDDR 6: the tenants of live jobs, of commands and strips, of messages, arrivals and service
calls, and of the flumes that the headrace fills. -/
def State.traffic (s : State) : List Nat :=
  s.jobs.map (fun (x : Nat × Job) => x.2.tenant) ++ s.cmds.map (·.tenant) ++
  s.clusters.flatMap (fun (x : Nat × Cluster) => x.2.strips.map (·.tenant) ++
    x.2.flumes.filterMap fun (f : Nat × Flume) => if f.2.en && f.2.prod == 1 then some f.2.owner else none) ++
  s.am.map (·.tenant) ++ s.gmsg.map (·.1.tenant) ++ s.eng.map (·.tenant) ++ s.weirArrivals.map (·.tenant) ++
  s.barrierArrivals.map (·.tenant) ++ s.svcFlight.map (·.tenant) ++ s.svc.flatMap fun (x : Nat × SvcCore) =>
    x.2.calls.map (·.tenant) ++ x.2.faults.map (·.tenant)

/-- R357: the bills of a microsecond: each job in a context, with its reservation; each core; whoever has traffic; owner 62 for
background work. -/
def State.bills (s : State) : List Bill :=
  (s.jobs.filterMap fun (x : Nat × Job) => if x.2.state.inContext.isSome then
    some { owner := x.2.tenant, rsv := if (s.rsvOf x.2).isSome then x.2.reservation else none : Bill } else none) ++
  ((List.range 96).filterMap fun c => let o := (s.core c).payer; if o = 63 then none else some { owner := o }) ++
  s.traffic.map (fun o => { owner := o }) ++ [{ owner := 62 }]

/-- A meter that gains. -/
def gain (m : FMap Nat) (key n : Nat) : FMap Nat := m.set 0 key ((m.get 0 key + n) % 2 ^ 64)

/-- An amount charged under a bill, to its owner, its reservation and the device. -/
def Meters.charge (m : Meters) (b : Bill) (n : Nat) : Meters :=
  { m with
    tenant := gain m.tenant b.owner n
    rsv := match b.rsv with
      | some r => gain m.rsv r n
      | none => m.rsv
    device := (m.device + n) % 2 ^ 64 }

/-- ENERGY_METER_UPDATE (R357, R425): the amount of each bill is a free value, and so is what no owner is charged. -/
def execEnergyMeterUpdate (s : State) : Out :=
  let s := s.bills.foldl (fun (s : State) b =>
    let (n, s) := s.drawNat
    { s with meters := s.meters.charge b n }) s
  let (n, s) := s.drawNat
  .next { s with meters := { s.meters with device := (s.meters.device + n) % 2 ^ 64 } }

/-! ### Gating and the Still state (R423, R424) -/

/-- UNGATE_COMPLETE (R423). -/
def execUngateComplete (u : GateUnit) (s : State) : Out :=
  let key := GateUnit.key u
  if s.power.waking.get false key then
    .next (({ s with power := { s.power with waking := s.power.waking.set false key false, still := false } } : State).ungateUnit u)
  else .next s

/-- Whether a context has requests on the mesh: it runs, and fetches, or has accesses under way. -/
def Ctx.onMesh (c : Ctx) : Bool := c.status == .running || !c.loads.isEmpty || !c.stores.isEmpty || c.vq.any (·.started)

/-- Whether requests are on their way (R424). -/
def State.meshBusy (s : State) : Bool :=
  !s.am.isEmpty || !s.answers.isEmpty || !s.slotReleases.isEmpty || !s.gmsg.isEmpty || !s.eng.isEmpty || !s.weirArrivals.isEmpty ||
    !s.firings.isEmpty || !s.barrierArrivals.isEmpty || !s.svcFlight.isEmpty || !s.svcAnswers.isEmpty || !s.engAnswers.isEmpty ||
    !s.groupDone.isEmpty || !s.moves.isEmpty || !s.cmds.isEmpty || s.clusters.any (fun (x : Nat × Cluster) => !x.2.strips.isEmpty) ||
    s.ctxs.any (fun (x : Nat × Ctx) => x.2.onMesh) || s.jobs.any fun (x : Nat × Job) => x.2.img.any fun c =>
      !c.loads.isEmpty || !c.stores.isEmpty

/-- R424: every cluster and every coding engine is gated, and the mesh has carried no request for 10 µs. -/
def State.canBeStill (s : State) : Bool :=
  !s.power.still && (List.range 12).all (fun k => s.gated (.cluster k)) && (List.range 16).all (fun e => s.gated (.engine e)) &&
    !s.meshBusy && decide (s.power.lastMesh + 10000 ≤ s.time.ref)

/-- STILL_ENTER (R424). -/
def execStillEnter (s : State) : Out :=
  if s.canBeStill then
    .next { s with power := { s.power with
      still := true, wakeAt := []
      asleep := (List.range 32).foldl (fun (m : FMap Bool) c => if s.power.chan.get 0 c = 0 then m else m.set false c true) [] } }
  else .next s

/-- An access waits for the home of a place: where that is a channel in self-refresh, the channel is ready 2 µs later (R424). -/
def State.await (s : State) (place : Nat) : State :=
  let c := channelOf place
  if s.isLpddr place && s.power.asleep.get false c && (s.power.wakeAt.find? c).isNone then
    { s with power := { s.power with wakeAt := s.power.wakeAt.insert c (s.time.ref + 2000), lastMesh := s.time.ref, still := false } }
  else s

/-- CHANNEL_WAKE (R424): 2 µs after an access has reached the channel. -/
def execChannelWake (c : Nat) (s : State) : Out :=
  match s.power.wakeAt.find? c with
  | none => .next s
  | some t =>
    if t ≤ s.time.ref then
      .next { s with power := { s.power with
        asleep := s.power.asleep.set false c false, wakeAt := s.power.wakeAt.erase c, lastMesh := s.time.ref } }
    else .next s

/-! ### Scrubbing (R427, R428) -/

/-- A line rewritten with a poisoned check code. -/
def State.poisonLine (s : State) (w : Nat) : State :=
  { s with ecc := (List.range 8).foldl (fun (m : FMap Bool) i => m.set false (w / 8 * 8 + i) true) s.ecc }

/-- A corrected error is written back and counted (R428); whether one is met is free. -/
def State.correct (s : State) : State :=
  let (met, s) := s.drawBit
  if met then s.tally correctedWord 1 else s

/-- LPDDR_SCRUB (R427, R428): whether the word has an uncorrectable error is free. -/
def execLpddrScrub (sl w : Nat) (s : State) : Out :=
  if !s.isLpddr (8 * w) || homeSlice (8 * w) != sl then .next s
  else
    let (bad, s) := s.drawBit
    .next (if bad then s.poisonLine w else s.correct)

/-- A waiting handler is abandoned (R289, R428). -/
def State.loseEntry (s : State) (core : Nat) (e : HandlerEntry) : State :=
  let s := s.dropEntry core e
  if e.group = 0xFF then s else s.modGroup e.group fun g => { g with ended := g.ended + 1, abandoned := g.abandoned + 1 }

/-- R428: what the entry of an armed weir names ends: a launch is made with its children abandoned, a command completes as ECC
(notes/assumptions/114.md). -/
def State.loseWeir (s : State) (w : Nat) : State :=
  let y := s.weir w
  let s := s.modWeir w fun _ => {}
  if !y.armed then s
  else if y.kind = 0 then { s with firings := s.firings ++ [{ weir := w, kind := 0, pointer := y.pointer, abort := true, who := y.who }] }
  else if y.kind = 1 then
    match s.readBlock { owner := y.who.tenant, root := y.who.root, user := true, core := none, cluster := some (w / 512) } y.pointer 8 with
    | (some ws, s) =>
      let c := s.firedCmd w y.who y.pointer (ws.map (BitVec.ofNat 64))
      if s.replyOk c.reply then s.engLeave c 6 else s
    | (none, s) => s
  else s

/-- What an uncorrectable error does where it is found (R428). -/
def State.upset (s : State) : ScrubTarget → State
  | .word w => if 2 ^ 48 ≤ 8 * w then s.poisonLine w else s
  | .vreg cx beat => if (s.ctx cx).job.isSome && decide (beat < 512) then s.modCtx cx fun c => { c with vecEcc := c.vecEcc.insert beat { link := false, addr := 0 } } else s
  | .tile core w => if core < 96 ∧ w < 8192 then s.modCore core fun k => { k with mx := { k.mx with ecc := k.mx.ecc.set false w true } } else s
  | .job h => (s.abandonJob h).tally lostEntryWord 1
  | .tag core t =>
    let gone := (s.core core).entries.filter fun e => e.tag == t
    (gone.foldl (·.loseEntry core)
      (s.modCore core fun k => { k with entries := k.entries.filter fun e => e.tag != t, tags := k.tags.erase t })).tally lostEntryWord 1
  | .weir w => (s.loseWeir w).tally lostEntryWord 1
  | .barrier core b => (s.setBarrier core b {}).tally lostEntryWord 1
  | .footprint i =>
    match s.cmds[i]? with
    | none => s
    | some c =>
      if !c.recorded || c.stage == .flight then s
      else
        let s := ({ s with cmds := s.cmds.eraseIdx i } : State).tally lostEntryWord 1
        (s.modEngCount c.engine c.tenant fun x => { x with completed := x.completed + 1 }).engLeave c 6

/-- SRAM_SCRUB (R427, R428): whether what it reads has an uncorrectable error is free. -/
def execSramScrub (x : ScrubTarget) (s : State) : Out :=
  let (bad, s) := s.drawBit
  .next (if bad then s.upset x else s.correct)

/-! ### What the host reads (R1, R383, R419) -/

/-- A number whose bit i is f i, for i below n. -/
def bitsFor (n : Nat) (f : Nat → Bool) : Nat := (List.range n).foldl (fun x i => x + (f i).toNat * 2 ^ i) 0

/-- The two words of READY (R419); a coding engine has been ready since its slice is (notes/assumptions/45.md). -/
def State.readyWord (s : State) (upper : Bool) : Nat :=
  if upper then bitsFor 12 (fun k => s.power.cluster.get false k) + 2 ^ 12 * bitsFor 8 s.sliceReady
  else
    bitsFor 32 (fun c => s.power.chan.get 0 c != 0) + 2 ^ 32 * bitsFor 16 (fun e => s.sliceReady (e / 2)) +
      2 ^ 48 * bitsFor 8 (fun k => s.power.svc.get false k) + 2 ^ 56 * bitsFor 4 (fun p => s.power.port.get false p) +
      2 ^ 60 * s.time.locked.toNat + 2 ^ 61 * s.twin.paired.toNat

/-- What a read of a doubleword of BAR0 gives (R383): the identification block, READY, the last tails, HOSTSIGW; a flip of bias is
one step, so BIASREQ reads 0, and so does every other offset. -/
def State.bar0Read (s : State) (off : Nat) : Word :=
  BitVec.ofNat 64 (if off = 0 then Config.partField + 2 ^ 32 * Config.steppingField
    else if off = 0x1000 then s.readyWord false
    else if off = 0x1008 then s.readyWord true
    else if 0x10000 ≤ off ∧ off < 0x10200 ∧ off % 8 = 0 then s.host.tails.get 0 ((off - 0x10000) / 8)
    else if off = 0x20008 then s.host.sigw
    else 0)

/-- What a read of a byte of PCI configuration space gives, on the host port or the twin port (R1, R382): the identification at its
places in the type 0 header (PRESUMED of PCI, notes/assumptions/98.md), and elsewhere what the spec does not say. -/
def pciRead (twin : Bool) (off : Nat) : Byte :=
  let device := if twin then Config.pciTwinPort else Config.pciHostPort
  match off with
  | 0 => BitVec.ofNat 8 Config.pciVendor
  | 1 => BitVec.ofNat 8 (Config.pciVendor / 256)
  | 2 => BitVec.ofNat 8 device
  | 3 => BitVec.ofNat 8 (device / 256)
  | 8 => BitVec.ofNat 8 Config.pciRevision
  | off => Config.pciByte twin off

/-! ### Traps of fetch and decode (R61, R63) -/

/-- ILLEGAL_INSTRUCTION (R63 steps 3 to 6). -/
def execIllegalInstruction (s : State) : Out := s.trapCur .illegalInstruction 0
/-- PREFIX_CHAIN (R63 step 2). -/
def execPrefixChain (s : State) : Out := s.trapCur .prefixChain 0
/-- FETCH_FAULT (R61, R63 step 1): PAGE_FAULT_EXEC or PROTECTION at a word. -/
def execFetchFault (exec : Bool) (va : Word) (s : State) : Out := s.trapCur (if exec then .pageFaultExec else .protection) va

end Sys2Proof.Machine
end

