-- ==== Sys2Proof/Machine/Headrace.lean ====
section
/-! DEFINITION. The headrace (R255 to R259) and GROUP_SET (R372).  The layouts of the Ethernet, eCPRI and O-RAN headers and the
symbol times are those of the standards that R255 names (notes/assumptions/14.md). -/

namespace Sys2Proof.Machine

/-! ### Frames (R255, R259) -/

/-- Bytes in network order. -/
def beNat (bs : List Byte) : Nat := bs.foldl (fun n b => 256 * n + b.toNat) 0
def beAt (bs : List Byte) (o n : Nat) : Nat := beNat ((bs.drop o).take n)

/-- An eCPRI message of type 0 with the first four bytes of the O-RAN header; the rest is its body. -/
structure IqMsg where
  eaxc : Nat
  seqId : Nat
  frame : Nat
  subframe : Nat
  slot : Nat
  symbol : Nat
  body : List Byte
  deriving DecidableEq, Repr

/-- The message of a frame; none where the frame is none that R255 lists. -/
def iqMsg (f : EthFrame) : Option IqMsg :=
  let bs := f.bytes
  let o := if beAt bs 12 2 = 0x8100 then 18 else 14
  let b0 := beAt bs o 1
  let size := beAt bs (o + 2) 2
  let p := (bs.drop (o + 4)).take size
  let radio := beAt p 4 4
  if 9212 < bs.length ∨ bs.length < o + 4 + size ∨ size < 8 ∨ beAt bs (o - 2) 2 ≠ 0xAEFE ∨ b0 / 16 ≠ 1 ∨ b0 % 2 ≠ 0 ∨
      beAt bs (o + 1) 1 ≠ 0 ∨ bit radio 31 ∨ bitsOf radio 30 28 ≠ 1 ∨ bitsOf radio 27 24 ≠ 0 ∨ 10 ≤ bitsOf radio 15 12 ∨
      14 ≤ radio % 64 then none
  else some {
    eaxc := beAt p 0 2, seqId := beAt p 2 1, frame := bitsOf radio 23 16, subframe := bitsOf radio 15 12, slot := bitsOf radio 11 6
    symbol := radio % 64, body := p.drop 8 }

/-- The units of a stream in a row, PRBs or sample indices, and the samples of a unit. -/
def HrGroup.units (g : HrGroup) : Nat := if g.tds then g.nfft else g.nprb
def HrGroup.per (g : HrGroup) : Nat := if g.tds then 1 else 12

/-- What a section brings for units of a row: their components I, Q, I, Q, … as integers, none where it is not decoded. -/
abbrev HrPart := List (Nat × Option (List Int))

/-- The components of a PRB: m × 2^x (R255, R258). -/
def prbValues (bfp : Bool) (width : Nat) (bs : List Byte) : List Int :=
  let x := if bfp then beAt bs 0 1 % 16 else 0
  let v := beNat (if bfp then bs.drop 1 else bs)
  (List.range 24).map fun i => signedOf width (v / 2 ^ (width * (23 - i))) * 2 ^ x

/-- The sections of a message of the 7.2x split (R255), none where one has symInc = 1.  A section whose length the message does not
hold takes what is left of it; one with rb = 1 names its PRBs as one with rb = 0 does (notes/assumptions/107.md). -/
def HrGroup.sections (g : HrGroup) : Nat → List Byte → Option (List HrPart)
  | 0, _ => some []
  | fuel + 1, bs =>
    if bs.length < 4 then some []
    else
      let h := beAt bs 0 4
      let carried := Config.headerCarried g.compHdr
      let comp := if carried then beAt bs 4 1 else g.compHdr % 256
      let data := bs.drop (if carried then 6 else 4)
      let (start, num) := (bitsOf h 17 8, if h % 256 = 0 then g.nprb else h % 256)
      let (meth, width) := (comp % 16, if comp / 16 = 0 then 16 else comp / 16)
      let known := meth == 1 || (meth == 0 && width == 16)
      let size := if meth = 1 then 1 + 3 * width else 48
      let rest := data.drop (num * size)
      let fits := known && decide (num * size ≤ data.length) && (rest.isEmpty || decide (4 ≤ rest.length))
      let good := fits && !bit h 19 && decide (start + num ≤ g.nprb)
      let part : HrPart := ((List.range num).filter fun i => decide (start + i < g.nprb)).map fun i =>
        (start + i, if good then some (prbValues (meth == 1) width ((data.drop (i * size)).take size)) else none)
      if bit h 18 then none
      else (g.sections fuel (if fits then rest else [])).map (part :: ·)

/-- The part a message of the time-domain split brings (R259). -/
def HrGroup.timePart (g : HrGroup) (bs : List Byte) : Option (List HrPart) :=
  if bs.length < 4 then none
  else
    let (first, n) := (beAt bs 2 2, beAt bs 0 2)
    let data := bs.drop 4
    let good := decide (data.length = 4 * n)
    let idx := (List.range n).filter fun i => decide (g.cplen ≤ first + i) && decide (first + i < g.cplen + g.nfft)
    some [idx.map fun i => (first + i - g.cplen,
      if good then some [signedOf 16 (beAt data (4 * i) 2), signedOf 16 (beAt data (4 * i + 2) 2)] else none)]

def HrGroup.parts (g : HrGroup) (m : IqMsg) : Option (List HrPart) :=
  if g.tds then g.timePart m.body else g.sections (m.body.length + 1) m.body

/-! ### Symbol times (R255, R256) -/

/-- The start of a symbol in its subframe, in ns: TS 38.211, normal cyclic prefix, in units of 3125/6144 ns. -/
def symbolOffset (mu slot symbol : Nat) : Nat :=
  let n := 14 * slot + symbol
  let per := 7 * 2 ^ mu
  (n * (2192 * 64 / 2 ^ mu) + 1024 * ((n + per - 1) / per)) * 3125 / 6144

/-- The occurrence nearest the port's time, the earlier one on a tie (R256). -/
def HrGroup.symbolStart (g : HrGroup) (m : IqMsg) (now : Nat) : Nat :=
  let base := g.epoch + m.frame * 10000000 + m.subframe * 1000000 + symbolOffset g.mu m.slot m.symbol
  base + (now - base + 1280000000 - 1) / 2560000000 * 2560000000

/-! ### Rows (R256 to R258) -/

def sat32 (n : Nat) : Nat := min n (2 ^ 32 - 1)

/-- A component in a group's format (R258), and whether it was clamped. -/
def HrGroup.component (g : HrGroup) (v : Int) : Nat × Bool :=
  if g.cbf then ((rnd .bf16 { rm := .rne, sat8 := false } false ((v : Rat) / 32768)).1, false)
  else
    let c := max (-32768) (min 32767 v)
    ((c % 65536).toNat, decide (c ≠ v))

/-- A unit of a stream put into a row (R258): samples, or zeros with an erasure, which is counted where the section was not decoded
(R255). -/
def HrGroup.putUnit (g : HrGroup) (st : Nat) (x : HrCounters × Row) (u : Nat × Option (List Int)) : HrCounters × Row :=
  let (c, row) := x
  let c := if u.2.isNone then { c with undec := sat32 (c.undec + 1) } else c
  let key := 4096 * st + u.1
  let o := 4 * g.per * (st * g.units + u.1)
  if row.got.get false key then
    ({ c with dup := sat32 (c.dup + 1) }, { row with bad := row.bad.set false key true, samples := row.samples.writeN o (4 * g.per) 0 })
  else
    let row := { row with got := row.got.set false key true }
    match u.2 with
    | none => (c, { row with bad := row.bad.set false key true })
    | some vs =>
      let ks := vs.map g.component
      ({ c with sat := sat32 (c.sat + (ks.filter (·.2)).length) },
        { row with samples := row.samples.writeBytes o (ks.flatMap fun k => bytesOf k.1 2) })

/-- Every range of every stream has been received (R256). -/
def HrGroup.rowFull (g : HrGroup) (row : Row) : Bool := row.got.length == g.nstr * g.units

/-- A section of stream st for a symbol, at the port's time (R256, R258); a late one opens no row (notes/assumptions/109.md). -/
def HrRows.section (r : HrRows) (g : HrGroup) (st : Nat) (m : IqMsg) (now : Nat) (part : HrPart) : HrRows :=
  let start := g.symbolStart m now
  let c := r.counters.get {} st
  let shut := (match r.open_.find? start with
      | some row => row.closed.isSome
      | none => false) ||
    (match r.closedTo with
      | some t => decide (start ≤ t)
      | none => false) || decide (start + g.tol ≤ now)
  if now + 10000000 < start then { r with counters := r.counters.set {} st { c with early := sat32 (c.early + 1) } }
  else if shut then { r with counters := r.counters.set {} st { c with late := sat32 (c.late + 1) } }
  else
    let row := (r.open_.find? start).getD {
      start := start, frame := m.frame, subframe := m.subframe, slot := m.slot, symbol := m.symbol, opened := now }
    let (c, row) := part.foldl (g.putUnit st) (c, row)
    let row := if g.rowFull row then { row with closed := some now } else row
    { r with open_ := r.open_.insert start row, counters := r.counters.set {} st c }

/-- SEQ_ID of a message of stream st (R255, R258). -/
def HrRows.seqCheck (r : HrRows) (st id : Nat) : HrRows :=
  let c := r.counters.get {} st
  let gap := match r.nextSeqId.find? st with
    | some n => n != id
    | none => false
  { r with
    nextSeqId := r.nextSeqId.insert st ((id + 1) % 256)
    counters := if gap then r.counters.set {} st { c with seqgap := sat32 (c.seqgap + 1) } else r.counters }

/-- The slice a port is attached at (R6). -/
def portSlice (port : Nat) : Nat := [1, 2, 5, 6].getD port 0

def State.port (s : State) (port : Nat) : Port := s.ports.get {} port
def State.setPort (s : State) (port : Nat) (p : Port) : State := { s with ports := s.ports.set {} port p }

/-- The group and stream of a message (R256): the lowest group of the part with its eAxC id. -/
def Port.classify (p : Port) (part : Nat) (m : IqMsg) : Option (Nat × HrGroup × Nat) :=
  p.groups.findSome? fun (x : Nat × HrGroup) =>
    if x.2.part = part ∧ m.slot < 2 ^ x.2.mu then (x.2.eaxc.findIdx? (· == m.eaxc)).map fun st => (x.1, x.2, st) else none

/-- ETH_FRAME_RECEIVE (R255, R256, R258). -/
def execEthFrameReceive (port : Nat) (frame : EthFrame) (s : State) : Out :=
  if 4 ≤ port ∨ !s.power.port.get false port then .next s
  else
    let p := s.port port
    if !frame.fcsOk then .next (s.setPort port { p with fcsBad := p.fcsBad + 1 })
    else
      let other := s.setPort port { p with rx := p.rx ++ [frame], other := p.other + 1 }
      match iqMsg frame with
      | none => .next other
      | some m =>
        match p.classify frame.part m with
        | none => .next other
        | some (n, g, st) =>
          match g.parts m with
          | none => .next other
          | some ps =>
            if ps.isEmpty then .next other
            else
              let (now, s) := s.sliceNow (portSlice port)
              let r := (s.hrRows port n).seqCheck st m.seqId
              .next (s.setHrRows port n (ps.foldl (fun (r : HrRows) x => r.section g st m now x) r))

/-- ROW_CLOSE_TIMEOUT (R256): rows whose close time has passed close with LATE. -/
def execRowCloseTimeout (port g : Nat) (s : State) : Out :=
  match (s.port port).groups.find? g with
  | none => .next s
  | some x =>
    let (now, s) := s.sliceNow (portSlice port)
    let r := s.hrRows port g
    let shut (row : Row) : Row :=
      if row.closed.isNone ∧ row.start + x.tol ≤ now then { row with closed := some (row.start + x.tol), late := true } else row
    .next (s.setHrRows port g { r with open_ := r.open_.map fun (y : Nat × Row) => (y.1, shut y.2) })

/-! ### Delivery (R256 to R258) -/

/-- The flume a row goes to: the map entry of the window that holds its close time; none loses it to NOFLUME. -/
def State.rowTarget (s : State) (port n : Nat) (g : HrGroup) (row : Row) : Option (Nat × Nat) :=
  match s.sluice.table with
  | none => none
  | some t =>
    let at_ := row.start + g.tol
    if !s.sluice.inForce ∨ at_ < t.epoch then none
    else
      let e := t.headraceMap (t.winSet (t.posAt at_).idx) port n
      let (k, f) := (bitsOf e 11 8, e % 64)
      let x := s.flume k f
      if bit e 15 ∧ k < 12 ∧ x.en ∧ x.prod = 1 ∧ x.src = n then some (k, f) else none

/-- The range of a unit (R259, R372). -/
def HrGroup.rangeOf (g : HrGroup) (st u : Nat) : Nat :=
  let n := g.rcnt.getD st 1
  min (u / (g.units / n)) (n - 1)

/-- A unit that is missing or bad (R257). -/
def Row.erased (row : Row) (st u : Nat) : Bool := !row.got.get false (4096 * st + u) || row.bad.get false (4096 * st + u)

/-- ERASE and PRESENT (R257). -/
def HrGroup.eraseBits (g : HrGroup) (row : Row) : List Bool :=
  (List.range 256).map fun i =>
    decide (i / 16 < g.nstr) && (List.range g.units).any fun u => g.rangeOf (i / 16) u == i % 16 && row.erased (i / 16) u
def HrGroup.presentBits (g : HrGroup) (row : Row) : List Bool :=
  (List.range 16).map fun st => decide (st < g.nstr) && (List.range g.units).all fun u => !row.erased st u

/-- A number from its bits, the first at bit 0. -/
def natOfBits (bs : List Bool) : Nat := bs.foldr (fun b n => b.toNat + 2 * n) 0

/-- The row's bytes (R257). -/
def HrGroup.rowBytes (g : HrGroup) (row : Row) (ovr : Nat) : List Byte :=
  let w0 := natOfBits (g.presentBits row) + 2 ^ 16 * row.late.toNat + 2 ^ 32 * row.symbol + 2 ^ 38 * row.slot + 2 ^ 44 * row.subframe +
    2 ^ 48 * row.frame
  bytesOf w0 8 ++ bytesOf row.opened 8 ++ bytesOf (row.closed.getD 0) 8 ++ bytesOf row.seq 2 ++ bytesOf (min ovr 65535) 2 ++
    bytesOf 0 4 ++ bytesOf (natOfBits (g.eraseBits row)) 32 ++ row.samples.readBytes 0 (g.rowSize - 64)

/-- A row written into the next slot of a flume with one free: the slot is claimed and filled, with zeros behind the row (R252, R257). -/
def State.deliverRow (s : State) (port n : Nat) (g : HrGroup) (row : Row) (k f : Nat) : State :=
  let x := s.flume k f
  let i := x.claim
  let r := s.hrRows port n
  let s := s.storeBytes (clusterPlace k ((s.clusterRegion k x.owner).1 + x.offset i)) none
    (g.rowBytes row r.ovr ++ List.replicate (x.slotsz - g.rowSize) 0)
  let s := s.setFlume k f { x with claim := (i + 1) % 65536 }
  (s.flumeDone k f i).setHrRows port n { r with ovr := 0 }

/-- A count of each of a group's streams (R258). -/
def HrRows.countAll (r : HrRows) (nstr : Nat) (f : HrCounters → HrCounters) : HrRows :=
  { r with counters := (List.range nstr).foldl (fun (m : FMap HrCounters) st => m.set {} st (f (m.get {} st))) r.counters }
def HrRows.loseNoFlume (r : HrRows) (nstr : Nat) : HrRows := r.countAll nstr fun c => { c with noflume := sat32 (c.noflume + 1) }
def HrRows.loseOverrun (r : HrRows) (nstr : Nat) : HrRows :=
  { r.countAll nstr fun c => { c with ovr := sat32 (c.ovr + 1) } with ovr := r.ovr + 1 }

/-- ROW_SLOT_FILL (R258): the earliest row, once closed, gets its SEQ and its slot, waits, or is lost. -/
def execRowSlotFill (port g : Nat) (s : State) : Out :=
  match (s.port port).groups.find? g with
  | none => .next s
  | some x =>
    let r := s.hrRows port g
    match r.open_ with
    | [] => .next s
    | (start, row) :: rest =>
      if row.closed.isNone then .next s
      else
        let row := { row with seq := r.seq }
        let r := { r with open_ := rest, closedTo := some start, seq := (r.seq + 1) % 65536 }
        let s := s.setHrRows port g r
        match s.rowTarget port g x row with
        | none => .next (s.setHrRows port g (r.loseNoFlume x.nstr))
        | some (k, f) =>
          if r.waiting.isEmpty ∧ !(s.flume k f).full then .next (s.deliverRow port g x row k f)
          else if r.waiting.length < 16 then .next (s.setHrRows port g { r with waiting := r.waiting ++ [row] })
          else .next (s.setHrRows port g (r.loseOverrun x.nstr))

/-- OVERRUN_ROW_FILL (R258): the oldest waiting row claims a slot that is free. -/
def execOverrunRowFill (port g : Nat) (s : State) : Out :=
  match (s.port port).groups.find? g with
  | none => .next s
  | some x =>
    let r := s.hrRows port g
    match r.waiting with
    | [] => .next s
    | row :: rest =>
      let r := { r with waiting := rest }
      match s.rowTarget port g x row with
      | none => .next (s.setHrRows port g (r.loseNoFlume x.nstr))
      | some (k, f) =>
        if (s.flume k f).full then .next s else .next ((s.setHrRows port g r).deliverRow port g x row k f)

/-- CPLANE_TRANSMIT (R255): the service domain places a frame in the transmit ring, or with none the port sends the oldest. -/
def execCplaneTransmit (port : Nat) (put : Option EthFrame) (s : State) : Out :=
  if 4 ≤ port then .next s
  else
    let p := s.port port
    match put with
    | some f => .next (s.setPort port { p with tx := p.tx ++ [f] })
    | none => .next (s.setPort port { p with tx := p.tx.drop 1 })

/-! ### Groups (R256, R372) -/

/-- The settings a group block gives; none where it fails R256, R257, R259 or R372. -/
def groupOf (ws : List Nat) : Option HrGroup :=
  let w := ws.getD 0 0
  let tds := bit w 13
  let byte (o n : Nat) : Nat := ws.getD (o / 8) 0 / 2 ^ (8 * (o % 8)) % 256 ^ n
  let range (st : Nat) : Nat := byte (0x40 + 4 * st) 4
  let g : HrGroup := {
    part := w % 4, mu := bitsOf w 6 4, cbf := bit w 8, nstr := bitsOf w 12 9 + 1, tds := tds, nprb := bitsOf w 24 16
    nfft := if tds then 2 ^ bitsOf w 28 25 else 0, cplen := bitsOf w 43 32, tol := 10 * ws.getD 1 0, epoch := ws.getD 2 0
    compHdr := ws.getD 3 0, eaxc := (List.range (bitsOf w 12 9 + 1)).map fun st => byte (0x20 + 2 * st) 2
    rcnt := (List.range (bitsOf w 12 9 + 1)).map range }
  let rangeOk (st : Nat) : Bool :=
    let v := range st
    if st < g.nstr then decide (1 ≤ v) && decide (v ≤ 16) && decide (v ≤ g.nprb) && (!tds || v == 16) else v == 0
  if bitsOf w 3 2 ≠ 0 ∨ bit w 7 ∨ bitsOf w 15 14 ≠ 0 ∨ bitsOf w 31 29 ≠ 0 ∨ w / 2 ^ 44 ≠ 0 ∨ 4 < g.mu ∨ g.nprb = 0 ∨ 273 < g.nprb ∨
      1000000 < g.tol ∨ (if tds then bitsOf w 28 25 < 8 ∨ 12 < bitsOf w 28 25 else bitsOf w 28 25 ≠ 0 ∨ g.cplen ≠ 0) ∨
      !(List.range 16).all rangeOk then none
  else some g

/-- GROUP_SET (R257, R372): the group starts with no rows. -/
def execGroupSet (sl : Nat) (s : State) : Out :=
  s.svcServe sl (· == 0x61) .service fun s c arg =>
    let (port, n) := (arg 0 % 4, bitsOf (arg 0) 13 8)
    if arg 0 ≠ port + 256 * n then s.badArg
    else s.withRead c (arg 1) 128 fun s bs =>
      match groupOf (wordsOf bs) with
      | none => s.badArg
      | some g =>
        let small := (List.range 12).any fun k => (s.cluster k).flumes.any fun (x : Nat × Flume) =>
          x.2.prod == 1 && x.2.src == n && decide (x.2.slotsz < g.rowSize)
        if small then s.badArg
        else
          let s := s.setHrRows port n { counters := (s.hrRows port n).counters }
          let p := s.port port
          (s.setPort port { p with groups := p.groups.insert n g }).svcDone

end Sys2Proof.Machine
end

