-- ==== Sys2Proof/Machine/Dispatch.lean ====
section
/-! DEFINITION. One arm per constructor of Instr: the meaning of each step of the part. -/

namespace Sys2Proof.Machine
open Sys2Proof

def exec (i : Instr) (s : State) : Host.Outcome State Fault Refusal :=
  match i with
  | .add d a b => Sys2Proof.Machine.execAdd d a b s
  | .sub d a b => Sys2Proof.Machine.execSub d a b s
  | .and d a b => Sys2Proof.Machine.execAnd d a b s
  | .or d a b => Sys2Proof.Machine.execOr d a b s
  | .xor d a b => Sys2Proof.Machine.execXor d a b s
  | .sll d a b => Sys2Proof.Machine.execSll d a b s
  | .addi d a imm => Sys2Proof.Machine.execAddi d a imm s
  | .li d imm => Sys2Proof.Machine.execLi d imm s
  | .ldd d a imm => Sys2Proof.Machine.execLdd d a imm s
  | .std d a imm => Sys2Proof.Machine.execStd d a imm s
  | .beqz d off => Sys2Proof.Machine.execBeqz d off s
  | .bnez d off => Sys2Proof.Machine.execBnez d off s
  | .jal d off => Sys2Proof.Machine.execJal d off s
  | .mov d a => Sys2Proof.Machine.execMov d a s
  | .jalr d a => Sys2Proof.Machine.execJalr d a s
  | .not d a => Sys2Proof.Machine.execNot d a s
  | .neg d a => Sys2Proof.Machine.execNeg d a s
  | .setvl d a fmt => Sys2Proof.Machine.execSetvl d a fmt s
  | .srl d a b => Sys2Proof.Machine.execSrl d a b s
  | .sra d a b => Sys2Proof.Machine.execSra d a b s
  | .slli d a amt => Sys2Proof.Machine.execSlli d a amt s
  | .srli d a amt => Sys2Proof.Machine.execSrli d a amt s
  | .srai d a amt => Sys2Proof.Machine.execSrai d a amt s
  | .mul d a b => Sys2Proof.Machine.execMul d a b s
  | .mulh d a b => Sys2Proof.Machine.execMulh d a b s
  | .mulhn d a b => Sys2Proof.Machine.execMulhn d a b s
  | .div d a b => Sys2Proof.Machine.execDiv d a b s
  | .divn d a b => Sys2Proof.Machine.execDivn d a b s
  | .rem d a b => Sys2Proof.Machine.execRem d a b s
  | .remn d a b => Sys2Proof.Machine.execRemn d a b s
  | .slt d a b => Sys2Proof.Machine.execSlt d a b s
  | .sltn d a b => Sys2Proof.Machine.execSltn d a b s
  | .andi d a imm => Sys2Proof.Machine.execAndi d a imm s
  | .ori d a imm => Sys2Proof.Machine.execOri d a imm s
  | .xori d a imm => Sys2Proof.Machine.execXori d a imm s
  | .min d a b => Sys2Proof.Machine.execMin d a b s
  | .max d a b => Sys2Proof.Machine.execMax d a b s
  | .minn d a b => Sys2Proof.Machine.execMinn d a b s
  | .maxn d a b => Sys2Proof.Machine.execMaxn d a b s
  | .clz d a => Sys2Proof.Machine.execClz d a s
  | .ctz d a => Sys2Proof.Machine.execCtz d a s
  | .popc d a => Sys2Proof.Machine.execPopc d a s
  | .sext d a w => Sys2Proof.Machine.execSext d a w s
  | .zext d a w => Sys2Proof.Machine.execZext d a w s
  | .lih d a imm => Sys2Proof.Machine.execLih d a imm s
  | .addpc d off => Sys2Proof.Machine.execAddpc d off s
  | .addsl d a b c => Sys2Proof.Machine.execAddsl d a b c s
  | .select d a b c => Sys2Proof.Machine.execSelect d a b c s
  | .beq d a off => Sys2Proof.Machine.execBeq d a off s
  | .bne d a off => Sys2Proof.Machine.execBne d a off s
  | .blt d a off => Sys2Proof.Machine.execBlt d a off s
  | .bge d a off => Sys2Proof.Machine.execBge d a off s
  | .bltn d a off => Sys2Proof.Machine.execBltn d a off s
  | .bgen d a off => Sys2Proof.Machine.execBgen d a off s
  | .loopsm rc p np off => Sys2Proof.Machine.execLoopsm rc p np off s
  | .get d idx => Sys2Proof.Machine.execGet d idx s
  | .set a idx => Sys2Proof.Machine.execSet a idx s
  | .time d => Sys2Proof.Machine.execTime d s
  | .rdcnt d sel => Sys2Proof.Machine.execRdcnt d sel s
  | .waitc ld st cp mx en => Sys2Proof.Machine.execWaitc ld st cp mx en s
  | .vadd vd va vb q => Sys2Proof.Machine.execVadd vd va vb q s
  | .vsub vd va vb q => Sys2Proof.Machine.execVsub vd va vb q s
  | .vmul vd va vb q => Sys2Proof.Machine.execVmul vd va vb q s
  | .vmac vd va vb q => Sys2Proof.Machine.execVmac vd va vb q s
  | .vmin vd va vb q => Sys2Proof.Machine.execVmin vd va vb q s
  | .vmax vd va vb q => Sys2Proof.Machine.execVmax vd va vb q s
  | .vminn vd va vb q => Sys2Proof.Machine.execVminn vd va vb q s
  | .vmaxn vd va vb q => Sys2Proof.Machine.execVmaxn vd va vb q s
  | .vand vd va vb q => Sys2Proof.Machine.execVand vd va vb q s
  | .vor vd va vb q => Sys2Proof.Machine.execVor vd va vb q s
  | .vxor vd va vb q => Sys2Proof.Machine.execVxor vd va vb q s
  | .vsll vd va vb q => Sys2Proof.Machine.execVsll vd va vb q s
  | .vsrl vd va vb q => Sys2Proof.Machine.execVsrl vd va vb q s
  | .vsra vd va vb q => Sys2Proof.Machine.execVsra vd va vb q s
  | .vdiv vd va vb q => Sys2Proof.Machine.execVdiv vd va vb q s
  | .vdivn vd va vb q => Sys2Proof.Machine.execVdivn vd va vb q s
  | .vrem vd va vb q => Sys2Proof.Machine.execVrem vd va vb q s
  | .vremn vd va vb q => Sys2Proof.Machine.execVremn vd va vb q s
  | .vadds vd va vb q => Sys2Proof.Machine.execVadds vd va vb q s
  | .vsubs vd va vb q => Sys2Proof.Machine.execVsubs vd va vb q s
  | .vmulhq vd va vb q => Sys2Proof.Machine.execVmulhq vd va vb q s
  | .vabs vd va q => Sys2Proof.Machine.execVabs vd va q s
  | .vneg vd va q => Sys2Proof.Machine.execVneg vd va q s
  | .vrcp vd va q => Sys2Proof.Machine.execVrcp vd va q s
  | .vrsqrt vd va q => Sys2Proof.Machine.execVrsqrt vd va q s
  | .vexp2 vd va q => Sys2Proof.Machine.execVexp2 vd va q s
  | .vlog2 vd va q => Sys2Proof.Machine.execVlog2 vd va q s
  | .vsqrt vd va q => Sys2Proof.Machine.execVsqrt vd va q s
  | .vclass vd va q => Sys2Proof.Machine.execVclass vd va q s
  | .vscale vd va vb q => Sys2Proof.Machine.execVscale vd va vb q s
  | .vceq md va vb q => Sys2Proof.Machine.execVceq md va vb q s
  | .vcne md va vb q => Sys2Proof.Machine.execVcne md va vb q s
  | .vclt md va vb q => Sys2Proof.Machine.execVclt md va vb q s
  | .vcle md va vb q => Sys2Proof.Machine.execVcle md va vb q s
  | .vcltn md va vb q => Sys2Proof.Machine.execVcltn md va vb q s
  | .vclen md va vb q => Sys2Proof.Machine.execVclen md va vb q s
  | .vceqi md va imm q => Sys2Proof.Machine.execVceqi md va imm q s
  | .vclti md va imm q => Sys2Proof.Machine.execVclti md va imm q s
  | .mand md ma mb => Sys2Proof.Machine.execMand md ma mb s
  | .mor md ma mb => Sys2Proof.Machine.execMor md ma mb s
  | .mxor md ma mb => Sys2Proof.Machine.execMxor md ma mb s
  | .mnot md ma => Sys2Proof.Machine.execMnot md ma s
  | .mcnt d ma => Sys2Proof.Machine.execMcnt d ma s
  | .many d ma => Sys2Proof.Machine.execMany d ma s
  | .mfirst d ma => Sys2Proof.Machine.execMfirst d ma s
  | .vmv vd va q => Sys2Proof.Machine.execVmv vd va q s
  | .vsplat vd a q => Sys2Proof.Machine.execVsplat vd a q s
  | .vext d va b fo => Sys2Proof.Machine.execVext d va b fo s
  | .vins vd a b fo => Sys2Proof.Machine.execVins vd a b fo s
  | .vslideup vd va b q => Sys2Proof.Machine.execVslideup vd va b q s
  | .vslidedn vd va b q => Sys2Proof.Machine.execVslidedn vd va b q s
  | .vperm vd va vb q => Sys2Proof.Machine.execVperm vd va vb q s
  | .vcompress vd va q => Sys2Proof.Machine.execVcompress vd va q s
  | .vexpand vd va q => Sys2Proof.Machine.execVexpand vd va q s
  | .viota vd q => Sys2Proof.Machine.execViota vd q s
  | .vid vd q => Sys2Proof.Machine.execVid vd q s
  | .vmerge vd va vb q => Sys2Proof.Machine.execVmerge vd va vb q s
  | .vredsum vd va q => Sys2Proof.Machine.execVredsum vd va q s
  | .vredmax vd va q => Sys2Proof.Machine.execVredmax vd va q s
  | .vredmin vd va q => Sys2Proof.Machine.execVredmin vd va q s
  | .vcvt vd va tf q => Sys2Proof.Machine.execVcvt vd va tf q s
  | .vqscale vd va g sf q => Sys2Proof.Machine.execVqscale vd va g sf q s
  | .vquant vd va vb sf q => Sys2Proof.Machine.execVquant vd va vb sf q s
  | .vdeq vd va vb tf q => Sys2Proof.Machine.execVdeq vd va vb tf q s
  | .vcblk vd va cb q => Sys2Proof.Machine.execVcblk vd va cb q s
  | .vwidenlo vd va u q => Sys2Proof.Machine.execVwidenlo vd va u q s
  | .vwidenhi vd va u q => Sys2Proof.Machine.execVwidenhi vd va u q s
  | .vnarrow vd va vb tf q => Sys2Proof.Machine.execVnarrow vd va vb tf q s
  | .vcadd vd va vb q => Sys2Proof.Machine.execVcadd vd va vb q s
  | .vcsub vd va vb q => Sys2Proof.Machine.execVcsub vd va vb q s
  | .vcmul vd va vb q => Sys2Proof.Machine.execVcmul vd va vb q s
  | .vcmulj vd va vb q => Sys2Proof.Machine.execVcmulj vd va vb q s
  | .vcmac vd va vb q => Sys2Proof.Machine.execVcmac vd va vb q s
  | .vcmacj vd va vb q => Sys2Proof.Machine.execVcmacj vd va vb q s
  | .vconj vd va q => Sys2Proof.Machine.execVconj vd va q s
  | .vcrot vd va k q => Sys2Proof.Machine.execVcrot vd va k q s
  | .vcabs2 vd va q => Sys2Proof.Machine.execVcabs2 vd va q s
  | .vcscale vd va vb q => Sys2Proof.Machine.execVcscale vd va vb q s
  | .vcdot vd va vb q => Sys2Proof.Machine.execVcdot vd va vb q s
  | .vcreal vd va q => Sys2Proof.Machine.execVcreal vd va q s
  | .vcswap vd va q => Sys2Proof.Machine.execVcswap vd va q s
  | .vcmag vd va q => Sys2Proof.Machine.execVcmag vd va q s
  | .vcmacs vd va vb q => Sys2Proof.Machine.execVcmacs vd va vb q s
  | .vbfly2 vd va b vt q => Sys2Proof.Machine.execVbfly2 vd va b vt q s
  | .vbfly3 vd va b vt q => Sys2Proof.Machine.execVbfly3 vd va b vt q s
  | .vbfly4 vd va b vt q => Sys2Proof.Machine.execVbfly4 vd va b vt q s
  | .vbfly5 vd va b vt q => Sys2Proof.Machine.execVbfly5 vd va b vt q s
  | .vtwid vd a b q => Sys2Proof.Machine.execVtwid vd a b q s
  | .vdrev vd va b q => Sys2Proof.Machine.execVdrev vd va b q s
  | .vtrans vd va b q => Sys2Proof.Machine.execVtrans vd va b q s
  | .vmgmul vd va vb q => Sys2Proof.Machine.execVmgmul vd va vb q s
  | .vmgmulh vd va vb q => Sys2Proof.Machine.execVmgmulh vd va vb q s
  | .vmgmv vd va vb q => Sys2Proof.Machine.execVmgmv vd va vb q s
  | .vhchol vd va q => Sys2Proof.Machine.execVhchol vd va q s
  | .vhinv vd va q => Sys2Proof.Machine.execVhinv vd va q s
  | .vschur vd va p q => Sys2Proof.Machine.execVschur vd va p q s
  | .vschurv vd va vb p q => Sys2Proof.Machine.execVschurv vd va vb p q s
  | .vhsolve vd va vb q => Sys2Proof.Machine.execVhsolve vd va vb q s
  | .vmgtr vd va q => Sys2Proof.Machine.execVmgtr vd va q s
  | .vhreg vd va b q => Sys2Proof.Machine.execVhreg vd va b q s
  | .mxcfg n a => Sys2Proof.Machine.execMxcfg n a s
  | .mma z a b => Sys2Proof.Machine.execMma z a b s
  | .mmaz z a b => Sys2Proof.Machine.execMmaz z a b s
  | .mxzero z => Sys2Proof.Machine.execMxzero z s
  | .mxst z a b => Sys2Proof.Machine.execMxst z a b s
  | .mxld z a b => Sys2Proof.Machine.execMxld z a b s
  | .mxldcb cb a => Sys2Proof.Machine.execMxldcb cb a s
  | .vmovz vd z b q => Sys2Proof.Machine.execVmovz vd z b q s
  | .vmovtoz z va b q => Sys2Proof.Machine.execVmovtoz z va b q s
  | .mxpark a => Sys2Proof.Machine.execMxpark a s
  | .mxunpark a => Sys2Proof.Machine.execMxunpark a s
  | .mxscale a b => Sys2Proof.Machine.execMxscale a b s
  | .mxshare a => Sys2Proof.Machine.execMxshare a s
  | .mxstat d sel => Sys2Proof.Machine.execMxstat d sel s
  | .gsend d vp b => Sys2Proof.Machine.execGsend d vp b s
  | .gsendc d vp b => Sys2Proof.Machine.execGsendc d vp b s
  | .gld vp a b => Sys2Proof.Machine.execGld vp a b s
  | .gsum vp a => Sys2Proof.Machine.execGsum vp a s
  | .gsumx vp a => Sys2Proof.Machine.execGsumx vp a s
  | .gdamp vp vq b => Sys2Proof.Machine.execGdamp vp vq b s
  | .gcfg n a => Sys2Proof.Machine.execGcfg n a s
  | .gmarg vp vq b => Sys2Proof.Machine.execGmarg vp vq b s
  | .gembed vp vq b => Sys2Proof.Machine.execGembed vp vq b s
  | .gmean vp vq => Sys2Proof.Machine.execGmean vp vq s
  | .gstat d sel => Sys2Proof.Machine.execGstat d sel s
  | .lb d a imm => Sys2Proof.Machine.execLb d a imm s
  | .lbn d a imm => Sys2Proof.Machine.execLbn d a imm s
  | .lh d a imm => Sys2Proof.Machine.execLh d a imm s
  | .lhn d a imm => Sys2Proof.Machine.execLhn d a imm s
  | .lw d a imm => Sys2Proof.Machine.execLw d a imm s
  | .lwn d a imm => Sys2Proof.Machine.execLwn d a imm s
  | .sb d a imm => Sys2Proof.Machine.execSb d a imm s
  | .sh d a imm => Sys2Proof.Machine.execSh d a imm s
  | .sw d a imm => Sys2Proof.Machine.execSw d a imm s
  | .ldx d a b => Sys2Proof.Machine.execLdx d a b s
  | .stx d a b => Sys2Proof.Machine.execStx d a b s
  | .pref hint a imm => Sys2Proof.Machine.execPref hint a imm s
  | .cflush a => Sys2Proof.Machine.execCflush a s
  | .cinv a => Sys2Proof.Machine.execCinv a s
  | .amoadd d a b w32 => Sys2Proof.Machine.execAmoadd d a b w32 s
  | .amoand d a b w32 => Sys2Proof.Machine.execAmoand d a b w32 s
  | .amoor d a b w32 => Sys2Proof.Machine.execAmoor d a b w32 s
  | .amoxor d a b w32 => Sys2Proof.Machine.execAmoxor d a b w32 s
  | .amomin d a b w32 => Sys2Proof.Machine.execAmomin d a b w32 s
  | .amomax d a b w32 => Sys2Proof.Machine.execAmomax d a b w32 s
  | .amominn d a b w32 => Sys2Proof.Machine.execAmominn d a b w32 s
  | .amomaxn d a b w32 => Sys2Proof.Machine.execAmomaxn d a b w32 s
  | .amoswp d a b w32 => Sys2Proof.Machine.execAmoswp d a b w32 s
  | .amocas d a b c w32 => Sys2Proof.Machine.execAmocas d a b c w32 s
  | .ldaq d a => Sys2Proof.Machine.execLdaq d a s
  | .strl d a => Sys2Proof.Machine.execStrl d a s
  | .fence before after scope => Sys2Proof.Machine.execFence before after scope s
  | .vld vd a q => Sys2Proof.Machine.execVld vd a q s
  | .vst vd a q => Sys2Proof.Machine.execVst vd a q s
  | .vlds vd a b q => Sys2Proof.Machine.execVlds vd a b q s
  | .vsts vd a b q => Sys2Proof.Machine.execVsts vd a b q s
  | .vldx vd a vb amt q => Sys2Proof.Machine.execVldx vd a vb amt q s
  | .vstx vd a vb amt q => Sys2Proof.Machine.execVstx vd a vb amt q s
  | .vldb vd a q => Sys2Proof.Machine.execVldb vd a q s
  | .vamoadd vd a vb amt q => Sys2Proof.Machine.execVamoadd vd a vb amt q s
  | .vldff vd a q => Sys2Proof.Machine.execVldff vd a q s
  | .scopy sn sd ss sc fo => Sys2Proof.Machine.execScopy sn sd ss sc fo s
  | .spat n a => Sys2Proof.Machine.execSpat n a s
  | .sstrm n sd ss => Sys2Proof.Machine.execSstrm n sd ss s
  | .swaitm a b => Sys2Proof.Machine.execSwaitm a b s
  | .stestm d a b => Sys2Proof.Machine.execStestm d a b s
  | .sclrm a b => Sys2Proof.Machine.execSclrm a b s
  | .flpop d a => Sys2Proof.Machine.execFlpop d a s
  | .flrel a b => Sys2Proof.Machine.execFlrel a b s
  | .flpush d a => Sys2Proof.Machine.execFlpush d a s
  | .fldone a b => Sys2Proof.Machine.execFldone a b s
  | .ecmd d a => Sys2Proof.Machine.execEcmd d a s
  | .ecancel d a => Sys2Proof.Machine.execEcancel d a s
  | .estat d a sel => Sys2Proof.Machine.execEstat d a sel s
  | .spawn d a => Sys2Proof.Machine.execSpawn d a s
  | .jend => Sys2Proof.Machine.execJend s
  | .jdead d => Sys2Proof.Machine.execJdead d s
  | .jtight d a => Sys2Proof.Machine.execJtight d a s
  | .jwid d a lvl => Sys2Proof.Machine.execJwid d a lvl s
  | .jself d => Sys2Proof.Machine.execJself d s
  | .jabort d a => Sys2Proof.Machine.execJabort d a s
  | .jinfo d sel => Sys2Proof.Machine.execJinfo d sel s
  | .msendrq d a p n => Sys2Proof.Machine.execMsendrq d a p n s
  | .msendrp d a p n => Sys2Proof.Machine.execMsendrp d a p n s
  | .mtag d a mx => Sys2Proof.Machine.execMtag d a mx s
  | .men a => Sys2Proof.Machine.execMen a s
  | .mdis a => Sys2Proof.Machine.execMdis a s
  | .mpend d => Sys2Proof.Machine.execMpend d s
  | .mclr d a => Sys2Proof.Machine.execMclr d a s
  | .warm d a b c => Sys2Proof.Machine.execWarm d a b c s
  | .wpost d a b => Sys2Proof.Machine.execWpost d a b s
  | .wsig a b => Sys2Proof.Machine.execWsig a b s
  | .wstat d a => Sys2Proof.Machine.execWstat d a s
  | .binit d a b => Sys2Proof.Machine.execBinit d a b s
  | .barrive a => Sys2Proof.Machine.execBarrive a s
  | .bwait d a b => Sys2Proof.Machine.execBwait d a b s
  | .bsync d a => Sys2Proof.Machine.execBsync d a s
  | .qopen d a b => Sys2Proof.Machine.execQopen d a b s
  | .qclose d a => Sys2Proof.Machine.execQclose d a s
  | .qstat d a sel => Sys2Proof.Machine.execQstat d a sel s
  | .trap imm => Sys2Proof.Machine.execTrap imm s
  | .tret => Sys2Proof.Machine.execTret s
  | .tretSkip => Sys2Proof.Machine.execTretSkip s
  | .svc d a b => Sys2Proof.Machine.execSvc d a b s
  | .gateinfo d sel => Sys2Proof.Machine.execGateinfo d sel s
  | .enmtr d a kind => Sys2Proof.Machine.execEnmtr d a kind s
  | .pgateGate d a => Sys2Proof.Machine.execPgateGate d a s
  | .pgateUngate d a => Sys2Proof.Machine.execPgateUngate d a s
  | .pgateQuery d a => Sys2Proof.Machine.execPgateQuery d a s
  | .halt a => Sys2Proof.Machine.execHalt a s
  | .ctxsave d a b => Sys2Proof.Machine.execCtxsave d a b s
  | .ctxload d a b => Sys2Proof.Machine.execCtxload d a b s
  | .tlbinv a b => Sys2Proof.Machine.execTlbinv a b s
  | .idle a => Sys2Proof.Machine.execIdle a s
  | .brk imm => Sys2Proof.Machine.execBrk imm s
  | .rsvadd d a => Sys2Proof.Machine.execRsvadd d a s
  | .vectorStart cx => Sys2Proof.Machine.execVectorStart cx s
  | .vectorComplete cx => Sys2Proof.Machine.execVectorComplete cx s
  | .scalarLoadReturn cx idx => Sys2Proof.Machine.execScalarLoadReturn cx idx s
  | .storePerformed cx idx => Sys2Proof.Machine.execStorePerformed cx idx s
  | .mxCmdBegin core => Sys2Proof.Machine.execMxCmdBegin core s
  | .mxRowReady core z row => Sys2Proof.Machine.execMxRowReady core z row s
  | .mxCmdComplete core => Sys2Proof.Machine.execMxCmdComplete core s
  | .mxShareTimeout core => Sys2Proof.Machine.execMxShareTimeout core s
  | .waitSatisfied cx => Sys2Proof.Machine.execWaitSatisfied cx s
  | .idleExpire cx => Sys2Proof.Machine.execIdleExpire cx s
  | .deadlineComparator cx => Sys2Proof.Machine.execDeadlineComparator cx s
  | .abandonAction h => Sys2Proof.Machine.execAbandonAction h s
  | .queuedDeadlinePass q => Sys2Proof.Machine.execQueuedDeadlinePass q s
  | .reservationRelease r => Sys2Proof.Machine.execReservationRelease r s
  | .budgetUpdate => Sys2Proof.Machine.execBudgetUpdate s
  | .governorDispatch k => Sys2Proof.Machine.execGovernorDispatch k s
  | .loadAveraging k => Sys2Proof.Machine.execLoadAveraging k s
  | .jobMoveArrive idx => Sys2Proof.Machine.execJobMoveArrive idx s
  | .amArrival m => Sys2Proof.Machine.execAmArrival m s
  | .amAnswer idx => Sys2Proof.Machine.execAmAnswer idx s
  | .emptyRelease r => Sys2Proof.Machine.execEmptyRelease r s
  | .engDelivery m => Sys2Proof.Machine.execEngDelivery m s
  | .gmsgMerge m => Sys2Proof.Machine.execGmsgMerge m s
  | .weirArrival idx => Sys2Proof.Machine.execWeirArrival idx s
  | .weirPacketMake idx => Sys2Proof.Machine.execWeirPacketMake idx s
  | .barrierArrival idx => Sys2Proof.Machine.execBarrierArrival idx s
  | .sweep => Sys2Proof.Machine.execSweep s
  | .groupCompletionSend g => Sys2Proof.Machine.execGroupCompletionSend g s
  | .engineCmdArrive idx => Sys2Proof.Machine.execEngineCmdArrive idx s
  | .engineAnswer idx => Sys2Proof.Machine.execEngineAnswer idx s
  | .ldpcDecode e => Sys2Proof.Machine.execLdpcDecode e s
  | .ldpcEncode e => Sys2Proof.Machine.execLdpcEncode e s
  | .polarDecode e => Sys2Proof.Machine.execPolarDecode e s
  | .polarEncode e => Sys2Proof.Machine.execPolarEncode e s
  | .rateDematch e => Sys2Proof.Machine.execRateDematch e s
  | .rateMatch e => Sys2Proof.Machine.execRateMatch e s
  | .crcCheck e => Sys2Proof.Machine.execCrcCheck e s
  | .engineCompletion e => Sys2Proof.Machine.execEngineCompletion e s
  | .streamChunkServe k idx => Sys2Proof.Machine.execStreamChunkServe k idx s
  | .chunkDone k idx => Sys2Proof.Machine.execChunkDone k idx s
  | .ethFrameReceive port frame => Sys2Proof.Machine.execEthFrameReceive port frame s
  | .rowCloseTimeout port g => Sys2Proof.Machine.execRowCloseTimeout port g s
  | .rowSlotFill port g => Sys2Proof.Machine.execRowSlotFill port g s
  | .overrunRowFill port g => Sys2Proof.Machine.execOverrunRowFill port g s
  | .cplaneTransmit port put => Sys2Proof.Machine.execCplaneTransmit port put s
  | .windowStart u => Sys2Proof.Machine.execWindowStart u s
  | .edgeGuard core => Sys2Proof.Machine.execEdgeGuard core s
  | .edgeSwapComplete core => Sys2Proof.Machine.execEdgeSwapComplete core s
  | .coreRepower core => Sys2Proof.Machine.execCoreRepower core s
  | .loanStart core => Sys2Proof.Machine.execLoanStart core s
  | .loanEnd core => Sys2Proof.Machine.execLoanEnd core s
  | .tableEpoch => Sys2Proof.Machine.execTableEpoch s
  | .svcCallArrive idx => Sys2Proof.Machine.execSvcCallArrive idx s
  | .svcAnswer idx => Sys2Proof.Machine.execSvcAnswer idx s
  | .internalCall sl dst ws => Sys2Proof.Machine.execInternalCall sl dst ws s
  | .nop sl => Sys2Proof.Machine.execNop sl s
  | .rsvAdd sl => Sys2Proof.Machine.execRsvAdd sl s
  | .rsvRemove sl => Sys2Proof.Machine.execRsvRemove sl s
  | .counter sl => Sys2Proof.Machine.execCounter sl s
  | .mapObject sl => Sys2Proof.Machine.execMapObject sl s
  | .unmapObject sl => Sys2Proof.Machine.execUnmapObject sl s
  | .harvest sl => Sys2Proof.Machine.execHarvest sl s
  | .harvestAuto t obj => Sys2Proof.Machine.execHarvestAuto t obj s
  | .objectFaultServe sl => Sys2Proof.Machine.execObjectFaultServe sl s
  | .queueBind sl => Sys2Proof.Machine.execQueueBind sl s
  | .queueUnbind sl => Sys2Proof.Machine.execQueueUnbind sl s
  | .tableLoad sl => Sys2Proof.Machine.execTableLoad sl s
  | .quarClear sl => Sys2Proof.Machine.execQuarClear sl s
  | .sweepSet sl => Sys2Proof.Machine.execSweepSet sl s
  | .logSet sl => Sys2Proof.Machine.execLogSet sl s
  | .imageLoad sl => Sys2Proof.Machine.execImageLoad sl s
  | .flumeSet sl => Sys2Proof.Machine.execFlumeSet sl s
  | .groupSet sl => Sys2Proof.Machine.execGroupSet sl s
  | .poisonClear sl => Sys2Proof.Machine.execPoisonClear sl s
  | .biasSet sl => Sys2Proof.Machine.execBiasSet sl s
  | .linkDump sl => Sys2Proof.Machine.execLinkDump sl s
  | .twinExport sl => Sys2Proof.Machine.execTwinExport sl s
  | .debugOpen sl => Sys2Proof.Machine.execDebugOpen sl s
  | .debugClose sl => Sys2Proof.Machine.execDebugClose sl s
  | .debugRead sl => Sys2Proof.Machine.execDebugRead sl s
  | .debugWrite sl => Sys2Proof.Machine.execDebugWrite sl s
  | .debugResume sl => Sys2Proof.Machine.execDebugResume sl s
  | .hlqdb q tail => Sys2Proof.Machine.execHlqdb q tail s
  | .biasreq v => Sys2Proof.Machine.execBiasreq v s
  | .hostsig => Sys2Proof.Machine.execHostsig s
  | .hostsigw v => Sys2Proof.Machine.execHostsigw v s
  | .registerWrite off v => Sys2Proof.Machine.execRegisterWrite off v s
  | .hostMemAccess acc => Sys2Proof.Machine.execHostMemAccess acc s
  | .hostSnoop line excl => Sys2Proof.Machine.execHostSnoop line excl s
  | .hostLinkDown => Sys2Proof.Machine.execHostLinkDown s
  | .twinPair grants => Sys2Proof.Machine.execTwinPair grants s
  | .twinLinkDown => Sys2Proof.Machine.execTwinLinkDown s
  | .spdmMeasurements => Sys2Proof.Machine.execSpdmMeasurements s
  | .powerOn => Sys2Proof.Machine.execPowerOn s
  | .deviceReset => Sys2Proof.Machine.execDeviceReset s
  | .bootImageVerify u image good => Sys2Proof.Machine.execBootImageVerify u image good s
  | .channelTrained c units => Sys2Proof.Machine.execChannelTrained c units s
  | .clusterReady k => Sys2Proof.Machine.execClusterReady k s
  | .headracePortReady port => Sys2Proof.Machine.execHeadracePortReady port s
  | .ptpFirstLock t => Sys2Proof.Machine.execPtpFirstLock t s
  | .ptpLockLoss => Sys2Proof.Machine.execPtpLockLoss s
  | .ptpLockRegained => Sys2Proof.Machine.execPtpLockRegained s
  | .dvfsStepChange step => Sys2Proof.Machine.execDvfsStepChange step s
  | .powerCapCheck => Sys2Proof.Machine.execPowerCapCheck s
  | .energyMeterUpdate => Sys2Proof.Machine.execEnergyMeterUpdate s
  | .ungateComplete u => Sys2Proof.Machine.execUngateComplete u s
  | .stillEnter => Sys2Proof.Machine.execStillEnter s
  | .channelWake c => Sys2Proof.Machine.execChannelWake c s
  | .lpddrScrub sl w => Sys2Proof.Machine.execLpddrScrub sl w s
  | .sramScrub x => Sys2Proof.Machine.execSramScrub x s
  | .illegalInstruction => Sys2Proof.Machine.execIllegalInstruction s
  | .prefixChain => Sys2Proof.Machine.execPrefixChain s
  | .fetchFault exec va => Sys2Proof.Machine.execFetchFault exec va s
  | .hostLinkUp => Sys2Proof.Machine.execHostLinkUp s
  | .twinMemoryAccess acc => Sys2Proof.Machine.execTwinMemoryAccess acc s
  | .hdmWindowSet hb hs => Sys2Proof.Machine.execHdmWindowSet hb hs s

end Sys2Proof.Machine
end

