-- ==== Sys2Proof/Machine/Turn.lean ====
section
/-! DEFINITION. Whose turn a step is, and what a turn does: a context issues its next instruction, the resident micro-kernel acts,
or a unit acts (notes/assumptions/1.md). -/

namespace Sys2Proof.Machine
open Sys2Proof

/-- A row of the table that a unit performs; encoded instructions and the outcomes of a fetch are never units' turns. -/
def isUnitEvent (i : Instr) : Bool :=
  match i with
  | .illegalInstruction => false
  | .prefixChain => false
  | .fetchFault _ _ => false
  | i => (toChain i).isNone

/-- R424: when the mesh last carried a request. -/
def State.noteMesh (s : State) : State := { s with power := { s.power with lastMesh := if s.meshBusy then s.time.ref else s.power.lastMesh } }

/-- R315: sweeps at which nothing is to be seen are passed over. -/
def State.noteSweep (s : State) : State :=
  { s with lastSweep := if s.sweeps then s.lastSweep else s.time.ref / (500 * s.sweep) * (500 * s.sweep) }

/-- Time passes: an unknown number of nanoseconds and of cycles in every step (R13, R103); a cache may evict a line (R201). -/
def State.tick (s : State) : State :=
  ({ s with
    sched := { s.sched with steps := s.sched.steps + 1, held := none }
    time := { s.time with ref := s.time.ref + Config.elapsed s.sched.steps, cycles := s.time.cycles + Config.cycles s.sched.steps } }
    : State).evict.noteMesh.noteSweep

/-! ### Contexts -/

/-- R336: the window after a cluster's has begun, so that its edges come before any further instruction. -/
def State.windowDue (s : State) (k : Nat) : Bool × State :=
  match s.sluice.table, s.sluice.clusterWin.get none k with
  | some t, some w =>
    let (now, s) := s.clusterNow k
    (decide (t.winEnd w ≤ now), s)
  | _, _ => (false, s)

/-- R287: the comparator of an RT job fires within 64 ns, so no instruction of its own comes later. -/
def State.comparatorLate (s : State) (cx : Nat) : Bool × State :=
  match s.jobOf (s.ctx cx) with
  | none => (false, s)
  | some j =>
    if j.be then (false, s)
    else
      let (now, s) := s.clusterNow (clusterOf (coreOf cx))
      ((s.comparatorDue cx (now - 65)).isSome, s)

/-- R340: a JEND that commits in the cycle of the edge completes in the outgoing window. -/
noncomputable def State.endsAtEdge (s : State) (cx : Nat) : Bool :=
  let k := clusterOf (coreOf cx)
  match s.sluice.table, s.sluice.clusterWin.get none k, s.fetchChain cx (s.ctx cx).pc with
  | some t, some w, (.chain ws, _) =>
    s.time.cluster.get 0 k == t.winEnd w && (match decode ws with
      | .ok (.jend, _) => true
      | _ => false)
  | _, _, _ => false

/-- The chain at the context's pc is executed (R54, R63). -/
noncomputable def State.issue (s : State) : Out :=
  match s.fetchChain s.sched.cur s.curCtx.pc with
  | (.fifth, s) => exec .prefixChain s
  | (.fails t, s) =>
    match t.cause with
    | .pageFaultExec => exec (.fetchFault true t.value) s
    | .protection => exec (.fetchFault false t.value) s
    | _ => s.trapCur t.cause t.value
  | (.chain ws, s) =>
    match decode ws with
    | .ok (i, n) => exec i { s with sched := { s.sched with ilen := n } }
    | .error .prefixChain => exec .prefixChain s
    | .error _ => exec .illegalInstruction s

/-- R322, R327: the context stands at the first instruction of the trap handler, which is the resident micro-kernel's. -/
def State.kernelHere (s : State) (cx : Nat) : Bool :=
  let c := s.ctx cx
  s.power.microKernel && s.mayIssue cx && c.mode == .supervisor && c.depth != 0 && c.pc == c.tvec && c.guess.isNone

/-- The micro-kernel can act there. -/
def State.kernelDue (s : State) (cx : Nat) : Bool :=
  s.kernelHere cx && !(s.ctx cx).busy regS2 && !(s.ctx cx).busy regS5

/-- The turn of the micro-kernel. -/
def State.kernelTurn (s : State) (cx : Nat) : Out := if s.kernelDue cx then .next (s.kernelAct cx) else .next s

/-- A context becomes the current one and tries to issue, which is noted. -/
def State.atTurn (s : State) (cx : Nat) : State :=
  { s with sched := { s.sched with
    cur := cx, tried := s.sched.tried.set none cx ((s.ctx cx).job.map fun h => { job := h, ord := (s.ctx cx).ord }) } }

/-- A context issues: the micro-kernel's action at its handler, which no code in memory stands for, else the next instruction. -/
noncomputable def State.goOn (s : State) (cx : Nat) : Out := if s.kernelHere cx then s.kernelTurn cx else (s.atTurn cx).issue

/-- The turn of a context: a branch whose test has come is decided; then what is due on its cluster comes before its instruction. -/
noncomputable def State.runTurn (s : State) (cx : Nat) : Out :=
  let s := s.decideBranch cx
  if s.mayIssue cx then
    match s.windowDue (clusterOf (coreOf cx)) with
    | (true, s) => if s.endsAtEdge cx then s.goOn cx else exec (.windowStart (.cluster (clusterOf (coreOf cx)))) s
    | (false, s) =>
      match s.comparatorLate cx with
      | (true, s) => exec (.deadlineComparator cx) s
      | (false, s) => s.goOn cx
  else .next s

/-! ### What is due

Rules that say when something happens by a counter: a counter never shows less than it did, nor less than the reference, so what
these lower bounds have passed comes before any other turn (R13, R268). -/

/-- The least a cluster's or a slice's counter can show. -/
def State.clusterFloor (s : State) (k : Nat) : Nat := max (s.time.cluster.get 0 k) s.time.ref
def State.sliceFloor (s : State) (k : Nat) : Nat := max (s.time.slice.get 0 k) s.time.ref

/-- R336, R340: a window has ended; in the cycle of its end itself (slack 1) a context's own turn looks at its next instruction. -/
noncomputable def State.dueWindow (s : State) (slack : Nat) (t : Table) : Option Instr :=
  if !s.sluice.inForce || s.sluice.loading then none
  else
    ((List.range 12).findSome? fun k => (s.sluice.clusterWin.get none k).bind fun w =>
      if t.winEnd w + slack ≤ s.clusterFloor k then some (.windowStart (.cluster k)) else none) <|>
    (List.range 8).findSome? fun k => (s.sluice.sliceWin.get none k).bind fun w =>
      if t.winEnd w + slack ≤ s.sliceFloor k then some (.windowStart (.slice k)) else none

/-- R14, R287: a comparator fires within 64 ns of its deadline, and a job that has not started is abandoned at once. -/
noncomputable def State.dueDeadline (s : State) : Option Instr :=
  (s.jobs.findSome? fun (x : Nat × Job) =>
    let now := s.clusterFloor x.2.cluster
    match x.2.state with
    | .running cx => (s.comparatorDue cx (now - 65)).map fun _ => .deadlineComparator cx
    | .queued => if s.passed x.2 now then some (.queuedDeadlinePass (.job x.1)) else none
    | .saved _ => if s.passed x.2 now then some (.queuedDeadlinePass (.job x.1)) else none
    | _ => none) <|>
  s.cores.findSome? fun (x : Nat × Core) => (x.2.entries.zipIdx).findSome? fun (e : HandlerEntry × Nat) =>
    if s.time.everLocked && !(x.2.tags.get {} e.1.tag).be && decide ((e.1.due (x.2.tags.get {} e.1.tag)).toNat ≤ s.clusterFloor (clusterOf x.1)) then
      some (.queuedDeadlinePass (.handler x.1 e.2)) else none

/-- R277: a release has come. -/
noncomputable def State.dueRelease (s : State) : Option Instr :=
  s.rsvs.findSome? fun (x : Nat × Rsv) =>
    if s.time.everLocked && decide (x.2.next ≤ s.clusterFloor 0) then some (.reservationRelease x.1) else none

/-- R278: a microsecond has passed in which jobs of reservations held contexts. -/
def State.dueBudget (s : State) : Option Instr :=
  s.jobs.findSome? fun (x : Nat × Job) =>
    if (s.rsvOf x.2).isSome && x.2.state.inContext.isSome &&
        decide ((s.cluster x.2.cluster).lastBudget < s.clusterFloor x.2.cluster / 1000) then some .budgetUpdate else none

/-- R315: a sweep has come, by the counters of the clusters that have not reported; what travels lands before it. -/
noncomputable def State.dueSweep (s : State) : Option Instr :=
  if s.sweeps && s.unreported.all (fun k => s.sweepCome (s.clusterFloor k)) then
    some (match s.landing with
      | some i => if s.reports.isEmpty then .emptyRelease (.sent i) else .sweep
      | none => .sweep)
  else none

/-- R286: a publication has come, at which there is something to publish. -/
noncomputable def State.dueAverage (s : State) : Option Instr :=
  (List.range 12).findSome? fun k =>
    let slot := s.clusterFloor k / 2000
    let seen (from_ : Nat) : Bool := decide (max from_ (s.cluster k).lastAverage < slot)
    if (!(s.cluster k).published.isEmpty && seen 0) || s.jobs.any (fun (x : Nat × Job) =>
        x.2.state == .queued && x.2.cluster == k && x.2.be && seen (x.2.ready / 2000)) then some (.loadAveraging k) else none

/-- R378: a periodic harvest has come. -/
noncomputable def State.dueHarvest (s : State) : Option Instr :=
  s.objects.findSome? fun (x : Nat × HostObj) =>
    if x.2.auto && decide (x.2.due ≤ s.sliceFloor (homeSlice x.2.va)) && decide ((s.svc.get {} (homeSlice x.2.va)).queued 62 < 32) then
      some (.harvestAuto (x.1 / 256) (x.1 % 256)) else none

/-- R349, R351: lending and its early end are decided at the instant their conditions hold. -/
noncomputable def State.dueLoan (s : State) (t : Table) : Option Instr :=
  if s.sluice.loading then none
  else (List.range 96).findSome? fun c =>
    let k := clusterOf c
    (s.sluice.clusterWin.get none k).bind fun w =>
      let now := s.clusterFloor k
      if (s.core c).loan.isSome then
        (if (s.core c).edge.isNone && s.ownerWants c now then some (.loanEnd c) else none)
      else if s.lendable t w c now && !(s.beneficiaries t c now).isEmpty then some (.loanStart c) else none

/-- R424: a channel leaves self-refresh, or the device enters the Still state. -/
noncomputable def State.dueChannel (s : State) : Option Instr :=
  (s.power.wakeAt.findSome? fun (x : Nat × Nat) => if x.2 ≤ s.time.ref then some (Instr.channelWake x.1) else none) <|>
    if s.canBeStill then some .stillEnter else none

/-- R284: a loan has begun, and the decisions it gives rise to come before what happens later. -/
noncomputable def State.dueDecision (s : State) : Option Instr :=
  if s.sluice.loading then none
  else s.clusters.findSome? fun (x : Nat × Cluster) => if x.2.toDecide then some (.governorDispatch x.1) else none

/-- The events that are due before a turn. -/
noncomputable def State.overdue (s : State) (turn : Turn) : List Instr :=
  if !s.power.supplies then []
  else
    let slack := match turn with
      | .run _ => 1
      | _ => 0
    [s.dueChannel, s.sluice.table.bind (s.dueWindow slack), s.dueDeadline, s.dueRelease, s.dueBudget, s.dueAverage, s.dueHarvest, s.dueSweep,
      s.dueDecision, s.sluice.table.bind s.dueLoan].filterMap id

/-! ### The order of turns -/

/-- Events for the places of a list. -/
def turnsAt {α : Type} (xs : List α) (f : Nat → Instr) : List Turn := (List.range xs.length).map fun i => .event (f i)

/-- What a context may do next. -/
noncomputable def State.contextTurns (s : State) (cx : Nat) (c : Ctx) : List Turn :=
  let run : List Turn := if s.kernelDue cx then [.kernel cx] else if s.mayIssue cx then [.run cx] else []
  let wait : List Turn := match c.status with
    | .waiting _ => [.event (.waitSatisfied cx), .event (.idleExpire cx)]
    | _ => []
  let queue : List Turn := if c.vq.isEmpty then [] else [.event (.vectorComplete cx), .event (.vectorStart cx)]
  let reads := c.vq.flatMap VEntry.nextReads
  run ++ wait ++ queue ++ turnsAt c.loads (fun i => .scalarLoadReturn cx i) ++ turnsAt c.stores (fun i => .storePerformed cx i) ++
    turnsAt reads (fun i => .scalarLoadReturn cx (c.loads.length + i)) ++ turnsAt c.toHand (fun i => .storePerformed cx (c.stores.length + i)) ++
    turnsAt (s.mxOuts cx c) (fun i => .storePerformed cx (c.stores.length + c.toHand.length + i))

/-- What a core's gate and its matrix unit may do next. -/
noncomputable def State.coreTurns (core : Nat) (k : Core) : List Turn :=
  (if k.edge.isSome then [.event (.edgeSwapComplete core)] else []) ++ (if k.edgeGated then [.event (.coreRepower core)] else []) ++
  if k.mx.queue.isEmpty then []
  else
    [.event (.mxCmdComplete core), .event (.mxCmdBegin core)] ++ k.mx.queue.filterMap fun x =>
      if x.begun && x.left == 0 && decide (x.ready < x.rows) then x.op.tile.map fun z => .event (.mxRowReady core (Fin.ofNat 4 z) x.ready) else none

/-- What the Governor may do next. -/
noncomputable def State.governorTurns (s : State) : List Turn :=
  s.jobs.flatMap (fun (x : Nat × Job) =>
    match x.2.state with
    | .queued => [.event (.governorDispatch x.2.cluster)]
    | .parked _ => [.event (.governorDispatch x.2.cluster)]
    | .parking _ => [.event (.governorDispatch x.2.cluster)]
    | .abandoning _ _ => [.event (.abandonAction x.1)]
    | _ => []) ++
  (s.cores.filter fun (x : Nat × Core) => !x.2.entries.isEmpty).map (fun (x : Nat × Core) => .event (.governorDispatch (clusterOf x.1))) ++
  turnsAt s.moves (fun i => .jobMoveArrive i)

/-- What the networks, the weirs, the barriers and the engines may do next. -/
noncomputable def State.unitTurns (s : State) : List Turn :=
  turnsAt s.am (fun i => .amArrival (.sent i)) ++ turnsAt s.answers (fun i => .amAnswer i) ++
  turnsAt s.slotReleases (fun i => .emptyRelease (.sent i)) ++ turnsAt s.gmsg (fun i => .gmsgMerge (.sent i)) ++
  turnsAt s.eng (fun i => .engDelivery (.sent i)) ++ turnsAt s.weirArrivals (fun i => .weirArrival i) ++
  turnsAt s.firings (fun i => .weirPacketMake i) ++ turnsAt s.barrierArrivals (fun i => .barrierArrival i) ++
  turnsAt s.engAnswers (fun i => .engineAnswer i) ++ turnsAt s.svcFlight (fun i => .svcCallArrive i) ++
  turnsAt s.svcAnswers (fun i => .svcAnswer i) ++
  (if s.cmds.isEmpty then [] else turnsAt s.cmds (fun i => .engineCmdArrive i) ++
    s.cmds.flatMap fun c => [.event (.ldpcDecode c.engine), .event (.ldpcEncode c.engine), .event (.polarDecode c.engine),
      .event (.polarEncode c.engine), .event (.rateDematch c.engine), .event (.rateMatch c.engine), .event (.crcCheck c.engine),
      .event (.engineCompletion c.engine)]) ++
  s.clusters.flatMap fun (x : Nat × Cluster) =>
    turnsAt x.2.strips (fun i => .streamChunkServe x.1 i) ++ turnsAt x.2.strips (fun i => .chunkDone x.1 i)

/-- What a service core may do next: a forwarded fault, or a step of a call, whichever function it names. -/
noncomputable def SvcCore.turns (sl : Nat) (q : SvcCore) : List Turn :=
  (if q.faults.isEmpty then [] else [.event (.objectFaultServe sl)]) ++
  if q.calls.isEmpty then []
  else ([.nop sl, .rsvAdd sl, .rsvRemove sl, .counter sl, .mapObject sl, .unmapObject sl, .harvest sl, .queueBind sl, .queueUnbind sl,
    .tableLoad sl, .quarClear sl, .sweepSet sl, .logSet sl, .imageLoad sl, .flumeSet sl, .groupSet sl, .poisonClear sl, .biasSet sl,
    .linkDump sl, .twinExport sl, .debugOpen sl, .debugClose sl, .debugRead sl, .debugWrite sl, .debugResume sl, .internalCall sl 0 []] : List Instr).map .event

/-- The unit of a key. -/
def GateUnit.ofKey (k : Nat) : GateUnit :=
  if k < 100 then .core k
  else if k < 500 then .quad ((k - 100) / 4) (k % 4)
  else if k < 600 then .matrix (k - 500)
  else if k < 700 then .engine (k - 600)
  else .cluster (k - 700)

/-- What the headrace ports and the units being ungated may do next, and the completions of ended groups. -/
noncomputable def State.otherTurns (s : State) : List Turn :=
  s.groupDone.map (fun x => .event (.groupCompletionSend x.group)) ++
  s.ports.flatMap (fun (p : Nat × Port) => p.2.rows.flatMap fun (r : Nat × HrRows) =>
    (if r.2.open_.isEmpty then [] else [.event (.rowCloseTimeout p.1 r.1), .event (.rowSlotFill p.1 r.1)]) ++
    if r.2.waiting.isEmpty then [] else [.event (.overrunRowFill p.1 r.1)]) ++
  (s.power.waking.filter (·.2)).map fun (x : Nat × Bool) => .event (.ungateComplete (GateUnit.ofKey x.1))

/-- The turns that something pending in the device could take; the outside world acts only through the agenda. -/
noncomputable def State.pendingTurns (s : State) : List Turn :=
  (s.ctxs.filter fun (x : Nat × Ctx) => x.2.job.isSome).flatMap (fun (x : Nat × Ctx) => s.contextTurns x.1 x.2) ++
  s.jobs.flatMap (fun (x : Nat × Job) => x.2.img.elim [] fun c => s.contextTurns (numCtx + x.1) c) ++
  s.cores.flatMap (fun (x : Nat × Core) => State.coreTurns x.1 x.2) ++ s.governorTurns ++ s.unitTurns ++
  s.svc.flatMap (fun (x : Nat × SvcCore) => SvcCore.turns x.1 x.2) ++ s.otherTurns

/-- The next turn: the agenda's, or with an empty agenda one of the pending ones in rotation. -/
noncomputable def State.takeTurn (s : State) : Turn × State :=
  match s.sched.agenda with
  | t :: ts => (t, { s with sched := { s.sched with agenda := ts } })
  | [] =>
    let ts := s.pendingTurns
    ((ts[s.sched.steps % ts.length]?).getD (.run s.sched.cur), s)

/-- R420, R424: what waits for the home of a place it reaches changes nothing; the wait is noted, and the step goes on. -/
def State.settle (s : State) (o : Out) (k : State → Out) : Out :=
  match o with
  | .next t =>
    match t.sched.held with
    | none => o
    | some p => k (s.await p)
  | o => o

/-- The first of the events due that need not wait takes the step; where all wait, the step goes on. -/
noncomputable def State.serve (k : State → Out) : List Instr → State → Out
  | [], s => k s
  | i :: is, s => s.settle (exec i s) (State.serve k is)

/-- What a turn does while the supplies stand (R430): without them only POWER_ON has an effect. -/
noncomputable def State.act (s : State) (t : Turn) : Out :=
  if s.power.supplies then
    match t with
    | .run cx => s.runTurn cx
    | .kernel cx => s.kernelTurn cx
    | .event i => if isUnitEvent i then exec i s else .next s
  else
    match t with
    | .event .powerOn => exec .powerOn s
    | _ => .next s

/-- The next turn is taken; where it waits for a home, it has had no effect. -/
noncomputable def State.turn (s : State) : Out :=
  let (t, s) := s.takeTurn
  s.settle (s.act t) .next

/-! ### Placing an instruction -/

/-- The page tables and the code page of State.withFetchWord: virtual page 0 on the fifth page of LPDDR 6, with every permission. -/
def placeTables (m : Memory) : Memory :=
  (((m.writeN 0x1000 8 0x2001).writeN 0x2000 8 0x3001).writeN 0x3000 8 0x4001).writeN 0x4000 8 0x507F

/-- Halfwords from a place on. -/
def writeHalves (m : Memory) : Nat → List Nat → Memory
  | _, [] => m
  | a, w :: ws => writeHalves (m.writeN a 2 w) (a + 2) ws

/-- The words stand at virtual address 0 of a running BE job in context 0 of core 0, whose turn is next. -/
def State.placeWords (s : State) (ws : List Nat) : State :=
  let c := s.ctx 0
  let s := s.setCtx 0 { c with job := some 1, status := .running, pc := 0, ptbase := 0x1000 }
  let s := s.putJob 1 { tenant := 0, be := true, state := .running 0 }
  let s := s.modCore 0 fun k => { k with edge := none, tlb := [] }
  let s := s.modCluster 0 fun k => { k with tlb := [] }
  let s := ((s.setGated (.core 0) false).setGated (.cluster 0) false).clearEcc 0x5000 64
  { s with
    mem := writeHalves (placeTables s.mem) 0x5000 ws
    lpddr := max s.lpddr 0x10000
    linkPoison := s.linkPoison.erase (0x5000 / 64)
    sluice := { s.sluice with clusterWin := s.sluice.clusterWin.erase 0 }
    power := { s.power with
      supplies := true, asleep := [], chan := (List.range 32).foldl (fun m c => if m.get 0 c = 0 then m.set 0 c 1 else m) s.power.chan }
    sched := { s.sched with agenda := .run 0 :: s.sched.agenda } }

end Sys2Proof.Machine
end

