-- ==== Sys2Proof/Machine/Step.lean ====
section
/-! DEFINITION. One step of the machine, and the state in which the next step runs a given instruction. -/

namespace Sys2Proof.Machine
open Sys2Proof

/-- One step: time passes, and what is due happens, or else the unit or context whose turn it is acts. -/
noncomputable def step (s : State) : Host.Outcome State Fault Refusal :=
  State.serve State.turn (s.tick.overdue s.tick.takeTurn.1) s.tick

/-- s with the instruction of nbits bits w (zero words after it) where the next step fetches. -/
def State.withFetchWord (s : State) (nbits w : Nat) : State := s.placeWords (tableHalfwords nbits w ++ [0, 0, 0, 0, 0])

end Sys2Proof.Machine
end

