-- ==== Sys2Proof/Safety.lean ====
section
/-! DEFINITION. What counts as a safe run, in the terms the statements use: the machine goes on, and its memory keeps the canonical
form. -/

namespace Sys2Proof.Safety
open Sys2Proof Sys2Proof.Machine

/-- The memory is listed in its canonical form: rising places, no byte that reads as an unlisted one. -/
def Inv (s : State) : Prop := s.mem.wf = true

/-- A step that goes on. -/
def Goes (o : Host.Outcome State Fault Refusal) : Prop := ∃ t, o = .next t

/-- k steps from a state go on, and the memory keeps its form. -/
def SafeFor (k : Nat) (s : State) : Prop := ∃ t, Sys2Proof.core.run k s = .next t ∧ Inv t

end Sys2Proof.Safety
end

