-- ==== Sys2Proof/Certificates/Slice0/Obligations.lean ====
section
/-! DEFINITION. The statements for the provers, with the words they are said in.  A statement of a result says that exec answers a
next state, what that state holds, and what it leaves as it was. -/

namespace Sys2Proof.Claims
open Sys2Proof Sys2Proof.Machine

/-! ### The scalar side of a context -/

/-- A free instruction that reads and writes these registers can issue: no register waits for a result, the undo log has room, and
no register read holds an error (R82 to R86). -/
structure FreeReady (s : State) (reads writes : List SReg) (vl : Bool) : Prop where
  cur : s.sched.cur < numCtx
  issue : s.curCtx.canIssue reads writes vl = true
  good : s.curCtx.badRead reads = none

/-- A held instruction can issue: besides, every older vector-queue instruction has started (R84). -/
structure HeldReady (s : State) (reads writes : List SReg) : Prop where
  cur : s.sched.cur < numCtx
  issue : s.curCtx.canIssueHeld reads writes = true
  good : s.curCtx.badRead reads = none

/-- A held instruction can issue, and a trap of it can be entered: no result for s2 is to come, and in supervisor mode no older access
is pending (R83, R88, R225). -/
structure HeldClear (s : State) (reads writes : List SReg) : Prop extends HeldReady s reads writes where
  clear : s.trapHeld s.sched.cur s.curCtx = false

/-- Every context but the issuing one is as it was. -/
def OtherContexts (s t : State) : Prop := t.sched = s.sched ∧ ∀ cx, cx ≠ s.sched.cur → t.ctx cx = s.ctx cx

/-- Of the issuing context only its scalar registers, its pc and the bookkeeping of issue have changed; the queue holds the
instructions it held. -/
def ScalarSide (c d : Ctx) : Prop :=
  d = { c with
    sregs := d.sregs, badRegs := d.badRegs, pc := d.pc, ord := d.ord, instret := d.instret, vq := d.vq, undo := d.undo } ∧
  d.vq.map (·.ins) = c.vq.map (·.ins)

/-- The frame of a scalar instruction: nothing outside the issuing context changes. -/
def ScalarFrame (s t : State) : Prop :=
  t = { s with ctxs := t.ctxs } ∧ OtherContexts s t ∧ ScalarSide s.curCtx t.curCtx

/-- Register d holds v, s0 excepted, and every other register what it held. -/
def Writes (c d : Ctx) (r : SReg) (v : Word) : Prop :=
  d.reg r = (if r = 0 then 0 else v) ∧ ∀ q, q ≠ r → d.reg q = c.reg q

/-- A free instruction writes a value to d and goes on past its chain. -/
def RegResult (i : Instr) (reads : List SReg) (d : SReg) (v : Ctx → Word) : Prop :=
  ∀ s, FreeReady s reads [d] false →
    ∃ t, exec i s = .next t ∧ Writes s.curCtx t.curCtx d (v s.curCtx) ∧ t.curCtx.pc = s.nextPc ∧ ScalarFrame s t

/-- A held instruction writes a value to d, ORs flags into FFLAGS, and goes on. -/
def DivResult (i : Instr) (reads : List SReg) (d : SReg) (v : Ctx → Word) (fl : Ctx → Flags) : Prop :=
  ∀ s, HeldReady s reads [d] →
    ∃ t, exec i s = .next t ∧ Writes s.curCtx t.curCtx d (v s.curCtx) ∧ t.curCtx.fflags = s.curCtx.fflags ||| fl s.curCtx ∧
      t.curCtx.pc = s.nextPc ∧ t = { s with ctxs := t.ctxs } ∧ OtherContexts s t ∧
      ScalarSide { s.curCtx with fflags := t.curCtx.fflags } { t.curCtx with status := s.curCtx.status }

/-- A conditional branch: the pc, no register, and outside the context only the branch counters of the core. -/
def BranchResult (i : Instr) (reads : List SReg) (off : Int) (taken : Ctx → Bool) : Prop :=
  ∀ s, FreeReady s reads [] false →
    ∃ t, exec i s = .next t ∧
      t.curCtx.pc = (if taken s.curCtx then s.curCtx.pc + BitVec.ofInt 64 (2 * off) else s.nextPc) ∧
      (∀ r, t.curCtx.reg r = s.curCtx.reg r) ∧ OtherContexts s t ∧ ScalarSide s.curCtx t.curCtx ∧
      t = { s with ctxs := t.ctxs, cores := t.cores } ∧ ∀ k, t.core k = { s.core k with branches := (t.core k).branches }

end Sys2Proof.Claims

open Sys2Proof Sys2Proof.Machine Sys2Proof.Safety Sys2Proof.Claims

/-! ### Encodings -/

/-- R54 to R74: the decoder reads every well-formed instruction back from its words, whatever follows them. -/
def Obligations.DecodeEncodeRoundTrip : Prop :=
  ∀ (i : Instr) (ws rest : List Nat), encode i = some ws → decode (ws ++ rest) = .ok (i, ws.length)

/-- R54: an instruction is a chain of zero to four prefix words and one base word; only the prefix words have 0xF in bits 15:12. -/
def Sys2Proof.Claims.EncodedChainShape : Prop :=
  ∀ (i : Instr) (ws : List Nat), encode i = some ws →
    1 ≤ ws.length ∧ ws.length ≤ 5 ∧ ∀ k, (h : k < ws.length) → ws[k] < 65536 ∧ (ws[k] / 4096 = 15 ↔ k + 1 < ws.length)

/-- R63: five prefix words in a row are PREFIX_CHAIN whatever they hold, and no chain that decodes is longer than five words. -/
def Sys2Proof.Claims.FifthPrefixWordRefused : Prop :=
  (∀ a b c d e : Nat, ∀ rest : List Nat, a / 4096 % 16 = 15 → b / 4096 % 16 = 15 → c / 4096 % 16 = 15 → d / 4096 % 16 = 15 →
    e / 4096 % 16 = 15 → decode (a :: b :: c :: d :: e :: rest) = .error .prefixChain) ∧
  ∀ (ws : List Nat) (i : Instr) (n : Nat), decode ws = .ok (i, n) → 1 ≤ n ∧ n ≤ 5 ∧ n ≤ ws.length ∧
    ∀ rest, decode (ws.take n ++ rest) = .ok (i, n)

/-- The shape of chains: one base word behind at most four prefix words, and no fifth prefix word. -/
def Obligations.EncodedChains : Prop :=
  Sys2Proof.Claims.EncodedChainShape ∧ Sys2Proof.Claims.FifthPrefixWordRefused

/-- R55 to R69: a few words written out from the encoding tables. -/
def Obligations.SampleWordsDecode : Prop :=
  decode [0x0000] = .ok (.add 0 0 0, 1) ∧ decode [0xD000] = .ok (.mov 0 0, 1) ∧ decode [0x0123] = .ok (.add 1 2 3, 1) ∧
  decode [0x761F] = .ok (.li 6 31, 1) ∧ decode [0xF840, 0x1123] = .ok (.vsub 1 2 3 {}, 2)

/-! ### Scalar results -/

/-- R95, R96: the two-operand arithmetic on 64-bit registers. -/
def Sys2Proof.Claims.ScalarArithmeticResults : Prop :=
  ∀ d a b : SReg,
    RegResult (.add d a b) [a, b] d (fun c => c.reg a + c.reg b) ∧
    RegResult (.sub d a b) [a, b] d (fun c => c.reg a - c.reg b) ∧
    RegResult (.and d a b) [a, b] d (fun c => c.reg a &&& c.reg b) ∧
    RegResult (.or d a b) [a, b] d (fun c => c.reg a ||| c.reg b) ∧
    RegResult (.xor d a b) [a, b] d (fun c => c.reg a ^^^ c.reg b) ∧
    RegResult (.sll d a b) [a, b] d (fun c => c.reg a <<< ((c.reg b).toNat % 64)) ∧
    RegResult (.srl d a b) [a, b] d (fun c => c.reg a >>> ((c.reg b).toNat % 64)) ∧
    RegResult (.sra d a b) [a, b] d (fun c => (c.reg a).sshiftRight ((c.reg b).toNat % 64)) ∧
    RegResult (.mul d a b) [a, b] d (fun c => c.reg a * c.reg b) ∧
    RegResult (.mulh d a b) [a, b] d (fun c => ((c.reg a).signExtend 128 * (c.reg b).signExtend 128).extractLsb' 64 64) ∧
    RegResult (.mulhn d a b) [a, b] d (fun c => ((c.reg a).zeroExtend 128 * (c.reg b).zeroExtend 128).extractLsb' 64 64) ∧
    (∀ k : Fin 32, RegResult (.addsl d a b k) [a, b] d (fun c => c.reg a + (c.reg b <<< k.val)))

/-- R94, R95, R98: the forms with an immediate. -/
def Sys2Proof.Claims.ScalarImmediateResults : Prop :=
  ∀ d a : SReg,
    (∀ imm : Int,
      RegResult (.addi d a imm) [a] d (fun c => c.reg a + BitVec.ofInt 64 imm) ∧
      RegResult (.andi d a imm) [a] d (fun c => c.reg a &&& BitVec.ofInt 64 imm) ∧
      RegResult (.ori d a imm) [a] d (fun c => c.reg a ||| BitVec.ofInt 64 imm) ∧
      RegResult (.xori d a imm) [a] d (fun c => c.reg a ^^^ BitVec.ofInt 64 imm) ∧
      RegResult (.li d imm) [] d (fun _ => BitVec.ofInt 64 imm) ∧
      RegResult (.addpc d imm) [] d (fun c => c.pc + BitVec.ofInt 64 (2 * imm))) ∧
    (∀ n < 64,
      RegResult (.slli d a n) [a] d (fun c => c.reg a <<< n) ∧ RegResult (.srli d a n) [a] d (fun c => c.reg a >>> n) ∧
      RegResult (.srai d a n) [a] d (fun c => (c.reg a).sshiftRight n)) ∧
    (∀ h : BitVec 16, RegResult (.lih d a h.toNat) [a] d (fun c => h ++ (c.reg a).setWidth 48))

/-- R95: compares, minima and maxima, bit counts, extensions, moves and SELECT. -/
def Sys2Proof.Claims.ScalarCompareAndBitResults : Prop :=
  ∀ d a b : SReg,
    RegResult (.slt d a b) [a, b] d (fun c => if (c.reg a).toInt < (c.reg b).toInt then 1 else 0) ∧
    RegResult (.sltn d a b) [a, b] d (fun c => if (c.reg a).toNat < (c.reg b).toNat then 1 else 0) ∧
    RegResult (.min d a b) [a, b] d (fun c => BitVec.ofInt 64 (min (c.reg a).toInt (c.reg b).toInt)) ∧
    RegResult (.max d a b) [a, b] d (fun c => BitVec.ofInt 64 (max (c.reg a).toInt (c.reg b).toInt)) ∧
    RegResult (.minn d a b) [a, b] d (fun c => BitVec.ofNat 64 (min (c.reg a).toNat (c.reg b).toNat)) ∧
    RegResult (.maxn d a b) [a, b] d (fun c => BitVec.ofNat 64 (max (c.reg a).toNat (c.reg b).toNat)) ∧
    RegResult (.mov d a) [a] d (fun c => c.reg a) ∧
    RegResult (.not d a) [a] d (fun c => ~~~c.reg a) ∧
    RegResult (.neg d a) [a] d (fun c => -c.reg a) ∧
    RegResult (.clz d a) [a] d (fun c => BitVec.ofNat 64 ((List.range 64).takeWhile fun k => !(c.reg a).getMsbD k).length) ∧
    RegResult (.ctz d a) [a] d (fun c => BitVec.ofNat 64 ((List.range 64).takeWhile fun k => !(c.reg a).getLsbD k).length) ∧
    RegResult (.popc d a) [a] d (fun c => BitVec.ofNat 64 ((List.range 64).filter fun k => (c.reg a).getLsbD k).length) ∧
    (∀ w : Fin 3, RegResult (.sext d a w) [a] d (fun c => ((c.reg a).setWidth (8 * 2 ^ w.val)).signExtend 64) ∧
      RegResult (.zext d a w) [a] d (fun c => ((c.reg a).setWidth (8 * 2 ^ w.val)).setWidth 64)) ∧
    ∀ x : SReg, RegResult (.select d a b x) [a, b, x] d (fun c => if c.reg x = 0 then c.reg b else c.reg a)

/-- R41, R96: the divisions truncate; by zero they give all ones and the dividend and raise IDZ; the most negative value by minus one
gives itself and zero and raises IOV. -/
def Sys2Proof.Claims.ScalarDivisionResults : Prop :=
  ∀ d a b : SReg,
    DivResult (.div d a b) [a, b] d (fun c => if c.reg b = 0 then BitVec.allOnes 64 else (c.reg a).sdiv (c.reg b))
      (fun c => if c.reg b = 0 then flIDZ else if c.reg a = BitVec.intMin 64 ∧ c.reg b = BitVec.allOnes 64 then flIOV else 0) ∧
    DivResult (.rem d a b) [a, b] d (fun c => if c.reg b = 0 then c.reg a else (c.reg a).srem (c.reg b))
      (fun c => if c.reg b = 0 then flIDZ else if c.reg a = BitVec.intMin 64 ∧ c.reg b = BitVec.allOnes 64 then flIOV else 0) ∧
    DivResult (.divn d a b) [a, b] d (fun c => if c.reg b = 0 then BitVec.allOnes 64 else c.reg a / c.reg b)
      (fun c => if c.reg b = 0 then flIDZ else 0) ∧
    DivResult (.remn d a b) [a, b] d (fun c => if c.reg b = 0 then c.reg a else c.reg a % c.reg b)
      (fun c => if c.reg b = 0 then flIDZ else 0)

/-- R41, R94 to R98: the scalar instructions of one register result, from operands alone. -/
def Obligations.ScalarRegisterResults : Prop :=
  Sys2Proof.Claims.ScalarArithmeticResults ∧ Sys2Proof.Claims.ScalarImmediateResults ∧ Sys2Proof.Claims.ScalarCompareAndBitResults ∧ Sys2Proof.Claims.ScalarDivisionResults

/-- R60, R98: where branches and jumps go; an odd JALR target raises MISALIGNED at the jump, with no register written. -/
def Obligations.BranchAndJumpResults : Prop :=
  ∀ d a : SReg, ∀ off : Int,
    BranchResult (.beqz d off) [d] off (fun c => decide (c.reg d = 0)) ∧
    BranchResult (.bnez d off) [d] off (fun c => decide (c.reg d ≠ 0)) ∧
    BranchResult (.beq d a off) [d, a] off (fun c => decide (c.reg d = c.reg a)) ∧
    BranchResult (.bne d a off) [d, a] off (fun c => decide (c.reg d ≠ c.reg a)) ∧
    BranchResult (.blt d a off) [d, a] off (fun c => decide ((c.reg d).toInt < (c.reg a).toInt)) ∧
    BranchResult (.bge d a off) [d, a] off (fun c => decide ((c.reg a).toInt ≤ (c.reg d).toInt)) ∧
    BranchResult (.bltn d a off) [d, a] off (fun c => decide ((c.reg d).toNat < (c.reg a).toNat)) ∧
    BranchResult (.bgen d a off) [d, a] off (fun c => decide ((c.reg a).toNat ≤ (c.reg d).toNat)) ∧
    (∀ s, FreeReady s [] [d] false →
      ∃ t, exec (.jal d off) s = .next t ∧ Writes s.curCtx t.curCtx d s.nextPc ∧
        t.curCtx.pc = s.curCtx.pc + BitVec.ofInt 64 (2 * off) ∧ ScalarFrame s t) ∧
    (∀ s, FreeReady s [a] [d] false → (s.curCtx.reg a).getLsbD 0 = false →
      ∃ t, exec (.jalr d a) s = .next t ∧ Writes s.curCtx t.curCtx d s.nextPc ∧ t.curCtx.pc = s.curCtx.reg a ∧ ScalarFrame s t) ∧
    (∀ s, FreeReady s [a] [d] false → s.trapHeld s.sched.cur s.curCtx = false → (s.curCtx.reg a).getLsbD 0 = true →
      exec (.jalr d a) s = .next (s.takeTrap s.sched.cur { cause := .misaligned, value := s.curCtx.reg a } s.curCtx.pc))

/-- R99, R100: SETVL sets VTYPE and VL and writes VL, and is no instruction with format code 0xF; LOOPSM steps its counter and pointers and branches back with the next VL. -/
def Obligations.VectorLengthInstructions : Prop :=
  (∀ d a : Fin 16, decode [0xE00F + 256 * d.val + 16 * a.val] = .error .illegal) ∧
  (∀ (d a : SReg) (f : Fmt) (s : State), FreeReady s [a] [d] true →
    ∃ t n, exec (.setvl d a f) s = .next t ∧ n = min (s.curCtx.reg a).toNat (s.curCtx.vbits / Fmt.bits f) ∧
      Writes s.curCtx t.curCtx d (BitVec.ofNat 64 n) ∧ t.curCtx.vl = n ∧ t.curCtx.vtype = f ∧ t.curCtx.pc = s.nextPc ∧
      t = { s with ctxs := t.ctxs } ∧ OtherContexts s t ∧ ScalarSide { s.curCtx with vl := n, vtype := f } t.curCtx) ∧
  ∀ (rc p : SReg) (np : Fin 4) (off : Int) (s : State), loopsmOk rc p np = true →
    FreeReady s (rc :: loopPointers p np) (rc :: loopPointers p np) true →
    ∃ t left step, exec (.loopsm rc p np off) s = .next t ∧
      left = s.curCtx.reg rc - BitVec.ofNat 64 s.curCtx.vl ∧
      step = BitVec.ofNat 64 ((s.curCtx.vl * Fmt.bits s.curCtx.vtype + 7) / 8) ∧
      t.curCtx.reg rc = (if rc = 0 then 0 else left) ∧
      (∀ r : SReg, r ≠ rc → t.curCtx.reg r =
        if p.val ≤ r.val ∧ r.val ≤ p.val + np.val then s.curCtx.reg r + step else s.curCtx.reg r) ∧
      t.curCtx.vl = (if left.toInt ≤ 0 then 0 else min left.toNat (s.curCtx.vbits / Fmt.bits s.curCtx.vtype)) ∧
      t.curCtx.pc = (if left.toInt ≤ 0 then s.nextPc else s.curCtx.pc + BitVec.ofInt 64 (2 * off)) ∧
      t = { s with ctxs := t.ctxs } ∧ OtherContexts s t ∧ ScalarSide { s.curCtx with vl := t.curCtx.vl } t.curCtx

/-- R102, R103, R105: TIME reads the cluster's counter, which never goes back and runs at most 8 ns ahead of the reference; RDCNT reads
the counters; WAITC within its limits goes on. -/
def Sys2Proof.Claims.TimeAndCounterReads : Prop :=
  (∀ (d : SReg) (s : State), FreeReady s [] [d] false →
    ∃ t n, exec (.time d) s = .next t ∧ Writes s.curCtx t.curCtx d (BitVec.ofNat 64 n) ∧ t.curCtx.pc = s.nextPc ∧
      s.time.cluster.get 0 (clusterOf (coreOf s.sched.cur)) ≤ n ∧ s.time.ref ≤ n ∧
      (n ≤ s.time.ref + 8 ∨ n = s.time.cluster.get 0 (clusterOf (coreOf s.sched.cur))) ∧
      t.time.cluster.get 0 (clusterOf (coreOf s.sched.cur)) = n ∧ t.mem = s.mem ∧ t.jobs = s.jobs ∧ t.cores = s.cores) ∧
  (∀ (d : SReg) (k : Fin 7) (s : State), FreeReady s [] [d] false → s.curCtx.guess = none →
    ∃ t, exec (.rdcnt d k) s = .next t ∧ t.curCtx.pc = s.nextPc ∧ ScalarFrame s t ∧
      Writes s.curCtx t.curCtx d (match k.val with
        | 0 => BitVec.ofNat 64 s.curCtx.cntLd
        | 1 => BitVec.ofNat 64 s.curCtx.cntSt
        | 2 => BitVec.ofNat 64 s.curCtx.cntCp
        | 3 => BitVec.ofNat 64 (s.cntMx s.sched.cur s.curCtx)
        | 4 => BitVec.ofNat 64 s.curCtx.cntEn
        | 5 => BitVec.ofNat 64 (s.coreCycles (coreOf s.sched.cur))
        | _ => s.curCtx.instret)) ∧
  ∀ (ld st cp mx en : Fin 16) (s : State), FreeReady s [] [] false →
    (ld.val = 15 ∨ s.curCtx.cntLd ≤ ld.val) → (st.val = 15 ∨ s.curCtx.cntSt ≤ st.val) →
    (cp.val = 15 ∨ s.curCtx.cntCp ≤ cp.val) → (mx.val = 15 ∨ s.cntMx s.sched.cur s.curCtx ≤ mx.val) →
    (en.val = 15 ∨ s.curCtx.cntEn ≤ en.val) → (∀ m, s.mxOf s.sched.cur s.curCtx = some m → m.fpend = false) →
    ∃ t, exec (.waitc ld st cp mx en) s = .next t ∧ (∀ r, t.curCtx.reg r = s.curCtx.reg r) ∧ t.curCtx.pc = s.nextPc ∧ ScalarFrame s t

/-- R90 to R93, R101: GET writes the register's value to d; SET writes the register and nothing else of the scalar state. -/
def Sys2Proof.Claims.GetAndSetStateRegisters : Prop :=
  (∀ (d : SReg) (idx : BitVec 8) (v : Word) (s : State), FreeReady s [] [d] false →
    (idx.toNat < 0x80 ∨ s.curCtx.mode = .supervisor) → s.stateReg s.sched.cur s.curCtx idx.toNat = some v →
    s.curCtx.regWaits idx.toNat = false →
    ∃ t, exec (.get d idx) s = .next t ∧ Writes s.curCtx t.curCtx d v ∧ t.curCtx.pc = s.nextPc ∧ ScalarFrame s t) ∧
  (∀ (a : SReg) (idx : BitVec 8) (s : State), HeldReady s [a] [] → (idx.toNat < 0x80 ∨ s.curCtx.mode = .supervisor) →
    writableReg idx.toNat = true → stateValueOk idx.toNat (s.curCtx.reg a) = true → s.curCtx.regWaits idx.toNat = false →
    idx.toNat ≠ 0x21 →
    ∃ t, exec (.set a idx) s = .next t ∧ (∀ r, t.curCtx.reg r = s.curCtx.reg r) ∧ t.curCtx.pc = s.nextPc ∧
      t = { s with ctxs := t.ctxs } ∧ OtherContexts s t ∧
      ScalarSide (s.curCtx.writeReg (s.delegMask (s.tenantOf s.curCtx)) idx.toNat (s.curCtx.reg a)) { t.curCtx with status := s.curCtx.status } ∧
      (idx.toNat = 0x04 → t.curCtx.rmode = (s.curCtx.reg a).setWidth 3) ∧
      (idx.toNat = 0x05 → t.curCtx.fflags = (s.curCtx.reg a).setWidth 7) ∧
      (idx.toNat = 0x0D → t.curCtx.utvec = s.curCtx.reg a &&& ~~~1) ∧
      (idx.toNat = 0x81 → t.curCtx.tvec = s.curCtx.reg a) ∧
      (idx.toNat = 0x82 → t.curCtx.tepc = s.curCtx.reg a) ∧
      (idx.toNat = 0x86 → t.curCtx.deleg = s.curCtx.reg a &&& (s.dlgokOf (s.tenantOf s.curCtx) &&& 0xDFFFF6)) ∧
      (idx.toNat = 0x87 → t.curCtx.ptbase = s.curCtx.reg a &&& 0xFFFFFFFFF000)) ∧
  (∀ (a d : SReg) (idx : BitVec 8) (s : State), s.sched.cur < numCtx → s.trapHeld s.sched.cur s.curCtx = false → 0x80 ≤ idx.toNat →
    s.curCtx.mode = .user →
    exec (.get d idx) s = .next (s.takeTrap s.sched.cur { cause := .privileged, value := 0 } s.curCtx.pc) ∧
    exec (.set a idx) s = .next (s.takeTrap s.sched.cur { cause := .privileged, value := 0 } s.curCtx.pc))

/-- R90 to R93, R101 to R105: reads of time and counters, and the state registers. -/
def Obligations.StateRegisterAccess : Prop :=
  Sys2Proof.Claims.TimeAndCounterReads ∧ Sys2Proof.Claims.GetAndSetStateRegisters

namespace Sys2Proof.Claims
open Sys2Proof Sys2Proof.Machine

/-! ### The vector queue -/

/-- The issuing context has nothing in flight. -/
structure Quiet (s : State) : Prop where
  cur : s.sched.cur < numCtx
  queue : s.curCtx.vq = []
  undo : s.curCtx.undo = []
  ahead : s.curCtx.ahead = []
  loads : s.curCtx.loads = []
  stores : s.curCtx.stores = []
  fences : s.curCtx.fences = []
  ops : s.curCtx.ops = []
  guess : s.curCtx.guess = none
  errors : s.curCtx.badRegs = []
  beats : s.curCtx.vecEcc = []
  matrix : ∀ m, s.mxOf s.sched.cur s.curCtx = some m → m.queue = []
  /-- No other context of the core has the Schur unit (R151). -/
  schur : s.schurTaken s.sched.cur = false

/-- What the queue holds of an instruction that has started (R33, R84, R93). -/
def entryOf (i : Instr) (c : Ctx) (sa sb : Word) : VEntry :=
  { ord := c.ord, pc := c.pc, ins := i, vl := c.vlTaken, vtype := c.vtype, rmode := c.rmode, vgrp := c.vgrp.toNat, piveps := c.piveps
    pivmode := c.pivmode, vbits := c.vbits, sa := sa, sb := sb, started := true, after := 0, accesses := [], cut := none, sends := false }

/-- The codebooks in use: the matrix unit's for the job that holds it, else those of R25 (R26). -/
def booksOf (s : State) : List Nat × List Nat :=
  match s.mxOf s.sched.cur s.curCtx with
  | some m => (m.cba, m.cbb)
  | none => (resetCodebook, resetCodebook)

/-- The effect of an instruction that touches registers alone. -/
def effectOf (s : State) (e : VEntry) (c : Ctx) : Ctx :=
  match gaussRegs e c with
  | some (vp, r) => c.putResult vp r true
  | none => complexEffect e (vectorEffect (booksOf s).1 (booksOf s).2 e c)

/-- Equal registers, flags and lengths. -/
def SameFile (c d : Ctx) : Prop :=
  d.vregs = c.vregs ∧ d.mregs = c.mregs ∧ d.sregs = c.sregs ∧ d.vl = c.vl ∧ d.vtype = c.vtype ∧ d.fflags = c.fflags ∧ d.sgmask = c.sgmask

/-- Entering the queue, starting and completing, one after the other, from s to v. -/
def Runs (i : Instr) (s v : State) : Prop :=
  ∃ t u, exec i s = .next t ∧ exec (.vectorStart s.sched.cur) t = .next u ∧ exec (.vectorComplete s.sched.cur) u = .next v

/-- What a vector instruction leaves alone outside the registers it writes. -/
def VectorFrame (s v : State) : Prop :=
  v = { s with ctxs := v.ctxs } ∧ OtherContexts s v ∧ v.curCtx.pc = s.nextPc ∧ v.curCtx.vq = [] ∧ v.curCtx.instret = s.curCtx.instret + 1 ∧
    v.curCtx = { s.curCtx with
      vregs := v.curCtx.vregs, mregs := v.curCtx.mregs, sregs := v.curCtx.sregs, vl := v.curCtx.vl, vtype := v.curCtx.vtype
      fflags := v.curCtx.fflags, sgmask := v.curCtx.sgmask, pc := v.curCtx.pc, ord := v.curCtx.ord, instret := v.curCtx.instret }

/-- A vector instruction with the scalar operands sa and sb runs where legal holds, and its effect is that of its rule. -/
def VectorRuns (i : Instr) (legal : Ctx → Bool) (sa sb : Ctx → Word) : Prop :=
  ∀ s, Quiet s → legal s.curCtx = true → (entryOf i s.curCtx (sa s.curCtx) (sb s.curCtx)).pivotFail s.curCtx = none →
    ∃ v, Runs i s v ∧ VectorFrame s v ∧ SameFile (effectOf s (entryOf i s.curCtx (sa s.curCtx) (sb s.curCtx)) s.curCtx) v.curCtx

/-- Where legal fails, ILLEGAL_INSTRUCTION is taken at the instruction and nothing enters the queue (R62, R63). -/
def VectorRefuses (i : Instr) (legal : Ctx → Bool) : Prop :=
  ∀ s, Quiet s → legal s.curCtx = false →
    exec i s = .next (s.takeTrap s.sched.cur { cause := .illegalInstruction, value := 0 } s.curCtx.pc)

def noWord : Ctx → Word := fun _ => 0

/-- The format in force, the override or VTYPE, is one of these (R29). -/
def formatIn (q : Qual) (fs : List Fmt) : Ctx → Bool := fun c => fs.contains (q.fo.getD c.vtype)

/-- An instruction without scalar operands, over these formats. -/
def PlainVector (i : Instr) (q : Qual) (fs : List Fmt) : Prop :=
  VectorRuns i (formatIn q fs) noWord noWord ∧ VectorRefuses i (formatIn q fs)

/-- An instruction with one scalar operand, over these formats. -/
def ScalarVector (i : Instr) (q : Qual) (a : SReg) (fs : List Fmt) : Prop :=
  VectorRuns i (formatIn q fs) (fun c => c.reg a) noWord ∧ VectorRefuses i (formatIn q fs)

/-- The format classes of R116. -/
def fmtI : List Fmt := [.i8, .i16, .i32, .i64]
def fmtF : List Fmt := [.f16, .bf16, .f32]
def fmtQ : List Fmt := [.ci16]
def fmtC : List Fmt := [.cf16, .cbf16, .cf32]
def fmtAll : List Fmt := fmtI ++ fmtF ++ fmtQ ++ fmtC ++ [.e4m3, .e5m2, .cb4, .e8m0]

/-- Integer elements: each active element below the count is F of the elements of va, vb and the old vd; the rest of vd, every other
register and FFLAGS stay (R18, R113, R116). -/
def IntegerElements (i : Instr) (vd va vb : VReg) (q : Qual) (F : Nat → Nat → Nat → Nat → Nat) : Prop :=
  ∀ s, Quiet s → formatIn q fmtI s.curCtx = true →
    ∃ v, Runs i s v ∧ v.curCtx.fflags = s.curCtx.fflags ∧ (∀ r, r ≠ vd → v.curCtx.vreg r = s.curCtx.vreg r) ∧
      ∀ f w, f = q.fo.getD s.curCtx.vtype → w = Fmt.bits f → ∀ k, k * w + w ≤ 4096 →
        elemAt (v.curCtx.vreg vd) w k =
          if k < s.curCtx.vlTaken ∧ k < s.curCtx.vbits / w ∧ s.curCtx.active q f k = true then
            F w (elemAt (s.curCtx.vreg va) w k) (elemAt (s.curCtx.vreg vb) w k) (elemAt (s.curCtx.vreg vd) w k) % 2 ^ w
          else elemAt (s.curCtx.vreg vd) w k

end Sys2Proof.Claims

/-! ### Vector instructions -/

/-- R113, R116 to R119: every arithmetic instruction of pages 0x10 and 0x11 enters the queue, starts and completes with its effect in the
formats of R116, and is illegal in the others. -/
def Sys2Proof.Claims.VectorArithmeticRuns : Prop :=
  ∀ (vd va vb : VReg) (q : Qual),
    PlainVector (.vadd vd va vb q) q (fmtI ++ fmtQ ++ fmtF ++ fmtC) ∧ PlainVector (.vsub vd va vb q) q (fmtI ++ fmtQ ++ fmtF ++ fmtC) ∧
    PlainVector (.vmul vd va vb q) q (fmtI ++ fmtQ ++ fmtF ++ fmtC) ∧ PlainVector (.vmac vd va vb q) q (fmtI ++ fmtQ ++ fmtF ++ fmtC) ∧
    PlainVector (.vmin vd va vb q) q (fmtI ++ fmtQ ++ fmtF ++ fmtC) ∧ PlainVector (.vmax vd va vb q) q (fmtI ++ fmtQ ++ fmtF ++ fmtC) ∧
    PlainVector (.vminn vd va vb q) q (fmtI ++ fmtQ) ∧ PlainVector (.vmaxn vd va vb q) q (fmtI ++ fmtQ) ∧
    PlainVector (.vand vd va vb q) q (fmtI ++ fmtQ) ∧ PlainVector (.vor vd va vb q) q (fmtI ++ fmtQ) ∧
    PlainVector (.vxor vd va vb q) q (fmtI ++ fmtQ) ∧ PlainVector (.vsll vd va vb q) q (fmtI ++ fmtQ) ∧
    PlainVector (.vsrl vd va vb q) q (fmtI ++ fmtQ) ∧ PlainVector (.vsra vd va vb q) q (fmtI ++ fmtQ) ∧
    PlainVector (.vdiv vd va vb q) q (fmtI ++ fmtQ ++ fmtF) ∧ PlainVector (.vdivn vd va vb q) q (fmtI ++ fmtQ) ∧
    PlainVector (.vrem vd va vb q) q (fmtI ++ fmtQ) ∧ PlainVector (.vremn vd va vb q) q (fmtI ++ fmtQ) ∧
    PlainVector (.vadds vd va vb q) q (fmtI ++ fmtQ) ∧ PlainVector (.vsubs vd va vb q) q (fmtI ++ fmtQ) ∧
    PlainVector (.vmulhq vd va vb q) q ([.i8, .i16, .i32] ++ fmtQ) ∧ PlainVector (.vscale vd va vb q) q fmtF ∧
    PlainVector (.vabs vd va q) q (fmtI ++ fmtQ ++ fmtF ++ fmtC) ∧ PlainVector (.vneg vd va q) q (fmtI ++ fmtQ ++ fmtF ++ fmtC) ∧
    PlainVector (.vrcp vd va q) q fmtF ∧ PlainVector (.vrsqrt vd va q) q fmtF ∧ PlainVector (.vexp2 vd va q) q fmtF ∧
    PlainVector (.vlog2 vd va q) q fmtF ∧ PlainVector (.vsqrt vd va q) q fmtF ∧ PlainVector (.vclass vd va q) q fmtF

/-- R18, R116: the integer elements of the wrapping, unsigned and bitwise instructions. -/
def Sys2Proof.Claims.VectorIntegerElements : Prop :=
  ∀ (vd va vb : VReg) (q : Qual),
    IntegerElements (.vadd vd va vb q) vd va vb q (fun _ x y _ => x + y) ∧
    IntegerElements (.vsub vd va vb q) vd va vb q (fun w x y _ => x + 2 ^ w - y) ∧
    IntegerElements (.vmul vd va vb q) vd va vb q (fun _ x y _ => x * y) ∧
    IntegerElements (.vmac vd va vb q) vd va vb q (fun _ x y d => d + x * y) ∧
    IntegerElements (.vminn vd va vb q) vd va vb q (fun _ x y _ => min x y) ∧
    IntegerElements (.vmaxn vd va vb q) vd va vb q (fun _ x y _ => max x y) ∧
    IntegerElements (.vand vd va vb q) vd va vb q (fun _ x y _ => x &&& y) ∧
    IntegerElements (.vor vd va vb q) vd va vb q (fun _ x y _ => x ||| y) ∧
    IntegerElements (.vxor vd va vb q) vd va vb q (fun _ x y _ => x ^^^ y) ∧
    IntegerElements (.vsll vd va vb q) vd va vb q (fun w x y _ => x * 2 ^ (y % w)) ∧
    IntegerElements (.vsrl vd va vb q) vd va vb q (fun w x y _ => x / 2 ^ (y % w)) ∧
    IntegerElements (.vneg vd va q) vd va va q (fun w x _ _ => 2 ^ w - x) ∧
    IntegerElements (.vmv vd va q) vd va va q (fun _ x _ _ => x)

/-- R120 to R122: compares write mask bits, the mask logic works on masks, and MCNT, MANY and MFIRST write a scalar register. -/
def Sys2Proof.Claims.VectorMaskInstructionsRun : Prop :=
  ∀ (md ma mb : MReg) (va vb : VReg) (d : SReg) (imm : Int) (q : Qual),
    PlainVector (.vceq md va vb q) q (fmtI ++ fmtF) ∧ PlainVector (.vcne md va vb q) q (fmtI ++ fmtF) ∧
    PlainVector (.vclt md va vb q) q (fmtI ++ fmtF) ∧ PlainVector (.vcle md va vb q) q (fmtI ++ fmtF) ∧
    PlainVector (.vcltn md va vb q) q fmtI ∧ PlainVector (.vclen md va vb q) q fmtI ∧
    (VectorRuns (.vceqi md va imm q) (fun c => formatIn q fmtI c &&
        decide (-(2 ^ (Fmt.bits (q.fo.getD c.vtype) - 1)) ≤ imm ∧ imm < 2 ^ (Fmt.bits (q.fo.getD c.vtype) - 1))) noWord noWord) ∧
    (VectorRuns (.vclti md va imm q) (fun c => formatIn q fmtI c &&
        decide (-(2 ^ (Fmt.bits (q.fo.getD c.vtype) - 1)) ≤ imm ∧ imm < 2 ^ (Fmt.bits (q.fo.getD c.vtype) - 1))) noWord noWord) ∧
    VectorRuns (.mand md ma mb) (fun _ => true) noWord noWord ∧ VectorRuns (.mor md ma mb) (fun _ => true) noWord noWord ∧
    VectorRuns (.mxor md ma mb) (fun _ => true) noWord noWord ∧ VectorRuns (.mnot md ma) (fun _ => true) noWord noWord ∧
    VectorRuns (.mcnt d ma) (fun _ => true) noWord noWord ∧ VectorRuns (.many d ma) (fun _ => true) noWord noWord ∧
    VectorRuns (.mfirst d ma) (fun _ => true) noWord noWord

/-- R122: what MCNT, MANY and MFIRST write for VL from 1 on: how many of the first VL mask bits are set, whether any is, and the first. -/
def Sys2Proof.Claims.MaskReadResults : Prop :=
  ∀ (d : SReg) (ma : MReg) (s : State), Quiet s → 1 ≤ min s.curCtx.vl (s.curCtx.vbits / Fmt.bits s.curCtx.vtype) →
    s.curCtx.vtype ≠ .cb4 → ∀ n bits, n = min s.curCtx.vl (s.curCtx.vbits / Fmt.bits s.curCtx.vtype) →
    bits = (List.range n).filter (fun k => (s.curCtx.mreg ma).getLsbD k) →
    (∃ v, Runs (.mcnt d ma) s v ∧ Writes s.curCtx v.curCtx d (BitVec.ofNat 64 bits.length)) ∧
    (∃ v, Runs (.many d ma) s v ∧ Writes s.curCtx v.curCtx d (if bits = [] then 0 else 1)) ∧
    (∃ v, Runs (.mfirst d ma) s v ∧ Writes s.curCtx v.curCtx d (match bits with
      | [] => BitVec.allOnes 64
      | k :: _ => BitVec.ofNat 64 k))

/-- R18, R116, R122: integer elements element by element, and what the mask reads write. -/
def Obligations.VectorElementResults : Prop :=
  Sys2Proof.Claims.VectorIntegerElements ∧ Sys2Proof.Claims.MaskReadResults

/-- R123 to R125: moves, permutations and reductions. -/
def Sys2Proof.Claims.VectorMoveAndReductionRuns : Prop :=
  ∀ (vd va vb : VReg) (d a b : SReg) (fo : Option Fmt) (q : Qual),
    PlainVector (.vmv vd va q) q fmtAll ∧ ScalarVector (.vsplat vd a q) q a fmtAll ∧
    VectorRuns (.vext d va b fo) (fun _ => true) (fun c => c.reg b) noWord ∧
    VectorRuns (.vins vd a b fo) (fun _ => true) (fun c => c.reg a) (fun c => c.reg b) ∧
    ScalarVector (.vslideup vd va b q) q b fmtAll ∧ ScalarVector (.vslidedn vd va b q) q b fmtAll ∧
    PlainVector (.vperm vd va vb q) q fmtAll ∧ PlainVector (.vcompress vd va q) q fmtAll ∧ PlainVector (.vexpand vd va q) q fmtAll ∧
    PlainVector (.viota vd q) q fmtI ∧ PlainVector (.vid vd q) q fmtI ∧ PlainVector (.vmerge vd va vb q) q fmtAll ∧
    PlainVector (.vredsum vd va q) q (fmtI ++ fmtQ ++ fmtF ++ fmtC) ∧ PlainVector (.vredmax vd va q) q (fmtI ++ fmtF) ∧
    PlainVector (.vredmin vd va q) q (fmtI ++ fmtF)

/-- R126 to R130: conversions and quantisation run in the combinations of formats and register groups that their rules allow, and are
illegal in the others. -/
def Sys2Proof.Claims.VectorConversionRuns : Prop :=
  ∀ (vd va vb : VReg) (q : Qual),
    (∀ tf : Fmt, ∀ i legal, i = Instr.vcvt vd va tf q →
      legal = (fun c : Ctx => Fmt.isComplex (q.fo.getD c.vtype) == Fmt.isComplex tf &&
        groupOk vd (if Fmt.bits (q.fo.getD c.vtype) < Fmt.bits tf then Fmt.bits tf / Fmt.bits (q.fo.getD c.vtype) else 1)) →
      VectorRuns i legal noWord noWord ∧ VectorRefuses i legal) ∧
    (∀ (g : Fin 16) (sf : Fmt), ∀ i legal, i = Instr.vqscale vd va g sf q →
      legal = (fun c : Ctx => formatIn q [.e4m3, .e5m2, .cb4] c && fmtF.contains sf &&
        decide (g.val < Fmt.bits (q.fo.getD c.vtype) * 4 / 8) && groupOk va (Fmt.bits sf / Fmt.bits (q.fo.getD c.vtype))) →
      VectorRuns i legal noWord noWord ∧ VectorRefuses i legal) ∧
    (∀ sf : Fmt, ∀ i legal, i = Instr.vquant vd va vb sf q →
      legal = (fun c : Ctx => formatIn q [.e4m3, .e5m2, .cb4] c && fmtF.contains sf &&
        groupOk va (Fmt.bits sf / Fmt.bits (q.fo.getD c.vtype))) →
      VectorRuns i legal noWord noWord ∧ VectorRefuses i legal) ∧
    (∀ tf : Fmt, ∀ i legal, i = Instr.vdeq vd va vb tf q →
      legal = (fun c : Ctx => formatIn q [.e4m3, .e5m2, .cb4] c && fmtF.contains tf &&
        groupOk vd (Fmt.bits tf / Fmt.bits (q.fo.getD c.vtype))) →
      VectorRuns i legal noWord noWord ∧ VectorRefuses i legal) ∧
    (∀ cb : Fin 2, ∀ i legal, i = Instr.vcblk vd va cb q → legal = (fun c : Ctx => formatIn q [.cb4] c && groupOk vd 4) →
      VectorRuns i legal noWord noWord ∧ VectorRefuses i legal) ∧
    (∀ (u : Fin 2) (i : Instr), i = .vwidenlo vd va u q ∨ i = .vwidenhi vd va u q →
      PlainVector i q (if u = 0 then [.i8, .i16, .i32, .f16, .bf16, .e4m3, .e5m2, .ci16, .cf16, .cbf16] else [.i8, .i16, .i32])) ∧
    (∀ (tf : Fmt) (fs : List Fmt), (tf, fs) ∈ [(Fmt.i8, [Fmt.i16]), (.i16, [.i32]), (.i32, [.i64]), (.f16, [.f32]), (.bf16, [.f32]),
        (.e4m3, [.f16, .bf16]), (.e5m2, [.f16, .bf16]), (.ci16, [.cf32]), (.cf16, [.cf32]), (.cbf16, [.cf32])] →
      PlainVector (.vnarrow vd va vb tf q) q fs)

/-- R113 to R130: every instruction of pages 0x10 to 0x14 runs in its formats and register groups, with its effect and its frame. -/
def Obligations.VectorInstructionsRun : Prop :=
  Sys2Proof.Claims.VectorArithmeticRuns ∧ Sys2Proof.Claims.VectorMaskInstructionsRun ∧ Sys2Proof.Claims.VectorMoveAndReductionRuns ∧ Sys2Proof.Claims.VectorConversionRuns

/-- R137 to R140: the complex instructions of page 0x30. -/
def Sys2Proof.Claims.ComplexInstructionsRun : Prop :=
  ∀ (vd va vb : VReg) (k : Fin 4) (q : Qual),
    PlainVector (.vcadd vd va vb q) q (fmtC ++ fmtQ) ∧ PlainVector (.vcsub vd va vb q) q (fmtC ++ fmtQ) ∧
    PlainVector (.vcmul vd va vb q) q (fmtC ++ fmtQ) ∧ PlainVector (.vcmulj vd va vb q) q (fmtC ++ fmtQ) ∧
    PlainVector (.vcmac vd va vb q) q fmtC ∧ PlainVector (.vcmacj vd va vb q) q fmtC ∧ PlainVector (.vconj vd va q) q (fmtC ++ fmtQ) ∧
    PlainVector (.vcrot vd va k q) q (fmtC ++ fmtQ) ∧ PlainVector (.vcabs2 vd va q) q (fmtC ++ fmtQ) ∧
    PlainVector (.vcscale vd va vb q) q (fmtC ++ fmtQ) ∧ PlainVector (.vcdot vd va vb q) q fmtC ∧
    PlainVector (.vcreal vd va q) q (fmtC ++ fmtQ) ∧ PlainVector (.vcswap vd va q) q (fmtC ++ fmtQ) ∧
    PlainVector (.vcmag vd va q) q fmtC ∧ PlainVector (.vcmacs vd va vb q) q fmtQ

/-- R141 to R150: the transforms of page 0x31 and the small-matrix instructions of page 0x32, under the checks of their descriptors and
pivots; with no failing pivot they complete. -/
def Sys2Proof.Claims.TransformAndSmallMatrixRuns : Prop :=
  ∀ (vd va vb : VReg) (a b : SReg) (p : Fin 4) (q : Qual),
    (∀ i, i = Instr.vbfly2 vd va b vb q ∨ i = .vbfly3 vd va b vb q ∨ i = .vbfly4 vd va b vb q ∨ i = .vbfly5 vd va b vb q →
      VectorRuns i (fun c => formatIn q fmtC c && decide (1 ≤ bitsOf (c.reg b).toNat 15 0) && decide ((c.reg b).toNat < 2 ^ 19) &&
          !((c.reg b).getLsbD 17 && (c.reg b).getLsbD 18))
        (fun c => c.reg b) noWord) ∧
    VectorRuns (.vtwid vd a b q) (fun c => formatIn q fmtC c && decide (1 ≤ (c.reg a).toNat) && decide ((c.reg a).toNat ≤ 65536))
      (fun c => c.reg a) (fun c => c.reg b) ∧
    VectorRuns (.vdrev vd va b q) (fun c => formatIn q fmtC c && drevOk (c.reg b)) (fun c => c.reg b) noWord ∧
    VectorRuns (.vtrans vd va b q) (fun c => formatIn q fmtC c && decide (1 ≤ bitsOf (c.reg b).toNat 15 0) &&
      decide (1 ≤ bitsOf (c.reg b).toNat 31 16) && decide ((c.reg b).toNat < 2 ^ 32)) (fun c => c.reg b) noWord ∧
    PlainVector (.vmgmul vd va vb q) q [.cf32] ∧ PlainVector (.vmgmulh vd va vb q) q [.cf32] ∧ PlainVector (.vmgmv vd va vb q) q [.cf32] ∧
    PlainVector (.vhchol vd va q) q [.cf32] ∧ PlainVector (.vhinv vd va q) q [.cf32] ∧ PlainVector (.vhsolve vd va vb q) q [.cf32] ∧
    PlainVector (.vmgtr vd va q) q [.cf32] ∧ ScalarVector (.vhreg vd va b q) q b [.cf32] ∧
    VectorRuns (.vschur vd va p q) (fun c => formatIn q [.cf32] c && decide (p.val < c.vgrp.toNat)) noWord noWord ∧
    VectorRuns (.vschurv vd va vb p q) (fun c => formatIn q [.cf32] c && decide (p.val < c.vgrp.toNat)) noWord noWord

/-- R22: under round to nearest the result of an exact value within the format's range is a finite value of the format, and no finite
value of it is nearer. -/
def Obligations.RoundingIsNearest : Prop :=
  ∀ (f : FFmt) (z : Bool) (x : Rat), f = .f16 ∨ f = .bf16 ∨ f = .f32 →
    (∃ b g y, b < f.signBit ∧ decodeF f b = .fin g y ∧ (if x < 0 then -x else x) ≤ y) →
    ∃ g v, decodeF f (rnd f { rm := .rne, sat8 := false } z x).1 = .fin g v ∧
      ∀ b h y, b < 2 ^ f.width → decodeF f b = .fin h y → (x - v) ^ 2 ≤ (x - y) ^ 2

namespace Sys2Proof.Claims
open Sys2Proof Sys2Proof.Machine

/-! ### The matrix unit and Gaussian messages -/

/-- An instruction that acts on the context's matrix unit: outside the context's issue only that unit changes. -/
def MatrixFrame (s t : State) : Prop :=
  t = { s with ctxs := t.ctxs, cores := t.cores } ∧ OtherContexts s t ∧
    ScalarSide s.curCtx { t.curCtx with status := s.curCtx.status } ∧
    ∀ k, t.core k = { s.core k with mx := if k = coreOf s.sched.cur then (t.core k).mx else (s.core k).mx }

/-- The issuing context holds the matrix unit m, reached from its depth, with no fault pending (R155, R168, R170). -/
structure HasUnit (s : State) (m : MatrixUnit) : Prop where
  unit : s.mxOf s.sched.cur s.curCtx = some m
  depth : s.curCtx.depth ≤ m.pdepth
  good : m.fpend = false

/-- A command joins the queue behind the others, with its operands as the registers hold them (R160, R161); with a bad operand the
instruction is illegal and carries it. -/
def QueuesCommand (i : Instr) (reads : List SReg) (ok : Ctx → Bool) (bad : Ctx → Word) (op : Ctx → MxOp) : Prop :=
  (∀ s m, HeldReady s reads [] → HasUnit s m → ok s.curCtx = true → m.queue.length < 16 → s.curFenced 2 = false →
    ∃ t, exec i s = .next t ∧ t.curCtx.pc = s.nextPc ∧ (∀ r, t.curCtx.reg r = s.curCtx.reg r) ∧ MatrixFrame s t ∧
      t.mxOf s.sched.cur t.curCtx = some { m with queue := m.queue ++
        [{ ord := s.curCtx.ord, op := op s.curCtx, begun := false, left := 0, rows := 0, ready := 0, sharing := false }] }) ∧
  (∀ s m, HeldClear s reads [] → HasUnit s m → ok s.curCtx = false →
    exec i s = .next (s.takeTrap s.sched.cur { cause := .illegalInstruction, value := bad s.curCtx } s.curCtx.pc)) ∧
  (∀ s, HeldClear s reads [] → s.mxOf s.sched.cur s.curCtx = none →
    exec i s = .next (s.takeTrap s.sched.cur { cause := .noMatrix, value := 0 } s.curCtx.pc)) ∧
  (∀ s m, HeldClear s reads [] → s.mxOf s.sched.cur s.curCtx = some m → m.pdepth < s.curCtx.depth →
    exec i s = .next (s.takeTrap s.sched.cur { cause := .mxBusy, value := 0 } s.curCtx.pc)) ∧
  (∀ s m, HeldClear s reads [] → s.mxOf s.sched.cur s.curCtx = some m → s.curCtx.depth ≤ m.pdepth → m.fpend = true →
    exec i s = .next ((s.setMx s.sched.cur { m with fpend := false }).takeTrap s.sched.cur
      { cause := .mxFault, value := m.faddr } s.curCtx.pc))

/-- MX_CMD_BEGIN or MX_SHARE_TIMEOUT lets the next command of a core begin, with its unit m: it shares with no other core, no fault
is pending, and its ranges pass (R159, R161, R167). -/
structure Begins (i : Instr) (s : State) (core cx : Nat) (m : MatrixUnit) (cmd : MxCmd) : Prop where
  how : (i = .mxCmdBegin core ∧ s.shareGroupOf core = []) ∨ (i = .mxShareTimeout core ∧ cmd.sharing = true)
  ready : s.mxReady core = some (cx, cmd)
  unit : (s.core core).mx = m
  fresh : cmd.begun = false ∧ cmd.shared = none
  good : m.fpend = false
  ranges : s.mxCheck (s.agentOf cx (s.ctx cx)) m cmd.op = none

/-- No error stands in memory or in the tiles. -/
def NoEcc (s : State) (m : MatrixUnit) : Prop := s.ecc = [] ∧ m.ecc = []

/-- The command has begun and has no further segment, with the rows out still to be written; the unit of its core is u but for the queue,
which holds the commands it held; nothing else of the machine has changed, but what the homes of its operands know of the reads
(R385, R420). -/
def BegunAs (s t : State) (core cx : Nat) (cmd : MxCmd) (u : MatrixUnit) (out : List MxOut) : Prop :=
  ∃ q c, t = (s.mxReads (s.agentOf cx (s.ctx cx)) (s.core core).mx cmd 0).modCore core (fun k => { k with mx := { u with queue := q } }) ∧
    q.map (fun x => (x.ord, x.op)) = (s.core core).mx.queue.map (fun x => (x.ord, x.op)) ∧
    c ∈ q ∧ c.ord = cmd.ord ∧ c.op = cmd.op ∧ c.begun = true ∧ c.left = 0 ∧ c.out = out ∧ c.ranges = cmd.op.ranges (s.core core).mx ∧
    ∀ x ∈ q, x = c ∨ x ∈ (s.core core).mx.queue

/-- n rows of MXSTs of a context written one after the other. -/
def WritesRows (cx : Nat) : Nat → State → State → Prop
  | 0, s, u => u = s
  | n + 1, s, u => ∃ t, exec (.storePerformed cx ((s.ctx cx).stores.length + (s.ctx cx).toHand.length)) s = .next t ∧ WritesRows cx n t u

/-- Cached lines that differ from their home and lines that the host holds are lines of physical addresses; the arrays of the cores lie
above them (R200, R201, R385). -/
structure LinesBelow (s : State) : Prop where
  stale : ∀ l d, s.stale.find? l = some d → 64 * l + 64 ≤ 2 ^ 48
  held : ∀ x ∈ s.host.snoop, 64 * x.1 + 64 ≤ 2 ^ 48

/-- The message in a mailbox, as memory holds it. -/
def mailAt (s : State) (place : Nat) : Mail := Mail.of fun o n => s.mem.readN (place + o) n

/-- A vector instruction's run in which only the issuing context changes, with the result that the effect names. -/
def ContextResult (i : Instr) (s : State) (eff : Ctx → Ctx) : Prop :=
  ∃ v, Runs i s v ∧ VectorFrame s v ∧ SameFile (eff s.curCtx) v.curCtx

end Sys2Proof.Claims

/-! ### The matrix unit -/

/-- R156, R160 to R164, R167, R170: the commands of page 0x40 enter the queue with their operands, under the checks of the unit. -/
def Sys2Proof.Claims.MatrixCommandsQueue : Prop :=
  ∀ (n : Fin 16) (z : ZReg) (cb : Fin 2) (a b : SReg),
    QueuesCommand (.mxcfg n a) [a] (fun c => mxcfgOk n.val (c.reg a)) (fun c => c.reg a) (fun c => .cfg n.val (c.reg a)) ∧
    QueuesCommand (.mma z a b) [a, b] (fun _ => true) noWord (fun c => .mma z.val (c.reg a) (c.reg b) false) ∧
    QueuesCommand (.mmaz z a b) [a, b] (fun _ => true) noWord (fun c => .mma z.val (c.reg a) (c.reg b) true) ∧
    QueuesCommand (.mxzero z) [] (fun _ => true) noWord (fun _ => .zero z.val) ∧
    QueuesCommand (.mxst z a b) [a, b] (fun _ => true) noWord (fun c => .st z.val (c.reg a) (c.reg b)) ∧
    QueuesCommand (.mxld z a b) [a, b] (fun _ => true) noWord (fun c => .ld z.val (c.reg a) (c.reg b)) ∧
    QueuesCommand (.mxldcb cb a) [a] (fun _ => true) noWord (fun c => .ldcb cb.val (c.reg a)) ∧
    QueuesCommand (.mxscale a b) [a, b] (fun _ => true) noWord (fun c => .scale (c.reg a) (c.reg b)) ∧
    QueuesCommand (.mxshare a) [a] (fun c => decide ((c.reg a).toNat < 65536) && decide ((c.reg a).toNat / 4096 % 8 = 0))
      (fun c => c.reg a) (fun c => .share (c.reg a))

/-- R157, R164, R167: a configuration command that begins sets its word, MXZERO its tile, whose words then hold no error, and MXLDCB its
codebook; nothing else of the unit's data changes, and nothing outside it. -/
def Sys2Proof.Claims.MatrixConfigureAndZero : Prop :=
  ∀ (i : Instr) (s : State) (core cx : Nat) (m : MatrixUnit) (cmd : MxCmd), Begins i s core cx m cmd →
    (∀ z : ZReg, cmd.op = .zero z.val →
      ∃ t u, exec i s = .next t ∧ BegunAs s t core cx cmd u [] ∧ u = { m with tiles := u.tiles, ecc := u.ecc } ∧
        (∀ y e, u.elem y e = if 4096 * z.val ≤ 4096 * y + e ∧ 4096 * y + e < 4096 * z.val + 4096 then 0 else m.elem y e) ∧
        ∀ w, u.ecc.get false w = if 2048 * z.val ≤ w ∧ w < 2048 * z.val + 2048 then false else m.ecc.get false w) ∧
    (∀ n v, n ≤ 2 → cmd.op = .cfg n v →
      ∃ t, exec i s = .next t ∧ BegunAs s t core cx cmd { m with
        geom := if n = 0 then v else m.geom, stride := if n = 1 then v else m.stride, sstride := if n = 2 then v else m.sstride } []) ∧
    (∀ v w, cmd.op = .scale v w → ∃ t, exec i s = .next t ∧ BegunAs s t core cx cmd { m with sa := v, sb := w } []) ∧
    (∀ v, cmd.op = .share v → ∃ t, exec i s = .next t ∧ BegunAs s t core cx cmd { m with share := v } []) ∧
    ∀ cb v es, cmd.op = .ldcb cb v → NoEcc s m →
      es = (if v = 0 then resetCodebook
        else (List.range 16).map fun e => s.mem.readN ((s.mxPlace (s.agentOf cx (s.ctx cx)) v).getD 0 + 2 * e) 2) →
      ∃ t, exec i s = .next t ∧
        BegunAs s t core cx cmd { m with cba := if cb = 0 then es else m.cba, cbb := if cb = 0 then m.cbb else es } []

/-- R164, R228: MXST leaves the unit as it is and writes the rows of the M × N region to memory at the stride, MXLD reads them, and neither
touches another byte or element. -/
def Sys2Proof.Claims.MatrixStoreAndLoad : Prop :=
  ∀ (i : Instr) (s : State) (core cx : Nat) (m : MatrixUnit) (cmd : MxCmd) (z M N p T : Nat) (x t : Word),
    Begins i s core cx m cmd → NoEcc s m → z < 4 → M = geomM m.geom → N = geomN m.geom → 1 ≤ M → 1 ≤ N →
    s.mxPlace (s.agentOf cx (s.ctx cx)) x = some p → t.toNat = T →
    (cmd.op = .st z x t → 4 * N ≤ T → (∀ c ∈ m.queue, c.out = []) → cx < numCtx → coreOf cx = core → s.mxOf cx (s.ctx cx) = some m →
      ∃ v u out, exec i s = .next v ∧ BegunAs s v core cx cmd m out ∧ out.length = M ∧ WritesRows cx M v u ∧ (u.core core).mx.tiles = m.tiles ∧
        (∀ c ∈ (u.core core).mx.queue, c.out = []) ∧
        (∀ r c, r < M → c < N → u.mem.readN (p + r * T + 4 * c) 4 = m.elem z (64 * r + c) % 2 ^ 32) ∧
        ∀ q, (∀ r < M, ¬(p + r * T ≤ q ∧ q < p + r * T + 4 * N)) → u.mem.read q = s.mem.read q) ∧
    (cmd.op = .ld z x t →
      ∃ v u, exec i s = .next v ∧ BegunAs s v core cx cmd u [] ∧ u = { m with tiles := u.tiles } ∧
        (∀ r c, r < M → c < N → u.elem z (64 * r + c) = s.mem.readN (p + r * T + 4 * c) 4) ∧
        ∀ y e, (¬∃ r c, r < M ∧ c < N ∧ 4096 * y + e = 4096 * z + 64 * r + c) → u.elem y e = m.elem y e)

/-- R157, R164: what the configuration, zeroing, store and load commands do when they begin. -/
def Obligations.MatrixCommandEffects : Prop :=
  Sys2Proof.Claims.MatrixConfigureAndZero ∧ Sys2Proof.Claims.MatrixStoreAndLoad

/-- R45, R162, R163: an element of MMA and MMAZ on bf16 operands with K up to 4 is the exact sum of the accumulator, or zero, and the
products, rounded once to f32; outside the M × N region the tile and every other tile stay, and of the rest of the unit only MOF and MNV
change, which rise where a result is infinite without an infinite operand, or NaN without a NaN operand. -/
def Obligations.MatrixProductElements : Prop :=
  ∀ (i : Instr) (s : State) (core cx : Nat) (m : MatrixUnit) (cmd : MxCmd) (z M N K p q : Nat) (x y : Word) (clear : Bool)
    (A B : Nat → Nat → FV) (Z : Nat → Nat → FV) (R : Nat → Nat → Nat),
    Begins i s core cx m cmd → NoEcc s m → z < 4 → cmd.op = .mma z x y clear →
    M = geomM m.geom → N = geomN m.geom → K = geomK m.geom → 1 ≤ M → 1 ≤ N → 1 ≤ K → K ≤ 4 → geomFA m.geom = 5 → geomFB m.geom = 5 →
    s.mxPlace (s.agentOf cx (s.ctx cx)) x = some p → s.mxPlace (s.agentOf cx (s.ctx cx)) y = some q →
    A = (fun r k => decodeF .bf16 (s.mem.readN (p + r * strideA m.stride + 2 * k) 2)) →
    B = (fun c k => decodeF .bf16 (s.mem.readN (q + c * strideB m.stride + 2 * k) 2)) →
    Z = (fun r c => if clear then .fin false 0 else decodeF .f32 (m.elem z (64 * r + c))) →
    R = (fun r c => (encodeF .f32 rneMode (sumV false (Z r c :: (List.range K).map fun k => (mulV (A r k) (B c k)).1)).1).1) →
    ∃ t u, exec i s = .next t ∧ BegunAs s t core cx cmd u [] ∧ u = { m with tiles := u.tiles, mof := u.mof, mnv := u.mnv } ∧
      (∀ r c, r < M → c < N → u.elem z (64 * r + c) = R r c) ∧
      (∀ w e, (¬∃ r c, r < M ∧ c < N ∧ 4096 * w + e = 4096 * z + 64 * r + c) → u.elem w e = m.elem w e) ∧
      (u.mof = true ↔ m.mof = true ∨ ∃ r c g, r < M ∧ c < N ∧ decodeF .f32 (R r c) = .inf g ∧
        ∀ h, Z r c ≠ .inf h ∧ ∀ k < K, A r k ≠ .inf h ∧ B c k ≠ .inf h) ∧
      (u.mnv = true ↔ m.mnv = true ∨ ∃ r c, r < M ∧ c < N ∧ (decodeF .f32 (R r c)).isNaN = true ∧
        (Z r c).isNaN = false ∧ ∀ k < K, (A r k).isNaN = false ∧ (B c k).isNaN = false)

/-- R161, R166, R168, R174: a command whose range fails is recorded and dropped with every younger one, which are counted; one that would
begin behind a pending fault is dropped and counted; rows become ready in ascending order after the last segment, and the first command
whose rows are all ready and written leaves.  Nothing else of the unit or the machine changes. -/
def Sys2Proof.Claims.MatrixCommandProgress : Prop :=
  ∀ (s : State) (core : Nat) (m : MatrixUnit), m = (s.core core).mx →
    (∀ cx cmd f, s.mxReady core = some (cx, cmd) → cmd.begun = false → s.shareGroupOf core = [] → m.fpend = false →
      s.mxCheck (s.agentOf cx (s.ctx cx)) m cmd.op = some f →
      exec (.mxCmdBegin core) s = .next (s.modCore core fun k => { k with mx := { m with
        fpend := true, fkind := f.kind, faddr := f.addr, fmaj := cmd.op.majorField.1, fz := cmd.op.majorField.2
        queue := m.queue.filter (·.begun), fdisc := min 255 (m.fdisc + ((m.queue.filter fun c => !c.begun).length - 1)) } })) ∧
    (∀ cx cmd, s.mxReady core = some (cx, cmd) → cmd.begun = false → m.fpend = true →
      exec (.mxCmdBegin core) s = .next (s.modCore core fun k => { k with mx := { m with
        queue := m.queue.erase cmd, fdisc := min 255 (m.fdisc + 1) } })) ∧
    (∀ (z : ZReg) c cs, m.queue = c :: cs → c.begun = true → c.left = 0 → c.op.tile = some z.val → c.ready < c.rows →
      exec (.mxRowReady core z c.ready) s =
        .next (s.modCore core fun k => { k with mx := { m with queue := { c with ready := c.ready + 1 } :: cs } })) ∧
    (∀ before c after, m.queue = before ++ c :: after → c.begun = true → c.left = 0 → c.ready = c.rows → c.out = [] →
      (∀ x ∈ before, x.begun = false ∨ x.left ≠ 0 ∨ x.ready ≠ x.rows ∨ x.out ≠ []) →
      exec (.mxCmdComplete core) s = .next (s.modCore core fun k => { k with mx := { m with queue := before ++ after } })) ∧
    ((∀ x ∈ m.queue, x.begun = false ∨ x.left ≠ 0 ∨ x.ready ≠ x.rows ∨ x.out ≠ []) →
      exec (.mxCmdComplete core) s = .next (s.modCore core fun k => { k with mx := m }))

/-- R169: MXSTAT reads its item once the queue is empty; item 8 is STATUS and clears its sticky fields. -/
def Sys2Proof.Claims.MatrixStatusReads : Prop :=
  ∀ (d : SReg) (sel : Fin 9) (s : State) (m : MatrixUnit), HeldReady s [] [d] → s.mxOf s.sched.cur s.curCtx = some m → m.queue = [] →
    ∃ t, exec (.mxstat d sel) s = .next t ∧ t.curCtx.pc = s.nextPc ∧ MatrixFrame s t ∧
      Writes s.curCtx t.curCtx d (match sel.val with
        | 1 => m.faddr
        | 2 => m.geom
        | 3 => m.stride
        | 4 => m.sstride
        | 5 => m.sa
        | 6 => m.sb
        | 7 => m.share
        | _ => m.status) ∧
      t.mxOf s.sched.cur t.curCtx =
        some (if sel.val = 8 then { m with mof := false, mnv := false, fkind := 0, fmaj := 0, fz := 0, fdisc := 0 } else m)

/-- R156 to R170: matrix commands enter the queue, proceed through it or are dropped, and MXSTAT reports on the unit. -/
def Obligations.MatrixCommandsAndStatus : Prop :=
  Sys2Proof.Claims.MatrixCommandsQueue ∧ Sys2Proof.Claims.MatrixCommandProgress ∧ Sys2Proof.Claims.MatrixStatusReads

/-- R170, R171: MXPARK writes the unit to its save area and leaves it as at reset, one level deeper; MXUNPARK brings it back,
with the zero fields of its words zero. -/
def Sys2Proof.Claims.MatrixParkAndUnpark : Prop :=
  ∀ (a : SReg) (s : State) (m : MatrixUnit) (p : Nat), Quiet s → s.mxOf s.sched.cur s.curCtx = some m →
    s.parkPlace (s.curCtx.reg a) = .ok p → m.pdepth + 1 = s.curCtx.depth → s.curCtx.depth ≤ 3 →
    (m.tiles.wf 0 = true ∧ ∀ e ∈ m.tiles, e.1 < 16384 ∧ e.2 < 2 ^ 32) →
    (m.cba.length = 16 ∧ m.cbb.length = 16 ∧ (∀ e ∈ m.cba, e < 65536) ∧ ∀ e ∈ m.cbb, e < 65536) →
    (m.fdisc < 256 ∧ m.fmaj < 16 ∧ m.fz < 4 ∧ m.fkind < 16 ∧ m.ecc = []) →
    ∃ t u, exec (.mxpark a) s = .next t ∧ t.curCtx.pc = s.nextPc ∧ (∀ r, t.curCtx.reg r = s.curCtx.reg r) ∧
      t.mxOf s.sched.cur t.curCtx = some { job := m.job, pdepth := m.pdepth + 1 } ∧
      (∀ e < 16384, t.mem.readN (p + 4 * e) 4 = m.tiles.get 0 e) ∧
      (∀ q, (q < p ∨ p + 65664 ≤ q) → t.mem.read q = s.mem.read q) ∧
      exec (.mxunpark a) t = .next u ∧ u.mxOf s.sched.cur u.curCtx = some m.zeroed ∧ u.mem = t.mem ∧ ∀ r, u.curCtx.reg r = s.curCtx.reg r

/-- R155, R165, R170: VMOVZ and VMOVTOZ run in f16, bf16 and f32 at an offset up to 4,095, and convert with the flags of R33. -/
def Sys2Proof.Claims.TileMoves : Prop :=
  ∀ (v : VReg) (z : ZReg) (b : SReg) (q : Qual) (s : State) (m : MatrixUnit), Quiet s → s.mxOf s.sched.cur s.curCtx = some m →
    s.curCtx.depth ≤ m.pdepth → formatIn q fmtF s.curCtx = true → (s.curCtx.reg b).toNat ≤ 4095 → m.ecc = [] →
    (∃ t, Runs (.vmovz v z b q) s t ∧ VectorFrame s t ∧
      SameFile (vmovzEffect m v z.val q (entryOf (.vmovz v z b q) s.curCtx (s.curCtx.reg b) 0) s.curCtx) t.curCtx) ∧
    (∃ t, Runs (.vmovtoz z v b q) s t ∧ t.curCtx.pc = s.nextPc ∧ t.mem = s.mem ∧ t.jobs = s.jobs ∧
      (∀ k, k ≠ coreOf s.sched.cur → t.core k = s.core k) ∧ t.curCtx.vregs = s.curCtx.vregs ∧ t.curCtx.sregs = s.curCtx.sregs ∧
      t.curCtx.fflags = s.curCtx.fflags |||
        (vmovtozEffect m z.val v q (entryOf (.vmovtoz z v b q) s.curCtx (s.curCtx.reg b) 0) s.curCtx).2 ∧
      t.mxOf s.sched.cur t.curCtx =
        some (vmovtozEffect m z.val v q (entryOf (.vmovtoz z v b q) s.curCtx (s.curCtx.reg b) 0) s.curCtx).1)

/-- R155, R165, R170, R171: the moves between vector registers and tiles, and the parking of the matrix unit. -/
def Obligations.MatrixMovesAndParking : Prop :=
  Sys2Proof.Claims.TileMoves ∧ Sys2Proof.Claims.MatrixParkAndUnpark

/-! ### Gaussian messages -/

/-- R176, R188 to R191: GDAMP, GMARG, GEMBED and GMEAN run over pairs of registers that hold k² elements. -/
def Sys2Proof.Claims.GaussRegisterInstructions : Prop :=
  ∀ (vp vq : VReg) (b : SReg),
    VectorRuns (.gdamp vp vq b) (fun c => decide (c.vgrp.toNat ^ 2 ≤ c.vbits / 64) && decide ((c.reg b).toNat < 256))
      noWord (fun c => c.reg b) ∧
    VectorRuns (.gmarg vp vq b) (fun c => decide (c.vgrp.toNat ^ 2 ≤ c.vbits / 64) && (c.reg b != 0) &&
      decide ((c.reg b).toNat < 2 ^ c.vgrp.toNat)) noWord (fun c => c.reg b) ∧
    VectorRuns (.gembed vp vq b) (fun c => decide (c.vgrp.toNat ^ 2 ≤ c.vbits / 64) && (c.reg b != 0) &&
      decide ((c.reg b).toNat < 2 ^ c.vgrp.toNat)) noWord (fun c => c.reg b) ∧
    VectorRuns (.gmean vp vq) (fun c => decide (c.vgrp.toNat ^ 2 ≤ c.vbits / 64)) noWord noWord

/-- R135 to R150, R176, R188 to R191: the complex, transform, small-matrix and Gaussian register instructions run. -/
def Obligations.ComplexAndTransformRuns : Prop :=
  Sys2Proof.Claims.ComplexInstructionsRun ∧ Sys2Proof.Claims.TransformAndSmallMatrixRuns ∧ Sys2Proof.Claims.GaussRegisterInstructions

/-- R186, R187: GLD and the sums read the mailboxes of the context's table; outside it they raise WINDOW_BOUNDS with the index or the range
word, at the instruction, with VFAULT 0. -/
def Sys2Proof.Claims.MailboxReads : Prop :=
  ∀ (vp : VReg) (a b : SReg) (s : State) (c : Ctx) (core owner count : Nat), Quiet s → c = s.curCtx → core = coreOf s.sched.cur →
    owner = s.tenantOf c → count = mbCount ((s.core core).mbtab.get 0 owner) → c.vgrp.toNat ^ 2 ≤ c.vbits / 64 →
    (s.ecc = [] → LinesBelow s → (c.reg a).toNat < 1024 → (c.reg a).toNat < count →
      ContextResult (.gld vp a b) s fun c =>
        let x := mailAt s (s.mailbox core owner (c.reg a).toNat)
        (c.putPair vp (x.message c.vgrp.toNat).1 (x.message c.vgrp.toNat).2).setReg b x.status) ∧
    (s.ecc = [] → LinesBelow s → ∀ cavity : Bool, rangeOk cavity (c.reg a) = true → rangeFirst (c.reg a) + rangeCnt (c.reg a) ≤ count →
      ContextResult (if cavity then .gsumx vp a else .gsum vp a) s fun c =>
        let e := entryOf (if cavity then .gsumx vp a else .gsum vp a) c (c.reg a) (c.reg 0)
        let r := gsumOf vp ((rangeIdx cavity (c.reg a)).map fun i => (mailAt s (s.mailbox core owner i)).message c.vgrp.toNat) e c
        (c.putPair vp r.lam r.eta).addFlags r.fl) ∧
    ∀ i, (i = Instr.gld vp a b ∧ (c.reg a).toNat < 1024 ∧ count ≤ (c.reg a).toNat) ∨
        (i = Instr.gsum vp a ∧ rangeOk false (c.reg a) = true ∧ count < rangeFirst (c.reg a) + rangeCnt (c.reg a)) ∨
        (i = Instr.gsumx vp a ∧ rangeOk true (c.reg a) = true ∧ count < rangeFirst (c.reg a) + rangeCnt (c.reg a)) →
      ∃ t w, exec i s = .next t ∧ w = { s with ctxs := w.ctxs } ∧ OtherContexts s w ∧
        w.curCtx = { c with ord := w.curCtx.ord, instret := c.instret + 1, vfault := 0 } ∧
        exec (.vectorStart s.sched.cur) t =
          .next (w.takeTrap s.sched.cur { cause := .windowBounds, value := c.reg a } c.pc)

/-- R184: GSEND, and GSENDC without a shadow, put the pair as a message on GMSG and count it; with a shadow the message is kept there
under the next version, and GSENDC is counted as skipped where its residual test says so.  That a shadow register that holds 0 names no shadow for GSENDC too is the
model's (log entry 88). -/
def Sys2Proof.Claims.MessageSends : Prop :=
  ∀ (d : SReg) (vp : VReg) (b : SReg) (s : State) (c : Ctx) (h : Nat) (j : Job), Quiet s → c = s.curCtx → c.job = some h →
    s.job? h = some j → s.ecc = [] → mailWordOk s.twin.paired (c.reg d) = true → c.vgrp.toNat ^ 2 ≤ c.vbits / 64 →
    (∀ i, i = Instr.gsend d vp b ∨ i = Instr.gsendc d vp b → c.reg b = 0 →
      ∃ v msg, Runs i s v ∧ v.gmsg = s.gmsg ++ [(msg, some { job := h, ord := c.ord })] ∧ msg.order = c.vgrp.toNat ∧
        msg.lam = hermBits c.vgrp.toNat (c.elems64 vp (c.vgrp.toNat ^ 2)) ∧ msg.eta = c.elems64 (pairHi vp) c.vgrp.toNat ∧
        msg.tenant = j.tenant ∧ msg.src = coreOf s.sched.cur ∧ msg.core = (c.reg d).toNat % 256 ∧
        msg.index = (c.reg d).toNat / 256 % 1024 ∧ v.mem = s.mem ∧ v.curCtx.sent = c.sent + 1 ∧ v.curCtx.pc = s.nextPc ∧
        v.curCtx.sregs = c.sregs ∧ v.curCtx.vregs = c.vregs ∧ v.curCtx.cntEn = 1) ∧
    (∀ o place, 1 ≤ c.vgrp.toNat → c.vgrp.toNat ≤ 4 → (c.reg b).toNat = 0x7F0000000000 + o → o % 64 = 0 → o + 192 ≤ (s.coreRegion (coreOf s.sched.cur) j.tenant).2 →
      (s.coreRegion (coreOf s.sched.cur) j.tenant).2 ≤ 0x400000 → LinesBelow s →
      place = corePlace (coreOf s.sched.cur) ((s.coreRegion (coreOf s.sched.cur) j.tenant).1 + o) →
      (∃ v, Runs (.gsend d vp b) s v ∧ v.gmsg.length = s.gmsg.length + 1 ∧
        (mailAt v place).version = ((mailAt s place).version + 1) % 2 ^ 32 ∧ (mailAt v place).order = c.vgrp.toNat ∧
        (mailAt v place).valid = true ∧
        (mailAt v place).lam.take (c.vgrp.toNat ^ 2) = hermBits c.vgrp.toNat (c.elems64 vp (c.vgrp.toNat ^ 2)) ∧
        ∀ q, (q < place ∨ place + 192 ≤ q) → v.mem.read q = s.mem.read q) ∧
      ((mailAt s place).valid = true → (mailAt s place).order = c.vgrp.toNat →
        residualSettled (decodeF .f32 c.gtau.toNat)
          (parts (hermBits c.vgrp.toNat (c.elems64 vp (c.vgrp.toNat * c.vgrp.toNat))) (hermBits c.vgrp.toNat (mailAt s place).lam) ++
            parts (c.elems64 (pairHi vp) c.vgrp.toNat) ((mailAt s place).eta.take c.vgrp.toNat)) = true →
        ∃ v, Runs (.gsendc d vp b) s v ∧ v.gmsg = s.gmsg ∧ v.mem = s.mem ∧ v.curCtx.skipped = c.skipped + 1 ∧
          v.curCtx.sent = c.sent ∧ v.curCtx.ops = []))

/-- R192, R193: GCFG places the context's table, and GSTAT reads its items; item 8 reads DROPS and clears it. -/
def Sys2Proof.Claims.MailboxTables : Prop :=
  ∀ (d a : SReg) (s : State) (core owner : Nat), core = coreOf s.sched.cur → owner = s.tenantOf s.curCtx →
    (HeldReady s [a] [] → (s.curCtx.reg a).toNat < 2 ^ 48 → bitsOf (s.curCtx.reg a).toNat 15 11 = 0 → mbCount (s.curCtx.reg a) ≤ 1024 →
      mbBase (s.curCtx.reg a) % 64 = 0 → mbBase (s.curCtx.reg a) + 192 * mbCount (s.curCtx.reg a) ≤ (s.coreRegion core owner).2 →
      ∃ t, exec (.gcfg 0 a) s = .next t ∧ (t.core core).mbtab.get 0 owner = s.curCtx.reg a ∧
        (∀ o, o ≠ owner → (t.core core).mbtab.get 0 o = (s.core core).mbtab.get 0 o) ∧ t.curCtx.pc = s.nextPc ∧
        (∀ r, t.curCtx.reg r = s.curCtx.reg r) ∧ t = { s with ctxs := t.ctxs, cores := t.cores }) ∧
    (HeldReady s [] [d] → s.curCtx.vq = [] → ∀ sel : Fin 16, sel.val ∈ [0, 1, 2, 3, 4, 8] →
      ∃ t, exec (.gstat d sel) s = .next t ∧ t.curCtx.pc = s.nextPc ∧ t = { s with ctxs := t.ctxs, cores := t.cores } ∧
        Writes s.curCtx t.curCtx d (match sel.val with
          | 0 => (s.core core).mbtab.get 0 owner
          | 2 => (s.core core).merges.get 0 owner
          | 3 => s.curCtx.sent
          | 4 => s.curCtx.skipped
          | _ => BitVec.ofNat 64 ((s.core core).drops.get 0 owner)) ∧
        (t.core core).drops.get 0 owner = (if sel.val = 8 then 0 else (s.core core).drops.get 0 owner))

/-- R186, R187, R192, R193: the mailbox reads, and the table and counts they go by. -/
def Obligations.MailboxReadsAndTables : Prop :=
  Sys2Proof.Claims.MailboxReads ∧ Sys2Proof.Claims.MailboxTables

/-- R51, R52, R181: an arriving message is merged into its mailbox with its damping, under the next version, and counted; without a
mailbox it is dropped and counted.  That the stored matrix is read as R49 has it is the model's (log entry 31). -/
def Sys2Proof.Claims.MessageMerges : Prop :=
  ∀ (s : State) (msg : GaussMsg) (from_ : Option Sender) (rest : List (GaussMsg × Option Sender)) (p count : Nat),
    s.gmsg = (msg, from_) :: rest → msg.core < 96 → count = mbCount ((s.core msg.core).mbtab.get 0 msg.tenant) →
    p = s.mailbox msg.core msg.tenant msg.index →
    (1 ≤ msg.order → msg.order ≤ 4 → msg.index < count → msg.lam.length = msg.order ^ 2 → msg.eta.length = msg.order →
      (∀ x ∈ msg.lam ++ msg.eta, x < 2 ^ 64) →
      ∃ t, exec (.gmsgMerge (.sent 0)) s = .next t ∧ t.gmsg = rest ∧
        (mailAt t p).version = ((mailAt s p).version + 1) % 2 ^ 32 ∧ (mailAt t p).order = msg.order ∧ (mailAt t p).valid = true ∧
        (mailAt t p).d = (mailAt s p).d ∧ (mailAt t p).tag = (mailAt s p).tag ∧
        ((mailAt s p).valid = false ∨ (mailAt s p).order ≠ msg.order →
          (mailAt t p).message msg.order = (msg.lam, msg.eta)) ∧
        ((mailAt s p).valid = true → (mailAt s p).order = msg.order →
          (mailAt t p).message msg.order =
            (hermResult msg.order (dampAll (mailAt s p).d (hermBits msg.order (mailAt s p).lam) msg.lam),
             dampAll (mailAt s p).d ((mailAt s p).eta.take msg.order) msg.eta)) ∧
        (t.core msg.core).merges.get 0 msg.tenant = (s.core msg.core).merges.get 0 msg.tenant + 1 ∧
        ∀ q, (q < p ∨ p + 192 ≤ q) → t.mem.read q = s.mem.read q) ∧
    (msg.order < 1 ∨ 4 < msg.order ∨ count ≤ msg.index →
      ∃ t, exec (.gmsgMerge (.sent 0)) s = .next t ∧ t.gmsg = rest ∧ t.mem = s.mem ∧
        (t.core msg.core).drops.get 0 msg.tenant = min ((s.core msg.core).drops.get 0 msg.tenant + 1) (2 ^ 32 - 1))

/-- R51, R52, R181, R184: a Gaussian message from its instruction to its mailbox. Where it rests on choices of the model they are those
of log entries 31 and 88. -/
def Obligations.MessageSendsAndMerges : Prop :=
  Sys2Proof.Claims.MessageSends ∧ Sys2Proof.Claims.MessageMerges

namespace Sys2Proof.Claims
open Sys2Proof Sys2Proof.Machine

/-! ### Memory -/

/-- Bits A and D alone are set, in bytes of memory: what a pass over several addresses may do to page tables (R204). -/
def PageBits (m m' : Memory) : Prop := ∀ p, ∃ x : Byte, x &&& 0x9F = 0 ∧ m'.read p = m.read p ||| x

/-- Memory m' after an access with the page tables of m: as before, or with bit A, and for a write bit D, set in the leaf that the walk of
its address finds (R204). -/
def LeafMarked (m m' : Memory) (g : Agent) (va : Word) (d : Bool) : Prop :=
  m' = m ∨ ∃ l, ∃ x : Byte, walk m va.toNat 3 (ptePpn g.root.toNat) = some l ∧ (x = 0x20 ∨ (x = 0x60 ∧ d = true)) ∧
    m'.read l.at_ = m.read l.at_ ||| x ∧ ∀ q, q ≠ l.at_ → m'.read q = m.read q

/-- The access check of a scalar access of the issuing context: its answer, and the memory after it. -/
def accessOf (s : State) (va : Word) (size : Nat) (k : AccessKind) (setD : Bool) : Except TrapInfo Xlat × Memory :=
  let r := s.access (s.agentOf s.sched.cur s.curCtx) va size k setD
  (r.1, r.2.mem)

/-- A scalar access with nothing else in flight, and no error in memory (R428). -/
structure MemReady (s : State) (x : Xlat) : Prop where
  quiet : Quiet s
  home : s.homeReady x.place = true
  ecc : s.ecc = []

/-- Besides, an access that no bank may cache has no line over it that differs from its home (R201, R202). -/
structure PlaceReady (s : State) (x : Xlat) : Prop extends MemReady s x where
  line : x.cached = none → ∀ i < 8, s.stale.find? ((x.place + i) / 64) = none

/-- The frame of a load: the destination register alone, with the memory that the access check left. -/
def LoadFrame (s u : State) (d : SReg) (v : Word) (m : Memory) : Prop :=
  Writes s.curCtx u.curCtx d v ∧ u.mem = m ∧ u.curCtx.pc = s.nextPc ∧ u.curCtx.loads = [] ∧
    u.curCtx.vregs = s.curCtx.vregs ∧ u.curCtx.mregs = s.curCtx.mregs ∧ u.curCtx.fflags = s.curCtx.fflags ∧ u.jobs = s.jobs ∧
    ∀ cx, cx ≠ s.sched.cur → u.ctx cx = s.ctx cx

/-- A load issues, and returns the bytes at its address, extended to 64 bits (R97, R209). -/
def Loads (i : Instr) (d : SReg) (addr : Ctx → Word) (size : Nat) (signed : Bool) : Prop :=
  ∀ s x m, accessOf s (addr s.curCtx) size .read false = (.ok x, m) → PlaceReady s x →
    ∃ t u, exec i s = .next t ∧ exec (.scalarLoadReturn s.sched.cur 0) t = .next u ∧
      LoadFrame s u d (if signed then (BitVec.ofNat (8 * size) (m.readN x.place size)).signExtend 64
        else BitVec.ofNat 64 (m.readN x.place size)) m

/-- Outside these bytes every byte reads as in memory m, and at its home as in s: where it is performed, a store writes no other
(R201). -/
def OutsideKept (s u : State) (m : Memory) (place size : Nat) : Prop :=
  ∀ q, q < place ∨ place + size ≤ q → u.mem.read q = m.read q ∧ u.homeByte q = ({ s with mem := m } : State).homeByte q

/-- A store issues, and is performed at its address, in the caches or at home (R97, R201, R209): its bytes, and no other byte but what the
access check marked. -/
def Stores (i : Instr) (d : SReg) (addr : Ctx → Word) (size : Nat) : Prop :=
  ∀ s x m, accessOf s (addr s.curCtx) size .write true = (.ok x, m) → PlaceReady s x →
    ∃ t u, exec i s = .next t ∧ exec (.storePerformed s.sched.cur 0) t = .next u ∧
      u.bytesAt x.cached x.place size = (s.curCtx.reg d).toNat % 2 ^ (8 * size) ∧ OutsideKept s u m x.place size ∧
      u.curCtx.sregs = s.curCtx.sregs ∧ u.curCtx.vregs = s.curCtx.vregs ∧ u.curCtx.fflags = s.curCtx.fflags ∧
      u.curCtx.pc = s.nextPc ∧ u.curCtx.stores = [] ∧ u.jobs = s.jobs ∧ ∀ cx, cx ≠ s.sched.cur → u.ctx cx = s.ctx cx

/-- An access that fails its checks is the trap of the instruction, and nothing is queued (R198, R206 to R208). -/
def AccessTraps (i : Instr) (addr : Ctx → Word) (size : Nat) (k : AccessKind) (setD : Bool) : Prop :=
  ∀ s t, Quiet s → (s.access (s.agentOf s.sched.cur s.curCtx) (addr s.curCtx) size k setD).1 = .error t →
    exec i s = .next ((s.access (s.agentOf s.sched.cur s.curCtx) (addr s.curCtx) size k setD).2.takeTrap s.sched.cur t s.curCtx.pc)

/-- An atomic issues and is performed: the old value, extended as R213 says, and the new one in its place; AMOCAS marks the leaf's bit D
only as it writes. -/
def Atomic (i : Instr) (d a : SReg) (size : Nat) (signed : Bool) (new : Ctx → Nat → Option Nat) (setD : Bool) : Prop :=
  ∀ s x m, accessOf s (s.curCtx.reg a) size .write setD = (.ok x, m) → PlaceReady s x →
    ∃ t u, exec i s = .next t ∧ exec (.scalarLoadReturn s.sched.cur 0) t = .next u ∧
      Writes s.curCtx u.curCtx d (if signed then (BitVec.ofNat (8 * size) (m.readN x.place size)).signExtend 64
        else BitVec.ofNat 64 (m.readN x.place size)) ∧
      (match new s.curCtx (m.readN x.place size) with
       | some v => u.bytesAt x.cached x.place size = v % 2 ^ (8 * size) ∧ ∃ m', OutsideKept s u m' x.place size ∧
          (if setD then m' = m else LeafMarked m m' (s.agentOf s.sched.cur s.curCtx) (s.curCtx.reg a) true)
       | none => u.mem = m ∧ u.stale = s.stale) ∧
      u.curCtx.pc = s.nextPc ∧ u.curCtx.loads = [] ∧ u.curCtx.vregs = s.curCtx.vregs ∧ u.curCtx.fflags = s.curCtx.fflags ∧ u.jobs = s.jobs

/-- The elements of a vector access: each active element below the count at its address, all of them allowed, and the memory that the
probe pass leaves (R207). -/
structure ElementsPass (s : State) (i : Instr) (m : VMem) (sb : Word) (ok : List Fmt) (a : SReg) (p : Probe)
    (mem : Memory) : Prop where
  quiet : Quiet s
  grant : s.curCtx.vbits ≤ 4096
  format : formatIn m.q ok s.curCtx = true
  probe : (s.probeMem s.sched.cur s.curCtx (entryOf i s.curCtx (s.curCtx.reg a) sb) m).1 = p
  memory : (s.probeMem s.sched.cur s.curCtx (entryOf i s.curCtx (s.curCtx.reg a) sb) m).2.mem = mem
  homes : ∀ x ∈ p.acc, s.homeReady x.place = true
  lines : ∀ x ∈ p.acc, x.cached = none → ∀ i < x.size, s.stale.find? ((x.place + i) / 64) = none ∧
    ∀ y ∈ p.acc, ∀ j < y.size, (y.place + j) / 64 = (x.place + i) / 64 → y.cached = none
  ecc : s.ecc = []

/-- The value of an element in memory (R24, R217). -/
def memElem (m : Memory) (f : Fmt) (x : ElemAccess) : Nat :=
  if f = .cb4 then (if x.idx % 2 = 0 then m.readN x.place x.size % 16 else m.readN x.place x.size / 16) else m.readN x.place x.size

/-- A vector load delivers its elements and leaves every other (R217). -/
def VectorLoads (i : Instr) (m : VMem) (sb : Ctx → Word) (ok : List Fmt) (a : SReg) : Prop :=
  ∀ s p mem f, f = m.q.fo.getD s.curCtx.vtype → ElementsPass s i m (sb s.curCtx) ok a p mem → p.fail = none →
    ∃ v, Runs i s v ∧ v.mem = mem ∧ PageBits s.mem mem ∧ v.curCtx.vl = s.curCtx.vl ∧ v.curCtx.pc = s.nextPc ∧
      v.curCtx.sregs = s.curCtx.sregs ∧ v.curCtx.mregs = s.curCtx.mregs ∧ v.curCtx.fflags = s.curCtx.fflags ∧ v.jobs = s.jobs ∧
      (∀ r, r ≠ m.reg → v.curCtx.vreg r = s.curCtx.vreg r) ∧
      (∀ x ∈ p.acc, elemAt (v.curCtx.vreg m.reg) (Fmt.bits f) x.idx = memElem mem f x) ∧
      ∀ k, k * Fmt.bits f + Fmt.bits f ≤ 4096 → (∀ x ∈ p.acc, x.idx ≠ k) →
        elemAt (v.curCtx.vreg m.reg) (Fmt.bits f) k = elemAt (s.curCtx.vreg m.reg) (Fmt.bits f) k

/-- n pending stores of a context performed in order. -/
def PerformsAll (cx : Nat) : Nat → State → State → Prop
  | 0, s, u => u = s
  | n + 1, s, u => ∃ t, exec (.storePerformed cx 0) s = .next t ∧ PerformsAll cx n t u

/-- What an element's store leaves at its place. -/
def storeElem (add : Bool) (f : Fmt) (v : Nat) (m : Memory) (x : ElemAccess) : Memory :=
  if add then m.writeN x.place x.size (vamoSum f (m.readN x.place x.size) v)
  else if f = .cb4 then
    m.write x.place (BitVec.ofNat 8 (if x.idx % 2 = 1 then (m.read x.place).toNat % 16 + 16 * v else (m.read x.place).toNat / 16 * 16 + v))
  else m.writeN x.place x.size v

/-- A vector store hands its elements over and they are performed in index order, each in the caches or at home (R201), and nothing else
(R217, R218). -/
def VectorStores (i : Instr) (m : VMem) (add : Bool) (sb : Ctx → Word) (ok : List Fmt) (a : SReg) : Prop :=
  ∀ s p mem f, f = m.q.fo.getD s.curCtx.vtype → ElementsPass s i m (sb s.curCtx) ok a p mem → p.fail = none →
    ∃ v u w, Runs i s v ∧ v.mem = mem ∧ PageBits s.mem mem ∧ v.curCtx.stores.length = p.acc.length ∧ v.curCtx.pc = s.nextPc ∧
      v.curCtx.vregs = s.curCtx.vregs ∧ v.curCtx.sregs = s.curCtx.sregs ∧ v.curCtx.fflags = s.curCtx.fflags ∧
      PerformsAll s.sched.cur p.acc.length v u ∧ u.curCtx.stores = [] ∧ u.curCtx.vregs = s.curCtx.vregs ∧
      w = p.acc.foldl (fun w x => storeElem add f (elemAt (s.curCtx.vreg m.reg) (Fmt.bits f) x.idx) w x) mem ∧
      (∀ x ∈ p.acc, ∀ q, x.place ≤ q → q < x.place + x.size → u.byteAt x.cached q = w.read q) ∧
      ∀ q, (∀ x ∈ p.acc, q < x.place ∨ x.place + x.size ≤ q) →
        u.mem.read q = mem.read q ∧ u.homeByte q = ({ s with mem := mem } : State).homeByte q

end Sys2Proof.Claims

/-! ### Memory -/

/-- R97, R209, R215: scalar loads and LDAQ. -/
def Sys2Proof.Claims.ScalarLoadResults : Prop :=
  ∀ (d a b : SReg) (imm : Nat),
    Loads (.ldd d a imm) d (fun c => c.reg a + BitVec.ofNat 64 (8 * imm)) 8 false ∧
    Loads (.lb d a imm) d (fun c => c.reg a + BitVec.ofNat 64 imm) 1 true ∧
    Loads (.lbn d a imm) d (fun c => c.reg a + BitVec.ofNat 64 imm) 1 false ∧
    Loads (.lh d a imm) d (fun c => c.reg a + BitVec.ofNat 64 (2 * imm)) 2 true ∧
    Loads (.lhn d a imm) d (fun c => c.reg a + BitVec.ofNat 64 (2 * imm)) 2 false ∧
    Loads (.lw d a imm) d (fun c => c.reg a + BitVec.ofNat 64 (4 * imm)) 4 true ∧
    Loads (.lwn d a imm) d (fun c => c.reg a + BitVec.ofNat 64 (4 * imm)) 4 false ∧
    Loads (.ldx d a b) d (fun c => c.reg a + c.reg b) 8 false ∧
    Loads (.ldaq d a) d (fun c => c.reg a) 8 false

/-- R97, R209, R215: scalar stores and STRL. -/
def Sys2Proof.Claims.ScalarStoreResults : Prop :=
  ∀ (d a b : SReg) (imm : Nat),
    Stores (.std d a imm) d (fun c => c.reg a + BitVec.ofNat 64 (8 * imm)) 8 ∧
    Stores (.sb d a imm) d (fun c => c.reg a + BitVec.ofNat 64 imm) 1 ∧
    Stores (.sh d a imm) d (fun c => c.reg a + BitVec.ofNat 64 (2 * imm)) 2 ∧
    Stores (.sw d a imm) d (fun c => c.reg a + BitVec.ofNat 64 (4 * imm)) 4 ∧
    Stores (.stx d a b) d (fun c => c.reg a + c.reg b) 8 ∧
    Stores (.strl d a) d (fun c => c.reg a) 8

/-- R206 to R208: the traps of scalar accesses are those of the access check, taken at the instruction. -/
def Sys2Proof.Claims.ScalarAccessTraps : Prop :=
  ∀ (d a b : SReg) (imm : Nat),
    AccessTraps (.ldd d a imm) (fun c => c.reg a + BitVec.ofNat 64 (8 * imm)) 8 .read false ∧
    AccessTraps (.lb d a imm) (fun c => c.reg a + BitVec.ofNat 64 imm) 1 .read false ∧
    AccessTraps (.lbn d a imm) (fun c => c.reg a + BitVec.ofNat 64 imm) 1 .read false ∧
    AccessTraps (.lh d a imm) (fun c => c.reg a + BitVec.ofNat 64 (2 * imm)) 2 .read false ∧
    AccessTraps (.lhn d a imm) (fun c => c.reg a + BitVec.ofNat 64 (2 * imm)) 2 .read false ∧
    AccessTraps (.lwn d a imm) (fun c => c.reg a + BitVec.ofNat 64 (4 * imm)) 4 .read false ∧
    AccessTraps (.lw d a imm) (fun c => c.reg a + BitVec.ofNat 64 (4 * imm)) 4 .read false ∧
    AccessTraps (.ldx d a b) (fun c => c.reg a + c.reg b) 8 .read false ∧
    AccessTraps (.ldaq d a) (fun c => c.reg a) 8 .read false ∧
    AccessTraps (.std d a imm) (fun c => c.reg a + BitVec.ofNat 64 (8 * imm)) 8 .write true ∧
    AccessTraps (.sb d a imm) (fun c => c.reg a + BitVec.ofNat 64 imm) 1 .write true ∧
    AccessTraps (.sh d a imm) (fun c => c.reg a + BitVec.ofNat 64 (2 * imm)) 2 .write true ∧
    AccessTraps (.sw d a imm) (fun c => c.reg a + BitVec.ofNat 64 (4 * imm)) 4 .write true ∧
    AccessTraps (.stx d a b) (fun c => c.reg a + c.reg b) 8 .write true ∧
    AccessTraps (.strl d a) (fun c => c.reg a) 8 .write true

/-- R97, R206 to R209, R215: scalar loads and stores with their frames, and where they trap. -/
def Obligations.ScalarAccessResults : Prop :=
  Sys2Proof.Claims.ScalarLoadResults ∧ Sys2Proof.Claims.ScalarStoreResults ∧ Sys2Proof.Claims.ScalarAccessTraps

/-- R198, R203, R206: what the access check answers: MISALIGNED before translation, PROTECTION above the user half and in holes,
WINDOW_BOUNDS past a window's limit, the place in the core's own array within it, and the page faults of the access kinds.  That TVAL is the
address for PROTECTION, WINDOW_BOUNDS and the page faults is the model's (log entry 23). -/
def Sys2Proof.Claims.AccessCheckAnswers : Prop :=
  ∀ (s : State) (g : Agent) (va : Word) (size : Nat) (k : AccessKind) (d : Bool), 1 ≤ size →
    (va.toNat % size ≠ 0 → s.access g va size k d = (.error { cause := .misaligned, value := va }, s)) ∧
    (va.toNat % size = 0 → 2 ^ 48 ≤ va.toNat ∨ 2 ^ 47 ≤ va.toNat ∧ g.user = true ∨
        (0x7F3010000000 ≤ va.toNat ∧ va.toNat < 2 ^ 47) ∨ (0x7F0000400000 ≤ va.toNat ∧ va.toNat < 0x7F1000000000) →
      s.access g va size k d = (.error { cause := .protection, value := va }, s)) ∧
    (∀ c o, g.core = some c → va.toNat = 0x7F0000000000 + o → o < 0x400000 → va.toNat % size = 0 → k ≠ .exec → s.linkPoison = [] →
      s.access g va size k d =
        (if o < (s.coreRegion c g.owner).2 then
          .ok { place := corePlace c ((s.coreRegion c g.owner).1 + o), cached := none, uc := false }
         else .error { cause := .windowBounds, value := va }, s)) ∧
    (va.toNat % size = 0 → va.toNat < 0x7F0000000000 → walk s.mem va.toNat 3 (ptePpn g.root.toNat) = none →
      (∀ c, g.core = some c → (s.core c).tlb = []) → (∀ c, g.cluster = some c → (s.cluster c).tlb = []) →
      ∃ t, t = { s with host := { s.host with snoop := t.host.snoop }, sched := { s.sched with held := t.sched.held } } ∧ s.access g va size k d =
        (.error { cause := if k = .read then .pageFaultRead else if k = .write then .pageFaultWrite else .pageFaultExec, value := va }, t))

/-- R204, R385, R420: an access changes nothing but bits A and D of the leaf that the walk of its address finds, the TLBs, the lines the host
holds, the note of a home that is not ready, and the draws of the model's free values; of the clusters and cores only the TLBs. -/
def Sys2Proof.Claims.AccessFrame : Prop :=
  ∀ (s : State) (g : Agent) (va : Word) (size : Nat) (k : AccessKind) (d : Bool) (t : State), (s.access g va size k d).2 = t →
    LeafMarked s.mem t.mem g va d ∧
    t = { s with mem := t.mem, cores := t.cores, clusters := t.clusters, host := { s.host with snoop := t.host.snoop }
                 sched := { s.sched with draws := t.sched.draws, held := t.sched.held } } ∧
    (∀ c, t.core c = { s.core c with tlb := (t.core c).tlb }) ∧ ∀ c, t.cluster c = { s.cluster c with tlb := (t.cluster c).tlb }

/-- R198, R203, R204, R206: the answers of the access check, and that it changes page-table bits and TLBs alone. Where it rests on
choices of the model they are those of log entry 23. -/
def Obligations.AccessChecks : Prop :=
  Sys2Proof.Claims.AccessCheckAnswers ∧ Sys2Proof.Claims.AccessFrame

/-- R223, R225: a load returns the bytes of its context's own older store, performed or not. -/
def Sys2Proof.Claims.LoadSeesOwnStore : Prop :=
  ∀ (s : State) (cx : Nat) (c : Ctx) (p : PendStore) (l : PendLoad) (v : Nat), cx < numCtx → c = s.ctx cx → c.stores = [p] →
    c.loads = [l] → c.vq = [] → p.ord < l.ord → p.kind = .data (bytesOf v l.size) → l.place = p.place → l.size ≤ 8 → l.kind = .plain →
    p.release = false → l.signed = false → s.homeReady l.place = true → s.poisoned l.place = false →
    (∀ m, s.mxOf cx c = some m → m.queue = []) →
    ∃ u, exec (.scalarLoadReturn cx 0) s = .next u ∧ Writes c (u.ctx cx) l.dst (BitVec.ofNat 64 (v % 2 ^ (8 * l.size))) ∧
      u.mem = s.mem ∧ (u.ctx cx).stores = [p] ∧ (u.ctx cx).loads = []

/-- R213, R214: the atomics, 32 and 64 bits wide. -/
def Sys2Proof.Claims.AtomicResults : Prop :=
  ∀ (d a b c : SReg) (w32 : Bool) (n : Nat), n = (if w32 then 4 else 8) →
    Atomic (.amoadd d a b w32) d a n true (fun x o => some (o + (x.reg b).toNat)) true ∧
    Atomic (.amoand d a b w32) d a n true (fun x o => some (o &&& (x.reg b).toNat)) true ∧
    Atomic (.amoor d a b w32) d a n true (fun x o => some (o ||| (x.reg b).toNat)) true ∧
    Atomic (.amoxor d a b w32) d a n true (fun x o => some (o ^^^ (x.reg b).toNat)) true ∧
    Atomic (.amomin d a b w32) d a n true (fun x o => some
      (if (BitVec.ofNat (8 * n) (x.reg b).toNat).slt (BitVec.ofNat (8 * n) o) then (x.reg b).toNat else o)) true ∧
    Atomic (.amomax d a b w32) d a n true (fun x o => some
      (if (BitVec.ofNat (8 * n) o).slt (BitVec.ofNat (8 * n) (x.reg b).toNat) then (x.reg b).toNat else o)) true ∧
    Atomic (.amominn d a b w32) d a n false (fun x o => some (min o ((x.reg b).toNat % 2 ^ (8 * n)))) true ∧
    Atomic (.amomaxn d a b w32) d a n false (fun x o => some (max o ((x.reg b).toNat % 2 ^ (8 * n)))) true ∧
    Atomic (.amoswp d a b w32) d a n true (fun x _ => some (x.reg b).toNat) true ∧
    Atomic (.amocas d a b c w32) d a n true
      (fun x o => if o = (x.reg b).toNat % 2 ^ (8 * n) then some (x.reg c).toNat else none) false

/-- R210, R211, R229: PREF changes no register and no memory; CFLUSH writes a dirty line back and drops a clean one, CINV drops either, and
the line's content is then what the home holds; FENCE ends, and afterwards holds nothing back while no access of its classes is
pending.  What the home holds under a line that has been evicted (log entry 12), and the issue of FENCE before its wait (log entry 22), are the
model's. -/
def Sys2Proof.Claims.CacheAndFenceResults : Prop :=
  (∀ (h : Fin 3) (a : SReg) (imm : Nat) (s : State), FreeReady s [a] [] false →
    ∃ t, exec (.pref h a imm) s = .next t ∧ (∀ r, t.curCtx.reg r = s.curCtx.reg r) ∧ t.curCtx.pc = s.nextPc ∧ ScalarFrame s t) ∧
  (∀ (a : SReg) (s y : State) (x : Xlat) (l : Nat), MemReady s x → x.uc = false → x.place < 2 ^ 48 → l = x.place / 64 →
    (∀ w, isTwinPa x.place = false ∨ s.twinGrants (s.tenantOf s.curCtx) (64 * l) 64 w = true) →
    (s.xlate (s.agentOf s.sched.cur s.curCtx) (s.curCtx.reg a) .read false = (.ok x, y) →
      ∃ t u, exec (.cflush a) s = .next t ∧ exec (.storePerformed s.sched.cur 0) t = .next u ∧ u.stale = s.stale.erase l ∧
        u.mem = (match s.stale.find? l with
          | some d => if d.dirty then y.mem else y.mem.writeBytes (64 * l) d.home
          | none => y.mem) ∧
        u.curCtx.sregs = s.curCtx.sregs ∧ u.curCtx.pc = s.nextPc) ∧
    (s.xlate (s.agentOf s.sched.cur s.curCtx) (s.curCtx.reg a) .write true = (.ok x, y) →
      ∃ t u, exec (.cinv a) s = .next t ∧ exec (.storePerformed s.sched.cur 0) t = .next u ∧ u.stale = s.stale.erase l ∧
        u.linkPoison = s.linkPoison.erase l ∧
        u.mem = (match s.stale.find? l with
          | some d => y.mem.writeBytes (64 * l) d.home
          | none => y.mem) ∧
        u.curCtx.sregs = s.curCtx.sregs ∧ u.curCtx.pc = s.nextPc)) ∧
  (∀ (a : SReg) (s : State) (x : Xlat) (k : AccessKind) (i : Instr), MemReady s x → x.uc = true ∨ 2 ^ 48 ≤ x.place →
    (i = .cflush a ∧ k = .read) ∨ (i = .cinv a ∧ k = .write) →
    isTwinPa x.place = false ∨ s.twinGrants (s.tenantOf s.curCtx) (x.place / 64 * 64) 64 (k == .write) = true →
    (s.xlate (s.agentOf s.sched.cur s.curCtx) (s.curCtx.reg a) k (k == .write)).1 = .ok x →
    ∃ t, exec i s = .next t ∧ t.curCtx.stores = [] ∧ t.stale = s.stale ∧
      LeafMarked s.mem t.mem (s.agentOf s.sched.cur s.curCtx) (s.curCtx.reg a) (k == .write) ∧ t.curCtx.sregs = s.curCtx.sregs ∧
      t.curCtx.pc = s.nextPc) ∧
  ∀ (before after : Fin 16) (scope : Fin 5) (s : State), HeldReady s [] [] →
    ∃ t, exec (.fence before after scope) s = .next t ∧ (∀ r, t.curCtx.reg r = s.curCtx.reg r) ∧ t.curCtx.pc = s.nextPc ∧
      t.mem = s.mem ∧ t = { s with ctxs := t.ctxs } ∧
      (Quiet s → ∀ cls, t.curFenced cls = false) ∧
      (s.curCtx.fences = [] → before.val.testBit 0 = true → scope.val ≠ 0 →
        s.curCtx.loads.any (fun l => l.ord < s.curCtx.ord) = true → ∀ cls < 4, after.val.testBit cls = true → t.curFenced cls = true)

/-- R210, R211, R213, R214, R223, R225, R229: the atomics, a load that sees the store before it, the cache instructions and FENCE. Where
it rests on choices of the model they are those of log entries 12 and 22. -/
def Obligations.AtomicCacheAndFenceResults : Prop :=
  Sys2Proof.Claims.LoadSeesOwnStore ∧ Sys2Proof.Claims.AtomicResults ∧ Sys2Proof.Claims.CacheAndFenceResults

/-- R207, R216, R217: vector loads in every address form, and VLDFF where every element passes. -/
def Sys2Proof.Claims.VectorLoadResults : Prop :=
  ∀ (vd vb : VReg) (a b : SReg) (amt : Fin 7) (q : Qual) (nc : List Fmt), nc = fmtAll.filter (· ≠ .cb4) →
    VectorLoads (.vld vd a q) { reg := vd, addr := .unit, q := q, write := false } noWord fmtAll a ∧
    VectorLoads (.vlds vd a b q) { reg := vd, addr := .strided, q := q, write := false } (fun c => c.reg b) nc a ∧
    VectorLoads (.vldx vd a vb amt q) { reg := vd, addr := .indexed vb amt.val, q := q, write := false } noWord nc a ∧
    VectorLoads (.vldb vd a q) { reg := vd, addr := .same, q := q, write := false } noWord nc a ∧
    VectorLoads (.vldff vd a q) { reg := vd, addr := .unit, q := q, write := false } noWord fmtAll a

/-- R219: VLDFF whose element i > 0 fails sets VL to i and takes no trap; where element 0 fails it traps, with VFAULT 0. -/
def Sys2Proof.Claims.FirstFaultLoads : Prop :=
  ∀ (vd : VReg) (a : SReg) (q : Qual) (s : State) (p : Probe) (m : VMem) (f : Fmt) (i : Nat) (t : TrapInfo) (mem : Memory),
    m = { reg := vd, addr := .unit, q := q, write := false } → f = q.fo.getD s.curCtx.vtype →
    ElementsPass s (.vldff vd a q) m 0 fmtAll a p mem → p.fail = some (i, t) →
    (i ≠ 0 → ∃ v, Runs (.vldff vd a q) s v ∧ v.curCtx.vl = i ∧ v.mem = mem ∧ PageBits s.mem mem ∧ v.curCtx.pc = s.nextPc ∧
      (∀ x ∈ p.acc, elemAt (v.curCtx.vreg vd) (Fmt.bits f) x.idx = memElem v.mem f x) ∧
      ∀ r, r ≠ vd → v.curCtx.vreg r = s.curCtx.vreg r) ∧
    (i = 0 → s.curCtx.mode = .user → s.curCtx.depth = 0 → s.curCtx.deleg.getLsbD t.cause.code = false →
      ∃ u v, exec (.vldff vd a q) s = .next u ∧ exec (.vectorStart s.sched.cur) u = .next v ∧ v.curCtx.vfault = 0 ∧
        v.curCtx.mode = .supervisor ∧ v.curCtx.tepc = s.curCtx.pc ∧ v.curCtx.tval = t.value ∧
        v.curCtx.tcause.toNat = t.cause.code ∧ v.curCtx.vregs = s.curCtx.vregs ∧ v.curCtx.vq = [])

/-- R207, R216 to R218: vector stores in every address form, and VAMOADD. -/
def Sys2Proof.Claims.VectorStoreResults : Prop :=
  ∀ (vd vb : VReg) (a b : SReg) (amt : Fin 7) (q : Qual) (nc : List Fmt), nc = fmtAll.filter (· ≠ .cb4) →
    VectorStores (.vst vd a q) { reg := vd, addr := .unit, q := q, write := true } false noWord fmtAll a ∧
    VectorStores (.vsts vd a b q) { reg := vd, addr := .strided, q := q, write := true } false (fun c => c.reg b) nc a ∧
    VectorStores (.vstx vd a vb amt q) { reg := vd, addr := .indexed vb amt.val, q := q, write := true } false noWord nc a ∧
    VectorStores (.vamoadd vd a vb amt q) { reg := vd, addr := .indexed vb amt.val, q := q, write := true } true noWord [.i32, .i64, .f32] a

/-- R207, R216 to R219: the vector loads and stores in every address form, with their frames, and the first-fault load. -/
def Obligations.VectorMemoryResults : Prop :=
  Sys2Proof.Claims.VectorLoadResults ∧ Sys2Proof.Claims.FirstFaultLoads ∧ Sys2Proof.Claims.VectorStoreResults

namespace Sys2Proof.Claims
open Sys2Proof Sys2Proof.Machine

/-! ### Streams, flumes and coding engines -/

/-- The issuing context has gone on past a held instruction: its vector side is as it was, and every other context. -/
def WentOn (s t : State) : Prop :=
  t.curCtx.pc = s.nextPc ∧ t.curCtx.status = .running ∧ t.curCtx.instret = s.curCtx.instret + 1 ∧ t.curCtx.vregs = s.curCtx.vregs ∧
    t.curCtx.mregs = s.curCtx.mregs ∧ t.curCtx.fflags = s.curCtx.fflags ∧ t.curCtx.mode = s.curCtx.mode ∧
    t.curCtx.job = s.curCtx.job ∧ ∀ cx, cx ≠ s.sched.cur → t.ctx cx = s.ctx cx

/-- It has, with no register written, and memory but for page-table bits. -/
def WentOnPlain (s t : State) : Prop := WentOn s t ∧ t.curCtx.sregs = s.curCtx.sregs ∧ PageBits s.mem t.mem

/-- The context waits at the instruction, and nothing else has changed (R290). -/
def WaitsAt (s t : State) (w : Wait) : Prop := t = s.setCur { s.curCtx with status := .waiting w }

/-- The trap that an instruction takes at its own address. -/
def TrapsHere (i : Instr) (s : State) (cause : Cause) (v : Word) : Prop :=
  exec i s = .next (s.takeTrap s.sched.cur { cause := cause, value := v } s.curCtx.pc)

/-- The words that a held instruction reads are at home or in the caches, with no line that differs from its home over one that no bank
may cache. -/
def WordsReady (s : State) (ps : List Xlat) : Prop :=
  ∀ x ∈ ps, s.homeReady x.place = true ∧ (x.cached = none → ∀ i < 8, s.stale.find? ((x.place + i) / 64) = none)

/-- The len bytes at va lie in the window of cluster k's scratchpad that an owner may reach from everywhere, from place p on (R198). -/
def InMesh (s : State) (owner : Nat) (va : Nat) (len p : Nat) : Prop :=
  ∃ k o, k < 12 ∧ va = 0x7F3000000000 + k * 0x1000000 + o ∧ o + len ≤ (s.clusterRegion k owner).2 ∧
    (s.clusterRegion k owner).2 ≤ 0x800000 ∧ p = clusterPlace k ((s.clusterRegion k owner).1 + o)

/-- The word of a map instruction names a map of the context's tenant (R243, R244). -/
structure MapReady (s : State) (a b : SReg) (writes : List SReg) (m : Nat) : Prop where
  ready : HeldReady s [a, b] writes
  word : mapOperandOk (s.curCtx.reg a) = true
  map : m = (s.curCtx.reg a).toNat % 64
  owner : s.mapOwner s.curCluster m = s.tenantOf s.curCtx

/-- A flume word names a flume that the context may use (R251). -/
structure FlumeReady (s : State) (reads : List SReg) (a : SReg) (writes : List SReg) (push : Bool) (k f : Nat) : Prop where
  ready : HeldReady s (a :: reads) writes
  fence : s.curFenced 3 = false
  acquire : s.curCtx.olderAcquire s.curCtx.ord = false
  word : s.flumeCheck (s.tenantOf s.curCtx) (s.curCtx.reg a) push = none
  names : k = (s.curCtx.reg a).toNat / 256 % 16 ∧ f = (s.curCtx.reg a).toNat % 64

end Sys2Proof.Claims

/-! ### Streams and flumes -/

/-- R243, R249: SWAITM goes on when every bit of its mask is set and waits otherwise; STESTM reads the masked map; SCLRM clears bits;
a map of another owner is PROTECTION. -/
def Sys2Proof.Claims.ChunkMapInstructions : Prop :=
  ∀ (d a b : SReg) (s : State) (m : Nat),
    (MapReady s a b [] m →
      (s.chunkMap s.curCluster m &&& s.curCtx.reg b = s.curCtx.reg b →
        ∃ t, exec (.swaitm a b) s = .next t ∧ WentOnPlain s t ∧ t.clusters = s.clusters) ∧
      (s.chunkMap s.curCluster m &&& s.curCtx.reg b ≠ s.curCtx.reg b →
        ∃ t, exec (.swaitm a b) s = .next t ∧ WaitsAt s t (.chunks s.curCluster m (s.curCtx.reg b) true)) ∧
      ∃ t, exec (.sclrm a b) s = .next t ∧ WentOnPlain s t ∧
        t.chunkMap s.curCluster m = s.chunkMap s.curCluster m &&& ~~~(s.curCtx.reg b) ∧
        (∀ k n, (k, n) ≠ (s.curCluster, m) → t.chunkMap k n = s.chunkMap k n)) ∧
    (MapReady s a b [d] m →
      ∃ t, exec (.stestm d a b) s = .next t ∧ WentOn s t ∧ t.mem = s.mem ∧ t.clusters = s.clusters ∧
        Writes s.curCtx t.curCtx d (s.chunkMap s.curCluster m &&& s.curCtx.reg b)) ∧
    (HeldClear s [a, b] [] → mapOperandOk (s.curCtx.reg a) = true →
      s.mapOwner s.curCluster ((s.curCtx.reg a).toNat % 64) ≠ s.tenantOf s.curCtx →
      TrapsHere (.swaitm a b) s .protection (s.curCtx.reg a) ∧ TrapsHere (.sclrm a b) s .protection (s.curCtx.reg a)) ∧
    (HeldClear s [a, b] [d] → mapOperandOk (s.curCtx.reg a) = true →
      s.mapOwner s.curCluster ((s.curCtx.reg a).toNat % 64) ≠ s.tenantOf s.curCtx →
      TrapsHere (.stestm d a b) s .protection (s.curCtx.reg a))

/-- R242, R246, R247, R248, R254: SCOPY grants what its budget allows in whole chunks, sets VL to the elements granted, and queues a
strip; SSTRM queues a pattern that SPAT loaded. -/
def Sys2Proof.Claims.StripCommands : Prop :=
  (∀ (sn sd ss sc : SReg) (fo : Option Fmt) (s : State) (f : Fmt) (e h rq b : Nat) (dst : StripDst) (ps : List Piece), Quiet s →
    f = fo.getD s.curCtx.vtype → f ≠ .cb4 → e = Fmt.bits f / 8 → s.curCtx.job = some h → streamWordOk (s.curCtx.reg sc) = true →
    s.mapOwner s.curCluster (swMap (s.curCtx.reg sc)) = s.tenantOf s.curCtx → dst = s.stripDst sd (s.curCtx.reg sc) → dst ≠ .bad →
    (s.curCtx.reg sn = 0 → ∃ t, exec (.scopy sn sd ss sc fo) s = .next t ∧ WentOnPlain s t ∧ t.curCtx.vl = 0 ∧ t.clusters = s.clusters) ∧
    (s.curCtx.reg sn ≠ 0 → dst ≠ .wait → 512 ≤ s.stripFree s.curCluster (s.tenantOf s.curCtx) →
      rq = dst.clip (min ((s.curCtx.reg sn).toNat * e) ((64 - swFirst (s.curCtx.reg sc)) * 512)) →
      b = (let n := min rq (s.stripFree s.curCluster (s.tenantOf s.curCtx)); if 512 ≤ rq then n / 512 * 512 else n) →
      dst.va.toNat % e = 0 → (s.curCtx.reg ss).toNat % e = 0 →
      (s.probeStrip (s.agentOf s.sched.cur s.curCtx) (cutRow b 0 b (s.curCtx.reg ss) dst.va)).1 = .ok ps →
      ∃ t x, exec (.scopy sn sd ss sc fo) s = .next t ∧ WentOnPlain s t ∧ t.curCtx.vl = b / e ∧ t.curCtx.cntCp = 1 ∧
        (t.cluster s.curCluster).strips = (s.cluster s.curCluster).strips ++ [x] ∧ x.bytes = b ∧ x.pieces = ps ∧
        x.todo = List.range ((b + 511) / 512) ∧ x.served = [] ∧ x.map = swMap (s.curCtx.reg sc) ∧
        x.first = swFirst (s.curCtx.reg sc) ∧ x.tenant = s.tenantOf s.curCtx ∧ x.sender = { job := h, ord := s.curCtx.ord })) ∧
  (∀ (n : Fin 8) (a : SReg) (s : State) (ps : List Xlat) (ws : List Nat) (v : Nat), Quiet s →
    (s.wordPlaces (s.agentOf s.sched.cur s.curCtx) (s.curCtx.reg a) 4).1 = .ok ps → WordsReady s ps → s.ecc = [] →
    ws = ps.map (fun p => (s.wordPlaces (s.agentOf s.sched.cur s.curCtx) (s.curCtx.reg a) 4).2.mem.readN p.place 8) →
    v = ws.foldr (fun w acc => w + 2 ^ 64 * acc) 0 →
    (patOk v = true → ∃ t, exec (.spat n a) s = .next t ∧ WentOnPlain s t ∧ (t.curCtx.patterns.get 0 n.val).toNat = v ∧
      ∀ k, k ≠ n.val → t.curCtx.patterns.get 0 k = s.curCtx.patterns.get 0 k)) ∧
  ∀ (n : Fin 8) (sd ss : SReg) (s : State) (v h : Nat) (dst : StripDst) (ps : List Piece), Quiet s → s.curCtx.job = some h →
    v = (s.curCtx.patterns.get 0 n.val).toNat → v ≠ 0 → s.mapOwner s.curCluster (swMap (patWord v)) = s.tenantOf s.curCtx →
    dst = s.stripDst sd (patWord v) → dst ≠ .bad → dst ≠ .wait → dst.clip (patRows v * patLen v) = patRows v * patLen v →
    patRows v * patLen v ≤ s.stripFree s.curCluster (s.tenantOf s.curCtx) →
    (s.probeStrip (s.agentOf s.sched.cur s.curCtx) (patPieces v (s.curCtx.reg ss) dst.va)).1 = .ok ps →
    ∃ t x, exec (.sstrm n sd ss) s = .next t ∧ WentOnPlain s t ∧ t.curCtx.cntCp = 1 ∧
      (t.cluster s.curCluster).strips = (s.cluster s.curCluster).strips ++ [x] ∧ x.bytes = patRows v * patLen v ∧ x.pieces = ps ∧
      x.map = swMap (patWord v) ∧ x.first = swFirst (patWord v) ∧ x.sender = { job := h, ord := s.curCtx.ord }

/-- R241, R242, R246: serving the chunk of a strip copies its bytes and no other, each read and written in the caches or at home (R201);
when it is done its map bit is set, the strip leaves, and its command is answered. -/
def Sys2Proof.Claims.StripServiceAndCompletion : Prop :=
  ∀ (s : State) (k n : Nat) (x : Strip) (p : Piece), (s.cluster k).strips = [x] → x.todo = [0] → x.served = [] → x.pieces = [p] →
    x.tenant < 64 → p.at_ = 0 → p.len = n → 1 ≤ n → n ≤ 512 → (p.src + n ≤ p.dst ∨ p.dst + n ≤ p.src) → s.ecc = [] →
    s.released (some x.sender) 3 = true → s.homeReady p.src = true → s.homeReady p.dst = true →
    (∀ j < n, s.poisoned (p.src + j) = false) → (isHostPa p.dst = true → s.host.up = true) →
    (p.cached = none → ∀ j < n, s.stale.find? ((p.dst + j) / 64) = none) →
    ∃ t u, exec (.streamChunkServe k 0) s = .next t ∧ (∀ j < n, t.byteAt p.cached (p.dst + j) = s.byteAt p.from_ (p.src + j)) ∧
      (∀ q, (q < p.dst ∨ p.dst + n ≤ q) → t.mem.read q = s.mem.read q ∧ t.homeByte q = s.homeByte q) ∧ t.ctxs = s.ctxs ∧
      t.chunkMap k x.map = s.chunkMap k x.map ∧ (t.cluster k).strips = [{ x with begun := true, todo := [], served := [0] }] ∧
      exec (.chunkDone k 0) t = .next u ∧ u.mem = t.mem ∧ u.stale = t.stale ∧ (u.cluster k).strips = [] ∧
      u.chunkMap k x.map = s.chunkMap k x.map ||| BitVec.ofNat 64 (2 ^ x.first) ∧
      ∀ j c, s.job? x.sender.job = some j → j.state = .running c → c < numCtx → ∀ o ∈ (u.ctx c).ops, o.ord ≠ x.sender.ord

/-- R241, R242, R246 to R248, R254: strips are queued, served and done. -/
def Obligations.Strips : Prop :=
  Sys2Proof.Claims.StripCommands ∧ Sys2Proof.Claims.StripServiceAndCompletion

/-- R251 to R253: FLPOP and FLPUSH give a slot's address and remember it, or, of an empty or a full flume, 0 in their polling form, or
wait; FLREL and FLDONE take it back by its address. -/
def Sys2Proof.Claims.FlumeInstructions : Prop :=
  ∀ (d a b : SReg) (s : State) (k f : Nat),
    (FlumeReady s [] a [d] false k f → s.curCtx.flumes.length < 8 → ctr16 (s.flume k f).fill (s.flume k f).pop ≠ 0 →
      ∃ t, exec (.flpop d a) s = .next t ∧ WentOn s t ∧ t.mem = s.mem ∧
        Writes s.curCtx t.curCtx d ((s.flume k f).address s.curCluster k (s.flume k f).pop) ∧
        t.flume k f = { s.flume k f with pop := ((s.flume k f).pop + 1) % 65536 } ∧
        t.curCtx.flumes = s.curCtx.flumes ++ [{ cluster := k, flume := f, slot := (s.flume k f).pop, push := false
                                                addr := (s.flume k f).address s.curCluster k (s.flume k f).pop }]) ∧
    (FlumeReady s [] a [d] false k f → s.curCtx.flumes.length < 8 → ctr16 (s.flume k f).fill (s.flume k f).pop = 0 →
      ∃ t, exec (.flpop d a) s = .next t ∧ t.clusters = s.clusters ∧
        ((s.curCtx.reg a).getLsbD 15 = true → WentOn s t ∧ Writes s.curCtx t.curCtx d 0 ∧ t.curCtx.flumes = s.curCtx.flumes) ∧
        ((s.curCtx.reg a).getLsbD 15 = false → WaitsAt s t (.flume k f false))) ∧
    (FlumeReady s [] a [d] true k f → s.curCtx.flumes.length < 8 → ctr16 (s.flume k f).claim (s.flume k f).rel < 2 ^ (s.flume k f).log2n →
      ∃ t, exec (.flpush d a) s = .next t ∧ WentOn s t ∧ t.mem = s.mem ∧
        Writes s.curCtx t.curCtx d ((s.flume k f).address s.curCluster k (s.flume k f).claim) ∧
        t.flume k f = { s.flume k f with claim := ((s.flume k f).claim + 1) % 65536 } ∧
        t.curCtx.flumes = s.curCtx.flumes ++ [{ cluster := k, flume := f, slot := (s.flume k f).claim, push := true
                                                addr := (s.flume k f).address s.curCluster k (s.flume k f).claim }]) ∧
    (FlumeReady s [] a [d] true k f → s.curCtx.flumes.length < 8 → 2 ^ (s.flume k f).log2n ≤ ctr16 (s.flume k f).claim (s.flume k f).rel →
      ∃ t, exec (.flpush d a) s = .next t ∧ t.clusters = s.clusters ∧
        ((s.curCtx.reg a).getLsbD 15 = true → WentOn s t ∧ Writes s.curCtx t.curCtx d 0 ∧ t.curCtx.flumes = s.curCtx.flumes) ∧
        ((s.curCtx.reg a).getLsbD 15 = false → WaitsAt s t (.flume k f true))) ∧
    (∀ n, FlumeReady s [b] a [] false k f → (s.flume k f).rel < 65536 → n = (s.flume k f).rel → (s.flume k f).released = [] →
      ctr16 (s.flume k f).pop n ≠ 0 → (s.flume k f).pop < 65536 → s.curCtx.reg b = (s.flume k f).address s.curCluster k n →
      ∃ t, exec (.flrel a b) s = .next t ∧ WentOnPlain s t ∧
        t.flume k f = { s.flume k f with rel := (n + 1) % 65536, released := [] } ∧
        ∀ h, h ∈ t.curCtx.flumes ↔ h ∈ s.curCtx.flumes ∧ ¬(h.cluster = k ∧ h.flume = f ∧ h.slot = n ∧ h.push = false)) ∧
    (∀ n, FlumeReady s [b] a [] true k f → (s.flume k f).fill < 65536 → n = (s.flume k f).fill → (s.flume k f).done = [] →
      ctr16 (s.flume k f).claim n ≠ 0 → (s.flume k f).claim < 65536 → s.curCtx.reg b = (s.flume k f).address s.curCluster k n →
      s.pendClasses s.sched.cur s.curCtx 7 s.curCtx.ord = false →
      ∃ t, exec (.fldone a b) s = .next t ∧ WentOnPlain s t ∧
        t.flume k f = { s.flume k f with fill := (n + 1) % 65536, done := [] } ∧
        (∀ h, h ∈ t.curCtx.flumes ↔ h ∈ s.curCtx.flumes ∧ ¬(h.cluster = k ∧ h.flume = f ∧ h.slot = n ∧ h.push = true)) ∧
        t.weirArrivals.length = s.weirArrivals.length + if (s.flume k f).weir = 0x1FFF then 0 else 1)

/-- R243, R249, R251 to R253: the instructions on chunk maps and flumes. -/
def Obligations.ChunkMapsAndFlumes : Prop :=
  Sys2Proof.Claims.ChunkMapInstructions ∧ Sys2Proof.Claims.FlumeInstructions

/-! ### Coding engines -/

/-- R260, R264, R265: ECMD reads a valid block and sends it as a command; a block that fails its checks is ENGINE_REFUSED. ECANCEL takes
the waiting commands it selects out of their inboxes as CANCELLED, and writes how many they were; a message completion that finds its
engine's four places taken waits there (the model's choice: log entry 44). ESTAT writes each of its seven items. -/
def Obligations.EngineInstructions : Prop :=
  ∀ (d a : SReg) (s : State) (h : Nat) (j : Job), Quiet s → s.curCtx.job = some h → s.job? h = some j →
    (∀ ps u, (s.curCtx.reg a).toNat % 64 = 0 → s.wordPlaces (s.agentOf s.sched.cur s.curCtx) (s.curCtx.reg a) 8 = (.ok ps, u) →
      WordsReady s ps → s.ecc = [] → s.footprints < 1024 → s.footprintsOf j.tenant < 64 →
      ∀ ws x, ws = ps.map (fun p => u.mem.readN p.place 8) →
        x = ({ engine := bitsOf (ws.getD 0 0) 15 12, tenant := j.tenant, sender := some { job := h, ord := s.curCtx.ord }
               addr := s.curCtx.reg a, words := ws.map (BitVec.ofNat 64), root := s.curCtx.ptbase, deadline := j.deadline
               be := j.be || j.late, group := s.namedGroup j.group j.tenant, counted := false, stage := .flight, arrival := 0
               discard := false, src := coreOf s.sched.cur, sent := s.sched.steps } : EngCmd) →
        (u.blockOk x = true → ∃ t, exec (.ecmd d a) s = .next t ∧ WentOnPlain s t ∧ t.cmds = s.cmds ++ [x] ∧ t.curCtx.cntEn = 1) ∧
        (u.blockOk x = false →
          exec (.ecmd d a) s = .next ((ps.foldl (fun w p => w.snoopRead p.place 8) u).takeTrap s.sched.cur
            { cause := .engineRefused, value := s.curCtx.reg a } s.curCtx.pc))) ∧
    ((s.curCtx.reg a).toNat < 2 ^ 17 → (∀ x ∈ s.cmds, x.stage = .flight → x.sender.map Sender.job ≠ some h) →
      ∀ sel : EngCmd → Bool, sel = (fun x => x.ofJob h && ((s.curCtx.reg a).getLsbD 16 || x.tag == (s.curCtx.reg a).toNat % 65536)) →
      ∃ t ws, exec (.ecancel d a) s = .next t ∧ WentOn s t ∧ t.mem = s.mem ∧ t.cmds = s.cmds.filter (fun x => !sel x) ++ ws ∧
        (∀ y ∈ ws, y.stage = .unrun 3 ∧ y.byMessage = true) ∧ ((∀ x ∈ s.cmds, sel x = true → x.byMessage = false) → ws = []) ∧
        Writes s.curCtx t.curCtx d (BitVec.ofNat 64 (s.cmds.filter sel).length)) ∧
    ∀ sel : Fin 7, (s.curCtx.reg a).toNat < 16 →
      ∃ t, exec (.estat d a sel) s = .next t ∧ WentOn s t ∧ t = { s with ctxs := t.ctxs } ∧
        Writes s.curCtx t.curCtx d (let x := s.engCount (s.curCtx.reg a).toNat j.tenant
          match sel.val with
          | 0 => BitVec.ofNat 64 (s.cmds.filter fun c =>
              c.engine == (s.curCtx.reg a).toNat && c.tenant == j.tenant && c.stage != .flight && c.recorded).length
          | 1 => x.completed
          | 2 => BitVec.ofNat 64 x.discard
          | 3 => BitVec.ofNat 64 x.aborted
          | 4 => BitVec.ofNat 64 x.cancelled
          | 5 => BitVec.ofNat 64 (s.footprintsOf j.tenant)
          | _ => x.fault)

/-- R235, R260: a command reaches its engine and is accepted where its inbox has room and the engine accepts commands (R419), or answered 1
and dropped; the answer comes back to its instruction's register. -/
def Sys2Proof.Claims.EngineCommandArrival : Prop :=
  (∀ (s : State) (c : EngCmd) (x : Sender) (rest : List EngCmd), s.cmds = c :: rest → c.stage = .flight → c.sender = some x →
    s.released (some x) 3 = true → s.cmdHeld 0 c = false →
    (s.inboxOf c.engine c.tenant < 4 → s.gated (.engine c.engine) = false → s.sliceReady (c.engine / 2) = true →
      ∃ t y, exec (.engineCmdArrive 0) s = .next t ∧ t.cmds = y :: rest ∧ y.stage = .waiting ∧ y.words = c.words ∧
        y.arrival = s.cmdCount ∧ t.cmdCount = s.cmdCount + 1 ∧ t.mem = s.mem ∧
        t.engAnswers = s.engAnswers ++ [{ sender := x, status := 0, slot := none, counted := none }]) ∧
    (4 ≤ s.inboxOf c.engine c.tenant ∨ s.gated (.engine c.engine) = true ∨ s.sliceReady (c.engine / 2) = false →
      ∃ t, exec (.engineCmdArrive 0) s = .next t ∧ t.cmds = rest ∧ t.mem = s.mem ∧
        t.engAnswers = s.engAnswers ++ [{ sender := x, status := 1, slot := none, counted := none }])) ∧
  ∀ (s : State) (x : Sender) (v : Word) (rest : List Answer) (j : Job) (cx : Nat) (o : PendOp),
    s.engAnswers = { sender := x, status := v, slot := none, counted := none } :: rest → s.job? x.job = some j → j.state = .running cx →
    cx < numCtx → (s.ctx cx).ops = [o] → o.ord = x.ord →
    ∃ t, exec (.engineAnswer 0) s = .next t ∧ t.engAnswers = rest ∧ Writes (s.ctx cx) (t.ctx cx) o.dst v ∧ (t.ctx cx).ops = [] ∧
      t.mem = s.mem ∧ ∀ y, y ≠ cx → t.ctx y = s.ctx y

/-- R261 to R263: an engine runs the command in turn: its status and header bits are those of its operation on the bytes of its
regions, and the output goes behind the header's place, nowhere else. -/
def Obligations.EngineOperationsRun : Prop :=
  ∀ (i : Instr) (e : Nat) (op : Nat) (s : State) (c : EngCmd) (p0 p1 p2 : Nat) (d0 d1 : List Byte) (r : Nat × Nat × List Byte),
    (i, op) ∈ [(Instr.ldpcDecode e, 1), (.ldpcEncode e, 2), (.polarDecode e, 3), (.polarEncode e, 4), (.rateDematch e, 5),
      (.rateMatch e, 6), (.crcCheck e, 7)] →
    s.enginePick e = some c → c.opcode = op → s.sluice.table.isSome = true → s.ecc = [] → s.linkPoison = [] →
    InMesh s c.tenant c.r0.base c.r0.len p0 → (c.r1.len = 0 ∨ InMesh s c.tenant c.r1.base c.r1.len p1) →
    d0 = s.mem.readBytes p0 c.r0.len → d1 = s.mem.readBytes p1 c.r1.len → r = c.compute d0 d1 →
    c.wr.base % 64 = 0 → InMesh s c.tenant c.wr.base (64 + r.2.2.length) p2 → s.lpddr ≤ 2 ^ 40 →
    LinesBelow s → s.cmdTwin c = none →
    ∃ t, exec i s = .next t ∧ t.mem = s.mem.writeBytes (p2 + 64) r.2.2 ∧
      t.cmds = s.cmds.map (fun x => if x = c then { c with stage := .done r.1 (r.1 + r.2.1) 0 } else x) ∧
      t.ctxs = s.ctxs ∧ t.jobs = s.jobs ∧ t.cores = s.cores ∧ t.eng = s.eng

/-- R261, R263: a command that has run completes: its header is written, its entry is released, it is counted, and its reply leaves
as its reply word says. -/
def Sys2Proof.Claims.EngineCommandCompletes : Prop :=
  ∀ (s : State) (e : Nat) (c : EngCmd) (rest : List EngCmd) (st h p : Nat) (f : Word),
    s.cmds = c :: rest → c.engine = e → c.stage = .done st h f → c.wr.base % 64 = 0 → InMesh s c.tenant c.wr.base 64 p →
    s.linkPoison = [] → s.lpddr ≤ 2 ^ 40 → LinesBelow s → c ∉ rest →
    ∃ t, exec (.engineCompletion e) s = .next t ∧ t.cmds = rest ∧ t.mem.readN p 8 = h % 2 ^ 64 ∧ t.mem.readN (p + 16) 8 = f.toNat ∧
      (∀ q, (q < p ∨ p + 64 ≤ q) → t.mem.read q = s.mem.read q) ∧
      (t.engCount e c.tenant).completed = (s.engCount e c.tenant).completed + 1 ∧
      (t.engCount e c.tenant).fault = (if 4 ≤ st ∧ st ≤ 7 then f else (s.engCount e c.tenant).fault) ∧
      (c.discard = false → c.reply.getLsbD 63 = true →
        ∃ a, t.weirArrivals = s.weirArrivals ++ [a] ∧ a.weir = c.reply.toNat % 2 ^ 13 ∧ a.tenant = c.tenant ∧ a.weight = 1 ∧
          a.abort = (st == 2 || st == 3 || st == 8)) ∧
      (c.discard = false → c.reply.getLsbD 63 = false → c.reply.getLsbD 62 = true → t.eng = s.eng ∧ t.weirArrivals = s.weirArrivals) ∧
      (c.discard = false → c.reply.getLsbD 63 = false → c.reply.getLsbD 62 = false →
        ∃ x, t.eng = s.eng ++ [x] ∧ x.dst = c.reply.toNat % 256 ∧ x.tenant = c.tenant ∧
          x.payload = [BitVec.ofNat 64 (st + 256 * c.opcode + 65536 * c.tag), BitVec.ofNat 64 h, c.addr, f, BitVec.ofNat 64 e])

/-- R235, R260 to R265: engine commands are accepted or refused, and completed. -/
def Obligations.EngineCommandService : Prop :=
  Sys2Proof.Claims.EngineCommandArrival ∧ Sys2Proof.Claims.EngineCommandCompletes

namespace Sys2Proof.Claims
open Sys2Proof Sys2Proof.Machine

/-! ### Jobs -/

/-- n aligned words at va can be read by the issuing context, as ws (R225). -/
def ReadsWords (s : State) (va : Word) (n : Nat) (ws : List Nat) : Prop :=
  ∃ ps, (s.wordPlaces (s.agentOf s.sched.cur s.curCtx) va n).1 = .ok ps ∧ WordsReady s ps ∧ s.ecc = [] ∧
    ws = ps.map fun p => (s.wordPlaces (s.agentOf s.sched.cur s.curCtx) va n).2.mem.readN p.place 8

/-- The keys of a map rise strictly, as every map of the state keeps them. -/
def RisingKeys {α : Type} (m : FMap α) : Prop := List.Pairwise (fun a b => a.1 < b.1) m

/-- Every time the cluster counters may show leaves the cores of a cluster clear of a gate edge (R340). -/
def NoEdgeNear (s : State) (k : Nat) : Prop := ∀ (τ : Time) (c : Nat), clusterOf c = k → ({ s with time := τ } : State).guardDue c = false

end Sys2Proof.Claims

/-! ### Jobs and the Governor -/

/-- R270 to R275, R281, R282, R292: SPAWN of a valid record makes COUNT children, queued, with consecutive handles, their WID fields,
the parent's tenant and the deadline of the record or the parent; an invalid record is LAUNCH_INVALID. -/
def Sys2Proof.Claims.SpawnLaunchesChildren : Prop :=
  ∀ (d a : SReg) (s : State) (h : Nat) (j : Job) (ws : List Nat) (r : LaunchRec), Quiet s → s.curCtx.job = some h → s.job? h = some j →
    (s.curCtx.reg a).toNat % 64 = 0 → ReadsWords s (s.curCtx.reg a) 8 ws → r = LaunchRec.ofWords ws →
    (s.recordOk j.tenant r = true → (∀ k ∈ maskClusters (s.reducedMask j.tenant r.clusters), 128 < s.freeRecords k) →
      ∃ t base, exec (.spawn d a) s = .next t ∧ t.curCtx.pc = s.nextPc ∧ PageBits s.mem t.mem ∧ base < 2 ^ 32 ∧
        Writes s.curCtx t.curCtx d (BitVec.ofNat 64 base) ∧
        ∀ i < r.count, ∃ y, t.job? ((base + i) % 2 ^ 32) = some y ∧ y.state = .queued ∧ y.tenant = j.tenant ∧ y.wid = r.childWid i ∧
          y.parent = some h ∧ y.ancestors = h :: j.ancestors ∧ y.deadline = (if r.deadline = 0 then j.deadline else r.deadline) ∧
          y.pc = r.pc ∧ y.arg = r.arg ∧ y.vlc = r.vlc ∧ y.matrix = r.matrix ∧ y.be = (r.be || j.be || j.late) ∧
          y.weir = r.weir ∧ bit (s.reducedMask j.tenant r.clusters) y.cluster = true) ∧
    (s.recordOk j.tenant r = false → ∃ u : State, PageBits s.mem u.mem ∧ u.ctxs = s.ctxs ∧ u.jobs = s.jobs ∧
      exec (.spawn d a) s = .next (u.takeTrap s.sched.cur { cause := .launchInvalid, value := s.curCtx.reg a } s.curCtx.pc))

/-- R293: JEND waits while work is outstanding; else the job leaves: its handle and context are free, its group counts it ended, and
its completion weir gets an arrival of weight 1. -/
def Sys2Proof.Claims.JobEnd : Prop :=
  ∀ (s : State) (h : Nat) (j : Job), HeldReady s [] [] → s.curCtx.job = some h → s.job? h = some j → j.state = .running s.sched.cur →
    s.pdepth s.sched.cur s.curCtx = 0 →
    (s.drained s.sched.cur s.curCtx = false → ∃ t, exec .jend s = .next t ∧ WaitsAt s t .drained) ∧
    (s.drained s.sched.cur s.curCtx = true → (∀ m, s.mxOf s.sched.cur s.curCtx = some m → m.fpend = false) →
      ∃ t, exec .jend s = .next t ∧ t.job? h = none ∧ t.curCtx = Ctx.reset ∧ t.mem = s.mem ∧
        (∀ cx, cx < numCtx → cx ≠ s.sched.cur → t.ctx cx = s.ctx cx) ∧ (∀ x, x ≠ h → t.job? x = s.job? x) ∧
        (t.core (coreOf s.sched.cur)).mx.job ≠ some h ∧
        (j.group ≠ 0xFF → (t.groupOf j.group).ended = (s.groupOf j.group).ended + 1 ∧
          (t.groupOf j.group).abandoned = (s.groupOf j.group).abandoned) ∧
        (j.weir = 0x1FFF → t.weirArrivals = s.weirArrivals) ∧
        (j.weir ≠ 0x1FFF → t.weirArrivals = s.weirArrivals ++
          [{ source := .cluster j.cluster, weir := j.weir, tenant := j.tenant, weight := 1, abort := false, sender := none
             sent := s.sched.steps }]))

/-- R294, R295: what JDEAD, JTIGHT, JWID, JSELF and JINFO write, and that JTIGHT alone changes the job, to no later a deadline. -/
def Sys2Proof.Claims.JobIdentityReads : Prop :=
  ∀ (d a : SReg) (lvl : Fin 6) (sel : Fin 8) (s : State) (h : Nat) (j : Job), s.curCtx.job = some h → s.job? h = some j →
    (HeldReady s [] [d] →
      (∃ t now, exec (.jdead d) s = .next t ∧ WentOn s t ∧ t.jobs = s.jobs ∧ t.mem = s.mem ∧ s.time.ref ≤ now ∧
        t.time.cluster.get 0 (clusterOf (coreOf s.sched.cur)) = now ∧ Writes s.curCtx t.curCtx d (j.deadline - BitVec.ofNat 64 now)) ∧
      (∃ t, exec (.jself d) s = .next t ∧ WentOn s t ∧ t = { s with ctxs := t.ctxs } ∧
        Writes s.curCtx t.curCtx d (BitVec.ofNat 64 (h + 2 ^ 32 * coreOf s.sched.cur + 2 ^ 40 * (s.sched.cur % 4) +
          2 ^ 44 * clusterOf (coreOf s.sched.cur) + 2 ^ 48 * j.late.toNat + 2 ^ 49 * (j.be || j.late).toNat))) ∧
      ∃ t, exec (.jinfo d sel) s = .next t ∧ WentOn s t ∧ t = { s with ctxs := t.ctxs } ∧
        Writes s.curCtx t.curCtx d (match sel.val with
          | 0 => BitVec.ofNat 64 (j.late.toNat + 2 * (j.be || j.late).toNat + 4 * j.vlc + 16 * j.matrix.toNat +
              32 * (decide (j.origin = .message ∨ j.origin = .trigger)).toNat + 64 * (decide (j.origin = .weir)).toNat +
              (match j.origin with
                | .root _ => 128
                | _ => 0))
          | 1 => (match j.parent with
            | some p => BitVec.ofNat 64 p
            | none => BitVec.allOnes 64)
          | 2 => BitVec.ofNat 64 (j.reservation.getD 0xFFF)
          | 3 => BitVec.ofNat 64 j.ready
          | 4 => BitVec.ofNat 64 (j.dispatched.getD 0)
          | 5 => (match s.rsvOf j with
            | some r => BitVec.ofInt 64 ((r.q : Int) - r.consumed)
            | none => 0)
          | 6 => BitVec.ofNat 64 j.weir
          | _ => j.abaddr)) ∧
    (HeldReady s [a] [d] →
      (∃ t y, exec (.jtight d a) s = .next t ∧ t.curCtx.pc = s.nextPc ∧ t.mem = s.mem ∧ t.job? h = some { j with deadline := y } ∧
        y = (if s.curCtx.reg a ≠ 0 ∧ (s.curCtx.reg a).toNat < j.deadline.toNat then s.curCtx.reg a else j.deadline) ∧
        Writes s.curCtx t.curCtx d y ∧ ∀ x, x ≠ h → t.job? x = s.job? x) ∧
      ∃ t, exec (.jwid d a lvl) s = .next t ∧ WentOn s t ∧ t = { s with ctxs := t.ctxs } ∧
        Writes s.curCtx t.curCtx d (BitVec.ofNat 64 (widField j.layout (s.curCtx.reg a) lvl.val)))

/-- R288, R296: JABORT 0 stops the executing job for good; with the handle of a live descendant, whether it is queued or held, moving,
parked, saved, or has started and stands in a context, it abandons that one and answers 0, and with any other handle it answers 1 and
changes nothing. -/
def Sys2Proof.Claims.JobAbort : Prop :=
  ∀ (d a : SReg) (s : State) (h : Nat) (j : Job), HeldReady s [a] [d] → s.curCtx.job = some h → s.job? h = some j →
    j.state = .running s.sched.cur →
    (s.curCtx.reg a = 0 → ∃ t, exec (.jabort d a) s = .next t ∧ t.job? h = some { j with state := .abandoning s.sched.cur 0 } ∧
      t.curCtx.status = .stopping ∧ t.mem = s.mem ∧ ∀ cx, cx < numCtx → cx ≠ s.sched.cur → t.ctx cx = s.ctx cx) ∧
    (∀ x y, (s.curCtx.reg a).toNat = x → x ≠ 0 → x < 2 ^ 32 → s.live x = some y → y.ancestors.contains h = true →
      (y.state = .queued ∨ y.state = .moving ∨ ∃ p, y.state = .parked p ∨ y.state = .saved p) →
      ∃ t, exec (.jabort d a) s = .next t ∧ t.curCtx.pc = s.nextPc ∧ Writes s.curCtx t.curCtx d 0 ∧
        t.job? x = some { y with state := .abandoning (numCtx + x) 0 } ∧ t.mem = s.mem ∧ ∀ z, z ≠ x → t.job? z = s.job? z) ∧
    (∀ x y cx, (s.curCtx.reg a).toNat = x → x ≠ 0 → x < 2 ^ 32 → s.live x = some y → y.ancestors.contains h = true →
      (y.state = .running cx ∨ y.state = .parking cx) → cx < numCtx → cx ≠ s.sched.cur →
      ∃ t, exec (.jabort d a) s = .next t ∧ t.curCtx.pc = s.nextPc ∧ Writes s.curCtx t.curCtx d 0 ∧
        t.job? x = some { y with state := .abandoning cx 0 } ∧ (t.ctx cx).status = .stopping ∧ t.mem = s.mem ∧
        (∀ z, z ≠ x → t.job? z = s.job? z) ∧ ∀ c, c < numCtx → c ≠ cx → c ≠ s.sched.cur → t.ctx c = s.ctx c) ∧
    (∀ x, (s.curCtx.reg a).toNat = x → x ≠ 0 → x < 2 ^ 32 → (∀ y, s.live x = some y → y.ancestors.contains h = false) →
      ∃ t, exec (.jabort d a) s = .next t ∧ t.curCtx.pc = s.nextPc ∧ Writes s.curCtx t.curCtx d 1 ∧ t.jobs = s.jobs)

/-- R270 to R296: jobs are launched, end and are aborted. -/
def Obligations.LaunchesAndEnds : Prop :=
  Sys2Proof.Claims.SpawnLaunchesChildren ∧ Sys2Proof.Claims.JobEnd ∧ Sys2Proof.Claims.JobAbort

/-- R105, R245, R290, R293, R363: a waiting context runs on when what it waits for has come, and not before. -/
def Sys2Proof.Claims.WaitsEnd : Prop :=
  ∀ (s : State) (cx : Nat) (c : Ctx), cx < numCtx → c = s.ctx cx →
    (∀ w, c.status = .waiting w →
      exec (.waitSatisfied cx) s = .next (if s.waitOver cx c w then s.setCtx cx { c with status := .running } else s)) ∧
    (∀ k m mask, s.waitOver cx c (.chunks k m mask true) = true ↔ s.chunkMap k m &&& mask = mask) ∧
    (∀ k m mask, s.waitOver cx c (.chunks k m mask false) = true ↔ s.chunkMap k m &&& mask ≠ 0) ∧
    (∀ k f, s.waitOver cx c (.flume k f false) = true ↔ ctr16 (s.flume k f).fill (s.flume k f).pop ≠ 0) ∧
    (∀ k f, s.waitOver cx c (.flume k f true) = true ↔ ctr16 (s.flume k f).claim (s.flume k f).rel < 2 ^ (s.flume k f).log2n) ∧
    (∀ ld st cp mx en, s.waitOver cx c (.counters ld st cp mx en) = true ↔
      (ld = 15 ∨ c.cntLd ≤ ld) ∧ (st = 15 ∨ c.cntSt ≤ st) ∧ (cp = 15 ∨ c.cntCp ≤ cp) ∧ (mx = 15 ∨ s.cntMx cx c ≤ mx) ∧
        (en = 15 ∨ c.cntEn ≤ en)) ∧
    (∀ n p, c.status = .waiting (.until n p) → n ≤ s.time.ref →
      ∃ t, exec (.idleExpire cx) s = .next t ∧ t.ctx cx = { c with status := .running } ∧ t.jobs = s.jobs ∧ t.mem = s.mem) ∧
    (∀ n p, c.status = .waiting (.until n p) → s.time.ref + 8 < n → s.time.cluster.get 0 (clusterOf (coreOf cx)) < n →
      ∃ t, exec (.idleExpire cx) s = .next t ∧ t.ctx cx = c)

/-- R105, R245, R290 to R295, R363: what a job reads and sets of itself, and when its waits end. -/
def Obligations.JobIdentityAndWaits : Prop :=
  Sys2Proof.Claims.JobIdentityReads ∧ Sys2Proof.Claims.WaitsEnd

/-- R89, R281, R283, R284, R326: a decision of the Governor starts the one ready job of a cluster on an open core of its tenant where it
fits, with the registers of a job start. -/
def Sys2Proof.Claims.DispatchStartsReadyJob : Prop :=
  ∀ (s : State) (k h tn : Nat) (j : Job) (f : Fit), k < 12 → s.jobs = [(h, j)] → j.state = .queued → j.cluster = k → j.tenant = tn →
    tn < 32 → s.heldJob j = false → j.img = none → j.payload = [] → (∀ c, (s.core c).entries = []) → s.sluice.loading = false →
    NoEdgeNear s k → (j.be = false ∨ s.power.throttle = 0) →
    (s.time.everLocked = false ∨ j.late = true ∨ j.be = true ∨
      s.time.ref + 8 < j.deadline.toNat ∧ s.time.cluster.get 0 k < j.deadline.toNat) →
    s.pick (s.openCores k tn) j.vlc j.matrix = some f →
    ∃ t cx y, exec (.governorDispatch k) s = .next t ∧ coreOf cx = f.core ∧ t.job? h = some y ∧ y.state = .running cx ∧ y.quad = f.quad ∧
      y.dispatched.isSome = true ∧ (t.ctx cx).job = some h ∧ (t.ctx cx).status = .running ∧ (t.ctx cx).pc = j.pc ∧
      (t.ctx cx).mode = .user ∧ (t.ctx cx).reg 2 = s.stackTop tn cx ∧ (t.ctx cx).reg 3 = j.arg ∧ (t.ctx cx).reg 4 = j.wid ∧
      (t.ctx cx).ptbase = s.rootOf tn ∧ (t.ctx cx).grant = grantOf j.vlc ∧
      (j.matrix = true → (t.core f.core).mx.job = some h) ∧ (t.cluster k).lastOwner = tn ∧ t.mem = s.mem

/-- R268, R287, R289, R363: at its deadline a running RT job is demoted, which ends its IDLE, or abandoned if it does not say DEMOTE; a queued or saved one and a
handler that has not started are abandoned. -/
def Sys2Proof.Claims.DeadlinePasses : Prop :=
  (∀ (s : State) (cx h : Nat) (j : Job), cx < numCtx → (s.ctx cx).job = some h → s.job? h = some j → j.state = .running cx →
    j.be = false → j.late = false → s.time.everLocked = true → j.deadline.toNat ≤ s.time.ref →
    (j.demote = true → ∃ t, exec (.deadlineComparator cx) s = .next t ∧ t.job? h = some { j with late := true } ∧
      t.ctx cx = (s.ctx cx).endIdle) ∧
    (j.demote = false → (s.ctx cx).mode = .user →
      ∃ t, exec (.deadlineComparator cx) s = .next t ∧ t.job? h = some { j with state := .abandoning cx 0 } ∧
        (t.ctx cx).status = .stopping) ∧
    (j.demote = false → (s.ctx cx).mode = .supervisor →
      ∃ t, exec (.deadlineComparator cx) s = .next t ∧ t.jobs = s.jobs ∧ t.ctx cx = s.ctx cx)) ∧
  (∀ (s : State) (h : Nat) (j : Job), s.job? h = some j → (j.state = .queued ∨ ∃ cx, j.state = .saved cx) → s.time.everLocked = true →
    (j.be = false → j.late = false → j.deadline.toNat ≤ s.time.ref →
      ∃ t, exec (.queuedDeadlinePass (.job h)) s = .next t ∧ t.job? h = some { j with state := .abandoning (numCtx + h) 0 }) ∧
    (s.time.ref + 8 < j.deadline.toNat → s.time.cluster.get 0 j.cluster < j.deadline.toNat →
      ∃ t, exec (.queuedDeadlinePass (.job h)) s = .next t ∧ t.jobs = s.jobs)) ∧
  ∀ (s : State) (c : Nat) (e : HandlerEntry) (rest : List HandlerEntry), (s.core c).entries = e :: rest → s.time.everLocked = true →
    ((s.core c).tags.get {} e.tag).be = false → (e.due ((s.core c).tags.get {} e.tag)).toNat ≤ s.time.ref →
    ∃ t, exec (.queuedDeadlinePass (.handler c 0)) s = .next t ∧ (t.core c).entries = rest ∧ t.mem = s.mem

/-- R89, R268, R281 to R289, R326: a ready job starts, and deadlines pass. -/
def Obligations.DispatchAndDeadlines : Prop :=
  Sys2Proof.Claims.DispatchStartsReadyJob ∧ Sys2Proof.Claims.DeadlinePasses

/-- R288: the abandon action: once the job's writes are performed its never-started descendants are dropped and its started ones
abandoned; once those are gone its abandon word is stored, its weir gets an ABORT arrival, and it leaves.  The agent of the abandon word
and the phases of the action are the model's reading: log entries 50 and 30. -/
def Sys2Proof.Claims.AbandonActions : Prop :=
  (∀ (s : State) (h cx : Nat) (j : Job), s.job? h = some j → j.state = .abandoning cx 0 → cx < numCtx → j.ancestors.contains h = false →
    RisingKeys s.jobs → (s.ctx cx).flumes = [] →
    (s.ctx cx).settled = true → s.cntMx cx (s.ctx cx) = 0 →
    ∃ t, exec (.abandonAction h) s = .next t ∧ t.job? h = some { j with state := .abandoning cx 1 } ∧ t.mem = s.mem ∧
      (∀ x y, s.job? x = some y → y.ancestors.contains h = true → y.dispatched = none → (∀ c p, y.state ≠ .abandoning c p) →
        t.job? x = none) ∧
      (∀ x y, s.job? x = some y → y.ancestors.contains h = true → y.dispatched ≠ none →
        ∃ z c p, t.job? x = some z ∧ z.state = .abandoning c p) ∧
      ∀ c ∈ t.cmds, c.ofJob h = false) ∧
  (∀ (s : State) (h cx : Nat) (j : Job), s.job? h = some j → j.state = .abandoning cx 0 → (s.ctx cx).settled = false →
    exec (.abandonAction h) s = .next s) ∧
  ∀ (s : State) (h cx : Nat) (j : Job) (g : Agent), s.job? h = some j → j.state = .abandoning cx 1 → s.descendants h = [] →
    g = { owner := j.tenant, root := if j.dispatched.isSome then (s.ctx cx).ptbase else s.rootOf j.tenant, user := true
          core := if j.dispatched.isSome then j.lastCx.map coreOf else none, cluster := if j.dispatched.isSome then some j.cluster else none } →
    ∃ t, exec (.abandonAction h) s = .next t ∧ t.job? h = none ∧ (∀ x, x ≠ h → t.job? x = s.job? x) ∧
      (j.abaddr = 0 → t.mem = s.mem) ∧
      (∀ x, j.abaddr ≠ 0 → (s.access g j.abaddr 8 .write true).1 = .ok x →
        (x.cached = none → ∀ i < 8, s.stale.find? ((x.place + i) / 64) = none) → t.bytesAt x.cached x.place 8 = j.abword.toNat) ∧
      (∀ e, j.abaddr ≠ 0 → (s.access g j.abaddr 8 .write true).1 = .error e →
        t.abwFail.get 0 j.tenant = s.abwFail.get 0 j.tenant + 1) ∧
      (j.weir ≠ 0x1FFF → ∃ y, t.weirArrivals = s.weirArrivals ++ [y] ∧ y.weir = j.weir ∧ y.abort = true ∧ y.weight = 1) ∧
      (j.group ≠ 0xFF → (t.groupOf j.group).ended = (s.groupOf j.group).ended + 1 ∧
        (t.groupOf j.group).abandoned = (s.groupOf j.group).abandoned + 1)

/-- R277, R278, R286: a reservation's release launches its root record with the release's deadline and clears its consumption; each
microsecond of its cluster's counter (the model's reading: log entry 51) a running job's reservation is charged; load averaging publishes the counts of queued BE jobs and moves only those. -/
def Sys2Proof.Claims.ReservationsAndAveraging : Prop :=
  (∀ (s : State) (r : Nat) (x : Rsv), s.rsvs.find? r = some x → s.time.everLocked = true → x.next ≤ s.time.ref →
    s.recordOk x.tenant x.root = true →
    ∃ t, exec (.reservationRelease r) s = .next t ∧ t.rsvs.find? r = some { x with consumed := 0, next := x.next + x.p } ∧
      t.mem = s.mem ∧ ∀ i < x.root.count, ∃ h j, t.job? h = some j ∧ j.tenant = x.tenant ∧ j.reservation = some r ∧
        j.deadline = BitVec.ofNat 64 (x.next + x.d) ∧ j.wid = x.root.childWid i ∧ j.origin = .root r) ∧
  (∀ (s : State) (r : Nat) (x : Rsv), s.rsvs.find? r = some x → (s.time.everLocked = false ∨
      s.time.ref + 8 < x.next ∧ s.time.cluster.get 0 0 < x.next) →
    ∃ t, exec (.reservationRelease r) s = .next t ∧ t.rsvs = s.rsvs ∧ t.jobs = s.jobs) ∧
  (∀ (s : State) (h cx r : Nat) (j : Job) (x : Rsv), s.jobs = [(h, j)] → j.state = .running cx → j.reservation = some r →
    s.rsvs.find? r = some x → x.gen = j.rsvGen → j.cluster < 12 → (s.cluster j.cluster).lastBudget < s.time.ref / 1000 →
    ∃ t now, exec .budgetUpdate s = .next t ∧ s.time.ref ≤ now ∧ s.time.ref / 1000 ≤ (t.cluster j.cluster).lastBudget ∧
      t.rsvs.find? r = some { x with consumed := x.consumed + (now - j.charged) } ∧ t.job? h = some { j with charged := now }) ∧
  (∀ (s : State) (k : Nat), k < 12 → RisingKeys s.jobs → (s.cluster k).lastAverage < s.time.ref / 2000 →
    ∃ t, exec (.loadAveraging k) s = .next t ∧
      (∀ o, o < 32 ∨ o = 62 → (t.cluster k).published.get 0 o = (s.queuedBe k o).length) ∧ t.mem = s.mem ∧ t.ctxs = s.ctxs ∧
      ∀ h, t.job? h = s.job? h ∨ ∃ j, s.job? h = some j ∧ t.job? h = some { j with state := .moving } ∧ j.be = true ∧
        j.state = .queued ∧ j.cluster = k) ∧
  ∀ (s : State) (m : Move) (rest : List Move) (j : Job), s.moves = m :: rest → m.arrived = none → s.job? m.job = some j →
    ∃ t, exec (.jobMoveArrive 0) s = .next t ∧ t.moves = { m with arrived := some (s.clusterNow m.from_).1 } :: rest ∧
      t.job? m.job = some (if j.state = .moving then { j with state := .queued, cluster := m.to_, range := m.job + 1 } else j) ∧ ∀ x, x ≠ m.job → t.job? x = s.job? x

/-- R277, R278, R286, R288: the phases of the abandon action, releases and budgets, and load averaging. Where it rests on choices of the
model they are those of log entries 30, 50 and 51. -/
def Obligations.AbandonmentAndBudgets : Prop :=
  Sys2Proof.Claims.AbandonActions ∧ Sys2Proof.Claims.ReservationsAndAveraging

namespace Sys2Proof.Claims
open Sys2Proof Sys2Proof.Machine

/-! ### Messages, weirs, barriers and launch groups -/

/-- An instruction of the issuing context that can act on weir w (R307). -/
structure WeirReady (s : State) (reads : List SReg) (a : SReg) (writes : List SReg) (w : Nat) : Prop where
  ready : HeldReady s (a :: reads) writes
  word : w = (s.curCtx.reg a).toNat
  valid : w < 6144
  owner : s.weirOwner w = s.tenantOf s.curCtx
  turn : ∀ x ∈ s.weirArrivals, x.source = .core (coreOf s.sched.cur) → x.weir / 512 ≠ w / 512

/-- An instruction of the issuing context that can act on barrier id of its core (R311). -/
structure BarrierReady (s : State) (reads : List SReg) (a : SReg) (writes : List SReg) (id : Nat) : Prop where
  ready : HeldReady s (a :: reads) writes
  word : (s.curCtx.reg a).toNat = 256 * id + coreOf s.sched.cur
  valid : id < 256
  owner : s.barrierOwner (coreOf s.sched.cur) id = s.tenantOf s.curCtx

/-- An entry joined the inbox of a core with these contents. -/
def EntryJoined (s t : State) (core : Nat) (kind : EntryKind) (tag tenant : Nat) (payload : List Word) (src : Option Nat) : Prop :=
  ∃ e, (t.core core).entries = (s.core core).entries ++ [e] ∧ e.kind = kind ∧ e.tag = tag ∧ e.tenant = tenant ∧ e.payload = payload ∧
    e.src = src

end Sys2Proof.Claims

/-! ### Active messages -/

/-- R301 to R304: MSENDRQ and MSENDRP put a message of their payload registers on the network, take an outbox entry and count in CNTEN;
a request reserves a reply slot.  Where the context's outbox is full, or a request finds no reply slot, the send waits, or is SENDQ_FULL
where that is delegated. -/
def Obligations.MessageSendInstructions : Prop :=
  ∀ (d a p : SReg) (n : Fin 9) (reply : Bool) (i : Instr) (s : State) (h : Nat) (j : Job) (core : Nat),
    i = (if reply then .msendrp d a p n else .msendrq d a p n) → HeldReady s (a :: payloadRegs p n.val) [d] → s.curCtx.job = some h →
    s.job? h = some j → core = coreOf s.sched.cur → s.sendHeld = false → s.curCtx.cntEn < 255 →
    s.msgWordOk (s.curCtx.reg a) = true → (reply = false → s.tbl.arspSize core j.tenant ≠ 0) →
    (s.curCtx.outbox < s.curCtx.oblim.toNat → (reply = false → s.freeReply core j.tenant ≠ 0) →
      ∃ t m, exec i s = .next t ∧ WentOnPlain s t ∧ t.am = s.am ++ [m] ∧ m.reply = reply ∧ m.tenant = j.tenant ∧
        m.deadline = j.deadline ∧ m.src = core ∧ m.dst = (s.curCtx.reg a).toNat % 256 ∧
        m.tag = (s.curCtx.reg a).toNat / 256 % 64 ∧ m.group = s.namedGroup j.group j.tenant ∧
        m.payload = (List.range n.val).map (fun k => s.curCtx.reg (Fin.ofNat 32 (p.val + k))) ∧
        m.sender = some { job := h, ord := s.curCtx.ord } ∧ t.curCtx.cntEn = s.curCtx.cntEn + 1 ∧
        t.curCtx.outbox = s.curCtx.outbox + 1 ∧ t.mem = s.mem ∧
        m.right = (reply && s.curCtx.replyRight == some m.dst) ∧
        t.curCtx.replyRight = (if m.right then none else s.curCtx.replyRight) ∧
        (t.core core).reserved.get 0 j.tenant = (s.core core).reserved.get 0 j.tenant + (if reply then 0 else 1)) ∧
    (∀ full, full = decide (s.curCtx.oblim.toNat ≤ s.curCtx.outbox) → full = true ∨ (reply = false ∧ s.freeReply core j.tenant = 0) →
      (s.curCtx.depth = 0 → s.curCtx.deleg.getLsbD 14 = true → s.trapHeld s.sched.cur s.curCtx = false →
        TrapsHere i s .sendqFull (if full then s.curCtx.reg a else s.curCtx.reg a ||| BitVec.ofNat 64 (2 ^ 63))) ∧
      (s.curCtx.deleg.getLsbD 14 = false ∨ s.curCtx.depth ≠ 0 → exec i s = .next s))

/-- R299, R300, R304: MTAG programs a tag from its record, MEN and MDIS switch the tags of a mask, MPEND reads the pending ones, MCLR empties
their entries, releases the reply slots of the requests among them and counts them; a tag of another owner is PROTECTION. -/
def Obligations.RouteTagInstructions : Prop :=
  (∀ (d a : SReg) (mx : Fin 2) (s : State) (x : Xlat) (core tag : Nat) (m : Memory), Quiet s → core = coreOf s.sched.cur →
    tag = (s.curCtx.reg d).toNat → tag < 64 → s.tagOwner core tag = s.tenantOf s.curCtx →
    (s.access (s.agentOf s.sched.cur s.curCtx) (s.curCtx.reg a) 16 .read false).1 = .ok x →
    m = (s.access (s.agentOf s.sched.cur s.curCtx) (s.curCtx.reg a) 16 .read false).2.mem → s.ecc = [] →
    (x.cached = none → ∀ i < 16, s.stale.find? ((x.place + i) / 64) = none) →
    m.readN (x.place + 8) 1 = tag → m.readN (x.place + 9) 1 ≤ 1 → m.readN (x.place + 10) 1 ≤ 2 → m.readN (x.place + 11) 1 = 0 →
    m.readN x.place 8 % 2 = 0 → m.readN x.place 8 < 2 ^ 48 →
    ∃ t, exec (.mtag d a mx) s = .next t ∧ WentOnPlain s t ∧
      (t.core core).tags.get {} tag = { handler := BitVec.ofNat 64 (m.readN x.place 8), en := ((s.core core).tags.get {} tag).en
                                        matrix := mx.val == 1, be := m.readN (x.place + 9) 1 == 1, vlc := m.readN (x.place + 10) 1
                                        reldl := m.readN (x.place + 12) 4 } ∧
      ∀ k, k ≠ tag → (t.core core).tags.get {} k = (s.core core).tags.get {} k) ∧
  (∀ (d a : SReg) (mx : Fin 2) (s : State), HeldClear s [d, a] [] → s.curFenced 0 = false → (s.curCtx.reg d).toNat < 64 →
    s.tagOwner (coreOf s.sched.cur) (s.curCtx.reg d).toNat ≠ s.tenantOf s.curCtx → TrapsHere (.mtag d a mx) s .protection 0) ∧
  (∀ (a : SReg) (en : Bool) (i : Instr) (s : State) (core : Nat), i = (if en then .men a else .mdis a) → HeldReady s [a] [] →
    core = coreOf s.sched.cur → (∀ t < 64, (s.curCtx.reg a).getLsbD t = true → s.tagOwner core t = s.tenantOf s.curCtx) →
    ∃ t, exec i s = .next t ∧ WentOnPlain s t ∧
      ∀ k < 64, (t.core core).tags.get {} k =
        if (s.curCtx.reg a).getLsbD k then { (s.core core).tags.get {} k with en := en } else (s.core core).tags.get {} k) ∧
  (∀ (d : SReg) (s : State) (core : Nat), HeldReady s [] [d] → core = coreOf s.sched.cur →
    ∃ t v, exec (.mpend d) s = .next t ∧ WentOn s t ∧ t = { s with ctxs := t.ctxs } ∧ Writes s.curCtx t.curCtx d v ∧
      ∀ k < 64, v.getLsbD k = ((s.core core).entries.any (·.tag == k) && s.tagOwner core k == s.tenantOf s.curCtx)) ∧
  (∀ (d a : SReg) (s : State) (core : Nat) (sel : HandlerEntry → Bool), HeldReady s [a] [d] → core = coreOf s.sched.cur →
    (∀ t < 64, (s.curCtx.reg a).getLsbD t = true → s.tagOwner core t = s.tenantOf s.curCtx) →
    sel = (fun e => decide (e.tag < 64) && (s.curCtx.reg a).getLsbD e.tag) →
    ∃ t, exec (.mclr d a) s = .next t ∧ WentOn s t ∧ t.mem = s.mem ∧
      (t.core core).entries = (s.core core).entries.filter (fun e => !sel e) ∧
      t.slotReleases = s.slotReleases ++ ((s.core core).entries.filter sel).filterMap (fun e =>
        if e.kind = .request then e.src.map fun c => { src := core, core := c, owner := e.tenant, sent := s.sched.steps } else none) ∧
      Writes s.curCtx t.curCtx d (BitVec.ofNat 64 ((s.core core).entries.filter sel).length)) ∧
  ∀ (d a : SReg) (s : State) (k : Nat) (i : Instr), HeldClear s [a] [d] → k < 64 → (s.curCtx.reg a).getLsbD k = true →
    s.tagOwner (coreOf s.sched.cur) k ≠ s.tenantOf s.curCtx → i = .men a ∨ i = .mdis a ∨ i = .mclr d a →
    TrapsHere i s .protection (s.curCtx.reg a)

/-- R301 to R306: an arriving request is accepted into its owner's partition, refused with 1 where that is full and with 2 for a foreign
tag; a reply under a reply right takes the slot reserved for it; the answer frees the outbox entry, writes the status, and gives a refused request's reply slot back. -/
def Sys2Proof.Claims.MessageArrivalAndAnswer : Prop :=
  (∀ (s : State) (m : ActiveMsg) (x : Sender) (rest : List ActiveMsg) (st : Nat), s.am = m :: rest → m.reply = false → m.dst < 96 →
    m.sender = some x → s.released (some x) 3 = true → s.amHeld 0 m = false →
    st = (if s.tagOwner m.dst m.tag ≠ m.tenant then 2
      else if (s.core m.dst).held .request m.tenant < s.tbl.areqSize m.dst m.tenant then 0 else 1) →
    ∃ t, exec (.amArrival (.sent 0)) s = .next t ∧ t.am = rest ∧ t.mem = s.mem ∧
      (st = 0 → EntryJoined s t m.dst .request m.tag m.tenant m.payload (some m.src)) ∧
      (st ≠ 0 → (t.core m.dst).entries = (s.core m.dst).entries) ∧
      t.answers = s.answers ++ [{ sender := x, status := BitVec.ofNat 64 st, slot := if st = 0 then none else some (m.src, m.tenant)
                                  counted := some (m.src, m.group) }]) ∧
  (∀ (s : State) (m : ActiveMsg) (x : Sender) (rest : List ActiveMsg), s.am = m :: rest → m.reply = true → m.right = true → m.dst < 96 →
    s.slotReleases = [] → m.sender = some x → s.released (some x) 3 = true → s.tagOwner m.dst m.tag = m.tenant →
    ∃ t, exec (.amArrival (.sent 0)) s = .next t ∧ t.am = rest ∧ t.mem = s.mem ∧
      EntryJoined s t m.dst .reply m.tag m.tenant m.payload (some m.src) ∧
      (t.core m.dst).reserved.get 0 m.tenant = (s.core m.dst).reserved.get 0 m.tenant - 1 ∧
      t.answers = s.answers ++ [{ sender := x, status := 0, slot := none, counted := some (m.src, m.group) }]) ∧
  (∀ (s : State) (x : Sender) (v : Word) (c o g : Nat) (rest : List Answer) (j : Job) (cx : Nat) (y : PendOp),
    s.answers = { sender := x, status := v, slot := some (c, o), counted := some (c, g) } :: rest → s.job? x.job = some j →
    j.state = .running cx → cx < numCtx → (s.ctx cx).ops = [y] → y.ord = x.ord →
    s.answerEarly { sender := x, status := v, slot := some (c, o), counted := some (c, g) } = false →
    ∃ t, exec (.amAnswer 0) s = .next t ∧ t.answers = rest ∧ Writes (s.ctx cx) (t.ctx cx) y.dst v ∧ (t.ctx cx).ops = [] ∧
      (t.core c).reserved.get 0 o = (s.core c).reserved.get 0 o - 1) ∧
  ∀ (s : State) (x : SlotRelease) (rest : List SlotRelease), s.slotReleases = x :: rest → x.core < 96 →
    (∀ m ∈ s.am, m.reply = true → m.sent < x.sent → sameRoute m.src m.dst x.src x.core = true → s.released m.sender 3 = false) →
    ∃ t, exec (.emptyRelease (.sent 0)) s = .next t ∧ t.slotReleases = rest ∧
      (t.core x.core).reserved.get 0 x.owner = (s.core x.core).reserved.get 0 x.owner - 1

/-- R302, R305: an ENG delivery that nothing on its way stands before (R8) takes a completion entry, or is dropped on a foreign tag, and
one whose partition is full waits. -/
def Sys2Proof.Claims.EngineDeliveries : Prop :=
  ∀ (s : State) (p : EngPacket) (rest : List EngPacket), s.eng = p :: rest → p.dst < 96 →
    s.engHeld p.source.node (coreNode p.dst) p.sent 0 0 0 = false →
    (s.tagOwner p.dst p.tag ≠ p.tenant →
      ∃ t, exec (.engDelivery (.sent 0)) s = .next t ∧ t.eng = rest ∧ (t.core p.dst).entries = (s.core p.dst).entries) ∧
    (s.tagOwner p.dst p.tag = p.tenant → (s.core p.dst).held .completion p.tenant < s.tbl.completionSize p.dst p.tenant →
      ∃ t, exec (.engDelivery (.sent 0)) s = .next t ∧ t.eng = rest ∧ EntryJoined s t p.dst .completion p.tag p.tenant p.payload none) ∧
    (s.tagOwner p.dst p.tag = p.tenant → s.tbl.completionSize p.dst p.tenant ≤ (s.core p.dst).held .completion p.tenant →
      exec (.engDelivery (.sent 0)) s = .next s)

/-- R301 to R306: arrivals of messages, their answers, and deliveries of the ENG network. -/
def Obligations.MessageDeliveries : Prop :=
  Sys2Proof.Claims.MessageArrivalAndAnswer ∧ Sys2Proof.Claims.EngineDeliveries

/-! ### Weirs and barriers -/

/-- R307, R308: WARM arms an unarmed weir with its count and packet under the identity of its job, WPOST adds to an armed one, each
answering 0, or 1 with nothing done; WSTAT reads the state word; WSIG sends an arrival. -/
def Obligations.WeirInstructions : Prop :=
  ∀ (d a b c : SReg) (s : State) (w : Nat),
    (WeirReady s [b, c] a [d] w → 1 ≤ (s.curCtx.reg b).toNat → (s.curCtx.reg b).toNat < 2 ^ 20 → packetOk (s.curCtx.reg c) = true →
      ∃ t, exec (.warm d a b c) s = .next t ∧ WentOn s t ∧ t.mem = s.mem ∧
        Writes s.curCtx t.curCtx d (if (s.weir w).armed then 1 else 0) ∧
        ((s.weir w).armed = true → t.clusters = s.clusters) ∧
        ((s.weir w).armed = false → ∀ h j, s.curCtx.job = some h → s.job? h = some j → t.weir w =
          { s.weir w with
            armed := true, count := (s.curCtx.reg b).toNat, kind := (s.curCtx.reg c).toNat / 2 ^ 62
            pointer := BitVec.ofNat 64 ((s.curCtx.reg c).toNat % 2 ^ 47), abortSeen := false, excess := 0, ovf := false, foreign := false
            pktFail := false
            who := { tenant := j.tenant, deadline := j.deadline, be := j.be || j.late, group := j.group, root := s.curCtx.ptbase } })) ∧
    (WeirReady s [b] a [d] w → 1 ≤ (s.curCtx.reg b).toNat → (s.curCtx.reg b).toNat < 2 ^ 20 →
      ((s.weir w).armed = true → (s.weir w).count + (s.curCtx.reg b).toNat < 2 ^ 20 →
        ∃ t, exec (.wpost d a b) s = .next t ∧ WentOn s t ∧ Writes s.curCtx t.curCtx d 0 ∧
          t.weir w = { s.weir w with count := (s.weir w).count + (s.curCtx.reg b).toNat }) ∧
      ((s.weir w).armed = false → ∃ t, exec (.wpost d a b) s = .next t ∧ WentOn s t ∧ Writes s.curCtx t.curCtx d 1 ∧
        t.clusters = s.clusters) ∧
      ((s.weir w).armed = true → 2 ^ 20 ≤ (s.weir w).count + (s.curCtx.reg b).toNat → s.trapHeld s.sched.cur s.curCtx = false → TrapsHere (.wpost d a b) s .weirOvf 0)) ∧
    (WeirReady s [] a [d] w → ∃ t, exec (.wstat d a) s = .next t ∧ WentOn s t ∧ t = { s with ctxs := t.ctxs } ∧
      Writes s.curCtx t.curCtx d (s.weir w).word) ∧
    (HeldReady s [a, b] [] → w = (s.curCtx.reg a).toNat → w < 6144 → s.weirOwner w = s.tenantOf s.curCtx →
      (b = 0 ∨ 1 ≤ (s.curCtx.reg b).toNat ∧ (s.curCtx.reg b).toNat < 2 ^ 20) →
      ∃ t x, exec (.wsig a b) s = .next t ∧ WentOnPlain s t ∧ t.weirArrivals = s.weirArrivals ++ [x] ∧ x.weir = w ∧
        x.weight = (if b = 0 then 1 else (s.curCtx.reg b).toNat) ∧ x.abort = false ∧ x.tenant = s.tenantOf s.curCtx)

/-- R307, R309: what an arrival does to a weir: FOREIGN, EXCESS with its cap, the count, or the firing with the rest in EXCESS. -/
def Sys2Proof.Claims.WeirArrivals : Prop :=
  ∀ (s : State) (x : WeirArrival) (rest : List WeirArrival) (y : Weir), s.weirArrivals = x :: rest → s.released x.sender 3 = true →
    s.engHeld x.source.node (clusterNode (x.weir / 512)) x.sent 0 0 0 = false → y = s.weir x.weir → (∀ e, x.source ≠ .engine e ∧ x.source ≠ .flume e) →
    ∃ t, exec (.weirArrival 0) s = .next t ∧ t.weirArrivals = rest ∧ t.mem = s.mem ∧
      (x.tenant ≠ s.weirOwner x.weir → t.weir x.weir = { y with foreign := true } ∧ t.firings = s.firings) ∧
      (x.tenant = s.weirOwner x.weir → y.armed = false →
        t.weir x.weir = (if 2 ^ 20 - 1 < y.excess + x.weight then { y with excess := 2 ^ 20 - 1, ovf := true }
          else { y with excess := y.excess + x.weight }) ∧ t.firings = s.firings) ∧
      (x.tenant = s.weirOwner x.weir → y.armed = true → x.weight < y.count →
        t.weir x.weir = { y with abortSeen := y.abortSeen || x.abort, count := y.count - x.weight } ∧ t.firings = s.firings) ∧
      (x.tenant = s.weirOwner x.weir → y.armed = true → y.count ≤ x.weight →
        t.weir x.weir = { y with abortSeen := y.abortSeen || x.abort, lastAbort := y.abortSeen || x.abort, armed := false, count := 0
                                 excess := min (y.excess + x.weight - y.count) (2 ^ 20 - 1), fires := (y.fires + 1) % 256 } ∧
        t.firings = s.firings ++ [{ weir := x.weir, kind := y.kind, pointer := y.pointer, abort := y.abortSeen || x.abort, who := y.who }])

/-- R310: the packet of a fired weir: a launch of its record, an engine command, a message, or nothing; an unreadable one sets
PKTFAIL.  That an unreadable engine or message block sets it, and that a block is read through the windows of the weir's cluster, is the
model's reading: log entry 37. -/
def Sys2Proof.Claims.WeirPackets : Prop :=
  ∀ (s s' : State) (f : Firing) (rest : List Firing) (g : Agent) (ps : List Xlat) (ws : List Nat) (n : Nat) (u : State),
    s.firings = f :: rest → s' = { s with firings := rest } →
    g = { owner := f.who.tenant, root := f.who.root, user := true, core := none, cluster := some (f.weir / 512) } →
    n = (if f.kind = 2 then 10 else 8) → u = (s'.wordPlaces g f.pointer n).2 → s.ecc = [] →
    (f.kind = 3 → exec (.weirPacketMake 0) s = .next s') ∧
    (f.kind < 3 → (f.kind = 2 → f.abort = false) → (∃ e, (s'.wordPlaces g f.pointer n).1 = .error e) →
      ∃ t, exec (.weirPacketMake 0) s = .next t ∧ t.firings = rest ∧ (t.weir f.weir).pktFail = true ∧ t.jobs = s.jobs ∧ t.cmds = s.cmds ∧
        t.eng = s.eng) ∧
    ((s'.wordPlaces g f.pointer n).1 = .ok ps → (∀ p ∈ ps, p.cached = none → ∀ i < 8, s.stale.find? ((p.place + i) / 64) = none) →
      ws = ps.map (fun p => u.mem.readN p.place 8) →
      (f.kind = 0 → u.recordOk f.who.tenant (LaunchRec.ofWords ws) = true → f.abort = false →
        ∃ t, exec (.weirPacketMake 0) s = .next t ∧ t.firings = rest ∧
          ∀ i < (LaunchRec.ofWords ws).count, ∃ h j, t.job? h = some j ∧ j.tenant = f.who.tenant ∧ j.origin = .weir ∧
            j.wid = (LaunchRec.ofWords ws).childWid i) ∧
      (f.kind = 1 → f.abort = false → ∀ x : EngCmd, x =
          { engine := bitsOf (ws.getD 0 0 % 2 ^ 64) 15 12, tenant := s.weirOwner f.weir, sender := none, addr := f.pointer
            words := ws.map (BitVec.ofNat 64), root := f.who.root, deadline := f.who.deadline, be := f.who.be
            group := s.namedGroup f.who.group f.who.tenant, counted := false, stage := .pending, arrival := 0, discard := false
            src := 8 * (f.weir / 512) } →
        u.blockOk x = true → ∃ t, exec (.weirPacketMake 0) s = .next t ∧ t.firings = rest ∧ t.cmds = s.cmds ++ [x]) ∧
      (f.kind = 2 → f.abort = false → s.msgWordOk (BitVec.ofNat 64 (ws.getD 0 0)) = true → ws.getD 1 0 ≤ 8 →
        ∃ t p, exec (.weirPacketMake 0) s = .next t ∧ t.firings = rest ∧ t.eng = s.eng ++ [p] ∧ p.dst = ws.getD 0 0 % 256 ∧
          p.tag = ws.getD 0 0 / 256 % 64 ∧ p.tenant = f.who.tenant ∧
          p.payload = ((ws.drop 2).take (ws.getD 1 0)).map (BitVec.ofNat 64)))

/-- R307 to R310: what arrivals at a weir do, and the packet of a fired weir. Where it rests on choices of the model they are those of
log entry 37. -/
def Obligations.WeirDeliveries : Prop :=
  Sys2Proof.Claims.WeirArrivals ∧ Sys2Proof.Claims.WeirPackets

/-- R311, R312: BINIT sets the participants of a barrier that no one has reached, BARRIVE sends an arrival, BWAIT and BSYNC, also a BSYNC
that has arrived and executes again, go on once the generation has moved and wait before; an arrival counts down and the last one starts
the next generation; an arrival at a barrier with no participants sets its error bit, and waiting on one with that bit is BARRIER_ERROR. -/
def Obligations.BarrierInstructions : Prop :=
  ∀ (d a b : SReg) (s : State) (id core : Nat) (x : Barrier), core = coreOf s.sched.cur → x = s.barrier core id →
    (BarrierReady s [b] a [d] id → 1 ≤ (s.curCtx.reg b).toNat → (s.curCtx.reg b).toNat < 4096 →
      (x.rem = x.part ∨ x.err = true →
        ∃ t, exec (.binit d a b) s = .next t ∧ WentOn s t ∧ t.mem = s.mem ∧ Writes s.curCtx t.curCtx d (BitVec.ofNat 64 x.gen) ∧
          t.barrier core id = { x with part := (s.curCtx.reg b).toNat, rem := (s.curCtx.reg b).toNat, err := false }) ∧
      (x.rem ≠ x.part → x.err = false → s.trapHeld s.sched.cur s.curCtx = false → TrapsHere (.binit d a b) s .barrierError 0)) ∧
    (BarrierReady s [b] a [d] id → (s.curCtx.reg b).toNat < 65536 → x.err = false →
      (x.gen ≠ (s.curCtx.reg b).toNat → ∃ t, exec (.bwait d a b) s = .next t ∧ WentOn s t ∧ t = { s with ctxs := t.ctxs } ∧
        Writes s.curCtx t.curCtx d (BitVec.ofNat 64 x.gen)) ∧
      (x.gen = (s.curCtx.reg b).toNat → ∃ t, exec (.bwait d a b) s = .next t ∧ WaitsAt s t (.barrier core id x.gen))) ∧
    (BarrierReady s [b] a [d] id → (s.curCtx.reg b).toNat < 65536 → x.err = true → s.trapHeld s.sched.cur s.curCtx = false →
      ∃ u : State, u.curCtx = { s.curCtx with bsync := none } ∧ u.cores = s.cores ∧ u.mem = s.mem ∧
        exec (.bwait d a b) s = .next (u.takeTrap s.sched.cur { cause := .barrierError, value := 0 } s.curCtx.pc)) ∧
    (∀ y, BarrierReady s [] a [d] id → s.curCtx.bsync = some y →
      (x.err = false → x.gen ≠ y.gen → ∃ t, exec (.bsync d a) s = .next t ∧ WentOn s t ∧ t.cores = s.cores ∧ t.curCtx.bsync = none ∧
        Writes s.curCtx t.curCtx d (BitVec.ofNat 64 x.gen)) ∧
      (x.err = false → x.gen = y.gen → ∃ t, exec (.bsync d a) s = .next t ∧ WaitsAt s t (.barrier core id x.gen)) ∧
      (x.err = true → s.trapHeld s.sched.cur s.curCtx = false →
        ∃ u : State, u.curCtx = { s.curCtx with bsync := none } ∧ u.cores = s.cores ∧ u.mem = s.mem ∧
          exec (.bsync d a) s = .next (u.takeTrap s.sched.cur { cause := .barrierError, value := 0 } s.curCtx.pc))) ∧
    (BarrierReady s [] a [d] id → s.curCtx.bsync = none → s.pendClasses s.sched.cur s.curCtx 7 s.curCtx.ord = false → x.part = 0 →
      s.trapHeld s.sched.cur s.curCtx = false →
      ∃ u : State, u.curCtx = s.curCtx ∧ u.barrier core id = { x with err := true } ∧ u.mem = s.mem ∧
        exec (.bsync d a) s = .next (u.takeTrap s.sched.cur { cause := .barrierError, value := 0 } s.curCtx.pc)) ∧
    (BarrierReady s [] a [d] id → s.curCtx.bsync = none → s.pendClasses s.sched.cur s.curCtx 7 s.curCtx.ord = false → x.err = false →
      (x.part ≠ 0 → x.rem ≤ 1 → x.gen < 65536 → ∃ t, exec (.bsync d a) s = .next t ∧ WentOn s t ∧ t.curCtx.bsync = none ∧
        t.barrier core id = { x with rem := x.part, gen := (x.gen + 1) % 65536 } ∧
        Writes s.curCtx t.curCtx d (BitVec.ofNat 64 ((x.gen + 1) % 65536))) ∧
      (1 < x.rem → x.part ≠ 0 → ∃ t, exec (.bsync d a) s = .next t ∧ t.barrier core id = { x with rem := x.rem - 1 } ∧
        t.curCtx.status = .waiting (.barrier core id x.gen) ∧ t.curCtx.bsync = some { gen := x.gen, core := core, id := id } ∧
        t.curCtx.pc = s.curCtx.pc)) ∧
    (∀ c i, HeldReady s [a] [] → (s.curCtx.reg a).toNat = 256 * i + c → c < 96 → i < 256 →
      ∃ t y, exec (.barrive a) s = .next t ∧ WentOnPlain s t ∧ t.barrierArrivals = s.barrierArrivals ++ [y] ∧ y.core = c ∧ y.id = i ∧
        y.tenant = s.tenantOf s.curCtx ∧ y.src = core) ∧
    (∀ y rest, s.barrierArrivals = y :: rest → s.released y.sender 7 = true →
      s.engHeld (coreNode y.src) (coreNode y.core) y.sent 0 0 0 = false →
      ∃ t, exec (.barrierArrival 0) s = .next t ∧ t.barrierArrivals = rest ∧
        (s.barrierOwner y.core y.id ≠ y.tenant → (t.core y.core).foreign = (s.core y.core).foreign + 1 ∧
          t.barrier y.core y.id = s.barrier y.core y.id) ∧
        (s.barrierOwner y.core y.id = y.tenant → t.barrier y.core y.id = (let z := s.barrier y.core y.id
          if z.part = 0 then { z with err := true }
          else if z.rem ≤ 1 then { z with rem := z.part, gen := (z.gen + 1) % 65536 } else { z with rem := z.rem - 1 })))

/-! ### Launch groups -/

/-- R313, R315: QOPEN opens a free group, QCLOSE closes the tenant's open one, QSTAT reads an item, 0 of another tenant's; a sweep begins
with the report of a cluster whose counter has come to it, and the twelfth report ends a started group that the sweep before found quiet
at the same total; its completion goes where its completion word says.  That QOPEN resets the totals and that the twelfth report combines
them in its own step is log entry 40, and that an empty release on its way puts a sweep off log entry 92: the model's choices. -/
def Obligations.LaunchGroups : Prop :=
  (∀ (d a b : SReg) (sel : Fin 6) (s : State) (g : Nat), g = (s.curCtx.reg a).toNat → g ≤ 254 →
    (HeldReady s [a, b] [d] → s.completionOk (s.tenantOf s.curCtx) (s.curCtx.reg b) = true →
      ∃ t, exec (.qopen d a b) s = .next t ∧ WentOn s t ∧ t.mem = s.mem ∧
        Writes s.curCtx t.curCtx d (if (s.groupOf g).state = .free then 0 else 1) ∧
        ((s.groupOf g).state ≠ .free → t.groups = s.groups ∧ t.cores = s.cores) ∧
        ((s.groupOf g).state = .free → (t.groupOf g).state = .open_ ∧ (t.groupOf g).owner = s.tenantOf s.curCtx ∧
          (t.groupOf g).completion = s.curCtx.reg b ∧ (t.groupOf g).started = false ∧
          (∀ k < 96, (t.core k).sent.get 0 g = 0 ∧ (t.core k).recv.get 0 g = 0) ∧ ∀ x, x ≠ g → t.groupOf x = s.groupOf x)) ∧
    (HeldReady s [a] [d] →
      (∃ t, exec (.qclose d a) s = .next t ∧ WentOn s t ∧
        ((s.groupOf g).state = .open_ ∧ (s.groupOf g).owner = s.tenantOf s.curCtx →
          Writes s.curCtx t.curCtx d 0 ∧ t.groupOf g = { s.groupOf g with state := .closing }) ∧
        (¬((s.groupOf g).state = .open_ ∧ (s.groupOf g).owner = s.tenantOf s.curCtx) →
          Writes s.curCtx t.curCtx d 1 ∧ t.groups = s.groups)) ∧
      ∃ t, exec (.qstat d a sel) s = .next t ∧ WentOn s t ∧ t = { s with ctxs := t.ctxs } ∧
        Writes s.curCtx t.curCtx d (if (s.groupOf g).owner ≠ s.tenantOf s.curCtx then 0 else match sel.val with
          | 0 => BitVec.ofNat 64 ((match (s.groupOf g).state with
            | .free => 0
            | .open_ => 1
            | .closing => 2) + 4 * (s.groupOf g).started.toNat + 256 * (s.groupOf g).owner)
          | 1 => BitVec.ofNat 64 (s.groupOf g).swSent
          | 2 => BitVec.ofNat 64 (s.groupOf g).swRecv
          | 3 => BitVec.ofNat 64 (s.groupOf g).swEnded
          | 4 => BitVec.ofNat 64 (s.groupOf g).swAbandoned
          | _ => (s.groupOf g).completion))) ∧
  (∀ (s : State) (g : Nat) (x : Group), 1 ≤ s.sweep → s.reports = [] → s.landing = none → s.groups = [(g, x)] → x.started = true →
    (s.lastSweep / (500 * s.sweep) + 1) * (500 * s.sweep) ≤ s.time.ref →
    ∃ t k, exec .sweep s = .next t ∧ k < 12 ∧ (t.reports.find? k).isSome = true ∧ (∀ i, i ≠ k → t.reports.find? i = none) ∧
      s.lastSweep < t.lastSweep ∧ t.lastSweep % (500 * s.sweep) = 0 ∧ t.groups = s.groups ∧ t.groupDone = s.groupDone) ∧
  (∀ (s : State) (g k S R : Nat) (x : Group) (q : Bool) (r : Nat → GroupReport), s.unreported = [k] → s.groups = [(g, x)] →
    x.started = true → s.moves = [] → s.lastSweep ≤ s.time.ref →
    (∀ i < 12, i ≠ k → FMap.find? (s.reports.get [] i) g = some (r i)) →
    r k = { idle := s.groupIdle k g, sent := s.groupTotal Core.sent k g, recv := s.groupTotal Core.recv k g } →
    S = (List.range 12).foldl (fun n i => n + (r i).sent) 0 % 2 ^ 64 → R = (List.range 12).foldl (fun n i => n + (r i).recv) 0 % 2 ^ 64 →
    q = ((List.range 12).all (fun i => (r i).idle) && S == R) →
    ∃ t, exec .sweep s = .next t ∧ t.reports = [] ∧ t.lastSweep = s.lastSweep ∧
      (q = true → x.quiet = some S → x.state = .open_ → t.groupOf g = {} ∧
        t.groupDone = s.groupDone ++ [{ group := g, owner := x.owner, completion := x.completion, deadline := x.deadline, ended := x.ended
                                        abandoned := x.abandoned, sent := S }]) ∧
      (q = false ∨ x.quiet ≠ some S → t.groupDone = s.groupDone ∧ (t.groupOf g).quiet = (if q then some S else none) ∧
        (t.groupOf g).swSent = S ∧ (t.groupOf g).swRecv = R ∧ (t.groupOf g).state = x.state)) ∧
  ∀ (s : State) (x : GroupDone), s.groupDone = [x] →
    ∃ t, exec (.groupCompletionSend x.group) s = .next t ∧ t.groupDone = [] ∧
      (x.completion.getLsbD 63 = true → t.eng = s.eng ∧ ∃ y, t.weirArrivals = s.weirArrivals ++ [y] ∧
        y.weir = x.completion.toNat % 2 ^ 13 ∧ y.tenant = x.owner ∧ y.weight = 1 ∧ y.abort = false) ∧
      (x.completion.getLsbD 63 = false → t.weirArrivals = s.weirArrivals ∧ ∃ p, t.eng = s.eng ++ [p] ∧
        p.dst = x.completion.toNat % 256 ∧ p.tag = x.completion.toNat / 256 % 64 ∧ p.tenant = x.owner ∧
        p.payload = [BitVec.ofNat 64 x.group, BitVec.ofNat 64 x.ended, BitVec.ofNat 64 x.abandoned, BitVec.ofNat 64 x.sent])

namespace Sys2Proof.Claims
open Sys2Proof Sys2Proof.Machine

/-! ### Traps and the system page -/

/-- A trap goes to the user handler: a user-mode instruction outside any handler, the cause delegated, and no reserved TRAP number
(R321, R322). -/
def GoesToUser (c : Ctx) (t : TrapInfo) : Prop :=
  c.mode = .user ∧ c.depth = 0 ∧ c.deleg.getLsbD t.cause.code = true ∧ ¬(t.cause = .softwareTrap ∧ 0x10000 ≤ t.value.toNat)

/-- A supervisor instruction that a unit of PGATE names (R358). -/
structure GateReady (s : State) (d a : SReg) (u : GateUnit) : Prop where
  ready : HeldReady s [a] [d]
  mode : s.curCtx.mode = .supervisor
  unit : unitOf (s.curCtx.reg a) = some u

/-- An instruction of the micro-kernel on another context of its core, x places from context 0, with an image address (R361). -/
structure ImageReady (s : State) (a b : SReg) (x : Nat) : Prop where
  quiet : Quiet s
  mode : s.curCtx.mode = .supervisor
  slot : x = (s.curCtx.reg a).toNat
  other : x < 4 ∧ 4 * coreOf s.sched.cur + x ≠ s.sched.cur
  page : (s.curCtx.reg b).toNat % 4096 = 0 ∧ 2 ^ 47 ≤ (s.curCtx.reg b).toNat ∧ (s.curCtx.reg b).toNat < 2 ^ 48

/-- Every cached line that differs from its home keeps the 64 bytes its home holds (R201). -/
def HomesWhole (s : State) : Prop := ∀ l x, s.stale.find? l = some x → x.home.length = 64

/-- The pages of an image do not overlap. -/
def PagesApart (ps : List Xlat) : Prop := ps.Pairwise fun x y => x.place + 4096 ≤ y.place ∨ y.place + 4096 ≤ x.place

end Sys2Proof.Claims

/-! ### Traps -/

/-- R319 to R322: what taking a trap changes: the delegated entry saves pc, cause and value in the user registers and exchanges s2 with
UTSP; the other entry saves them in the supervisor registers, deepens by one, exchanges s2 with TSP, and goes to TVEC. -/
def Sys2Proof.Claims.TrapEntry : Prop :=
  ∀ (s : State) (cx : Nat) (c : Ctx) (t : TrapInfo) (pc : Word), cx < numCtx → c = s.ctx cx →
    (GoesToUser c t → ∃ d, s.takeTrap cx t pc = s.setCtx cx d ∧ d.pc = c.utvec ∧ d.utepc = pc ∧ d.utcause.toNat = t.cause.code ∧
      d.utval = t.value ∧ d.utsp = c.reg 2 ∧ d.reg 2 = c.utsp ∧ d.depth = 1 ∧ d.mode = .user ∧ d.status = .running ∧
      (∀ r : SReg, r ≠ 2 → d.reg r = c.reg r) ∧
      d = { c with sregs := d.sregs, badRegs := d.badRegs, pc := d.pc, utepc := d.utepc, utcause := d.utcause, utval := d.utval
                   utsp := d.utsp, depth := d.depth, status := d.status }) ∧
    (¬GoesToUser c t → c.mode = .user → c.depth < 3 → ∃ d, s.takeTrap cx t pc = s.setCtx cx d ∧ d.pc = c.tvec ∧ d.tepc = pc ∧
      d.tcause.toNat = t.cause.code ∧ d.tval = t.value ∧ d.tstatus.toNat = c.depth + 1 ∧ d.tsp = c.reg 2 ∧ d.reg 2 = c.tsp ∧
      d.depth = c.depth + 1 ∧ d.mode = .supervisor ∧ d.status = .running ∧ (∀ r : SReg, r ≠ 2 → d.reg r = c.reg r) ∧
      d = { c with sregs := d.sregs, badRegs := d.badRegs, pc := d.pc, tepc := d.tepc, tcause := d.tcause, tval := d.tval
                   tstatus := d.tstatus, tsp := d.tsp, depth := d.depth, mode := d.mode, status := d.status })

/-- R322: a trap inside the micro-kernel stores the four trap registers in a frame below s2 and deepens by one; at depth 3, or where
the frame cannot be stored, the job is abandoned. -/
def Sys2Proof.Claims.NestedTrapEntry : Prop :=
  ∀ (s : State) (cx : Nat) (c : Ctx) (t : TrapInfo) (pc : Word), cx < numCtx → c = s.ctx cx → c.mode = .supervisor →
    (∀ ps : List Nat, c.depth < 3 → (s.framePlaces cx .write (c.reg 2 - 32)).1 = some ps →
      (ps.Pairwise fun x y => x + 8 ≤ y ∨ y + 8 ≤ x) →
      ∃ u p0 p1 p2 p3, s.takeTrap cx t pc = u ∧ ps = [p0, p1, p2, p3] ∧ u.mem.readN p0 8 = c.tepc.toNat ∧
        u.mem.readN p1 8 = c.tcause.toNat ∧ u.mem.readN p2 8 = c.tval.toNat ∧ u.mem.readN p3 8 = c.tstatus.toNat ∧
        (u.ctx cx).pc = c.tvec ∧ (u.ctx cx).tepc = pc ∧ (u.ctx cx).tcause.toNat = t.cause.code ∧ (u.ctx cx).tval = t.value ∧
        (u.ctx cx).tstatus.toNat = c.depth + 5 ∧ (u.ctx cx).depth = c.depth + 1 ∧ (u.ctx cx).mode = .supervisor ∧
        (u.ctx cx).reg 2 = c.reg 2 - 32 ∧ ∀ r : SReg, r ≠ 2 → (u.ctx cx).reg r = c.reg r) ∧
    (∀ h j, c.depth = 3 ∨ (s.framePlaces cx .write (c.reg 2 - 32)).1 = none → c.job = some h → s.job? h = some j →
      j.state = .running cx →
      ∃ u, s.takeTrap cx t pc = u ∧ u.job? h = some { j with state := .abandoning cx 0 } ∧ (u.ctx cx).status = .stopping)

/-- R319 to R322: taking a trap in user mode, delegated or not, and inside the micro-kernel. -/
def Obligations.TrapEntries : Prop :=
  Sys2Proof.Claims.TrapEntry ∧ Sys2Proof.Claims.NestedTrapEntry

/-- R54, R61, R63, R321, R354: TRAP, BRK and the failures of a fetched chain take their traps at their own address, with their values. -/
def Obligations.SoftwareAndFetchTraps : Prop :=
  ∀ (s : State) (imm : Nat) (b : Byte) (va : Word), HeldClear s [] [] →
    TrapsHere (.trap imm) s .softwareTrap (BitVec.ofNat 64 imm) ∧ TrapsHere (.brk b) s .breakpoint (b.setWidth 64) ∧
    TrapsHere .illegalInstruction s .illegalInstruction 0 ∧ TrapsHere .prefixChain s .prefixChain 0 ∧
    TrapsHere (.fetchFault true va) s .pageFaultExec va ∧ TrapsHere (.fetchFault false va) s .protection va

/-- R323: TRET and TRET SKIP return from the user handler, from the micro-kernel to user mode, and inside the micro-kernel through
the frame; outside a handler, or with the matrix unit parked at this depth, they are illegal.  A return reads s2 and exchanges it, so it
comes after every result for s2, and after the older accesses inside the micro-kernel (R83, R85, R225). -/
def Sys2Proof.Claims.TrapReturn : Prop :=
  ∀ (s : State) (c : Ctx) (i : Instr) (e t : Word), HeldClear s [] [2] → c = s.curCtx → e = (if c.mode = .user then c.utepc else c.tepc) →
    (c.depth = 0 ∨ c.depth ≤ s.pdepth s.sched.cur c → (i = .tret ∨ i = .tretSkip) → TrapsHere i s .illegalInstruction 0) ∧
    (∀ s', c.badRead [2] = none → c.depth ≠ 0 → s.pdepth s.sched.cur c < c.depth → e.getLsbD 0 = false → t.getLsbD 0 = false →
      (i = .tret ∧ t = e ∧ s' = s) ∨ (i = .tretSkip ∧ ∃ ws, s.fetchChain s.sched.cur e = (.chain ws, s') ∧
        t = e + BitVec.ofNat 64 (2 * ws.length)) →
      (c.mode = .user → ∃ u, exec i s = .next u ∧ u.curCtx.pc = t ∧ u.curCtx.depth = 0 ∧ u.curCtx.mode = .user ∧
        u.curCtx.reg 2 = c.utsp ∧ u.curCtx.utsp = c.reg 2 ∧ ∀ r : SReg, r ≠ 2 → u.curCtx.reg r = c.reg r) ∧
      (c.mode = .supervisor → c.tstatus.getLsbD 2 = false → ∃ u, exec i s = .next u ∧ u.curCtx.pc = t ∧
        u.curCtx.depth = c.tstatus.toNat % 4 - 1 ∧ u.curCtx.mode = .user ∧ u.curCtx.reg 2 = c.tsp ∧ u.curCtx.tsp = c.reg 2 ∧
        ∀ r : SReg, r ≠ 2 → u.curCtx.reg r = c.reg r) ∧
      (∀ ws, c.mode = .supervisor → c.tstatus.getLsbD 2 = true → (s'.frameWords s.sched.cur c).1 = .ok ws →
        ∃ u, exec i s = .next u ∧ u.curCtx.pc = t ∧ u.curCtx.depth = c.tstatus.toNat % 4 - 1 ∧ u.curCtx.mode = .supervisor ∧
          u.curCtx.reg 2 = c.reg 2 + 32 ∧ u.curCtx.tepc = ws.getD 0 0 ∧ u.curCtx.tcause = (ws.getD 1 0).setWidth 6 ∧
          u.curCtx.tval = ws.getD 2 0 ∧ u.curCtx.tstatus = (ws.getD 3 0).setWidth 3))

/-- R322, R323: a trap that a user-mode instruction takes outside any handler, and the TRET of its handler at once, bring the context
back to the instruction with every register, its mode and its depth as they were. -/
def Sys2Proof.Claims.TrapThenReturn : Prop :=
  ∀ (s : State) (t : TrapInfo), Quiet s → s.curCtx.mode = .user → s.curCtx.depth = 0 → s.curCtx.status = .running →
    s.curCtx.pc.getLsbD 0 = false → (∀ m, s.mxOf s.sched.cur s.curCtx = some m → m.pdepth = 0) →
    ∃ v, exec .tret (s.takeTrap s.sched.cur t s.curCtx.pc) = .next v ∧ v.curCtx.pc = s.curCtx.pc ∧ v.curCtx.mode = .user ∧
      v.curCtx.depth = 0 ∧ (∀ r, v.curCtx.reg r = s.curCtx.reg r) ∧ v.curCtx.vregs = s.curCtx.vregs ∧ v.mem = s.mem ∧
      v.curCtx.utsp = s.curCtx.utsp ∧ v.curCtx.tsp = s.curCtx.tsp

/-- R322, R323: the returns from a trap, and that a trap and its return restore the context. -/
def Obligations.TrapReturns : Prop :=
  Sys2Proof.Claims.TrapReturn ∧ Sys2Proof.Claims.TrapThenReturn

/-! ### The system page -/

/-- R319, R358, R359, R361, R362, R364: the instructions of the micro-kernel are PRIVILEGED in user mode, and so is ENMTR of the device. -/
def Sys2Proof.Claims.PrivilegedInstructions : Prop :=
  ∀ (d a b : SReg) (s : State) (i : Instr), s.sched.cur < numCtx → s.curCtx.mode = .user → s.trapHeld s.sched.cur s.curCtx = false →
    i ∈ [Instr.pgateGate d a, .pgateUngate d a, .pgateQuery d a, .halt a, .ctxsave d a b, .ctxload d a b, .tlbinv a b, .rsvadd d a,
      .enmtr d a 2] → TrapsHere i s .privileged 0

/-- R355: SVC sends its call to the slice of its block and counts in CNTEN; a block outside cached LPDDR 6 is SERVICE_REFUSED. -/
def Sys2Proof.Claims.ServiceCallIssue : Prop :=
  ∀ (d a b : SReg) (s s1 s2 : State) (h : Nat) (j : Job) (x y : Xlat), Quiet s → s.curCtx.job = some h → s.job? h = some j →
    (s.curCtx.reg a).toNat % 64 = 0 → (s.curCtx.reg b).toNat < 2 ^ 16 →
    s.xlate (s.agentOf s.sched.cur s.curCtx) (s.curCtx.reg a) .read false = (.ok x, s1) →
    s1.xlate (s.agentOf s.sched.cur s.curCtx) (s.curCtx.reg a) .write true = (.ok y, s2) →
    (s.isLpddr x.place = true → x.uc = false →
      ∃ t call, exec (.svc d a b) s = .next t ∧ WentOnPlain s t ∧ t.svcFlight = s.svcFlight ++ [call] ∧ call.tenant = j.tenant ∧
        call.token = (s.curCtx.reg b).toNat ∧ call.block = s.curCtx.reg a ∧ call.root = s.curCtx.ptbase ∧
        call.slice = x.place / 4096 % 8 ∧ call.sender = some { job := h, ord := s.curCtx.ord } ∧ t.curCtx.cntEn = 1) ∧
    (s.isLpddr x.place = false ∨ x.uc = true →
      exec (.svc d a b) s = .next (s2.takeTrap s.sched.cur { cause := .serviceRefused, value := s.curCtx.reg a } s.curCtx.pc))

/-- R356, R357: GATEINFO reads the window's start, its end, GATE, the next owner, the cycle length, the overruns and the loan's end; ENMTR reads the meters a
context may see, and PROTECTION stands before the others, those of another tenant and of another tenant's reservation. -/
def Sys2Proof.Claims.GateAndEnergyReads : Prop :=
  ∀ (d a : SReg) (s : State) (core tn : Nat), core = coreOf s.sched.cur → tn = s.tenantOf s.curCtx →
    (∀ sel : Fin 7, HeldReady s [] [d] → ∃ t v, exec (.gateinfo d sel) s = .next t ∧ WentOn s t ∧ t = { s with ctxs := t.ctxs } ∧
      Writes s.curCtx t.curCtx d v ∧
      ∀ tb w, s.sluice.table = some tb → s.sluice.clusterWin.get none (clusterOf core) = some w →
        (sel.val = 0 → v = BitVec.ofNat 64 (tb.epoch + w.cycle * tb.cycle + tb.winStart w.idx)) ∧
        (sel.val = 1 → v = BitVec.ofNat 64 (tb.epoch + w.cycle * tb.cycle + tb.winStart w.idx + tb.winLength w.idx)) ∧
        (sel.val = 2 → v = BitVec.ofNat 64 (w.idx + 256 * tb.winSet w.idx + 65536 * (s.core core).loan.isSome.toNat)) ∧
        (sel.val = 6 → v = (if (s.core core).loan = none then 0
          else BitVec.ofNat 64 (tb.epoch + w.cycle * tb.cycle + tb.winStart w.idx + tb.winLength w.idx))) ∧
        (sel.val = 3 → v = BitVec.ofNat 64 (tb.coreOwner (tb.winSet (if w.idx + 1 < tb.nwin then w.idx + 1 else 0)) core)) ∧
        (sel.val = 4 → v = BitVec.ofNat 64 tb.cycle) ∧ (sel.val = 5 → v = BitVec.ofNat 64 (s.sluice.overruns.get 0 tn))) ∧
    (HeldReady s [a] [d] →
      ((s.curCtx.reg a).toNat = tn ∨ s.curCtx.mode = .supervisor → ∃ t, exec (.enmtr d a 0) s = .next t ∧ WentOn s t ∧
        t = { s with ctxs := t.ctxs } ∧ Writes s.curCtx t.curCtx d (BitVec.ofNat 64 (s.meters.tenant.get 0 (s.curCtx.reg a).toNat))) ∧
      ((s.curCtx.reg a).toNat ≠ tn → s.curCtx.mode = .user → s.trapHeld s.sched.cur s.curCtx = false → TrapsHere (.enmtr d a 0) s .protection 0) ∧
      (∀ r, s.rsvs.find? (s.curCtx.reg a).toNat = some r → r.tenant = tn → ∃ t, exec (.enmtr d a 1) s = .next t ∧ WentOn s t ∧
        Writes s.curCtx t.curCtx d (BitVec.ofNat 64 (s.meters.rsv.get 0 (s.curCtx.reg a).toNat))) ∧
      (∀ r, s.rsvs.find? (s.curCtx.reg a).toNat = some r → r.tenant ≠ tn → s.trapHeld s.sched.cur s.curCtx = false →
        TrapsHere (.enmtr d a 1) s .protection 0) ∧
      (s.rsvs.find? (s.curCtx.reg a).toNat = none → s.trapHeld s.sched.cur s.curCtx = false →
        TrapsHere (.enmtr d a 1) s .illegalInstruction (s.curCtx.reg a)) ∧
      (s.curCtx.mode = .supervisor → ∃ t, exec (.enmtr d a 2) s = .next t ∧ WentOn s t ∧
        Writes s.curCtx t.curCtx d (BitVec.ofNat 64 s.meters.device)))

/-- R358, R423: PGATE answers 2 for a unit under owner 63, GATE answers 1 while it holds work and else gates it, UNGATE of a gated unit
waits until its ungating has ended, and QUERY answers 3 for a gated unit.  That 2 is checked before 1, and that UNGATE waits, is the
model's reading: log entry 52. -/
def Sys2Proof.Claims.PowerGateInstructions : Prop :=
  ∀ (d a : SReg) (s : State) (u : GateUnit), GateReady s d a u →
    (s.unitUnowned u = true → ∃ t, exec (.pgateGate d a) s = .next t ∧ WentOn s t ∧ Writes s.curCtx t.curCtx d 2 ∧ t.power = s.power) ∧
    (s.unitUnowned u = false → s.unitHolds u = true →
      ∃ t, exec (.pgateGate d a) s = .next t ∧ WentOn s t ∧ Writes s.curCtx t.curCtx d 1 ∧ t.power = s.power) ∧
    (s.unitUnowned u = false → s.unitHolds u = false →
      ∃ t, exec (.pgateGate d a) s = .next t ∧ WentOn s t ∧ Writes s.curCtx t.curCtx d 0 ∧ t.gated u = true ∧ t.mem = s.mem ∧
        t.jobs = s.jobs) ∧
    (s.unitUnowned u = false → s.gated u = false →
      ∃ t, exec (.pgateUngate d a) s = .next t ∧ WentOn s t ∧ Writes s.curCtx t.curCtx d 0 ∧ t.power = s.power) ∧
    (s.unitUnowned u = false → s.gated u = true →
      ∃ t v, exec (.pgateUngate d a) s = .next t ∧ t.ctxs = s.ctxs ∧ t.power.waking.get false (GateUnit.key u) = true ∧
        exec (.ungateComplete u) t = .next v ∧ v.gated u = false ∧ v.power.waking.get false (GateUnit.key u) = false ∧ v.mem = s.mem) ∧
    ∃ t, exec (.pgateQuery d a) s = .next t ∧ WentOn s t ∧ t = { s with ctxs := t.ctxs } ∧
      Writes s.curCtx t.curCtx d (if s.gated u then 3 else 0)

/-- R359, R363, R364: HALT abandons the executing job, IDLE goes on at its time and waits before, RSVADD answers the admission's status or
the new reservation's number. -/
def Sys2Proof.Claims.HaltIdleAndAdmission : Prop :=
  (∀ (a : SReg) (s : State) (h : Nat) (j : Job), HeldReady s [a] [] → s.curCtx.mode = .supervisor → s.curCtx.job = some h →
    s.job? h = some j → j.state = .running s.sched.cur →
    ∃ t, exec (.halt a) s = .next t ∧ t.job? h = some { j with state := .abandoning s.sched.cur 0 } ∧ t.curCtx.status = .stopping) ∧
  (∀ (a : SReg) (s : State), HeldReady s [a] [] →
    ((s.curCtx.reg a).toNat ≤ s.time.ref → ∃ t, exec (.idle a) s = .next t ∧ WentOnPlain s t ∧ t.jobs = s.jobs) ∧
    (s.time.ref + 8 < (s.curCtx.reg a).toNat → s.time.cluster.get 0 (clusterOf (coreOf s.sched.cur)) < (s.curCtx.reg a).toNat →
      ∃ t, exec (.idle a) s = .next t ∧ t.curCtx.pc = s.curCtx.pc ∧ t.curCtx.status = .waiting (.until (s.curCtx.reg a).toNat s.nextPc) ∧
        t.mem = s.mem)) ∧
  ∀ (d a : SReg) (s : State) (ws : List Nat) (x : RsvDesc), Quiet s → s.curCtx.mode = .supervisor → (s.curCtx.reg a).toNat % 64 = 0 →
    ReadsWords s (s.curCtx.reg a) 16 ws → x = RsvDesc.ofWords ws (some (s.tenantOf s.curCtx)) →
    (s.admitStatus x ≠ 0 → ∃ t, exec (.rsvadd d a) s = .next t ∧ WentOn s t ∧ t.rsvs = s.rsvs ∧
      Writes s.curCtx t.curCtx d (BitVec.ofNat 64 (s.admitStatus x))) ∧
    (s.admitStatus x = 0 → ∃ t id r, exec (.rsvadd d a) s = .next t ∧ WentOn s t ∧ t.rsvs = s.rsvs.insert id r ∧
      Writes s.curCtx t.curCtx d (BitVec.ofNat 64 (65536 * id)) ∧ r.p = x.p ∧ r.q = x.q ∧ r.d = x.d ∧ r.o = x.o ∧
      r.tenant = s.tenantOf s.curCtx ∧ r.consumed = 0 ∧ s.time.ref ≤ r.next ∧ (r.next = x.o ∨ ∃ n, r.next = x.o + n * x.p))

/-- R319, R358 to R364, R423: the instructions of the micro-kernel, and that they are its alone. Where it rests on choices of the model
they are those of log entry 52. -/
def Obligations.SupervisorInstructions : Prop :=
  Sys2Proof.Claims.PrivilegedInstructions ∧ Sys2Proof.Claims.PowerGateInstructions ∧ Sys2Proof.Claims.HaltIdleAndAdmission

/-- R360, R361: CTXSAVE stops another context of the core, waits until what it has issued is done, and writes its image; CTXLOAD loads
an image into a stopped context and lets it run on. -/
def Obligations.ContextImages : Prop :=
  ∀ (d a b : SReg) (s : State) (x cx : Nat) (c : Ctx), ImageReady s a b x → cx = 4 * coreOf s.sched.cur + x → c = s.ctx cx →
    (c.job = none ∨ c.status = .waiting .stopped ∨ c.status = .stopping →
      ∃ t, exec (.ctxsave d a b) s = .next t ∧ t.curCtx.pc = s.nextPc ∧ Writes s.curCtx t.curCtx d 1 ∧ t.mem = s.mem ∧ t.ctx cx = c) ∧
    (c.job ≠ none → c.status = .running →
      ∃ t, exec (.ctxsave d a b) s = .next t ∧ t.curCtx.pc = s.curCtx.pc ∧ (t.ctx cx).status = .waiting (.saving s.sched.cur) ∧
        t.mem = s.mem) ∧
    (∀ ps, c.job ≠ none → c.status = .waiting (.saving s.sched.cur) → s.drained cx c = true → c.flumes.length ≤ 8 → HomesWhole s →
      (∀ m, s.mxOf cx c = some m → m.cba.length = 16 ∧ m.cbb.length = 16) →
      (s.probeWrite (s.agentOf s.sched.cur s.curCtx) (imagePages (s.curCtx.reg b))).1 = .ok ps → PagesApart ps →
      ∃ t, exec (.ctxsave d a b) s = .next t ∧ t.curCtx.pc = s.nextPc ∧ Writes s.curCtx t.curCtx d 0 ∧
        (t.ctx cx).status = .waiting .stopped ∧ t.pageReader ps 0x15100 8 = c.pc.toNat ∧
        (∀ i < 32, t.pageReader ps (0x15000 + 8 * i) 8 = (c.reg (Fin.ofNat 32 i)).toNat) ∧
        ∀ i < 32, t.pageReader ps (512 * i) 512 = (c.vreg (Fin.ofNat 32 i)).toNat % 2 ^ c.grant) ∧
    (c.status ≠ .waiting .stopped → ∃ t, exec (.ctxload d a b) s = .next t ∧ t.curCtx.pc = s.nextPc ∧ Writes s.curCtx t.curCtx d 1 ∧
      t.mem = s.mem) ∧
    ∀ ps rd, c.status = .waiting .stopped →
      (s.probeRange (s.agentOf s.sched.cur s.curCtx) .read false (imagePages (s.curCtx.reg b))).1 = .ok ps → s.ecc = [] →
      rd = (s.probeRange (s.agentOf s.sched.cur s.curCtx) .read false (imagePages (s.curCtx.reg b))).2.pageReader ps →
      (s.imageDiffers cx rd = true → ∃ t, exec (.ctxload d a b) s = .next t ∧ Writes s.curCtx t.curCtx d 2 ∧ t.ctx cx = c) ∧
      (s.imageDiffers cx rd = false → ∃ t, exec (.ctxload d a b) s = .next t ∧ t.curCtx.pc = s.nextPc ∧ Writes s.curCtx t.curCtx d 0 ∧
        (t.ctx cx).status = .running ∧ (t.ctx cx).pc = BitVec.ofNat 64 (rd 0x15100 8) ∧ (t.ctx cx).job = c.job ∧
        ∀ i : SReg, i ≠ 0 → (t.ctx cx).reg i = BitVec.ofNat 64 (rd (0x15000 + 8 * i.val) 8))

/-- R205, R362: TLBINV takes the translations it names from every TLB and no other, and ends once no access of theirs is under way: the
model waits for every access of the owner it names (log entry 55). -/
def Sys2Proof.Claims.TranslationInvalidate : Prop :=
  ∀ (a b : SReg) (s : State) (scope owner : Nat), Quiet s → s.curCtx.mode = .supervisor → scope = (s.curCtx.reg b).toNat % 4 →
    owner = (s.curCtx.reg b).toNat / 256 % 64 → scope < 3 → (owner < 32 ∨ owner = 62) → (s.curCtx.reg b).toNat / 4 % 64 = 0 →
    (s.curCtx.reg b).toNat < 2 ^ 14 → FMap.wf {} s.clusters = true →
    ∃ t, exec (.tlbinv a b) s = .next t ∧ t.mem = s.mem ∧ t.jobs = s.jobs ∧
      (∀ c < 96, (t.core c).tlb = (s.core c).tlb.filter fun e => !e.named scope owner (s.curCtx.reg a).toNat) ∧
      (∀ k < 12, (t.cluster k).tlb = (s.cluster k).tlb.filter fun e => !e.named scope owner (s.curCtx.reg a).toNat) ∧
      (s.accessesOf scope owner s.sched.cur = false → WentOnPlain s t) ∧
      (s.accessesOf scope owner s.sched.cur = true → t.ctxs = s.ctxs)

/-- R205, R355 to R357, R362: the issue of a service call, the reads of the gate and the meters, and TLBINV. Where it rests on choices of
the model they are those of log entry 55. -/
def Obligations.ServiceAndSystemReads : Prop :=
  Sys2Proof.Claims.ServiceCallIssue ∧ Sys2Proof.Claims.GateAndEnergyReads ∧ Sys2Proof.Claims.TranslationInvalidate

namespace Sys2Proof.Claims
open Sys2Proof Sys2Proof.Machine

/-! ### The gates -/

/-- Cluster k stands in window w of the table in force, and its counter reads now, with the state after the reading (R268, R336). -/
structure InWindow (s : State) (k : Nat) (t : Table) (w : WinPos) (now : Nat) (u : State) : Prop where
  table : s.sluice.table = some t
  window : s.sluice.clusterWin.get none k = some w
  clock : s.clusterNow k = (now, u)

/-- A job that no deadline ends now: a best-effort or late one, one whose deadline every counter has before it, or any before the first
lock of the time (R268, R287). -/
def NotDue (s : State) (j : Job) : Prop :=
  s.time.everLocked = false ∨ j.be = true ∨ j.late = true ∨
    (s.time.ref + 8 < j.deadline.toNat ∧ s.time.cluster.get 0 j.cluster < j.deadline.toNat)

end Sys2Proof.Claims

/-! ### The gates -/

/-- R336, R339, R341: at the start of a window a core whose owner stays and that is not on loan runs on; on any other an edge begins at
the window's start, with its TLB and branch table empty, its owner changed, and nothing unstarted in its contexts' queues. -/
def Sys2Proof.Claims.WindowStarts : Prop :=
  ∀ (s : State) (t : Table) (w : WinPos), s.sluice.table = some t → s.sluice.inForce = true → s.sluice.loading = false →
    (∀ (k now : Nat) (u : State), k < 12 → s.clusterNow k = (now, u) → t.epoch ≤ now → w = t.posAt now →
      (s.sluice.clusterWin.get none k = some w → exec (.windowStart (.cluster k)) s = .next u) ∧
      (s.sluice.clusterWin.get none k ≠ some w →
        ∃ v, exec (.windowStart (.cluster k)) s = .next v ∧ v.sluice.clusterWin.get none k = some w ∧ v.mem = s.mem ∧
          ∀ c, c < 96 → (s.core c).edge = none →
            (clusterOf c ≠ k ∨ t.ownerIn w c = (s.core c).owner ∧ (s.core c).loan = none → v.core c = s.core c) ∧
            (clusterOf c = k → t.ownerIn w c ≠ (s.core c).owner ∨ (s.core c).loan.isSome = true →
              (v.core c).edge = some { at_ := t.winAt w, window := w.idx, out := s.userOf c, in_ := t.ownerIn w c
                                       loan := (s.core c).loan.isSome } ∧
              (v.core c).owner = t.ownerIn w c ∧ (v.core c).loan = none ∧ (v.core c).tlb = [] ∧ (v.core c).branches = [] ∧
              ∀ x < 4, ∀ h j, (s.ctx (4 * c + x)).job = some h → s.job? h = some j → j.state = .running (4 * c + x) →
                (v.ctx (4 * c + x)).unstarted = false))) ∧
    ∀ (x now : Nat) (u : State), x < 8 → s.sliceNow x = (now, u) → t.epoch ≤ now →
      exec (.windowStart (.slice x)) s = .next { u with sluice := { u.sluice with sliceWin := u.sluice.sliceWin.set none x (some (t.posAt now)) } }

/-- R340: within 64 ns of an edge that changes its owner a core is guarded, and takes no further job for its present user; before, it is
not. -/
def Sys2Proof.Claims.EdgeGuard : Prop :=
  ∀ (s : State) (core : Nat) (t : Table) (w : WinPos) (now : Nat) (u : State), core < 96 → InWindow s (clusterOf core) t w now u →
    (t.ownerIn (t.nextWin w) core ≠ t.ownerIn w core → t.winEnd w ≤ now + 64 →
      ∃ v, exec (.edgeGuard core) s = .next v ∧ (v.core core).guarded = true ∧ v.coreOpen core = false ∧ v.mem = s.mem ∧ v.jobs = s.jobs ∧
        ∀ c, c ≠ core → v.core c = s.core c) ∧
    (t.ownerIn (t.nextWin w) core = t.ownerIn w core ∨ now + 64 < t.winEnd w → exec (.edgeGuard core) s = .next u)

/-- R341 to R344: the swap at an edge saves the outgoing context as its job's image, restores the incoming owner's saved one unless the
owner began the window in quarantine, the job's deadline has passed or the power cap holds it back (R426), charges an edge that ends more than 500 ns late, and quarantines a tenant at its third. -/
def Sys2Proof.Claims.EdgeSwap : Prop :=
  ∀ (s : State) (core : Nat) (e : Edge) (now : Nat) (u : State), core < 96 → (s.core core).edge = some e →
    (∀ x < 4, (s.ctx (4 * core + x)).vq = []) → (s.core core).mx.drained = true → s.clusterNow (clusterOf core) = (now, u) →
    (∃ v, exec (.edgeSwapComplete core) s = .next v ∧ (v.core core).edge = none ∧
      (now ≤ e.at_ + 500 → v.sluice = s.sluice ∧ v.mem = s.mem) ∧
      (e.at_ + 500 < now → v.sluice.overruns.get 0 e.out = s.sluice.overruns.get 0 e.out + 1 ∧
        (s.sluice.overruns.get 0 e.out = 2 → e.out < 32 → v.sluice.quar.getLsbD e.out = true) ∧
        (s.sluice.overruns.get 0 e.out ≠ 2 → v.sluice.quar = s.sluice.quar))) ∧
    (∀ h j cx, coreOf cx = core → s.jobs = [(h, j)] → j.state = .running cx → (s.ctx cx).job = some h → e.in_ = 63 ∨ e.in_ ≠ j.tenant →
      (∀ y, coreOf y = core → y ≠ cx → (s.ctx y).job = none) →
      ∃ v i, exec (.edgeSwapComplete core) s = .next v ∧ v.job? h = some i ∧ i.state = .saved cx ∧ i.img = some (s.ctx cx) ∧
        i.onLoan = e.loan ∧ i.tenant = j.tenant ∧ (v.ctx cx).job = none) ∧
    ∀ h j cx c, coreOf cx = core → s.jobs = [(h, j)] → j.state = .saved cx → j.tenant = e.in_ → j.onLoan = false → j.img = some c →
      e.in_ ≠ 63 → (s.core core).quarIdle = false → (∀ y, coreOf y = core → (s.ctx y).job = none) →
      (NotDue s j → s.power.throttle = 0 ∨ (j.be = false ∧ j.late = false) →
        ∃ v i, exec (.edgeSwapComplete core) s = .next v ∧ v.job? h = some i ∧ i.state = .running cx ∧ i.img = none ∧ v.ctx cx = c) ∧
      (s.power.throttle ≠ 0 → j.be = true ∨ j.late = true →
        ∃ v i, exec (.edgeSwapComplete core) s = .next v ∧ v.job? h = some i ∧ (i.state = .parked cx ∨ i.state = .saved cx) ∧
          i.img = some c ∧ (v.ctx cx).job = none) ∧
      (s.time.everLocked = true → j.be = false → j.late = false → j.deadline.toNat ≤ s.time.ref →
        ∃ v, exec (.edgeSwapComplete core) s = .next v ∧ v.job? h = some { j with state := .abandoning (numCtx + h) 0 } ∧
          (v.ctx cx).job = none)

/-- R341: a core that an edge gated is powered again 2 µs before the first following window with an owner, and not earlier. -/
def Sys2Proof.Claims.CoreRepower : Prop :=
  ∀ (s : State) (core : Nat) (t : Table) (w v : WinPos) (now : Nat) (u : State), core < 96 → InWindow s (clusterOf core) t w now u →
    (s.core core).edgeGated = true → t.nextOwned core t.nwin w = some v →
    (t.winAt v ≤ now + 2000 → ∃ x, exec (.coreRepower core) s = .next x ∧ x.gated (.core core) = false ∧ (x.core core).edgeGated = false ∧
      x.ctxs = s.ctxs ∧ x.mem = s.mem ∧ ∀ c, c ≠ core → x.core c = s.core c) ∧
    (now + 2000 < t.winAt v → exec (.coreRepower core) s = .next u)

/-- R349 to R351: a core that its owner can lend goes to the eligible beneficiary whose deficit its weight makes positive; a loan ends at
its window's end, or when its owner has a job for the core, with an edge back to the owner, and the time lent comes off the deficit down to the weight's floor.
That a loan's end counts at no later than the window's end, and that one pass keeps a raised deficit that is still not positive, is the
model's reading: log entry 59. -/
def Obligations.Loans : Prop :=
  ∀ (s : State) (core k key : Nat) (t : Table) (w : WinPos) (now : Nat) (u : State), core < 96 → k = clusterOf core → InWindow s k t w now u →
    (∀ b d, u.lendable t w core now = true → s.sluice.loading = false → t.donation (s.core core).owner = [b] → b ≠ (s.core core).owner →
      b < 32 → 0 < t.weight b → u.lendsTo core b false now = true → key = 64 * (s.core core).owner + b →
      d = (if (s.cluster k).deficit.get 0 key ≤ 0 then (s.cluster k).deficit.get 0 key + t.weight b * 1000 else (s.cluster k).deficit.get 0 key) →
      ∃ v, exec (.loanStart core) s = .next v ∧ (v.cluster k).deficit.get 0 key = d ∧
        (0 < d → (v.core core).loan = some { to_ := b, start := now } ∧ (v.cluster k).pointer.get 63 (s.core core).owner = b) ∧
        (d ≤ 0 → v.cores = s.cores)) ∧
    (u.lendable t w core now = false → exec (.loanStart core) s = .next u) ∧
    ∀ l, (s.core core).loan = some l → (s.core core).edge = none → key = 64 * (s.core core).owner + l.to_ →
      (t.winEnd w ≤ now ∨ u.ownerWants core now = true → ∃ v, exec (.loanEnd core) s = .next v ∧ (v.core core).loan = none ∧ v.mem = s.mem ∧
        (v.core core).edge = some { at_ := min now (t.winEnd w), window := w.idx, out := l.to_, in_ := (s.core core).owner, loan := true } ∧
        (v.cluster k).deficit.get 0 key =
          max ((s.cluster k).deficit.get 0 key - ((min now (t.winEnd w) - l.start : Nat) : Int)) (-(t.weight l.to_ * 1000))) ∧
      (now < t.winEnd w → u.ownerWants core now = false → exec (.loanEnd core) s = .next u)

/-- R337: the windowed parts of a table come into force when the earliest counter reaches EPOCH, and not before. -/
def Sys2Proof.Claims.TableEpoch : Prop :=
  ∀ (s : State) (t : Table), s.sluice.table = some t → s.sluice.loading = false →
    (t.epoch ≤ s.time.ref + 8 → exec .tableEpoch s = .next { s with sluice := { s.sluice with inForce := true } }) ∧
    (s.time.ref + 8 < t.epoch → exec .tableEpoch s = .next s)

/-- R336 to R344: windows start, edges are guarded, begin and swap, gated cores are powered in time, and a table comes into force. -/
def Obligations.WindowsAndEdges : Prop :=
  Sys2Proof.Claims.WindowStarts ∧ Sys2Proof.Claims.EdgeGuard ∧ Sys2Proof.Claims.EdgeSwap ∧ Sys2Proof.Claims.CoreRepower ∧ Sys2Proof.Claims.TableEpoch

namespace Sys2Proof.Claims
open Sys2Proof Sys2Proof.Machine

/-! ### Service calls -/

/-- The next turn t of service core sl is the call c at place i of its queues (R369, R375). -/
structure TurnOf (s : State) (sl : Nat) (t : SvcTurn) (i : Nat) (c : Call) : Prop where
  turn : s.svcTurn sl = some t
  work : t.work = .call i
  call : (s.svc.get {} sl).calls[i]? = some c

/-- The next turn of service core sl is the last step of the call c of function f, whose block held ws; u is the state with the turn
taken (R369, R370, R375). -/
structure CallTurn (s : State) (sl f : Nat) (c : Call) (ws : List Nat) (u : State) : Prop where
  func : ws.getD 0 0 = f
  last : c.work = some (ws, 0) ∧ c.answer = none
  turn : ∃ t i, TurnOf s sl t i c ∧ u = s.svcTake sl t

/-- The steps of a service core that execute its calls, with the functions they serve (R372); TABLE_LOAD apart. -/
noncomputable def callSteps (sl : Nat) : List (Instr × Nat) :=
  [(.nop sl, 0x01), (.rsvAdd sl, 0x10), (.rsvRemove sl, 0x11), (.counter sl, 0x20), (.mapObject sl, 0x30), (.unmapObject sl, 0x31),
    (.harvest sl, 0x32), (.queueBind sl, 0x40), (.queueUnbind sl, 0x41), (.quarClear sl, 0x51), (.sweepSet sl, 0x52), (.logSet sl, 0x53),
    (.imageLoad sl, 0x54), (.flumeSet sl, 0x60), (.groupSet sl, 0x61), (.poisonClear sl, 0x70), (.biasSet sl, 0x71), (.linkDump sl, 0x72),
    (.twinExport sl, 0x73), (.debugOpen sl, 0x80), (.debugClose sl, 0x81), (.debugRead sl, 0x82), (.debugWrite sl, 0x83),
    (.debugResume sl, 0x84)]

/-- The call ends from state v with STATUS st and RESULT r (R371). -/
def CallEnds (i : Instr) (s : State) (sl : Nat) (c : Call) (ws : List Nat) (st r : Nat) (v : State) : Prop :=
  exec i s = .next (v.svcFinish sl c ws (st, r))

/-- The argument words. -/
def argOf (ws : List Nat) (i : Nat) : Nat := ws.getD (2 + i) 0

/-- A call of the service domain (R372). -/
structure DomainTurn (s : State) (sl f : Nat) (c : Call) (ws : List Nat) (u : State) : Prop where
  turn : CallTurn s sl f c ws u
  domain : c.tenant = 62

/-- The mapped object of an id of a call that has asked other instances for nothing, while nothing of its owner is under way and the
host holds no line of the device (R376, R378, R385). -/
structure ObjectTurn (s : State) (sl f : Nat) (c : Call) (ws : List Nat) (u : State) (o : HostObj) : Prop where
  turn : CallTurn s sl f c ws u
  tenant : c.tenant ≠ 62
  fresh : c.asks = none ∧ c.stage = 0
  quiet : s.quietFor c.tenant = true
  snoop : s.host.snoop = []
  id : argOf ws 0 < 256
  object : s.objects.find? (256 * c.tenant + argOf ws 0) = some o

/-- One page of an object is dirty, apart from its page-table entry, and both in LPDDR 6; the host is there, and no cached line lies over
its page at the host (R378). -/
structure OneDirty (s : State) (o : HostObj) (i p e : Nat) : Prop where
  pages : s.dirtyPages o = [(i, p, e)]
  apart : ptePpn e + 4096 ≤ p ∨ p + 8 ≤ ptePpn e
  device : ptePpn e + 4096 ≤ hostBase ∧ p + 8 ≤ hostBase
  ecc : s.ecc = []
  host : s.host.up = true
  lines : ∀ j < 4096, s.stale.find? ((hostBase + o.host + i + j) / 64) = none

/-- The pages' walks leave everything but what a turn waits for (R385, R420). -/
def Walked (u v : State) : Prop := v = { u with sched := { u.sched with held := v.sched.held } }

/-- The page at the host is the device's, and its entry is clean. -/
def Harvested (u v : State) (o : HostObj) (i p e : Nat) : Prop :=
  v.mem.readN p 8 = e - 64 ∧ (∀ j < 4096, v.homeByte (hostBase + o.host + i + j) = u.mem.read (ptePpn e + j)) ∧
    ∀ q, (q < p ∨ p + 8 ≤ q) → (q < hostBase + o.host + i ∨ hostBase + o.host + i + 4096 ≤ q) → v.mem.read q = u.mem.read q

end Sys2Proof.Claims

/-! ### Service calls -/

/-- R355, R368, R369: a call that arrives joins its owner's queue with answer 0, or finds 32 there and is answered 1; the answer comes
back to SVC's register. -/
def Sys2Proof.Claims.ServiceCallArrival : Prop :=
  (∀ (s : State) (c : Call) (x : Sender) (rest : List Call), s.svcFlight = c :: rest → c.sender = some x → s.released (some x) 3 = true →
    ∃ t, exec (.svcCallArrive 0) s = .next t ∧ t.svcFlight = rest ∧ t.mem = s.mem ∧
      ((s.svc.get {} c.slice).queued c.queue < 32 →
        (t.svc.get {} c.slice).calls = (s.svc.get {} c.slice).calls ++ [c] ∧
        t.svcAnswers = s.svcAnswers ++ [{ sender := x, status := 0, slot := none, counted := none }]) ∧
      (32 ≤ (s.svc.get {} c.slice).queued c.queue → t.svc = s.svc ∧
        t.svcAnswers = s.svcAnswers ++ [{ sender := x, status := 1, slot := none, counted := none }])) ∧
  ∀ (s : State) (x : Sender) (v : Word) (rest : List Answer) (j : Job) (cx : Nat) (o : PendOp),
    s.svcAnswers = { sender := x, status := v, slot := none, counted := none } :: rest → s.job? x.job = some j → j.state = .running cx →
    cx < numCtx → (s.ctx cx).ops = [o] → o.ord = x.ord →
    ∃ t, exec (.svcAnswer 0) s = .next t ∧ t.svcAnswers = rest ∧ Writes (s.ctx cx) (t.ctx cx) o.dst v ∧ (t.ctx cx).ops = [] ∧
      t.mem = s.mem ∧ ∀ y, y ≠ cx → t.ctx y = s.ctx y

/-- R370 to R372: NOP gives the service core's time, an unknown function is BAD_FUNC, a caller that a function does not allow is DENIED,
and a completion writes RESULT and the done word and sends the reply that REPLY asks for.  Choices of the model here and in the rest of
O46: how many steps a call makes is free (log entry 60), a block that cannot be read leaves with no completion (log entry 61), and the words
of a kernel instance's own calls and the form of those between instances (log entries 62 and 94). -/
def Sys2Proof.Claims.ServiceCallOutcomes : Prop :=
  (∀ (s : State) (sl f : Nat) (c : Call) (ws : List Nat) (u : State), CallTurn s sl f c ws u →
    (f = 1 → ∀ n v, u.sliceNow sl = (n, v) → CallEnds (.nop sl) s sl c ws 0 n v) ∧
    (f ∉ svcFuncs → c.writes = [] → CallEnds (.nop sl) s sl c ws 1 0 u) ∧
    (c.tenant ≠ 62 → ∀ i, (i, f) ∈ [(Instr.queueBind sl, 0x40), (.queueUnbind sl, 0x41), (.quarClear sl, 0x51), (.sweepSet sl, 0x52),
        (.logSet sl, 0x53), (.imageLoad sl, 0x54), (.flumeSet sl, 0x60), (.groupSet sl, 0x61), (.poisonClear sl, 0x70), (.linkDump sl, 0x72),
        (.twinExport sl, 0x73), (.debugOpen sl, 0x80), (.debugClose sl, 0x81), (.debugRead sl, 0x82), (.debugWrite sl, 0x83),
        (.debugResume sl, 0x84)] → CallEnds i s sl c ws 2 0 u) ∧
    (c.tenant = 62 → ∀ i, (i, f) ∈ [(Instr.mapObject sl, 0x30), (.unmapObject sl, 0x31), (.harvest sl, 0x32)] →
      CallEnds i s sl c ws 2 0 u)) ∧
  ∀ (v w : State) (sl : Nat) (c : Call) (ws : List Nat) (st r : Nat) (x : Xlat), c.own = none → st < 2 ^ 63 → r < 2 ^ 64 →
    (v.probeWrite c.agent [(c.block + 0x30, 16)]).1 = .ok [x] →
    (x.cached = none → ∀ i < 16, v.stale.find? ((x.place + i) / 64) = none) → w = v.svcFinish sl c ws (st, r) →
    w.bytesAt x.cached x.place 8 = r ∧ w.bytesAt x.cached (x.place + 8) 8 = 2 ^ 63 + st ∧
    (bit (ws.getD 1 0) 62 = true → w.eng = v.eng ∧ w.weirArrivals = v.weirArrivals) ∧
    (bit (ws.getD 1 0) 62 = false → bit (ws.getD 1 0) 63 = true → ws.getD 1 0 % 2 ^ 63 < 6144 →
      v.weirOwner (ws.getD 1 0 % 2 ^ 13) = c.tenant →
      w.eng = v.eng ∧ w.weirArrivals = v.weirArrivals ++
        [{ source := .slice sl, weir := ws.getD 1 0 % 2 ^ 13, tenant := c.tenant, weight := 1, abort := false, sender := none, sent := v.sched.steps }]) ∧
    (ws.getD 1 0 < 2 ^ 14 → ws.getD 1 0 % 256 < 96 → w.weirArrivals = v.weirArrivals ∧ w.eng = v.eng ++
      [{ source := .service sl, tenant := c.tenant, dst := ws.getD 1 0 % 256, tag := ws.getD 1 0 / 256
         payload := [c.block, BitVec.ofNat 64 (2 ^ 63 + st)], deadline := c.deadline, counted := none, sent := v.sched.steps }])

/-- R369, R370, R375: a call's first step reads its block; until its last step the call keeps its place; how many steps a call makes is
free (log entry 60).  A call whose block cannot be read leaves with no completion (log entry 61). -/
def Sys2Proof.Claims.ServiceCallSteps : Prop :=
  ∀ (s : State) (sl : Nat) (t : SvcTurn) (i : Nat) (c : Call) (x : Instr × Nat), TurnOf s sl t i c → x ∈ callSteps sl →
    (∀ ws s', c.work = none → s.svcBlock c = (some ws, s') → ∃ u n, exec x.1 s = .next u ∧ u.mem = s'.mem ∧ u.ctxs = s.ctxs ∧
      (u.svc.get {} sl).calls = (s.svc.get {} sl).calls.set i { c with work := some (ws, n) }) ∧
    (∀ s', c.work = none → s.svcBlock c = (none, s') → exec x.1 s = .next (s'.svcTake sl t)) ∧
    (∀ ws n, c.work = some (ws, n + 1) → ∃ u, exec x.1 s = .next u ∧ u.mem = s.mem ∧ u.ctxs = s.ctxs ∧
      (u.svc.get {} sl).calls = (s.svc.get {} sl).calls.set i { c with work := some (ws, n) }) ∧
    ∀ ws y, c.work = some (ws, 0) → c.answer = some y → CallEnds x.1 s sl c ws y.1 y.2 (s.svcTake sl t)

/-- R366, R374, R377, R378: a ready kernel instance queues a call of its own at a ready instance, under the service domain; a debug call of
the domain that is the next turn elsewhere is forwarded to instance 0 and keeps its place; a leaf of a harvested page that another
instance owns is asked of that instance, which writes it, and the harvest goes on; bytes are written for LOG_SET, QUEUE_BIND, DEBUG_READ and
a harvest's copies so too.  The form of these calls is the model's (log entries 62 and 94). -/
def Sys2Proof.Claims.InternalCalls : Prop :=
  (∀ (s : State) (sl dst : Nat), sl < 8 → dst < 8 → s.power.svc.get false sl = true → s.power.svc.get false dst = true →
    (s.svc.get {} dst).queued 62 < 32 →
    (∀ ws : List Word, ws ≠ [] → ∃ t c, exec (.internalCall sl dst ws) s = .next t ∧ t = { s with svc := t.svc } ∧
      (t.svc.get {} dst).calls = (s.svc.get {} dst).calls ++ [c] ∧ c.tenant = 62 ∧ c.queue = 62 ∧ c.own = some ws ∧
      ∀ k, k ≠ dst → t.svc.get {} k = s.svc.get {} k) ∧
    ∀ f c ws u, DomainTurn s sl f c ws u → 0x80 ≤ f → f ≤ 0x84 → sl ≠ 0 → dst = 0 →
      ∃ t d, exec (.internalCall sl dst []) s = .next t ∧ t.mem = s.mem ∧ (t.svc.get {} 0).calls = (s.svc.get {} 0).calls ++ [d] ∧
        d.tenant = 62 ∧ d.queue = 62 ∧ d.own = some ((ws.set 1 (2 ^ 62)).map (BitVec.ofNat 64)) ∧ d.copyOf = some s.sched.steps ∧
        { c with begun := true, asks := some s.sched.steps } ∈ (t.svc.get {} sl).calls) ∧
  (∀ (s : State) (sl k : Nat) (c : Call) (ws : List Nat) (u : State) (o : HostObj) (i p e : Nat), ObjectTurn s sl 0x32 c ws u o →
    OneDirty s o i p e → k = homeSlice p → k ≠ sl → s.power.svc.get false k = true → (s.svc.get {} k).queued 62 < 32 →
    ∃ t d, exec (.harvest sl) s = .next t ∧ t.mem = s.mem ∧ t.objects = s.objects ∧
      (t.svc.get {} k).calls = (s.svc.get {} k).calls ++ [d] ∧ d.queue = 62 ∧ d.writes = [.clean p] ∧ d.asks = some s.sched.steps ∧
      { c with begun := true, asks := some s.sched.steps, pages := [i] } ∈ (t.svc.get {} sl).calls) ∧
  ∀ (s : State) (sl f id p : Nat) (c : Call) (ws : List Nat) (u : State), CallTurn s sl f c ws u → f ∉ svcFuncs → c.asks = some id →
    homeSlice p = sl → (∀ x ∈ u.svc, ∀ d ∈ x.2.calls, d.writes = []) →
    (c.writes = [.clean p] → ∃ t, exec (.nop sl) s = .next t ∧
      t.mem.readN p 8 = (if bit (s.mem.readN p 8) 6 then s.mem.readN p 8 - 64 else s.mem.readN p 8) ∧
      (∀ q, (q < p ∨ p + 8 ≤ q) → t.mem.read q = s.mem.read q) ∧
      ∀ k, (t.svc.get {} k).calls = (u.svc.get {} k).calls.map fun d => if d.begun && d.asks == some id then { d with begun := false } else d) ∧
    (c.writes = [.invalid p] → ∃ t, exec (.nop sl) s = .next t ∧ t.mem.readN p 8 = ptePpn (s.mem.readN p 8)) ∧
    (∀ bs, c.writes = [.bytes p bs] → p + bs.length ≤ hostBase → ∃ t, exec (.nop sl) s = .next t ∧ t.mem.readBytes p bs.length = bs) ∧
    ∀ n, c.writes = [.valid p n] → ∃ t, exec (.nop sl) s = .next t ∧ t.mem.readN p 8 = (ptePpn (s.mem.readN p 8) + n) % 2 ^ 64

/-- R355, R366 to R374: calls of tenants and of kernel instances, and how every call completes. Where it rests on choices of the model
they are those of log entries 60, 61, 62 and 94. -/
def Obligations.ServiceCalls : Prop :=
  Sys2Proof.Claims.ServiceCallArrival ∧ Sys2Proof.Claims.ServiceCallSteps ∧ Sys2Proof.Claims.ServiceCallOutcomes ∧ Sys2Proof.Claims.InternalCalls

/-- R258, R280, R281, R372: RSV_ADD gives the admission's word, RSV_REMOVE takes a reservation of its caller away, COUNTER reads and on
request clears the counters of a caller.  That the service domain removes any reservation is the model's (log entry 66). -/
def Obligations.ReservationAndCounterCalls : Prop :=
  (∀ (s : State) (sl : Nat) (c : Call) (ws : List Nat) (u v : State), CallTurn s sl 0x10 c ws u →
    (argOf ws 0 % 64 ≠ 0 → CallEnds (.rsvAdd sl) s sl c ws 3 0 u) ∧
    (∀ bs x, argOf ws 0 % 64 = 0 → u.svcRead c (argOf ws 0) 128 = (.ok bs, v) → x = RsvDesc.ofWords (wordsOf bs) (if c.tenant = 62 then none else some c.tenant) →
      (v.admitStatus x ≠ 0 → CallEnds (.rsvAdd sl) s sl c ws 0 (v.admitStatus x) v) ∧
      (v.admitStatus x = 0 → ∃ y id r, CallEnds (.rsvAdd sl) s sl c ws 0 (65536 * id) y ∧ y.rsvs = v.rsvs.insert id r ∧
        v.rsvs.find? id = none ∧ r.p = x.p ∧ r.q = x.q ∧ r.d = x.d ∧ r.o = x.o ∧ r.tenant = x.tenant ∧ r.consumed = 0)) ∧
    (∀ e, argOf ws 0 % 64 = 0 → u.svcRead c (argOf ws 0) 128 = (.error e, v) → CallEnds (.rsvAdd sl) s sl c ws e.1 e.2 v)) ∧
  (∀ (s : State) (sl : Nat) (c : Call) (ws : List Nat) (u : State), CallTurn s sl 0x11 c ws u →
    (∀ r, u.rsvs.find? (argOf ws 0) = some r → c.tenant = 62 ∨ r.tenant = c.tenant →
      ∃ v, CallEnds (.rsvRemove sl) s sl c ws 0 0 v ∧ v.rsvs = u.rsvs.erase (argOf ws 0) ∧ v.mem = u.mem) ∧
    (u.rsvs.find? (argOf ws 0) = none → CallEnds (.rsvRemove sl) s sl c ws 3 0 u)) ∧
  ∀ (s : State) (sl : Nat) (c : Call) (ws : List Nat) (u : State) (o : Nat), CallTurn s sl 0x20 c ws u →
    o = (if c.tenant = 62 then argOf ws 1 else c.tenant) → o < 32 →
    (argOf ws 0 = 1 → ∃ v, CallEnds (.counter sl) s sl c ws 0 (u.lostLaunch.get 0 o) v ∧
      v.lostLaunch = (if bit (argOf ws 2) 0 then u.lostLaunch.set 0 o 0 else u.lostLaunch) ∧ v = { u with lostLaunch := v.lostLaunch }) ∧
    (argOf ws 0 = 2 → ∃ v, CallEnds (.counter sl) s sl c ws 0 (u.abwFail.get 0 o) v ∧
      v.abwFail = (if bit (argOf ws 2) 0 then u.abwFail.set 0 o 0 else u.abwFail) ∧ v = { u with abwFail := v.abwFail }) ∧
    (argOf ws 0 = 3 → c.tenant ≠ 62 → CallEnds (.counter sl) s sl c ws 2 0 u) ∧
    (argOf ws 0 = 3 → c.tenant = 62 → ∃ v, CallEnds (.counter sl) s sl c ws 0 (u.core (argOf ws 1)).foreign v ∧
      (v.core (argOf ws 1)).foreign = (if bit (argOf ws 2) 0 then 0 else (u.core (argOf ws 1)).foreign))

/-- R376 to R379: MAP_OBJECT gives the lowest free id of a well-formed object; HARVEST copies a dirty page to the host and cleans its
entry, UNMAP_OBJECT does so and leaves each entry its page number alone; every PERIOD a harvest is queued for an object that asks for it.  STATUS 4 with the host address while the link is down, and the automatic
harvest as the instance's own call, are the model's (log entry 64). -/
def Sys2Proof.Claims.HostObjectCalls : Prop :=
  (∀ (s : State) (sl : Nat) (c : Call) (ws : List Nat) (u v y : State) (bs : List Byte) (now : Nat), CallTurn s sl 0x30 c ws u →
    c.tenant ≠ 62 → u.svcRead c (argOf ws 0) 64 = (.ok bs, v) → v.sliceNow sl = (now, y) →
    (∀ o id, objOf (wordsOf bs) c.root now = some o → id < 256 → y.objects.find? (256 * c.tenant + id) = none →
      (∀ i < id, y.objects.find? (256 * c.tenant + i) ≠ none) →
      (∀ x ∈ y.objects, x.1 / 256 = c.tenant → overlaps x.2.va x.2.length o.va o.length = false) →
      (∀ i ∈ o.pages, y.backingOk c.root (o.va + i) = true) →
      CallEnds (.mapObject sl) s sl c ws 0 id { y.snoopPages o with objects := y.objects.insert (256 * c.tenant + id) o }) ∧
    (objOf (wordsOf bs) c.root now = none → CallEnds (.mapObject sl) s sl c ws 3 0 y)) ∧
  (∀ (s : State) (sl : Nat) (c : Call) (ws : List Nat) (u : State) (o : HostObj), ObjectTurn s sl 0x32 c ws u o →
    (∀ i p e, OneDirty s o i p e → homeSlice p = sl → homeSlice (hostBase + o.host + i) = sl →
      ∃ v, CallEnds (.harvest sl) s sl c ws 0 1 v ∧ Harvested u v o i p e ∧ v.objects = u.objects) ∧
    (s.dirtyPages o = [] → ∃ v, CallEnds (.harvest sl) s sl c ws 0 0 v ∧ Walked u v) ∧
    (s.dirtyPages o ≠ [] → s.ecc = [] → s.host.up = false → ∃ v, CallEnds (.harvest sl) s sl c ws 4 (hostBase + o.host) v ∧ Walked u v)) ∧
  (∀ (s : State) (sl : Nat) (c : Call) (ws : List Nat) (u : State) (o : HostObj) (p e : Nat), ObjectTurn s sl 0x31 c ws u o →
    o.length = 4096 → s.dirtyPages o = [] → s.filling c.tenant o = false → leafSlot s.mem o.va 3 (ptePpn o.root.toNat) = some (p, e) → homeSlice p = sl →
    ∃ v, CallEnds (.unmapObject sl) s sl c ws 0 0 v ∧ v.objects = u.objects.erase (256 * c.tenant + argOf ws 0) ∧
      v.mem.readN p 8 = ptePpn e ∧ ∀ q, (q < p ∨ p + 8 ≤ q) → v.mem.read q = u.mem.read q) ∧
  ∀ (s : State) (t obj now : Nat) (u : State) (o : HostObj), obj < 256 → s.objects.find? (256 * t + obj) = some o →
    s.sliceNow (homeSlice o.va) = (now, u) →
    (o.auto = true → o.due ≤ now → (s.svc.get {} (homeSlice o.va)).queued 62 < 32 → ∃ v c, exec (.harvestAuto t obj) s = .next v ∧
      v.objects = s.objects.insert (256 * t + obj) { o with due := o.due + o.period * 100000 } ∧ v.mem = s.mem ∧
      (v.svc.get {} (homeSlice o.va)).calls = (s.svc.get {} (homeSlice o.va)).calls ++ [c] ∧ c.tenant = t ∧ c.queue = 62 ∧
      c.own = some [(0x32 : Word), 1 <<< 62, BitVec.ofNat 64 obj]) ∧
    (o.auto = false ∨ now < o.due → exec (.harvestAuto t obj) s = .next u)

/-- R377: the next forwarded fault at an object fetches the page from the host, makes its entry valid, and lets the job go on; a fault
at no object abandons the job. -/
def Sys2Proof.Claims.ObjectFaults : Prop :=
  ∀ (s : State) (sl : Nat) (t : SvcTurn) (i : Nat) (f : ObjFault) (j : Job) (cx : Nat) (u : State), s.svcTurn sl = some t →
    t.work = .fault i → (s.svc.get {} sl).faults[i]? = some f → u = s.svcTake sl t → s.job? f.job = some j → j.state = .running cx →
    cx < numCtx → (s.ctx cx).status = .waiting .object → s.host.snoop = [] → (∀ g ∈ (s.svc.get {} sl).faults, g.asks = none) →
    (∀ k o p e, s.objectAt f.tenant f.va.toNat = some (k, o) → leafSlot s.mem f.va.toNat 3 (ptePpn o.root.toNat) = some (p, e) → homeSlice p = sl →
      (f.write = true → o.w = true) → bit e 0 = false → s.host.up = true → ptePpn e + 4096 ≤ p ∨ p + 8 ≤ ptePpn e →
      ∃ v, exec (.objectFaultServe sl) s = .next v ∧ (v.ctx cx).status = .running ∧
        v.mem.readN p 8 = (ptePpn e + 1 + 2 + 4 * o.w.toNat + 16) % 2 ^ 64 ∧
        ∀ b < 4096, v.mem.read (ptePpn e + b) = s.homeByte (hostBase + o.host + (f.va.toNat / 4096 * 4096 - o.va) + b)) ∧
    (s.objectAt f.tenant f.va.toNat = none →
      ∃ v, exec (.objectFaultServe sl) s = .next v ∧ v.job? f.job = some { j with state := .abandoning cx 0 } ∧
        (v.ctx cx).status = .stopping)

/-- R376 to R379: host objects are mapped, faulted in, harvested and unmapped. Where it rests on choices of the model they are those of
log entry 64. -/
def Obligations.HostObjects : Prop :=
  Sys2Proof.Claims.HostObjectCalls ∧ Sys2Proof.Claims.ObjectFaults

/-- R315, R344, R352, R386, R389, R392: the settings of the service domain: quarantine bits cleared, the sweep period, the log ring placed
empty, poison cleared and counted, the bias of a window page, the dump region, an export entry.  LOST taking the records lost so far is the model's (log entry 65), as is the
host address of 40 bits that POISON_CLEAR takes (log entry 68). -/
def Sys2Proof.Claims.ServiceSettings : Prop :=
  ∀ (s : State) (sl f : Nat) (c : Call) (ws : List Nat) (u : State) (a b : Nat), DomainTurn s sl f c ws u → a = argOf ws 0 →
    b = argOf ws 1 →
    (f = 0x51 → CallEnds (.quarClear sl) s sl c ws 0 0
      { u with sluice := { u.sluice with quar := u.sluice.quar &&& ~~~(BitVec.ofNat 64 a) } }) ∧
    (f = 0x52 → (1 ≤ a → a ≤ 32 → CallEnds (.sweepSet sl) s sl c ws 0 0 { u with sweep := a }) ∧
      (a = 0 ∨ 32 < a → CallEnds (.sweepSet sl) s sl c ws 3 0 u)) ∧
    (f = 0x53 → a % 4096 = 0 → b ∈ [64, 128, 256, 512, 1024, 2048, 4096, 8192, 16384, 32768, 65536] → a + 64 + 32 * b ≤ u.lpddr →
      u.lpddr ≤ hostBase → homeSlice a = sl → ∃ v, CallEnds (.logSet sl) s sl c ws 0 0 v ∧ v.sluice.log = some (a, b) ∧ v.mem.readN a 8 = 0 ∧
        v.mem.readN (a + 16) 8 = u.sluice.logLost % 2 ^ 64) ∧
    (f = 0x70 → (a = 2 ^ 64 - 1 → CallEnds (.poisonClear sl) s sl c ws 0 u.linkPoison.length { u with linkPoison := [] }) ∧
      (a % 64 = 0 → a < 2 ^ 40 → CallEnds (.poisonClear sl) s sl c ws 0 (u.linkPoison.get false ((hostBase + a) / 64)).toNat
        { u with linkPoison := u.linkPoison.erase ((hostBase + a) / 64) })) ∧
    (f = 0x71 → u.inWindow (a / 4096 * 4096) = true →
      ∃ v, CallEnds (.biasSet sl) s sl c ws 0 (u.host.bias.get false (a / 4096)).toNat v ∧
        v.host.bias.get false (a / 4096) = bit b 0 ∧
        (bit b 0 = true → ∀ x ∈ v.host.snoop, 64 * x.1 / 4096 ≠ a / 4096) ∧ v.mem = u.mem) ∧
    (f = 0x72 → a + b ≤ u.lpddr → CallEnds (.linkDump sl) s sl c ws 0 0 { u with host := { u.host with dump := some (a, b, 0) } }) ∧
    (f = 0x73 → a < 64 → ∀ bs v g w0 w1, u.svcRead c b 16 = (.ok bs, v) → wordsOf bs = [w0, w1] → grantOf? w0 w1 = some g →
      CallEnds (.twinExport sl) s sl c ws 0 0
        { v with twin := { v.twin with exports := v.twin.exports.set 0 a (w0 + 2 ^ 64 * w1) } })

/-- R250, R256, R372, R380: FLUME_SET and GROUP_SET place a descriptor that passes its checks, and are BAD_ARG for one that does not;
QUEUE_BIND copies a queue's control block and QUEUE_UNBIND gives its last index back.  Choices of the model: a group keeps its counters (log
entry 48), and the arguments of the service domain's own calls are physical addresses (log entry 66). -/
def Sys2Proof.Claims.DescriptorSettings : Prop :=
  ∀ (s : State) (sl f : Nat) (c : Call) (ws : List Nat) (u v : State) (a b : Nat) (bs : List Byte), DomainTurn s sl f c ws u →
    a = argOf ws 0 → b = argOf ws 1 →
    (∀ k n, f = 0x60 → k < 12 → n < 64 → a = 256 * k + n ∨ a = 256 * k + n + 2 ^ 15 → u.svcRead c b 32 = (.ok bs, v) →
      (flumeOf ((wordsOf bs).getD 0 0) ((wordsOf bs).getD 1 0) ((wordsOf bs).getD 2 0) = none → CallEnds (.flumeSet sl) s sl c ws 3 0 v) ∧
      ∀ x, flumeOf ((wordsOf bs).getD 0 0) ((wordsOf bs).getD 1 0) ((wordsOf bs).getD 2 0) = some x → v.flumeRefused k n x = false →
        x.en = true → CallEnds (.flumeSet sl) s sl c ws 0 0 (v.setFlume k n x)) ∧
    (∀ p n, f = 0x61 → p < 4 → n < 64 → a = p + 256 * n → u.svcRead c b 128 = (.ok bs, v) →
      (groupOf (wordsOf bs) = none → CallEnds (.groupSet sl) s sl c ws 3 0 v) ∧
      ∀ g, groupOf (wordsOf bs) = some g → v.clusters = [] →
        ∃ y, CallEnds (.groupSet sl) s sl c ws 0 0 y ∧ (y.port p).groups.find? n = some g ∧ (y.hrRows p n).open_ = [] ∧
          (y.hrRows p n).counters = (v.hrRows p n).counters ∧ y = { v with ports := y.ports }) ∧
    (f = 0x40 → c.own ≠ none → a < 64 → b % 128 = 0 → b + 128 ≤ u.lpddr →
      (∀ q, u.hqueues.find? a = none → u.queueOf b = some q → u.lpddr ≤ hostBase → homeSlice (b + 0x40) = sl →
        ∃ y, CallEnds (.queueBind sl) s sl c ws 0 0 y ∧ y.hqueues = u.hqueues.insert a q ∧ y.mem.readN (b + 0x40) 8 = 0 ∧
          y.mem.readN (b + 0x48) 8 = 0) ∧
      (∀ q k, u.hqueues.find? a = none → u.queueOf b = some q → k = homeSlice (b + 0x40) → k ≠ sl → c.asks = none →
        s.power.svc.get false k = true → (s.svc.get {} k).queued 62 < 32 →
        ∃ t d, exec (.queueBind sl) s = .next t ∧ t.mem = s.mem ∧ t.hqueues = s.hqueues ∧
          (t.svc.get {} k).calls = (s.svc.get {} k).calls ++ [d] ∧ d.writes = [.bytes (b + 0x40) (bytesOf 0 16)]) ∧
      (u.hqueues.find? a ≠ none → CallEnds (.queueBind sl) s sl c ws 5 0 u)) ∧
    (∀ q, f = 0x41 → u.hqueues.find? a = some q → CallEnds (.queueUnbind sl) s sl c ws 0 q.head { u with hqueues := u.hqueues.erase a }) ∧
    (f = 0x41 → u.hqueues.find? a = none → CallEnds (.queueUnbind sl) s sl c ws 3 0 u)

/-- R250, R256, R315, R344, R352, R372, R380, R386, R389, R392: the functions by which the service domain sets the device up. Where it
rests on choices of the model they are those of log entries 48, 65, 66 and 68. -/
def Obligations.ServiceDomainCalls : Prop :=
  Sys2Proof.Claims.ServiceSettings ∧ Sys2Proof.Claims.DescriptorSettings

/-- R337, R338: a table whose checks fail is refused with its status; one that passes is accepted, and every job is abandoned; once the
jobs are gone it takes force: no core is owned, and reservations, groups, weirs, maps, tags and barriers are as at reset.  A refused load's STATUS 0 with its reason in RESULT is log entry 63. -/
def Sys2Proof.Claims.TableLoads : Prop :=
  ∀ (s : State) (sl : Nat),
    (∀ c ws u now v at_, s.begunLoad sl = none → s.sluice.loading = false → DomainTurn s sl 0x50 c ws u → at_ = argOf ws 0 →
      u.sliceNow sl = (now, v) → at_ + tableSize ≤ u.lpddr →
      ((u.tableAt at_).status now ≠ 0 → CallEnds (.tableLoad sl) s sl c ws 0 ((u.tableAt at_).status now)
        (v.snoopRead at_ tableSize)) ∧
      ((u.tableAt at_).status now = 0 →
        ∃ t, exec (.tableLoad sl) s = .next t ∧ t.sluice.loading = true ∧ t.sluice.next = some (u.tableAt at_) ∧ t.mem = u.mem ∧
          ∀ h j, t.job? h = some j → ∃ x p, j.state = .abandoning x p)) ∧
    ∀ i c t, s.begunLoad sl = some (i, c) → s.jobs = [] → s.sluice.next = some t →
      ∃ (v : State) (ws : List Nat), exec (.tableLoad sl) s = .next (v.svcFinish sl c ws (0, 0)) ∧ v.sluice.table = some t ∧ v.sluice.inForce = false ∧
        v.sluice.loading = false ∧ v.rsvs = [] ∧ v.groups = [] ∧ v.mem = s.mem ∧
        (∀ k < 96, (v.core k).owner = 63 ∧ v.gated (.core k) = true ∧ (v.core k).tags = [] ∧ (v.core k).barriers = [] ∧
          (v.core k).entries = []) ∧
        ∀ k < 12, (v.cluster k).weirs = [] ∧ (v.cluster k).maps = []

/-- R80, R373: an image whose load table fails a check is BAD_ARG with the offset of the failing item and changes nothing; one that
passes is written to its cores and clusters and gives the bytes written. -/
def Sys2Proof.Claims.ImageLoads : Prop :=
  ∀ (s : State) (sl : Nat) (c : Call) (ws : List Nat) (u : State) (t : LoadTable) (n : Nat) (half : Bool), DomainTurn s sl 0x54 c ws u →
    argOf ws 0 + 0xF00 ≤ u.lpddr → t = u.loadTable (argOf ws 0) → n = argOf ws 1 % 32 → half = bit (argOf ws 2) 0 →
    (∀ o, u.loadFails t n half = some o → CallEnds (.imageLoad sl) s sl c ws 3 o (u.snoopRead (argOf ws 0) 0xF00)) ∧
    ∀ k e, u.loadFails t n half = none → t.selected half = [(k, e)] → t.listed = [] → t.tags.2 = 0 →
      t.common.2 ≤ t.pcb →
      ∃ v, CallEnds (.imageLoad sl) s sl c ws 0 (t.common.2 + (u.corePart t e).2) v ∧
        (∀ o < t.common.2, v.mem.read (corePlace k ((u.coreRegion k n).1) + o) = u.mem.read (t.at_ + t.common.1 + o)) ∧
        ∀ o < (u.corePart t e).2, v.mem.read (corePlace k ((u.coreRegion k n).1 + t.pcb) + o) = u.mem.read (t.at_ + (u.corePart t e).1 + o)

/-- R374: DEBUG_OPEN opens a session, DEBUG_CLOSE ends one; DEBUG_READ stores a stopped context's image, each page through the
instance that owns it (R366), DEBUG_WRITE loads one of the same
class, and DEBUG_RESUME lets the context go on, at BRK or past it.  That the context goes on at the TEPC recorded at its stop is the model's (log
entry 65), as are the asks of DEBUG_READ (log entry 94). -/
def Sys2Proof.Claims.DebugCalls : Prop :=
  ∀ (s : State) (f : Nat) (c : Call) (ws : List Nat) (u : State) (a b x : Nat), DomainTurn s 0 f c ws u → a = argOf ws 0 →
    b = argOf ws 1 → x = argOf ws 2 →
    (f = 0x80 → (a < 32 → u.sessions.find? a = none → CallEnds (.debugOpen 0) s 0 c ws 0 0 { u with sessions := u.sessions.insert a [] }) ∧
      (a < 32 → u.sessions.find? a ≠ none → CallEnds (.debugOpen 0) s 0 c ws 5 0 u) ∧ (32 ≤ a → CallEnds (.debugOpen 0) s 0 c ws 3 0 u)) ∧
    (f = 0x81 → (u.sessions.find? a = some [] → CallEnds (.debugClose 0) s 0 c ws 0 0 { u with sessions := u.sessions.erase a }) ∧
      (u.sessions.find? a = none → CallEnds (.debugClose 0) s 0 c ws 3 0 u)) ∧
    (u.stopAt a b = none → ∀ i, (i, f) ∈ [(Instr.debugRead 0, 0x82), (.debugWrite 0, 0x83), (.debugResume 0, 0x84)] →
      CallEnds i s 0 c ws 3 0 u) ∧
    ∀ p, u.stopAt a b = some p →
      (∀ image, f = 0x82 → x % 4096 = 0 → x + imageSize ≤ u.lpddr → u.lpddr ≤ hostBase → image = u.imageBytes (u.refOf p.job) (4 * p.core + p.ctx) →
        (c.asks = none → (∀ k < 8, s.power.svc.get false k = true ∧ (s.svc.get {} k).queued 62 < 32) →
          ∃ t, exec (.debugRead 0) s = .next t ∧ t.mem = s.mem ∧
            { c with begun := true, asks := some s.sched.steps, pages := [] } ∈ (t.svc.get {} 0).calls ∧
            ∀ k < 8, k ≠ 0 → ∃ d, (t.svc.get {} k).calls = (s.svc.get {} k).calls ++ [d] ∧ d.queue = 62 ∧
              d.writes = writesOf k (pagesOf x image) ∧ d.asks = some s.sched.steps) ∧
        (c.asks ≠ none → ∃ v, CallEnds (.debugRead 0) s 0 c ws 0 p.tepc.toNat v ∧ v.ctxs = u.ctxs ∧
          ∀ q bs, .bytes q bs ∈ writesOf 0 (pagesOf x image) → v.mem.readBytes q bs.length = bs)) ∧
      (∀ y, f = 0x83 → x % 4096 = 0 → x + imageSize ≤ u.lpddr → y = u.snoopRead x imageSize →
        (u.imageDiffers (u.refOf p.job) (fun o n => u.mem.readN (x + o) n) = true → CallEnds (.debugWrite 0) s 0 c ws 0 2 y) ∧
        (u.imageDiffers (u.refOf p.job) (fun o n => u.mem.readN (x + o) n) = false →
          CallEnds (.debugWrite 0) s 0 c ws 0 0 (y.loadImage (u.refOf p.job) (4 * p.core + p.ctx) fun o n => u.mem.readN (x + o) n))) ∧
      (f = 0x84 → bit x 0 = false → ∃ v, CallEnds (.debugResume 0) s 0 c ws 0 0 v ∧ (v.ctx (v.refOf p.job)).status = .running ∧
        (v.ctx (v.refOf p.job)).pc = p.tepc ∧ v.mem = u.mem) ∧
      ∀ hs y, f = 0x84 → bit x 0 = true →
        u.fetchFrom (u.agentOf (4 * p.core + p.ctx) (u.ctx (u.refOf p.job))) 4 p.tepc [] = (.chain hs, y) →
        ∃ v, CallEnds (.debugResume 0) s 0 c ws 0 0 v ∧ (v.ctx (v.refOf p.job)).status = .running ∧
          (v.ctx (v.refOf p.job)).pc = p.tepc + BitVec.ofNat 64 (2 * hs.length) ∧ v.mem = y.mem

/-- R80, R337, R338, R373, R374: tables and images are loaded, and stopped contexts are read, written and resumed. Where it rests on
choices of the model they are those of log entries 63, 65 and 94. -/
def Obligations.LoadsAndDebug : Prop :=
  Sys2Proof.Claims.TableLoads ∧ Sys2Proof.Claims.ImageLoads ∧ Sys2Proof.Claims.DebugCalls

/-! ### The links -/

/-- R381: a doorbell brings a queue's record: one that passes its checks is placed as its jobs, the index moves, and the control block
shows it; one that fails is recorded in a free slot of the queue's flume, or counted in DROPPED where there is no flume or it is full. -/
def Sys2Proof.Claims.HostQueueRecords : Prop :=
  ∀ (s : State) (n tail : Nat) (q : HostQueue) (r : LaunchRec), n < 64 → s.host.up = true → tail < 2 ^ 32 → s.hqueues.find? n = some q →
    tail = q.head + 1 → r = LaunchRec.ofWords ((List.range 8).map fun i => s.mem.readN (q.ring + 64 * (q.head % 2 ^ q.log2n) + 8 * i) 8) →
    (∃ t, exec (.hlqdb n tail) s = .next t ∧ t.host.tails.get 0 n = tail ∧ t.hqueues.find? n = some { q with head := tail } ∧
      t.mem.readN (q.block + 0x40) 8 = tail) ∧
    ((∀ now u, s.clusterNow 0 = (now, u) → u.recordReason q r = 0) → q.floor = 0 → r.deadline ≠ 0 →
      (∀ now u, s.clusterNow 0 = (now, u) → now ≤ r.deadline.toNat) →
      ∃ t, exec (.hlqdb n tail) s = .next t ∧ ∀ i < r.count, ∃ h j, t.job? h = some j ∧ j.tenant = q.tenant ∧ j.origin = .hostQueue ∧
        j.wid = r.childWid i ∧ j.deadline = r.deadline) ∧
    (∀ now u k f x place, s.clusterNow 0 = (now, u) → u.recordReason q r ≠ 0 → bit q.flume 15 = true → k = bitsOf q.flume 11 8 →
      f = q.flume % 64 → x = s.flume k f → x.en = true → x.prod = 0 → x.owner = q.tenant → x.full = false → x.done = [] → x.fill = x.claim →
      x.claim < 65536 → place = clusterPlace k ((s.clusterRegion k x.owner).1 + x.offset x.claim) → q.block + 0x50 ≤ 2 ^ 48 → 32 ≤ x.slotsz →
      ∃ t, exec (.hlqdb n tail) s = .next t ∧ t.jobs = s.jobs ∧
        t.mem.readN place 8 = n ∧ t.mem.readN (place + 8) 8 = q.head % 2 ^ 64 ∧ t.mem.readN (place + 16) 8 = u.recordReason q r % 2 ^ 64 ∧
        t.mem.readN (place + 24) 8 = now % 2 ^ 64 ∧ (∀ b, 32 ≤ b → b < x.slotsz → t.mem.read (place + b) = 0) ∧
        t.mem.readN (q.block + 0x48) 8 = s.mem.readN (q.block + 0x48) 8 ∧
        t.flume k f = { x with claim := (x.claim + 1) % 65536, fill := (x.claim + 1) % 65536 } ∧
        t.weirArrivals.length = s.weirArrivals.length + if x.weir = 0x1FFF then 0 else 1) ∧
    ((∀ now u, s.clusterNow 0 = (now, u) → u.recordReason q r ≠ 0) →
      bit q.flume 15 = false ∨ (s.flume (bitsOf q.flume 11 8) (q.flume % 64)).full = true →
      ∃ t, exec (.hlqdb n tail) s = .next t ∧ t.jobs = s.jobs ∧ t.mem.readN (q.block + 0x48) 4 = (s.mem.readN (q.block + 0x48) 4 + 1) % 2 ^ 32)

/-- R2, R383: BAR0's signal registers: HOSTSIGW takes a weir word in bits 12:0, HOSTSIG sends an arrival at a weir of the service domain, and a write to a
register with no behaviour changes nothing. -/
def Sys2Proof.Claims.HostSignals : Prop :=
  ∀ (s : State) (v : Word) (off : Nat),
    exec (.hostsigw v) s = .next { s with host := { s.host with sigw := v.toNat % 2 ^ 13 } } ∧
    (s.host.up = true → s.host.sigw < 6144 → s.weirOwner s.host.sigw = 62 →
      exec .hostsig s = .next { s with weirArrivals := s.weirArrivals ++
        [{ source := .slice hostSlice, weir := s.host.sigw, tenant := 62, weight := 1, abort := false, sender := none, sent := s.sched.steps }] }) ∧
    (s.host.sigw = 0x1FFF → exec .hostsig s = .next s) ∧
    exec (.registerWrite off v) s = .next s

/-- R381, R383: the doorbell of a host launch queue, and the signal registers. -/
def Obligations.HostQueuesAndSignals : Prop :=
  Sys2Proof.Claims.HostQueueRecords ∧ Sys2Proof.Claims.HostSignals

/-- R384 to R388: the window is set once; BIASREQ flips a page of it; a host access in the window reads or writes LPDDR 6 there, ends the
page's device bias and enters its line in the filter; a snoop of a host line brings its dirty data home, and drops a clean copy.  What a host that takes a line writes there is free (log entry
67). -/
def Sys2Proof.Claims.HostMemoryAccesses : Prop :=
  ∀ (s : State) (off n : Nat) (excl : Bool) (bs : List Byte) (v : Word) (l : Nat),
    (s.host.hs = 0 → off % 2 ^ 30 = 0 → n % 2 ^ 30 = 0 → off + n ≤ s.lpddr →
      exec (.hdmWindowSet off n) s = .next { s with host := { s.host with hb := off, hs := n } }) ∧
    (s.host.hs ≠ 0 → exec (.hdmWindowSet off n) s = .next s) ∧
    (s.host.up = true → s.inWindow (ptePpn v.toNat) = true →
      ∃ t, exec (.biasreq v) s = .next t ∧ t.host.bias.get false (ptePpn v.toNat / 4096) = v.getLsbD 0 ∧ t.mem = s.mem ∧
        (v.getLsbD 0 = true → ∀ x ∈ t.host.snoop, 64 * x.1 / 4096 ≠ ptePpn v.toNat / 4096)) ∧
    (s.host.up = true → 1 ≤ n → n ≤ 64 → (s.host.hb + off) % 64 + n ≤ 64 → off + n ≤ s.host.hs →
      ∃ t, exec (.hostMemAccess (.read off n excl)) s = .next t ∧ t.mem = s.mem ∧
        ((s.host.hb + off) / 64, excl) ∈ t.host.snoop ∧ t.host.bias.get false (64 * ((s.host.hb + off) / 64) / 4096) = false) ∧
    (s.host.up = true → bs ≠ [] → off + bs.length ≤ s.host.hs →
      ∃ t, exec (.hostMemAccess (.write off bs)) s = .next t ∧ t.mem = s.mem.writeBytes (s.host.hb + off) bs ∧ t.ctxs = s.ctxs ∧
        t.jobs = s.jobs) ∧
    (s.host.up = true → isHostPa (64 * l) = true →
      ((∀ d, s.stale.find? l = some d → d.dirty = true) → exec (.hostSnoop l false) s = .next { s with stale := s.stale.erase l }) ∧
      (∀ d, s.stale.find? l = some d → d.dirty = false →
        exec (.hostSnoop l false) s = .next { s with stale := s.stale.erase l, mem := s.mem.writeBytes (64 * l) d.home }) ∧
      ((∀ d, s.stale.find? l = some d → d.home.length = 64) → ∃ t, exec (.hostSnoop l true) s = .next t ∧ t.stale = s.stale.erase l ∧
        ∀ q, (q < 64 * l ∨ 64 * l + 64 ≤ q) → t.mem.read q = s.mem.read q))

/-- R389: when the host link is lost, each dirty host line is poisoned and reads as the host has it, and so is each line the host held
exclusively; the filter is empty; dirty lines go to the dump region while it has room; the link comes up again on its own.  The address in the dump as a 40-bit host address is the model's (log entry 68), and so are the free bytes
of the lines the host held (log entry 67). -/
def Sys2Proof.Claims.HostLinkLoss : Prop :=
  (∀ s : State, exec .hostLinkUp s = .next { s with host := { s.host with up := true } } ∧
    (s.host.up = false → exec .hostLinkDown s = .next s)) ∧
  ∀ (s : State) (l : Nat) (d : CachedLine) (base size n : Nat), s.host.up = true → s.stale = [(l, d)] → d.dirty = true → isHostPa (64 * l) = true →
    d.home.length = 64 → s.host.snoop = [] → s.host.dump = some (base, size, n) → base + size ≤ hostBase → s.sluice.log = none →
    s.ctxs = [] → s.jobs = [] →
    ∃ t, exec .hostLinkDown s = .next t ∧ t.host.up = false ∧ t.stale = [] ∧ t.linkPoison.get false l = true ∧ t.host.snoop = [] ∧
      t.mem.readBytes (64 * l) 64 = d.home ∧
      (128 * (n + 1) ≤ size → t.host.dump = some (base, size, n + 1) ∧
        t.mem.readBytes (base + 128 * n + 64) 64 = s.mem.readBytes (64 * l) 64 ∧
        t.mem.readN (base + 128 * n) 8 = 64 * l - hostBase ∧ t.mem.readN (base + 128 * n + 8) 8 = d.owner % 2 ^ 64) ∧
      (size < 128 * (n + 1) → t.host.dump = s.host.dump)

/-- R390 to R394: pairing takes the twin's grants; an access of the twin that an export grants is performed here, and no other;
the twin writes its own memory as it will (log entry 67); losing the
twin link refuses the sends in flight to the twin and takes the grants away. -/
def Sys2Proof.Claims.TwinLink : Prop :=
  (∀ (s : State) (gs : List TwinGrant), gs.length ≤ 64 → (∀ g ∈ gs, g.base % 4096 = 0 ∧ g.size % 4096 = 0) →
    exec (.twinPair gs) s = .next { s with twin := { s.twin with paired := true, imports := gs } }) ∧
  (∀ (s : State) (p : Nat) (t n size : Nat) (bs : List Byte) (op : AmoOp) (b c : Word),
    (s.twin.paired = true → s.inLpddr p bs.length = true → s.exported t p bs.length true = true →
      ∃ u, exec (.twinMemoryAccess { tenant := t, addr := p, op := .write bs }) s = .next u ∧ u.mem = s.mem.writeBytes p bs ∧
        u.ctxs = s.ctxs ∧ u.stale = s.stale) ∧
    (s.twin.paired = true → isTwinPa p = true → isTwinPa (p + bs.length - 1) = true →
      ∃ u, exec (.twinMemoryAccess { tenant := t, addr := p, op := .write bs }) s = .next u ∧ u.mem = s.mem.writeBytes p bs ∧
        u.ctxs = s.ctxs ∧ u.stale = s.stale) ∧
    (s.twin.paired = false ∨ isTwinPa p = false ∧ s.exported t p n false = false →
      exec (.twinMemoryAccess { tenant := t, addr := p, op := .read n }) s = .next s) ∧
    (s.twin.paired = false ∨ isTwinPa p = false ∧ s.exported t p bs.length true = false →
      exec (.twinMemoryAccess { tenant := t, addr := p, op := .write bs }) s = .next s) ∧
    (s.twin.paired = true → size = 4 ∨ size = 8 → p % size = 0 → s.inLpddr p size = true → s.exported t p size true = true →
      s.exported t p size false = true → s.ecc = [] →
      ∃ u, exec (.twinMemoryAccess { tenant := t, addr := p, op := .amo op size b c }) s = .next u ∧
        u.mem = (match AmoOp.apply op (8 * size) (s.mem.readN p size) b.toNat c.toNat with
          | some v => s.mem.writeBytes p (bytesOf v size)
          | none => s.mem))) ∧
  ∀ (s : State) (m : ActiveMsg) (x : Sender), s.twin.paired = true → s.am = [m] → 96 ≤ m.dst → m.sender = some x → m.reply = false →
    ∃ t, exec .twinLinkDown s = .next t ∧ t.am = [] ∧ t.twin.paired = false ∧ t.twin.imports = [] ∧
      t.answers = s.answers ++ [{ sender := x, status := 1, slot := some (m.src, m.tenant), counted := none }] ∧
      (∀ p ∈ t.eng, p.dst < 96) ∧ ∀ y ∈ t.gmsg, y.1.core < 96

/-- R384 to R394: accesses over the links, and their loss. Where it rests on choices of the model they are those of log entries 67 and
68. -/
def Obligations.Links : Prop :=
  Sys2Proof.Claims.HostMemoryAccesses ∧ Sys2Proof.Claims.HostLinkLoss ∧ Sys2Proof.Claims.TwinLink

/-! ### Supplies, time, power and scrubbing -/

/-- R419, R420, R429, R430: without the supplies POWER_ON alone acts; DEVICE_RESET brings every register back to reset and keeps what
memory holds; a good boot image extends the measurement chain and makes its unit ready, a bad one does not; the host reads the signed chain
value; trained channels, clusters whose micro-kernel image is verified, and ports become ready.  Choices of the model: a device reset keeps
memory and the supplies (log entry 70), LPDDR 6 is counted in units of 1 MiB a channel (log entry 69), the form of the chain (log entry
111). -/
def Sys2Proof.Claims.SuppliesAndReadiness : Prop :=
  ∀ s : State,
    exec .powerOn s = .next { s with power := { s.power with supplies := true } } ∧
    (s.power.supplies = false → ∀ t, t ≠ Turn.event .powerOn → s.act t = .next s) ∧
    (∃ t, exec .deviceReset s = .next t ∧ t.mem = s.mem ∧ t.ecc = s.ecc ∧ t.ctxs = [] ∧ t.jobs = [] ∧ t.cores = [] ∧ t.clusters = [] ∧
      t.sluice = {} ∧ t.host = {} ∧ t.twin = {} ∧ t.power = { supplies := s.power.supplies } ∧ t.time = {}) ∧
    (∀ (u : ImageUnit) (bs : List Byte), exec (.bootImageVerify u bs false) s = .next s) ∧
    (∀ (k : Nat) (bs : List Byte), k < 8 → ∃ t, exec (.bootImageVerify (.service k) bs true) s = .next t ∧ t.power.svc.get false k = true ∧
      t.power.chain = Config.extend s.power.chain bs ∧ t = { s with power := t.power }) ∧
    (∀ bs : List Byte, ∃ t, exec (.bootImageVerify .microKernel bs true) s = .next t ∧ t.power.microKernel = true ∧
      t.power.chain = Config.extend s.power.chain bs ∧ t = { s with power := t.power }) ∧
    exec .spdmMeasurements s = .next { s with host := { s.host with spdm := Config.spdmSigned s.power.chain } } ∧
    (∀ c n, c < 32 → n ≠ 0 → ∃ t, exec (.channelTrained c n) s = .next t ∧ t.power.chan.get 0 c = n ∧
      t = { s with power := t.power, lpddr := t.lpddr } ∧
      ((∀ x < 32, x ≠ c → s.power.chan.get 0 x = n) → n ≤ 8192 → t.lpddr = 32 * n * 2 ^ 20)) ∧
    (s.power.microKernel = false → ∀ k, exec (.clusterReady k) s = .next s) ∧
    (∀ k < 12, s.power.microKernel = true → ∃ t, exec (.clusterReady k) s = .next t ∧ t.power.cluster.get false k = true ∧ t.mem = s.mem ∧
      t.eccAt (corePlace (8 * k) 0) 8 = false ∧ t.eccAt (clusterPlace k 0) 8 = false) ∧
    ∀ p < 4, exec (.headracePortReady p) s = .next { s with power := { s.power with port := s.power.port.set false p true } }

/-- R13, R268, R421: the first PTP lock sets every counter, later ones the lock alone; loss leaves the counters running; the clock steps
to 0 to 4, and past 2 only while the table has no tenant's window.  That later locks set the lock alone is the model's (log entry 73). -/
def Sys2Proof.Claims.TimeLockAndClockSteps : Prop :=
  ∀ (s : State) (n : Nat),
    (s.time.everLocked = false → exec (.ptpFirstLock n) s =
      .next { s with
        time := { s.time with ref := n, cluster := [], slice := [], locked := true, everLocked := true }
        lastSweep := n / (500 * s.sweep) * (500 * s.sweep) }) ∧
    (s.time.everLocked = true → exec (.ptpFirstLock n) s = .next s) ∧
    exec .ptpLockLoss s = .next { s with time := { s.time with locked := false } } ∧
    (s.time.everLocked = true → exec .ptpLockRegained s = .next { s with time := { s.time with locked := true } }) ∧
    (s.time.everLocked = false → exec .ptpLockRegained s = .next s) ∧
    (n ≤ 2 ∨ n ≤ 4 ∧ s.tenantWindows = false → exec (.dvfsStepChange n) s = .next { s with power := { s.power with step := n } }) ∧
    (4 < n ∨ 2 < n ∧ s.tenantWindows = true → exec (.dvfsStepChange n) s = .next s)

/-- R13, R268, R419 to R421, R429, R430: supplies, reset, firmware, readiness, the servo and the clock step. Where it rests on choices of
the model they are those of log entries 69, 70, 73 and 111. -/
def Obligations.PlatformState : Prop :=
  Sys2Proof.Claims.SuppliesAndReadiness ∧ Sys2Proof.Claims.TimeLockAndClockSteps

/-- R357, R424 to R426: the meters of owners and reservations gain by what is charged to them alone; the Still state begins when every
cluster and engine is gated and the mesh has carried nothing for 10 µs, with every trained channel asleep, and a channel wakes 2 µs after an
access has reached it; a check of the power cap throttles by one action more, and undoes one once the power has been below 90% of the cap
for 1 ms.  What a bill amounts to is free and a check takes one action; both are the model's (log entry 71). -/
def Sys2Proof.Claims.MetersStillAndCap : Prop :=
  ∀ s : State,
    (∃ t, exec .energyMeterUpdate s = .next t ∧ t = { s with meters := t.meters, sched := t.sched } ∧ t.sched.agenda = s.sched.agenda ∧
      (∀ o, (∀ b ∈ s.bills, b.owner ≠ o) → t.meters.tenant.get 0 o = s.meters.tenant.get 0 o) ∧
      (∀ n, (∀ b ∈ s.bills, b.rsv ≠ some n) → t.meters.rsv.get 0 n = s.meters.rsv.get 0 n)) ∧
    (s.power.still = false → s.power.lastMesh + 10000 ≤ s.time.ref → (∀ k < 12, s.gated (.cluster k) = true) → (∀ e < 16, s.gated (.engine e) = true) → s.meshBusy = false →
      ∃ t, exec .stillEnter s = .next t ∧ t.power.still = true ∧ t = { s with power := t.power } ∧
        ∀ c < 32, t.power.asleep.get false c = decide (s.power.chan.get 0 c ≠ 0)) ∧
    ((∃ k < 12, s.gated (.cluster k) = false) ∨ s.meshBusy = true ∨ s.time.ref < s.power.lastMesh + 10000 → exec .stillEnter s = .next s) ∧
    (∀ c w, s.power.wakeAt.find? c = some w → w ≤ s.time.ref → ∃ t, exec (.channelWake c) s = .next t ∧ t.power.asleep.get false c = false ∧
      t = { s with power := t.power } ∧ ∀ x, x ≠ c → t.power.asleep.get false x = s.power.asleep.get false x) ∧
    (∀ c, (∀ w, s.power.wakeAt.find? c = some w → s.time.ref < w) → exec (.channelWake c) s = .next s) ∧
    (∃ t, exec .powerCapCheck s = .next t ∧ t.mem = s.mem ∧ t.power.throttle ≤ max s.power.throttle 2 + 1 ∧
      s.power.throttle ≤ t.power.throttle + 1 ∧ t.power.gated = s.power.gated ∧ t.power.supplies = s.power.supplies) ∧
    ∀ w u, s.drawNat = (w, u) →
      (100 * w < 90 * Config.powerCap → ∃ t, exec .powerCapCheck s = .next t ∧ t.jobs = s.jobs ∧ t.ctxs = s.ctxs ∧
        (s.power.lowSince = none → t.power.lowSince = some s.time.ref ∧ t.power.throttle = s.power.throttle) ∧
        ∀ b, s.power.lowSince = some b → t.power.lowSince = some b ∧
          (b + 1000000 ≤ s.time.ref → t.power.throttle = s.power.throttle - 1) ∧
          (s.time.ref < b + 1000000 → t.power.throttle = s.power.throttle)) ∧
      (Config.powerCap < w → s.power.throttle ≠ 0 → s.beRunning = [] → 4 ≤ s.power.step → ∃ t, exec .powerCapCheck s = .next t ∧
        t.power.throttle = s.power.throttle ∧ t = { s with power := t.power, telemetry := t.telemetry, sched := t.sched })

/-- R427, R428: a scrub leaves all as it was but for the error it finds, which is the model's free bit (notes/assumptions/72.md): a poisoned
line of LPDDR 6 or of an array, an error of a register beat or a tile word, the job of a record abandoned, a tag with its waiting
handlers, a weir or a barrier as at reset, an armed launch made with its children abandoned.  Errors are counted in the telemetry SRAM. -/
def Sys2Proof.Claims.Scrubs : Prop :=
  ∀ (s t : State) (bad : Bool), s.drawBit = (bad, t) →
    (∀ sl w, s.isLpddr (8 * w) = true → homeSlice (8 * w) = sl →
      (bad = false → ∃ u, exec (.lpddrScrub sl w) s = .next u ∧ u = { t with sched := u.sched, telemetry := u.telemetry }) ∧
      (bad = true → ∃ u, exec (.lpddrScrub sl w) s = .next u ∧ u = { t with ecc := u.ecc } ∧
        ∀ x, u.ecc.get false x = (s.ecc.get false x || decide (x / 8 = w / 8)))) ∧
    (bad = false → ∀ x, ∃ u, exec (.sramScrub x) s = .next u ∧ u = { t with sched := u.sched, telemetry := u.telemetry }) ∧
    (bad = true →
      (∀ w, 2 ^ 48 ≤ 8 * w → ∃ u, exec (.sramScrub (.word w)) s = .next u ∧ u = { t with ecc := u.ecc } ∧ u.ecc.get false w = true) ∧
      (∀ cx b, cx < numCtx → (s.ctx cx).job.isSome = true → b < 512 → ∃ u, exec (.sramScrub (.vreg cx b)) s = .next u ∧
        (u.ctx cx).vecEcc.find? b ≠ none ∧ (u.ctx cx).vregs = (s.ctx cx).vregs) ∧
      (∀ c w, c < 96 → w < 8192 → ∃ u, exec (.sramScrub (.tile c w)) s = .next u ∧ (u.core c).mx.ecc.get false w = true ∧
        (u.core c).mx.tiles = (s.core c).mx.tiles) ∧
      (∀ h j cx, s.job? h = some j → j.state = .running cx → ∃ u, exec (.sramScrub (.job h)) s = .next u ∧
        u.job? h = some { j with state := .abandoning cx 0 }) ∧
      (∀ c k, ∃ u, exec (.sramScrub (.tag c k)) s = .next u ∧ (u.core c).tags.find? k = none ∧ (∀ e ∈ (u.core c).entries, e.tag ≠ k) ∧
        ∀ e ∈ (s.core c).entries, e.tag ≠ k → e ∈ (u.core c).entries) ∧
      (∀ w, ∃ u, exec (.sramScrub (.weir w)) s = .next u ∧ u.weir w = {} ∧
        u.telemetry.get 0 lostEntryWord = (s.telemetry.get 0 lostEntryWord + 1) % 2 ^ 64 ∧
        ((s.weir w).armed = true → (s.weir w).kind = 0 → u.firings = s.firings ++
          [{ weir := w, kind := 0, pointer := (s.weir w).pointer, abort := true, who := (s.weir w).who }])) ∧
      ∀ c b, ∃ u, exec (.sramScrub (.barrier c b)) s = .next u ∧ u.barrier c b = {})

/-- R424 to R428: meters, the Still state, the power cap, and scrubs. Where it rests on choices of the model they are those of log
entries 71 and 72. -/
def Obligations.PowerAndScrubbing : Prop :=
  Sys2Proof.Claims.MetersStillAndCap ∧ Sys2Proof.Claims.Scrubs

namespace Sys2Proof.Claims
open Sys2Proof Sys2Proof.Machine

/-! ### The headrace -/

/-- Group n of a port has settings g and rows r (R256). -/
structure GroupHas (s : State) (port n : Nat) (g : HrGroup) (r : HrRows) : Prop where
  group : (s.port port).groups.find? n = some g
  rows : s.hrRows port n = r

end Sys2Proof.Claims

/-! ### The headrace -/

/-- R255, R256, R258: a frame with a bad check sequence is counted and dropped; one that is no message of a group goes to the service
domain's ring and is counted; a message's sections go to its stream and group alone, and each section is early, late, or put into the row
of its symbol.  Early and late messages moving SEQ_ID is the model's (log entry 47), and so is that a first section past its close opens no
row (log entry 109). -/
def Sys2Proof.Claims.FrameReception : Prop :=
  ∀ (s : State) (port : Nat) (f : EthFrame), port < 4 → s.power.port.get false port = true →
    (f.fcsOk = false → exec (.ethFrameReceive port f) s =
      .next (s.setPort port { s.port port with fcsBad := (s.port port).fcsBad + 1 })) ∧
    (f.fcsOk = true → iqMsg f = none ∨ (∃ m, iqMsg f = some m ∧ (s.port port).classify f.part m = none) →
      exec (.ethFrameReceive port f) s =
        .next (s.setPort port { s.port port with rx := (s.port port).rx ++ [f], other := (s.port port).other + 1 })) ∧
    ∀ m n g st p now u, f.fcsOk = true → iqMsg f = some m → (s.port port).classify f.part m = some (n, g, st) → g.parts m = some [p] →
      s.sliceNow (portSlice port) = (now, u) →
      ∃ t, exec (.ethFrameReceive port f) s = .next t ∧ t = { u with ports := t.ports } ∧ (t.port port).rx = (s.port port).rx ∧
        (∀ k, k ≠ n → t.hrRows port k = s.hrRows port k) ∧ (∀ q, q ≠ port → t.port q = s.port q) ∧
        (t.hrRows port n).nextSeqId.find? st = some ((m.seqId + 1) % 256) ∧
        (∀ k, k ≠ st → (t.hrRows port n).counters.get {} k = (s.hrRows port n).counters.get {} k) ∧
        (now + 10000000 < g.symbolStart m now → (t.hrRows port n).open_ = (s.hrRows port n).open_ ∧
          ((t.hrRows port n).counters.get {} st).early = min (((s.hrRows port n).counters.get {} st).early + 1) (2 ^ 32 - 1)) ∧
        (g.symbolStart m now + g.tol ≤ now → (t.hrRows port n).open_ = (s.hrRows port n).open_ ∧
          ((t.hrRows port n).counters.get {} st).late = min (((s.hrRows port n).counters.get {} st).late + 1) (2 ^ 32 - 1)) ∧
        (g.symbolStart m now ≤ now + 10000000 → now < g.symbolStart m now + g.tol → (s.hrRows port n).closedTo = none →
          (s.hrRows port n).open_.find? (g.symbolStart m now) = none →
          ∃ row, (t.hrRows port n).open_.find? (g.symbolStart m now) = some row ∧ row.opened = now ∧ row.symbol = m.symbol ∧
            row.slot = m.slot ∧ ∀ x ∈ p, row.got.get false (4096 * st + x.1) = true)

/-- R256: a row whose close time has passed closes then, as late; a row that is not due or is closed stays.  The close at start plus TOL is the model's
(log entry 46). -/
def Sys2Proof.Claims.RowTimeout : Prop :=
  ∀ (s : State) (port n now : Nat) (u : State) (g : HrGroup) (r : HrRows), GroupHas s port n g r → s.sliceNow (portSlice port) = (now, u) →
    ∃ t, exec (.rowCloseTimeout port n) s = .next t ∧ t = { u with ports := t.ports } ∧
      t.hrRows port n = { r with open_ := (t.hrRows port n).open_ } ∧
      ∀ k row, r.open_.find? k = some row →
        (t.hrRows port n).open_.find? k = some (if row.closed = none ∧ row.start + g.tol ≤ now then
          { row with closed := some (row.start + g.tol), late := true } else row)

/-- R256 to R258: the earliest closed row takes the next SEQ and fills the next slot of its flume; with the flume full it waits behind at
most fifteen others, and is lost as an overrun behind sixteen; with no flume it is lost and counted; a waiting row fills a slot that has
become free, and the slot beyond the row holds zeros.  The order of delivery and an overrun's header are the model's (log entry 46). -/
def Sys2Proof.Claims.RowDelivery : Prop :=
  ∀ (s : State) (port n : Nat) (g : HrGroup) (r : HrRows) (row x : Row) (rest : FMap Row) (start k f : Nat), GroupHas s port n g r →
    r.open_ = (start, row) :: rest → row.closed ≠ none → x = { row with seq := r.seq } →
    (s.rowTarget port n g x = none → ∃ t, exec (.rowSlotFill port n) s = .next t ∧ t.mem = s.mem ∧ (t.hrRows port n).open_ = rest ∧
      (t.hrRows port n).seq = (r.seq + 1) % 65536 ∧ (t.hrRows port n).closedTo = some start ∧
      ∀ st < g.nstr, ((t.hrRows port n).counters.get {} st).noflume = min ((r.counters.get {} st).noflume + 1) (2 ^ 32 - 1)) ∧
    (s.rowTarget port n g x = some (k, f) → (s.flume k f).full = true →
      (r.waiting.length < 16 → ∃ t, exec (.rowSlotFill port n) s = .next t ∧ t.mem = s.mem ∧ (t.hrRows port n).waiting = r.waiting ++ [x] ∧
        (t.hrRows port n).open_ = rest ∧ t.clusters = s.clusters) ∧
      (16 ≤ r.waiting.length → ∃ t, exec (.rowSlotFill port n) s = .next t ∧ t.mem = s.mem ∧ (t.hrRows port n).waiting = r.waiting ∧
        (t.hrRows port n).ovr = r.ovr + 1 ∧ (t.hrRows port n).open_ = rest)) ∧
    (s.rowTarget port n g x = some (k, f) → (s.flume k f).full = false → r.waiting = [] →
      (s.flume k f).claim = (s.flume k f).fill → (s.flume k f).done = [] → (s.flume k f).claim < 65536 →
      ∃ t p, exec (.rowSlotFill port n) s = .next t ∧ (t.hrRows port n).open_ = rest ∧ (t.hrRows port n).ovr = 0 ∧
        p = clusterPlace k ((s.clusterRegion k (s.flume k f).owner).1 + (s.flume k f).offset (s.flume k f).claim) ∧
        t.mem = s.mem.writeBytes p (g.rowBytes x r.ovr ++ List.replicate ((s.flume k f).slotsz - g.rowSize) 0) ∧
        (t.flume k f).claim = ((s.flume k f).claim + 1) % 65536 ∧ (t.flume k f).fill = ((s.flume k f).claim + 1) % 65536)

/-- R258: the oldest waiting row fills a slot once one is free, and waits before; the transmit ring of a port keeps its order (log entry 46
for the order of rows). -/
def Sys2Proof.Claims.WaitingRowsAndTransmit : Prop :=
  (∀ (s : State) (port n : Nat) (g : HrGroup) (r : HrRows) (row : Row) (rest : List Row) (k f : Nat), GroupHas s port n g r →
    r.waiting = row :: rest → s.rowTarget port n g row = some (k, f) →
    ((s.flume k f).full = true → exec (.overrunRowFill port n) s = .next s) ∧
    ((s.flume k f).full = false → ∃ t p, exec (.overrunRowFill port n) s = .next t ∧ (t.hrRows port n).waiting = rest ∧
      (t.hrRows port n).ovr = 0 ∧ (t.flume k f).claim = ((s.flume k f).claim + 1) % 65536 ∧
      p = clusterPlace k ((s.clusterRegion k (s.flume k f).owner).1 + (s.flume k f).offset (s.flume k f).claim) ∧
      t.mem = s.mem.writeBytes p (g.rowBytes row r.ovr ++ List.replicate ((s.flume k f).slotsz - g.rowSize) 0))) ∧
  ∀ (s : State) (port : Nat) (f : EthFrame), port < 4 →
    exec (.cplaneTransmit port (some f)) s = .next (s.setPort port { s.port port with tx := (s.port port).tx ++ [f] }) ∧
    ∀ fs, (s.port port).tx = f :: fs → exec (.cplaneTransmit port none) s = .next (s.setPort port { s.port port with tx := fs })

/-- R255 to R258: frames are received, rows close, and rows reach their flumes. Where it rests on choices of the model they are those of
log entries 46, 47 and 109. -/
def Obligations.HeadraceRows : Prop :=
  Sys2Proof.Claims.FrameReception ∧ Sys2Proof.Claims.RowTimeout ∧ Sys2Proof.Claims.RowDelivery ∧ Sys2Proof.Claims.WaitingRowsAndTransmit

namespace Sys2Proof.Claims
open Sys2Proof Sys2Proof.Machine

/-! ### Steps -/

/-- Context cx has the next turn and issues: no event is due before, it may, no branch of it is guessed, its cluster's window has not
ended, its own comparator is not late, it is not at the micro-kernel's first instruction, and its fetch at its pc gives the chain ws, in
state s' (R54, R82, R287, R327, R336). -/
structure Fetches (s : State) (cx : Nat) (rest : List Turn) (ws : List Nat) (s' : State) : Prop where
  agenda : s.sched.agenda = .run cx :: rest
  supplies : s.power.supplies = true
  due : s.tick.overdue (.run cx) = []
  may : s.mayIssue cx = true
  guess : (s.ctx cx).guess = none
  kernel : s.kernelHere cx = false
  fetch : ∃ a b : State, ({ s.tick with sched := { s.tick.sched with agenda := rest } } : State).windowDue (clusterOf (coreOf cx)) = (false, a) ∧
    a.comparatorLate cx = (false, b) ∧ (b.atTurn cx).fetchChain cx (s.ctx cx).pc = (.chain ws, s')

/-- What comes of a turn that acts as o in state u: its next state; or, where it waits for the home of a place, u itself with the wait
noted (R420, R424; notes/assumptions/56.md). -/
def TurnGives (s u : State) (o : Host.Outcome State Fault Refusal) : Prop :=
  ∃ t, o = .next t ∧ (t.sched.held = none → step s = .next t) ∧ ∀ p, t.sched.held = some p → step s = .next (u.await p)

end Sys2Proof.Claims

/-! ### Steps -/

/-- R54, R63, R82: a step that is a context's turn executes the instruction that the words at its pc decode to, with its length; a
chain that does not decode takes ILLEGAL_INSTRUCTION or PREFIX_CHAIN.  That a step is one turn of the agenda, that what is due comes before
it, and that a turn which waits for a home has no effect, are the model's (log entries 1, 56 and 57). -/
def Sys2Proof.Claims.StepRunsDecodedInstruction : Prop :=
  ∀ (s s' : State) (cx : Nat) (rest : List Turn) (ws : List Nat), Fetches s cx rest ws s' →
    ∀ u, u = { s.tick with sched := { s.tick.sched with agenda := rest } } →
      (∀ i n, decode ws = .ok (i, n) → TurnGives s u (exec i { s' with sched := { s'.sched with ilen := n } })) ∧
      ∀ e, decode ws = .error e → TurnGives s u (exec (if e = .prefixChain then .prefixChain else .illegalInstruction) s')

/-- R13, R268, R339, R430: an event that is due by a counter comes first; else the turns that are no context's: a unit's event of the agenda is
executed, nothing but POWER_ON happens without supplies, and the micro-kernel acts where a trap has brought a context to its first
instruction.  The agenda of turns, the micro-kernel's turn, the wait for a home and the event due before a turn are the model's (log entries 1,
29, 56 and 57). -/
def Sys2Proof.Claims.StepTakesTurns : Prop :=
  ∀ (s : State) (rest : List Turn) (t : Turn), s.sched.agenda = t :: rest → ∀ u, u = { s.tick with sched := { s.tick.sched with agenda := rest } } →
    (∀ i is, s.tick.overdue t = i :: is → ∃ v, exec i s.tick = .next v ∧ (v.sched.held = none → step s = .next v) ∧
      ∀ p, v.sched.held = some p → step s = State.serve State.turn is (s.tick.await p)) ∧
    (s.power.supplies = false → s.tick.overdue t = []) ∧
    (s.tick.overdue t = [] →
      (∀ i, t = .event i → s.power.supplies = true → isUnitEvent i = true → TurnGives s u (exec i u)) ∧
      (∀ i, t = .event i → s.power.supplies = true → isUnitEvent i = false → step s = .next u) ∧
      (t ≠ .event .powerOn → s.power.supplies = false → step s = .next u) ∧
      (t = .event .powerOn → TurnGives s u (.next { u with power := { u.power with supplies := true } })) ∧
      (∀ cx, t = .kernel cx → s.power.supplies = true → u.kernelDue cx = true → TurnGives s u (.next (u.kernelAct cx))) ∧
      ∀ cx, t = .run cx → s.power.supplies = true → (s.ctx cx).guess = none → u.kernelDue cx = true →
        ∀ a b, u.windowDue (clusterOf (coreOf cx)) = (false, a) → a.comparatorLate cx = (false, b) → TurnGives s u (.next (b.kernelAct cx)))

/-- R54, R63, R82, R430: a step executes the instruction that the words at a context's pc decode to, or the event whose turn it is. Where
it rests on choices of the model they are those of log entries 1, 29, 56 and 57. -/
def Obligations.StepsTakeTurns : Prop :=
  Sys2Proof.Claims.StepRunsDecodedInstruction ∧ Sys2Proof.Claims.StepTakesTurns

/-- Every instruction and every step has a next state: the machine never stops. -/
def Obligations.StepNeverStops : Prop :=
  (∀ (i : Instr) (s : State), ∃ t, exec i s = .next t) ∧ ∀ s : State, ∃ t, step s = .next t

/-- The memory's canonical form is kept by every instruction and every step. -/
def Obligations.StepKeepsMemoryCanonical : Prop :=
  (∀ (i : Instr) (s t : State), Inv s → exec i s = .next t → Inv t) ∧ ∀ s t : State, Inv s → step s = .next t → Inv t

/-- R89, R91, R155, R268, R336: what reset leaves: no job in any context, every register zero, VL and the flags zero, no core owned and no
table, the counters at zero and never locked, and memory with nothing listed.  That a register for which the rules state no value is zero
is the model's choice (notes/assumptions/3.md), and so are the supplies off at reset (notes/assumptions/8.md). -/
def Obligations.ResetState : Prop :=
  Inv State.reset ∧ State.reset.mem = [] ∧ State.reset.jobs = [] ∧ State.reset.sluice.table = none ∧ State.reset.power.supplies = false ∧
    State.reset.time.ref = 0 ∧ State.reset.time.everLocked = false ∧
    (∀ cx < numCtx, (State.reset.ctx cx).job = none ∧ (∀ r : SReg, (State.reset.ctx cx).reg r = 0) ∧
      (∀ v : VReg, (State.reset.ctx cx).vreg v = 0) ∧ (∀ m : MReg, (State.reset.ctx cx).mreg m = 0) ∧ (State.reset.ctx cx).vl = 0 ∧
      (State.reset.ctx cx).fflags = 0 ∧ (State.reset.ctx cx).depth = 0 ∧ (State.reset.ctx cx).pc = 0) ∧
    (∀ c < 96, (State.reset.core c).owner = 63 ∧ (State.reset.core c).entries = []) ∧
    ∀ k < 12, (State.reset.cluster k).strips = [] ∧ ∀ w < 6144, State.reset.weir w = {}

/-! ### Ownership -/

/-- R16: whom a resource belongs to is the table's to say: with equal tables every owner and region is equal, and no instruction that user
mode executes changes the table in force, the window of a cluster, or the owner of a core. -/
def Obligations.OwnershipIsTheTables : Prop :=
  (∀ (s t : State) (c x o : Nat), s.sluice.table = t.sluice.table →
    s.tagOwner c x = t.tagOwner c x ∧ s.weirOwner x = t.weirOwner x ∧ s.barrierOwner c x = t.barrierOwner c x ∧
      s.mapOwner c x = t.mapOwner c x ∧ s.coreRegion c o = t.coreRegion c o ∧ s.clusterRegion c o = t.clusterRegion c o) ∧
  ∀ (i : Instr) (ws : List Nat) (s t : State), encode i = some ws → s.curCtx.mode = .user → exec i s = .next t →
    t.sluice.table = s.sluice.table ∧ t.sluice.inForce = s.sluice.inForce ∧ t.sluice.clusterWin = s.sluice.clusterWin ∧
      ∀ c, (t.core c).owner = (s.core c).owner
end

