-- ==== Sys2Proof/Laws/FMap.lean ====
section
/-! SUPPORT. Laws of finite maps: what is read after a change, and that every change keeps the canonical form. -/

namespace Sys2Proof.Machine
open Sys2Proof

variable {α : Type}

@[simp] theorem FMap.get_nil (d : α) (k : Nat) : FMap.get d [] k = d := rfl
@[simp] theorem FMap.find?_nil (k : Nat) : FMap.find? ([] : FMap α) k = none := rfl

@[simp] theorem FMap.get_erase_same (d : α) (m : FMap α) (k : Nat) : (m.erase k).get d k = d := by
  induction m with
  | nil => rfl
  | cons x m ih =>
    obtain ⟨j, w⟩ := x
    by_cases h : j = k <;> simp [FMap.erase, FMap.get, h, ih]

theorem FMap.get_erase_ne (d : α) (m : FMap α) {k i : Nat} (h : i ≠ k) : (m.erase k).get d i = m.get d i := by
  induction m with
  | nil => rfl
  | cons x m ih =>
    obtain ⟨j, w⟩ := x
    by_cases hj : j = k
    · subst hj; simp [FMap.erase, FMap.get, ih, Ne.symm h]
    · by_cases hi : j = i
      · subst hi; simp [FMap.erase, FMap.get, hj]
      · simp [FMap.erase, FMap.get, hj, hi, ih]

@[simp] theorem FMap.get_insert_same (d : α) (m : FMap α) (k : Nat) (v : α) : (m.insert k v).get d k = v := by
  induction m with
  | nil => simp [FMap.insert, FMap.get]
  | cons x m ih =>
    obtain ⟨j, w⟩ := x
    simp only [FMap.insert]
    split
    · simp [FMap.get]
    · split
      · simp [FMap.get]
      · rename_i h1 h2
        simp [FMap.get, Ne.symm h2, ih]

theorem FMap.get_insert_ne (d : α) (m : FMap α) {k i : Nat} (v : α) (h : i ≠ k) : (m.insert k v).get d i = m.get d i := by
  induction m with
  | nil => simp [FMap.insert, FMap.get, Ne.symm h]
  | cons x m ih =>
    obtain ⟨j, w⟩ := x
    simp only [FMap.insert]
    split
    · simp [FMap.get, Ne.symm h]
    · split
      · rename_i h1 h2
        subst h2
        simp [FMap.get, Ne.symm h]
      · by_cases hi : j = i <;> simp [FMap.get, hi, ih]

@[simp] theorem FMap.find?_insert_same (m : FMap α) (k : Nat) (v : α) : (m.insert k v).find? k = some v := by
  induction m with
  | nil => simp [FMap.insert, FMap.find?]
  | cons x m ih =>
    obtain ⟨j, w⟩ := x
    simp only [FMap.insert]
    split
    · simp [FMap.find?]
    · split
      · simp [FMap.find?]
      · rename_i h1 h2
        simp [FMap.find?, Ne.symm h2, ih]

theorem FMap.find?_insert_ne (m : FMap α) {k i : Nat} (v : α) (h : i ≠ k) : (m.insert k v).find? i = m.find? i := by
  induction m with
  | nil => simp [FMap.insert, FMap.find?, Ne.symm h]
  | cons x m ih =>
    obtain ⟨j, w⟩ := x
    simp only [FMap.insert]
    split
    · simp [FMap.find?, Ne.symm h]
    · split
      · rename_i h1 h2
        subst h2
        simp [FMap.find?, Ne.symm h]
      · by_cases hi : j = i <;> simp [FMap.find?, hi, ih]

variable [DecidableEq α]

@[simp] theorem FMap.get_set_same (d : α) (m : FMap α) (k : Nat) (v : α) : (m.set d k v).get d k = v := by
  unfold FMap.set
  split
  · rename_i h; simp [h]
  · simp

theorem FMap.get_set_ne (d : α) (m : FMap α) {k i : Nat} (v : α) (h : i ≠ k) : (m.set d k v).get d i = m.get d i := by
  unfold FMap.set
  split
  · exact FMap.get_erase_ne d m h
  · rw [FMap.get_insert_ne _ _ _ h, FMap.get_erase_ne d m h]

/-! ### The canonical form -/

omit [DecidableEq α] in
theorem FMap.above_mono {lo hi : Nat} (m : FMap α) (h : lo ≤ hi) (hm : m.above hi = true) : m.above lo = true := by
  induction m with
  | nil => rfl
  | cons x m ih =>
    obtain ⟨j, w⟩ := x
    simp only [FMap.above, Bool.and_eq_true, decide_eq_true_eq] at *
    exact ⟨by omega, ih hm.2⟩

omit [DecidableEq α] in
theorem FMap.above_erase {lo : Nat} (m : FMap α) (k : Nat) (hm : m.above lo = true) : (m.erase k).above lo = true := by
  induction m with
  | nil => rfl
  | cons x m ih =>
    obtain ⟨j, w⟩ := x
    simp only [FMap.above, Bool.and_eq_true, decide_eq_true_eq] at hm
    simp only [FMap.erase]
    split
    · exact ih hm.2
    · simp [FMap.above, hm.1, ih hm.2]

omit [DecidableEq α] in
theorem FMap.above_insert {lo : Nat} (m : FMap α) (k : Nat) (v : α) (hk : lo < k) (hm : m.above lo = true) :
    (m.insert k v).above lo = true := by
  induction m with
  | nil => simp [FMap.insert, FMap.above, hk]
  | cons x m ih =>
    obtain ⟨j, w⟩ := x
    simp only [FMap.above, Bool.and_eq_true, decide_eq_true_eq] at hm
    simp only [FMap.insert]
    split
    · simp [FMap.above, hk, hm]
    · split
      · simp [FMap.above, hk, hm]
      · simp [FMap.above, hm.1, ih hm.2]

theorem FMap.wf_erase (d : α) (m : FMap α) (k : Nat) (hm : m.wf d = true) : (m.erase k).wf d = true := by
  induction m with
  | nil => rfl
  | cons x m ih =>
    obtain ⟨j, w⟩ := x
    simp only [FMap.wf, Bool.and_eq_true, decide_eq_true_eq] at hm
    simp only [FMap.erase]
    split
    · exact ih hm.2
    · simp [FMap.wf, hm.1.1, FMap.above_erase m k hm.1.2, ih hm.2]

theorem FMap.wf_insert (d : α) (m : FMap α) (k : Nat) (v : α) (hv : v ≠ d) (hm : m.wf d = true) : (m.insert k v).wf d = true := by
  induction m with
  | nil => simp [FMap.insert, FMap.wf, FMap.above, hv]
  | cons x m ih =>
    obtain ⟨j, w⟩ := x
    simp only [FMap.wf, Bool.and_eq_true, decide_eq_true_eq] at hm
    simp only [FMap.insert]
    split
    · rename_i h
      simp [FMap.wf, FMap.above, hv, h, hm, FMap.above_mono m (Nat.le_of_lt h) hm.1.2]
    · split
      · rename_i h1 h2
        subst h2
        simp [FMap.wf, hv, hm]
      · rename_i h1 h2
        simp [FMap.wf, hm.1.1, ih hm.2, FMap.above_insert m k v (by omega) hm.1.2]

theorem FMap.wf_set (d : α) (m : FMap α) (k : Nat) (v : α) (hm : m.wf d = true) : (m.set d k v).wf d = true := by
  unfold FMap.set
  split
  · exact FMap.wf_erase d m k hm
  · rename_i h
    exact FMap.wf_insert d _ k v h (FMap.wf_erase d m k hm)

end Sys2Proof.Machine
end

