-- ==== Sys2Proof/Laws/Memory.lean ====
section
/-! SUPPORT. Laws of memory: a read after a write, and that every operation keeps the canonical form. -/

namespace Sys2Proof.Machine
open Sys2Proof

@[simp] theorem Memory.read_write_same (m : Memory) (a : Nat) (v : Byte) : (m.write a v).read a = v := FMap.get_set_same _ _ _ _

theorem Memory.read_write_ne (m : Memory) {a b : Nat} (v : Byte) (h : b ≠ a) : (m.write a v).read b = m.read b :=
  FMap.get_set_ne _ _ _ h

theorem Memory.wf_write (m : Memory) (a : Nat) (v : Byte) (h : m.wf = true) : (m.write a v).wf = true := FMap.wf_set _ _ _ _ h

theorem Memory.wf_writeN (m : Memory) (a n v : Nat) (h : m.wf = true) : (m.writeN a n v).wf = true := by
  induction n generalizing m a v with
  | zero => exact h
  | succ n ih => exact ih _ _ _ (Memory.wf_write m a _ h)

theorem Memory.wf_writeBytes (m : Memory) (a : Nat) (bs : List Byte) (h : m.wf = true) : (m.writeBytes a bs).wf = true := by
  induction bs generalizing m a with
  | nil => exact h
  | cons b bs ih => exact ih _ _ (Memory.wf_write m a b h)

/-- A byte outside the n written ones is unchanged. -/
theorem Memory.read_writeN_outside (m : Memory) (a n v b : Nat) (h : b < a ∨ a + n ≤ b) : (m.writeN a n v).read b = m.read b := by
  induction n generalizing m a v with
  | zero => rfl
  | succ n ih =>
    simp only [Memory.writeN]
    rw [ih _ _ _ (by omega), Memory.read_write_ne _ _ (by omega)]

theorem Memory.read_writeBytes_outside (m : Memory) (a b : Nat) (bs : List Byte) (h : b < a ∨ a + bs.length ≤ b) :
    (m.writeBytes a bs).read b = m.read b := by
  induction bs generalizing m a with
  | nil => rfl
  | cons x bs ih =>
    simp only [List.length_cons] at h
    simp only [Memory.writeBytes]
    rw [ih _ _ (by omega), Memory.read_write_ne _ _ (by omega)]

/-- n bytes read where n bytes were written: the number written, modulo 256^n. -/
theorem Memory.readN_writeN_same (m : Memory) (a n v : Nat) : (m.writeN a n v).readN a n = v % 256 ^ n := by
  induction n generalizing m a v with
  | zero => simp [Memory.readN, Nat.mod_one]
  | succ n ih =>
    simp only [Memory.writeN, Memory.readN]
    rw [ih, Memory.read_writeN_outside _ _ _ _ _ (by omega), Memory.read_write_same, Nat.pow_succ', Nat.mod_mul]
    simp

/-- A range away from the one written reads as before. -/
theorem Memory.readN_writeN_outside (m : Memory) (a n v b k : Nat) (h : b + k ≤ a ∨ a + n ≤ b) :
    (m.writeN a n v).readN b k = m.readN b k := by
  induction k generalizing b with
  | zero => rfl
  | succ k ih =>
    simp only [Memory.readN]
    rw [ih _ (by omega), Memory.read_writeN_outside _ _ _ _ _ (by omega)]

end Sys2Proof.Machine
end

