-- ==== Sys2Proof/Laws/State.lean ====
section
/-! SUPPORT. One lemma per field for each update of the state, so that no later proof unfolds a record update, and what is read
from a context, a core, a cluster or a job after it was written. -/

namespace Sys2Proof.Machine
open Sys2Proof

variable (s : State)

/-! ### putJob -/

@[simp] theorem State.putJob_sched (h : Nat) (j : Job) : (s.putJob h j).sched = s.sched := rfl
@[simp] theorem State.putJob_time (h : Nat) (j : Job) : (s.putJob h j).time = s.time := rfl
@[simp] theorem State.putJob_mem (h : Nat) (j : Job) : (s.putJob h j).mem = s.mem := rfl
@[simp] theorem State.putJob_lpddr (h : Nat) (j : Job) : (s.putJob h j).lpddr = s.lpddr := rfl
@[simp] theorem State.putJob_stale (h : Nat) (j : Job) : (s.putJob h j).stale = s.stale := rfl
@[simp] theorem State.putJob_ecc (h : Nat) (j : Job) : (s.putJob h j).ecc = s.ecc := rfl
@[simp] theorem State.putJob_linkPoison (h : Nat) (j : Job) : (s.putJob h j).linkPoison = s.linkPoison := rfl
@[simp] theorem State.putJob_ctxs (h : Nat) (j : Job) : (s.putJob h j).ctxs = s.ctxs := rfl
@[simp] theorem State.putJob_cores (h : Nat) (j : Job) : (s.putJob h j).cores = s.cores := rfl
@[simp] theorem State.putJob_clusters (h : Nat) (j : Job) : (s.putJob h j).clusters = s.clusters := rfl
@[simp] theorem State.putJob_sluice (h : Nat) (j : Job) : (s.putJob h j).sluice = s.sluice := rfl
@[simp] theorem State.putJob_am (h : Nat) (j : Job) : (s.putJob h j).am = s.am := rfl
@[simp] theorem State.putJob_answers (h : Nat) (j : Job) : (s.putJob h j).answers = s.answers := rfl
@[simp] theorem State.putJob_slotReleases (h : Nat) (j : Job) : (s.putJob h j).slotReleases = s.slotReleases := rfl
@[simp] theorem State.putJob_gmsg (h : Nat) (j : Job) : (s.putJob h j).gmsg = s.gmsg := rfl
@[simp] theorem State.putJob_eng (h : Nat) (j : Job) : (s.putJob h j).eng = s.eng := rfl
@[simp] theorem State.putJob_weirArrivals (h : Nat) (j : Job) : (s.putJob h j).weirArrivals = s.weirArrivals := rfl
@[simp] theorem State.putJob_firings (h : Nat) (j : Job) : (s.putJob h j).firings = s.firings := rfl
@[simp] theorem State.putJob_barrierArrivals (h : Nat) (j : Job) : (s.putJob h j).barrierArrivals = s.barrierArrivals := rfl
@[simp] theorem State.putJob_groups (h : Nat) (j : Job) : (s.putJob h j).groups = s.groups := rfl
@[simp] theorem State.putJob_groupDone (h : Nat) (j : Job) : (s.putJob h j).groupDone = s.groupDone := rfl
@[simp] theorem State.putJob_sweep (h : Nat) (j : Job) : (s.putJob h j).sweep = s.sweep := rfl
@[simp] theorem State.putJob_lastSweep (h : Nat) (j : Job) : (s.putJob h j).lastSweep = s.lastSweep := rfl
@[simp] theorem State.putJob_reports (h : Nat) (j : Job) : (s.putJob h j).reports = s.reports := rfl
@[simp] theorem State.putJob_sweptAt (h : Nat) (j : Job) : (s.putJob h j).sweptAt = s.sweptAt := rfl
@[simp] theorem State.putJob_rsvs (h : Nat) (j : Job) : (s.putJob h j).rsvs = s.rsvs := rfl
@[simp] theorem State.putJob_moves (h : Nat) (j : Job) : (s.putJob h j).moves = s.moves := rfl
@[simp] theorem State.putJob_lostLaunch (h : Nat) (j : Job) : (s.putJob h j).lostLaunch = s.lostLaunch := rfl
@[simp] theorem State.putJob_abwFail (h : Nat) (j : Job) : (s.putJob h j).abwFail = s.abwFail := rfl
@[simp] theorem State.putJob_cmds (h : Nat) (j : Job) : (s.putJob h j).cmds = s.cmds := rfl
@[simp] theorem State.putJob_cmdCount (h : Nat) (j : Job) : (s.putJob h j).cmdCount = s.cmdCount := rfl
@[simp] theorem State.putJob_engAnswers (h : Nat) (j : Job) : (s.putJob h j).engAnswers = s.engAnswers := rfl
@[simp] theorem State.putJob_engCounts (h : Nat) (j : Job) : (s.putJob h j).engCounts = s.engCounts := rfl
@[simp] theorem State.putJob_ports (h : Nat) (j : Job) : (s.putJob h j).ports = s.ports := rfl
@[simp] theorem State.putJob_svcFlight (h : Nat) (j : Job) : (s.putJob h j).svcFlight = s.svcFlight := rfl
@[simp] theorem State.putJob_svcAnswers (h : Nat) (j : Job) : (s.putJob h j).svcAnswers = s.svcAnswers := rfl
@[simp] theorem State.putJob_svc (h : Nat) (j : Job) : (s.putJob h j).svc = s.svc := rfl
@[simp] theorem State.putJob_objects (h : Nat) (j : Job) : (s.putJob h j).objects = s.objects := rfl
@[simp] theorem State.putJob_sessions (h : Nat) (j : Job) : (s.putJob h j).sessions = s.sessions := rfl
@[simp] theorem State.putJob_hqueues (h : Nat) (j : Job) : (s.putJob h j).hqueues = s.hqueues := rfl
@[simp] theorem State.putJob_host (h : Nat) (j : Job) : (s.putJob h j).host = s.host := rfl
@[simp] theorem State.putJob_twin (h : Nat) (j : Job) : (s.putJob h j).twin = s.twin := rfl
@[simp] theorem State.putJob_power (h : Nat) (j : Job) : (s.putJob h j).power = s.power := rfl
@[simp] theorem State.putJob_meters (h : Nat) (j : Job) : (s.putJob h j).meters = s.meters := rfl
@[simp] theorem State.putJob_telemetry (h : Nat) (j : Job) : (s.putJob h j).telemetry = s.telemetry := rfl

/-! ### dropJob -/

@[simp] theorem State.dropJob_sched (h : Nat) : (s.dropJob h).sched = s.sched := rfl
@[simp] theorem State.dropJob_time (h : Nat) : (s.dropJob h).time = s.time := rfl
@[simp] theorem State.dropJob_mem (h : Nat) : (s.dropJob h).mem = s.mem := rfl
@[simp] theorem State.dropJob_lpddr (h : Nat) : (s.dropJob h).lpddr = s.lpddr := rfl
@[simp] theorem State.dropJob_stale (h : Nat) : (s.dropJob h).stale = s.stale := rfl
@[simp] theorem State.dropJob_ecc (h : Nat) : (s.dropJob h).ecc = s.ecc := rfl
@[simp] theorem State.dropJob_linkPoison (h : Nat) : (s.dropJob h).linkPoison = s.linkPoison := rfl
@[simp] theorem State.dropJob_ctxs (h : Nat) : (s.dropJob h).ctxs = s.ctxs := rfl
@[simp] theorem State.dropJob_cores (h : Nat) : (s.dropJob h).cores = s.cores := rfl
@[simp] theorem State.dropJob_clusters (h : Nat) : (s.dropJob h).clusters = s.clusters := rfl
@[simp] theorem State.dropJob_sluice (h : Nat) : (s.dropJob h).sluice = s.sluice := rfl
@[simp] theorem State.dropJob_am (h : Nat) : (s.dropJob h).am = s.am := rfl
@[simp] theorem State.dropJob_answers (h : Nat) : (s.dropJob h).answers = s.answers := rfl
@[simp] theorem State.dropJob_slotReleases (h : Nat) : (s.dropJob h).slotReleases = s.slotReleases := rfl
@[simp] theorem State.dropJob_gmsg (h : Nat) : (s.dropJob h).gmsg = s.gmsg := rfl
@[simp] theorem State.dropJob_eng (h : Nat) : (s.dropJob h).eng = s.eng := rfl
@[simp] theorem State.dropJob_weirArrivals (h : Nat) : (s.dropJob h).weirArrivals = s.weirArrivals := rfl
@[simp] theorem State.dropJob_firings (h : Nat) : (s.dropJob h).firings = s.firings := rfl
@[simp] theorem State.dropJob_barrierArrivals (h : Nat) : (s.dropJob h).barrierArrivals = s.barrierArrivals := rfl
@[simp] theorem State.dropJob_groups (h : Nat) : (s.dropJob h).groups = s.groups := rfl
@[simp] theorem State.dropJob_groupDone (h : Nat) : (s.dropJob h).groupDone = s.groupDone := rfl
@[simp] theorem State.dropJob_sweep (h : Nat) : (s.dropJob h).sweep = s.sweep := rfl
@[simp] theorem State.dropJob_lastSweep (h : Nat) : (s.dropJob h).lastSweep = s.lastSweep := rfl
@[simp] theorem State.dropJob_reports (h : Nat) : (s.dropJob h).reports = s.reports := rfl
@[simp] theorem State.dropJob_sweptAt (h : Nat) : (s.dropJob h).sweptAt = s.sweptAt := rfl
@[simp] theorem State.dropJob_rsvs (h : Nat) : (s.dropJob h).rsvs = s.rsvs := rfl
@[simp] theorem State.dropJob_moves (h : Nat) : (s.dropJob h).moves = s.moves := rfl
@[simp] theorem State.dropJob_lostLaunch (h : Nat) : (s.dropJob h).lostLaunch = s.lostLaunch := rfl
@[simp] theorem State.dropJob_abwFail (h : Nat) : (s.dropJob h).abwFail = s.abwFail := rfl
@[simp] theorem State.dropJob_cmds (h : Nat) : (s.dropJob h).cmds = s.cmds := rfl
@[simp] theorem State.dropJob_cmdCount (h : Nat) : (s.dropJob h).cmdCount = s.cmdCount := rfl
@[simp] theorem State.dropJob_engAnswers (h : Nat) : (s.dropJob h).engAnswers = s.engAnswers := rfl
@[simp] theorem State.dropJob_engCounts (h : Nat) : (s.dropJob h).engCounts = s.engCounts := rfl
@[simp] theorem State.dropJob_ports (h : Nat) : (s.dropJob h).ports = s.ports := rfl
@[simp] theorem State.dropJob_svcFlight (h : Nat) : (s.dropJob h).svcFlight = s.svcFlight := rfl
@[simp] theorem State.dropJob_svcAnswers (h : Nat) : (s.dropJob h).svcAnswers = s.svcAnswers := rfl
@[simp] theorem State.dropJob_svc (h : Nat) : (s.dropJob h).svc = s.svc := rfl
@[simp] theorem State.dropJob_objects (h : Nat) : (s.dropJob h).objects = s.objects := rfl
@[simp] theorem State.dropJob_sessions (h : Nat) : (s.dropJob h).sessions = s.sessions := rfl
@[simp] theorem State.dropJob_hqueues (h : Nat) : (s.dropJob h).hqueues = s.hqueues := rfl
@[simp] theorem State.dropJob_host (h : Nat) : (s.dropJob h).host = s.host := rfl
@[simp] theorem State.dropJob_twin (h : Nat) : (s.dropJob h).twin = s.twin := rfl
@[simp] theorem State.dropJob_power (h : Nat) : (s.dropJob h).power = s.power := rfl
@[simp] theorem State.dropJob_meters (h : Nat) : (s.dropJob h).meters = s.meters := rfl
@[simp] theorem State.dropJob_telemetry (h : Nat) : (s.dropJob h).telemetry = s.telemetry := rfl

/-! ### setCore -/

@[simp] theorem State.setCore_sched (c : Nat) (k : Core) : (s.setCore c k).sched = s.sched := rfl
@[simp] theorem State.setCore_time (c : Nat) (k : Core) : (s.setCore c k).time = s.time := rfl
@[simp] theorem State.setCore_mem (c : Nat) (k : Core) : (s.setCore c k).mem = s.mem := rfl
@[simp] theorem State.setCore_lpddr (c : Nat) (k : Core) : (s.setCore c k).lpddr = s.lpddr := rfl
@[simp] theorem State.setCore_stale (c : Nat) (k : Core) : (s.setCore c k).stale = s.stale := rfl
@[simp] theorem State.setCore_ecc (c : Nat) (k : Core) : (s.setCore c k).ecc = s.ecc := rfl
@[simp] theorem State.setCore_linkPoison (c : Nat) (k : Core) : (s.setCore c k).linkPoison = s.linkPoison := rfl
@[simp] theorem State.setCore_ctxs (c : Nat) (k : Core) : (s.setCore c k).ctxs = s.ctxs := rfl
@[simp] theorem State.setCore_jobs (c : Nat) (k : Core) : (s.setCore c k).jobs = s.jobs := rfl
@[simp] theorem State.setCore_clusters (c : Nat) (k : Core) : (s.setCore c k).clusters = s.clusters := rfl
@[simp] theorem State.setCore_sluice (c : Nat) (k : Core) : (s.setCore c k).sluice = s.sluice := rfl
@[simp] theorem State.setCore_am (c : Nat) (k : Core) : (s.setCore c k).am = s.am := rfl
@[simp] theorem State.setCore_answers (c : Nat) (k : Core) : (s.setCore c k).answers = s.answers := rfl
@[simp] theorem State.setCore_slotReleases (c : Nat) (k : Core) : (s.setCore c k).slotReleases = s.slotReleases := rfl
@[simp] theorem State.setCore_gmsg (c : Nat) (k : Core) : (s.setCore c k).gmsg = s.gmsg := rfl
@[simp] theorem State.setCore_eng (c : Nat) (k : Core) : (s.setCore c k).eng = s.eng := rfl
@[simp] theorem State.setCore_weirArrivals (c : Nat) (k : Core) : (s.setCore c k).weirArrivals = s.weirArrivals := rfl
@[simp] theorem State.setCore_firings (c : Nat) (k : Core) : (s.setCore c k).firings = s.firings := rfl
@[simp] theorem State.setCore_barrierArrivals (c : Nat) (k : Core) : (s.setCore c k).barrierArrivals = s.barrierArrivals := rfl
@[simp] theorem State.setCore_groups (c : Nat) (k : Core) : (s.setCore c k).groups = s.groups := rfl
@[simp] theorem State.setCore_groupDone (c : Nat) (k : Core) : (s.setCore c k).groupDone = s.groupDone := rfl
@[simp] theorem State.setCore_sweep (c : Nat) (k : Core) : (s.setCore c k).sweep = s.sweep := rfl
@[simp] theorem State.setCore_lastSweep (c : Nat) (k : Core) : (s.setCore c k).lastSweep = s.lastSweep := rfl
@[simp] theorem State.setCore_reports (c : Nat) (k : Core) : (s.setCore c k).reports = s.reports := rfl
@[simp] theorem State.setCore_sweptAt (c : Nat) (k : Core) : (s.setCore c k).sweptAt = s.sweptAt := rfl
@[simp] theorem State.setCore_rsvs (c : Nat) (k : Core) : (s.setCore c k).rsvs = s.rsvs := rfl
@[simp] theorem State.setCore_moves (c : Nat) (k : Core) : (s.setCore c k).moves = s.moves := rfl
@[simp] theorem State.setCore_lostLaunch (c : Nat) (k : Core) : (s.setCore c k).lostLaunch = s.lostLaunch := rfl
@[simp] theorem State.setCore_abwFail (c : Nat) (k : Core) : (s.setCore c k).abwFail = s.abwFail := rfl
@[simp] theorem State.setCore_cmds (c : Nat) (k : Core) : (s.setCore c k).cmds = s.cmds := rfl
@[simp] theorem State.setCore_cmdCount (c : Nat) (k : Core) : (s.setCore c k).cmdCount = s.cmdCount := rfl
@[simp] theorem State.setCore_engAnswers (c : Nat) (k : Core) : (s.setCore c k).engAnswers = s.engAnswers := rfl
@[simp] theorem State.setCore_engCounts (c : Nat) (k : Core) : (s.setCore c k).engCounts = s.engCounts := rfl
@[simp] theorem State.setCore_ports (c : Nat) (k : Core) : (s.setCore c k).ports = s.ports := rfl
@[simp] theorem State.setCore_svcFlight (c : Nat) (k : Core) : (s.setCore c k).svcFlight = s.svcFlight := rfl
@[simp] theorem State.setCore_svcAnswers (c : Nat) (k : Core) : (s.setCore c k).svcAnswers = s.svcAnswers := rfl
@[simp] theorem State.setCore_svc (c : Nat) (k : Core) : (s.setCore c k).svc = s.svc := rfl
@[simp] theorem State.setCore_objects (c : Nat) (k : Core) : (s.setCore c k).objects = s.objects := rfl
@[simp] theorem State.setCore_sessions (c : Nat) (k : Core) : (s.setCore c k).sessions = s.sessions := rfl
@[simp] theorem State.setCore_hqueues (c : Nat) (k : Core) : (s.setCore c k).hqueues = s.hqueues := rfl
@[simp] theorem State.setCore_host (c : Nat) (k : Core) : (s.setCore c k).host = s.host := rfl
@[simp] theorem State.setCore_twin (c : Nat) (k : Core) : (s.setCore c k).twin = s.twin := rfl
@[simp] theorem State.setCore_power (c : Nat) (k : Core) : (s.setCore c k).power = s.power := rfl
@[simp] theorem State.setCore_meters (c : Nat) (k : Core) : (s.setCore c k).meters = s.meters := rfl
@[simp] theorem State.setCore_telemetry (c : Nat) (k : Core) : (s.setCore c k).telemetry = s.telemetry := rfl

/-! ### setCluster -/

@[simp] theorem State.setCluster_sched (k : Nat) (c : Cluster) : (s.setCluster k c).sched = s.sched := rfl
@[simp] theorem State.setCluster_time (k : Nat) (c : Cluster) : (s.setCluster k c).time = s.time := rfl
@[simp] theorem State.setCluster_mem (k : Nat) (c : Cluster) : (s.setCluster k c).mem = s.mem := rfl
@[simp] theorem State.setCluster_lpddr (k : Nat) (c : Cluster) : (s.setCluster k c).lpddr = s.lpddr := rfl
@[simp] theorem State.setCluster_stale (k : Nat) (c : Cluster) : (s.setCluster k c).stale = s.stale := rfl
@[simp] theorem State.setCluster_ecc (k : Nat) (c : Cluster) : (s.setCluster k c).ecc = s.ecc := rfl
@[simp] theorem State.setCluster_linkPoison (k : Nat) (c : Cluster) : (s.setCluster k c).linkPoison = s.linkPoison := rfl
@[simp] theorem State.setCluster_ctxs (k : Nat) (c : Cluster) : (s.setCluster k c).ctxs = s.ctxs := rfl
@[simp] theorem State.setCluster_jobs (k : Nat) (c : Cluster) : (s.setCluster k c).jobs = s.jobs := rfl
@[simp] theorem State.setCluster_cores (k : Nat) (c : Cluster) : (s.setCluster k c).cores = s.cores := rfl
@[simp] theorem State.setCluster_sluice (k : Nat) (c : Cluster) : (s.setCluster k c).sluice = s.sluice := rfl
@[simp] theorem State.setCluster_am (k : Nat) (c : Cluster) : (s.setCluster k c).am = s.am := rfl
@[simp] theorem State.setCluster_answers (k : Nat) (c : Cluster) : (s.setCluster k c).answers = s.answers := rfl
@[simp] theorem State.setCluster_slotReleases (k : Nat) (c : Cluster) : (s.setCluster k c).slotReleases = s.slotReleases := rfl
@[simp] theorem State.setCluster_gmsg (k : Nat) (c : Cluster) : (s.setCluster k c).gmsg = s.gmsg := rfl
@[simp] theorem State.setCluster_eng (k : Nat) (c : Cluster) : (s.setCluster k c).eng = s.eng := rfl
@[simp] theorem State.setCluster_weirArrivals (k : Nat) (c : Cluster) : (s.setCluster k c).weirArrivals = s.weirArrivals := rfl
@[simp] theorem State.setCluster_firings (k : Nat) (c : Cluster) : (s.setCluster k c).firings = s.firings := rfl
@[simp] theorem State.setCluster_barrierArrivals (k : Nat) (c : Cluster) : (s.setCluster k c).barrierArrivals = s.barrierArrivals := rfl
@[simp] theorem State.setCluster_groups (k : Nat) (c : Cluster) : (s.setCluster k c).groups = s.groups := rfl
@[simp] theorem State.setCluster_groupDone (k : Nat) (c : Cluster) : (s.setCluster k c).groupDone = s.groupDone := rfl
@[simp] theorem State.setCluster_sweep (k : Nat) (c : Cluster) : (s.setCluster k c).sweep = s.sweep := rfl
@[simp] theorem State.setCluster_lastSweep (k : Nat) (c : Cluster) : (s.setCluster k c).lastSweep = s.lastSweep := rfl
@[simp] theorem State.setCluster_reports (k : Nat) (c : Cluster) : (s.setCluster k c).reports = s.reports := rfl
@[simp] theorem State.setCluster_sweptAt (k : Nat) (c : Cluster) : (s.setCluster k c).sweptAt = s.sweptAt := rfl
@[simp] theorem State.setCluster_rsvs (k : Nat) (c : Cluster) : (s.setCluster k c).rsvs = s.rsvs := rfl
@[simp] theorem State.setCluster_moves (k : Nat) (c : Cluster) : (s.setCluster k c).moves = s.moves := rfl
@[simp] theorem State.setCluster_lostLaunch (k : Nat) (c : Cluster) : (s.setCluster k c).lostLaunch = s.lostLaunch := rfl
@[simp] theorem State.setCluster_abwFail (k : Nat) (c : Cluster) : (s.setCluster k c).abwFail = s.abwFail := rfl
@[simp] theorem State.setCluster_cmds (k : Nat) (c : Cluster) : (s.setCluster k c).cmds = s.cmds := rfl
@[simp] theorem State.setCluster_cmdCount (k : Nat) (c : Cluster) : (s.setCluster k c).cmdCount = s.cmdCount := rfl
@[simp] theorem State.setCluster_engAnswers (k : Nat) (c : Cluster) : (s.setCluster k c).engAnswers = s.engAnswers := rfl
@[simp] theorem State.setCluster_engCounts (k : Nat) (c : Cluster) : (s.setCluster k c).engCounts = s.engCounts := rfl
@[simp] theorem State.setCluster_ports (k : Nat) (c : Cluster) : (s.setCluster k c).ports = s.ports := rfl
@[simp] theorem State.setCluster_svcFlight (k : Nat) (c : Cluster) : (s.setCluster k c).svcFlight = s.svcFlight := rfl
@[simp] theorem State.setCluster_svcAnswers (k : Nat) (c : Cluster) : (s.setCluster k c).svcAnswers = s.svcAnswers := rfl
@[simp] theorem State.setCluster_svc (k : Nat) (c : Cluster) : (s.setCluster k c).svc = s.svc := rfl
@[simp] theorem State.setCluster_objects (k : Nat) (c : Cluster) : (s.setCluster k c).objects = s.objects := rfl
@[simp] theorem State.setCluster_sessions (k : Nat) (c : Cluster) : (s.setCluster k c).sessions = s.sessions := rfl
@[simp] theorem State.setCluster_hqueues (k : Nat) (c : Cluster) : (s.setCluster k c).hqueues = s.hqueues := rfl
@[simp] theorem State.setCluster_host (k : Nat) (c : Cluster) : (s.setCluster k c).host = s.host := rfl
@[simp] theorem State.setCluster_twin (k : Nat) (c : Cluster) : (s.setCluster k c).twin = s.twin := rfl
@[simp] theorem State.setCluster_power (k : Nat) (c : Cluster) : (s.setCluster k c).power = s.power := rfl
@[simp] theorem State.setCluster_meters (k : Nat) (c : Cluster) : (s.setCluster k c).meters = s.meters := rfl
@[simp] theorem State.setCluster_telemetry (k : Nat) (c : Cluster) : (s.setCluster k c).telemetry = s.telemetry := rfl

/-! ### setGated -/

@[simp] theorem State.setGated_sched (u : GateUnit) (on : Bool) : (s.setGated u on).sched = s.sched := rfl
@[simp] theorem State.setGated_time (u : GateUnit) (on : Bool) : (s.setGated u on).time = s.time := rfl
@[simp] theorem State.setGated_mem (u : GateUnit) (on : Bool) : (s.setGated u on).mem = s.mem := rfl
@[simp] theorem State.setGated_lpddr (u : GateUnit) (on : Bool) : (s.setGated u on).lpddr = s.lpddr := rfl
@[simp] theorem State.setGated_stale (u : GateUnit) (on : Bool) : (s.setGated u on).stale = s.stale := rfl
@[simp] theorem State.setGated_ecc (u : GateUnit) (on : Bool) : (s.setGated u on).ecc = s.ecc := rfl
@[simp] theorem State.setGated_linkPoison (u : GateUnit) (on : Bool) : (s.setGated u on).linkPoison = s.linkPoison := rfl
@[simp] theorem State.setGated_ctxs (u : GateUnit) (on : Bool) : (s.setGated u on).ctxs = s.ctxs := rfl
@[simp] theorem State.setGated_jobs (u : GateUnit) (on : Bool) : (s.setGated u on).jobs = s.jobs := rfl
@[simp] theorem State.setGated_cores (u : GateUnit) (on : Bool) : (s.setGated u on).cores = s.cores := rfl
@[simp] theorem State.setGated_clusters (u : GateUnit) (on : Bool) : (s.setGated u on).clusters = s.clusters := rfl
@[simp] theorem State.setGated_sluice (u : GateUnit) (on : Bool) : (s.setGated u on).sluice = s.sluice := rfl
@[simp] theorem State.setGated_am (u : GateUnit) (on : Bool) : (s.setGated u on).am = s.am := rfl
@[simp] theorem State.setGated_answers (u : GateUnit) (on : Bool) : (s.setGated u on).answers = s.answers := rfl
@[simp] theorem State.setGated_slotReleases (u : GateUnit) (on : Bool) : (s.setGated u on).slotReleases = s.slotReleases := rfl
@[simp] theorem State.setGated_gmsg (u : GateUnit) (on : Bool) : (s.setGated u on).gmsg = s.gmsg := rfl
@[simp] theorem State.setGated_eng (u : GateUnit) (on : Bool) : (s.setGated u on).eng = s.eng := rfl
@[simp] theorem State.setGated_weirArrivals (u : GateUnit) (on : Bool) : (s.setGated u on).weirArrivals = s.weirArrivals := rfl
@[simp] theorem State.setGated_firings (u : GateUnit) (on : Bool) : (s.setGated u on).firings = s.firings := rfl
@[simp] theorem State.setGated_barrierArrivals (u : GateUnit) (on : Bool) : (s.setGated u on).barrierArrivals = s.barrierArrivals := rfl
@[simp] theorem State.setGated_groups (u : GateUnit) (on : Bool) : (s.setGated u on).groups = s.groups := rfl
@[simp] theorem State.setGated_groupDone (u : GateUnit) (on : Bool) : (s.setGated u on).groupDone = s.groupDone := rfl
@[simp] theorem State.setGated_sweep (u : GateUnit) (on : Bool) : (s.setGated u on).sweep = s.sweep := rfl
@[simp] theorem State.setGated_lastSweep (u : GateUnit) (on : Bool) : (s.setGated u on).lastSweep = s.lastSweep := rfl
@[simp] theorem State.setGated_reports (u : GateUnit) (on : Bool) : (s.setGated u on).reports = s.reports := rfl
@[simp] theorem State.setGated_sweptAt (u : GateUnit) (on : Bool) : (s.setGated u on).sweptAt = s.sweptAt := rfl
@[simp] theorem State.setGated_rsvs (u : GateUnit) (on : Bool) : (s.setGated u on).rsvs = s.rsvs := rfl
@[simp] theorem State.setGated_moves (u : GateUnit) (on : Bool) : (s.setGated u on).moves = s.moves := rfl
@[simp] theorem State.setGated_lostLaunch (u : GateUnit) (on : Bool) : (s.setGated u on).lostLaunch = s.lostLaunch := rfl
@[simp] theorem State.setGated_abwFail (u : GateUnit) (on : Bool) : (s.setGated u on).abwFail = s.abwFail := rfl
@[simp] theorem State.setGated_cmds (u : GateUnit) (on : Bool) : (s.setGated u on).cmds = s.cmds := rfl
@[simp] theorem State.setGated_cmdCount (u : GateUnit) (on : Bool) : (s.setGated u on).cmdCount = s.cmdCount := rfl
@[simp] theorem State.setGated_engAnswers (u : GateUnit) (on : Bool) : (s.setGated u on).engAnswers = s.engAnswers := rfl
@[simp] theorem State.setGated_engCounts (u : GateUnit) (on : Bool) : (s.setGated u on).engCounts = s.engCounts := rfl
@[simp] theorem State.setGated_ports (u : GateUnit) (on : Bool) : (s.setGated u on).ports = s.ports := rfl
@[simp] theorem State.setGated_svcFlight (u : GateUnit) (on : Bool) : (s.setGated u on).svcFlight = s.svcFlight := rfl
@[simp] theorem State.setGated_svcAnswers (u : GateUnit) (on : Bool) : (s.setGated u on).svcAnswers = s.svcAnswers := rfl
@[simp] theorem State.setGated_svc (u : GateUnit) (on : Bool) : (s.setGated u on).svc = s.svc := rfl
@[simp] theorem State.setGated_objects (u : GateUnit) (on : Bool) : (s.setGated u on).objects = s.objects := rfl
@[simp] theorem State.setGated_sessions (u : GateUnit) (on : Bool) : (s.setGated u on).sessions = s.sessions := rfl
@[simp] theorem State.setGated_hqueues (u : GateUnit) (on : Bool) : (s.setGated u on).hqueues = s.hqueues := rfl
@[simp] theorem State.setGated_host (u : GateUnit) (on : Bool) : (s.setGated u on).host = s.host := rfl
@[simp] theorem State.setGated_twin (u : GateUnit) (on : Bool) : (s.setGated u on).twin = s.twin := rfl
@[simp] theorem State.setGated_meters (u : GateUnit) (on : Bool) : (s.setGated u on).meters = s.meters := rfl
@[simp] theorem State.setGated_telemetry (u : GateUnit) (on : Bool) : (s.setGated u on).telemetry = s.telemetry := rfl

/-! ### Draws of free values -/

@[simp] theorem State.drawBit_time : s.drawBit.2.time = s.time := rfl
@[simp] theorem State.drawBit_mem : s.drawBit.2.mem = s.mem := rfl
@[simp] theorem State.drawBit_lpddr : s.drawBit.2.lpddr = s.lpddr := rfl
@[simp] theorem State.drawBit_stale : s.drawBit.2.stale = s.stale := rfl
@[simp] theorem State.drawBit_ecc : s.drawBit.2.ecc = s.ecc := rfl
@[simp] theorem State.drawBit_linkPoison : s.drawBit.2.linkPoison = s.linkPoison := rfl
@[simp] theorem State.drawBit_ctxs : s.drawBit.2.ctxs = s.ctxs := rfl
@[simp] theorem State.drawBit_jobs : s.drawBit.2.jobs = s.jobs := rfl
@[simp] theorem State.drawBit_cores : s.drawBit.2.cores = s.cores := rfl
@[simp] theorem State.drawBit_clusters : s.drawBit.2.clusters = s.clusters := rfl
@[simp] theorem State.drawBit_sluice : s.drawBit.2.sluice = s.sluice := rfl
@[simp] theorem State.drawBit_am : s.drawBit.2.am = s.am := rfl
@[simp] theorem State.drawBit_answers : s.drawBit.2.answers = s.answers := rfl
@[simp] theorem State.drawBit_slotReleases : s.drawBit.2.slotReleases = s.slotReleases := rfl
@[simp] theorem State.drawBit_gmsg : s.drawBit.2.gmsg = s.gmsg := rfl
@[simp] theorem State.drawBit_eng : s.drawBit.2.eng = s.eng := rfl
@[simp] theorem State.drawBit_weirArrivals : s.drawBit.2.weirArrivals = s.weirArrivals := rfl
@[simp] theorem State.drawBit_firings : s.drawBit.2.firings = s.firings := rfl
@[simp] theorem State.drawBit_barrierArrivals : s.drawBit.2.barrierArrivals = s.barrierArrivals := rfl
@[simp] theorem State.drawBit_groups : s.drawBit.2.groups = s.groups := rfl
@[simp] theorem State.drawBit_groupDone : s.drawBit.2.groupDone = s.groupDone := rfl
@[simp] theorem State.drawBit_sweep : s.drawBit.2.sweep = s.sweep := rfl
@[simp] theorem State.drawBit_lastSweep : s.drawBit.2.lastSweep = s.lastSweep := rfl
@[simp] theorem State.drawBit_reports : s.drawBit.2.reports = s.reports := rfl
@[simp] theorem State.drawBit_sweptAt : s.drawBit.2.sweptAt = s.sweptAt := rfl
@[simp] theorem State.drawBit_rsvs : s.drawBit.2.rsvs = s.rsvs := rfl
@[simp] theorem State.drawBit_moves : s.drawBit.2.moves = s.moves := rfl
@[simp] theorem State.drawBit_lostLaunch : s.drawBit.2.lostLaunch = s.lostLaunch := rfl
@[simp] theorem State.drawBit_abwFail : s.drawBit.2.abwFail = s.abwFail := rfl
@[simp] theorem State.drawBit_cmds : s.drawBit.2.cmds = s.cmds := rfl
@[simp] theorem State.drawBit_cmdCount : s.drawBit.2.cmdCount = s.cmdCount := rfl
@[simp] theorem State.drawBit_engAnswers : s.drawBit.2.engAnswers = s.engAnswers := rfl
@[simp] theorem State.drawBit_engCounts : s.drawBit.2.engCounts = s.engCounts := rfl
@[simp] theorem State.drawBit_ports : s.drawBit.2.ports = s.ports := rfl
@[simp] theorem State.drawBit_svcFlight : s.drawBit.2.svcFlight = s.svcFlight := rfl
@[simp] theorem State.drawBit_svcAnswers : s.drawBit.2.svcAnswers = s.svcAnswers := rfl
@[simp] theorem State.drawBit_svc : s.drawBit.2.svc = s.svc := rfl
@[simp] theorem State.drawBit_objects : s.drawBit.2.objects = s.objects := rfl
@[simp] theorem State.drawBit_sessions : s.drawBit.2.sessions = s.sessions := rfl
@[simp] theorem State.drawBit_hqueues : s.drawBit.2.hqueues = s.hqueues := rfl
@[simp] theorem State.drawBit_host : s.drawBit.2.host = s.host := rfl
@[simp] theorem State.drawBit_twin : s.drawBit.2.twin = s.twin := rfl
@[simp] theorem State.drawBit_power : s.drawBit.2.power = s.power := rfl
@[simp] theorem State.drawBit_meters : s.drawBit.2.meters = s.meters := rfl
@[simp] theorem State.drawBit_telemetry : s.drawBit.2.telemetry = s.telemetry := rfl
@[simp] theorem State.drawNat_time : s.drawNat.2.time = s.time := rfl
@[simp] theorem State.drawNat_mem : s.drawNat.2.mem = s.mem := rfl
@[simp] theorem State.drawNat_lpddr : s.drawNat.2.lpddr = s.lpddr := rfl
@[simp] theorem State.drawNat_stale : s.drawNat.2.stale = s.stale := rfl
@[simp] theorem State.drawNat_ecc : s.drawNat.2.ecc = s.ecc := rfl
@[simp] theorem State.drawNat_linkPoison : s.drawNat.2.linkPoison = s.linkPoison := rfl
@[simp] theorem State.drawNat_ctxs : s.drawNat.2.ctxs = s.ctxs := rfl
@[simp] theorem State.drawNat_jobs : s.drawNat.2.jobs = s.jobs := rfl
@[simp] theorem State.drawNat_cores : s.drawNat.2.cores = s.cores := rfl
@[simp] theorem State.drawNat_clusters : s.drawNat.2.clusters = s.clusters := rfl
@[simp] theorem State.drawNat_sluice : s.drawNat.2.sluice = s.sluice := rfl
@[simp] theorem State.drawNat_am : s.drawNat.2.am = s.am := rfl
@[simp] theorem State.drawNat_answers : s.drawNat.2.answers = s.answers := rfl
@[simp] theorem State.drawNat_slotReleases : s.drawNat.2.slotReleases = s.slotReleases := rfl
@[simp] theorem State.drawNat_gmsg : s.drawNat.2.gmsg = s.gmsg := rfl
@[simp] theorem State.drawNat_eng : s.drawNat.2.eng = s.eng := rfl
@[simp] theorem State.drawNat_weirArrivals : s.drawNat.2.weirArrivals = s.weirArrivals := rfl
@[simp] theorem State.drawNat_firings : s.drawNat.2.firings = s.firings := rfl
@[simp] theorem State.drawNat_barrierArrivals : s.drawNat.2.barrierArrivals = s.barrierArrivals := rfl
@[simp] theorem State.drawNat_groups : s.drawNat.2.groups = s.groups := rfl
@[simp] theorem State.drawNat_groupDone : s.drawNat.2.groupDone = s.groupDone := rfl
@[simp] theorem State.drawNat_sweep : s.drawNat.2.sweep = s.sweep := rfl
@[simp] theorem State.drawNat_lastSweep : s.drawNat.2.lastSweep = s.lastSweep := rfl
@[simp] theorem State.drawNat_reports : s.drawNat.2.reports = s.reports := rfl
@[simp] theorem State.drawNat_sweptAt : s.drawNat.2.sweptAt = s.sweptAt := rfl
@[simp] theorem State.drawNat_rsvs : s.drawNat.2.rsvs = s.rsvs := rfl
@[simp] theorem State.drawNat_moves : s.drawNat.2.moves = s.moves := rfl
@[simp] theorem State.drawNat_lostLaunch : s.drawNat.2.lostLaunch = s.lostLaunch := rfl
@[simp] theorem State.drawNat_abwFail : s.drawNat.2.abwFail = s.abwFail := rfl
@[simp] theorem State.drawNat_cmds : s.drawNat.2.cmds = s.cmds := rfl
@[simp] theorem State.drawNat_cmdCount : s.drawNat.2.cmdCount = s.cmdCount := rfl
@[simp] theorem State.drawNat_engAnswers : s.drawNat.2.engAnswers = s.engAnswers := rfl
@[simp] theorem State.drawNat_engCounts : s.drawNat.2.engCounts = s.engCounts := rfl
@[simp] theorem State.drawNat_ports : s.drawNat.2.ports = s.ports := rfl
@[simp] theorem State.drawNat_svcFlight : s.drawNat.2.svcFlight = s.svcFlight := rfl
@[simp] theorem State.drawNat_svcAnswers : s.drawNat.2.svcAnswers = s.svcAnswers := rfl
@[simp] theorem State.drawNat_svc : s.drawNat.2.svc = s.svc := rfl
@[simp] theorem State.drawNat_objects : s.drawNat.2.objects = s.objects := rfl
@[simp] theorem State.drawNat_sessions : s.drawNat.2.sessions = s.sessions := rfl
@[simp] theorem State.drawNat_hqueues : s.drawNat.2.hqueues = s.hqueues := rfl
@[simp] theorem State.drawNat_host : s.drawNat.2.host = s.host := rfl
@[simp] theorem State.drawNat_twin : s.drawNat.2.twin = s.twin := rfl
@[simp] theorem State.drawNat_power : s.drawNat.2.power = s.power := rfl
@[simp] theorem State.drawNat_meters : s.drawNat.2.meters = s.meters := rfl
@[simp] theorem State.drawNat_telemetry : s.drawNat.2.telemetry = s.telemetry := rfl
@[simp] theorem State.clusterNow_mem (k : Nat) : (s.clusterNow k).2.mem = s.mem := rfl
@[simp] theorem State.clusterNow_lpddr (k : Nat) : (s.clusterNow k).2.lpddr = s.lpddr := rfl
@[simp] theorem State.clusterNow_stale (k : Nat) : (s.clusterNow k).2.stale = s.stale := rfl
@[simp] theorem State.clusterNow_ecc (k : Nat) : (s.clusterNow k).2.ecc = s.ecc := rfl
@[simp] theorem State.clusterNow_linkPoison (k : Nat) : (s.clusterNow k).2.linkPoison = s.linkPoison := rfl
@[simp] theorem State.clusterNow_ctxs (k : Nat) : (s.clusterNow k).2.ctxs = s.ctxs := rfl
@[simp] theorem State.clusterNow_jobs (k : Nat) : (s.clusterNow k).2.jobs = s.jobs := rfl
@[simp] theorem State.clusterNow_cores (k : Nat) : (s.clusterNow k).2.cores = s.cores := rfl
@[simp] theorem State.clusterNow_clusters (k : Nat) : (s.clusterNow k).2.clusters = s.clusters := rfl
@[simp] theorem State.clusterNow_sluice (k : Nat) : (s.clusterNow k).2.sluice = s.sluice := rfl
@[simp] theorem State.clusterNow_am (k : Nat) : (s.clusterNow k).2.am = s.am := rfl
@[simp] theorem State.clusterNow_answers (k : Nat) : (s.clusterNow k).2.answers = s.answers := rfl
@[simp] theorem State.clusterNow_slotReleases (k : Nat) : (s.clusterNow k).2.slotReleases = s.slotReleases := rfl
@[simp] theorem State.clusterNow_gmsg (k : Nat) : (s.clusterNow k).2.gmsg = s.gmsg := rfl
@[simp] theorem State.clusterNow_eng (k : Nat) : (s.clusterNow k).2.eng = s.eng := rfl
@[simp] theorem State.clusterNow_weirArrivals (k : Nat) : (s.clusterNow k).2.weirArrivals = s.weirArrivals := rfl
@[simp] theorem State.clusterNow_firings (k : Nat) : (s.clusterNow k).2.firings = s.firings := rfl
@[simp] theorem State.clusterNow_barrierArrivals (k : Nat) : (s.clusterNow k).2.barrierArrivals = s.barrierArrivals := rfl
@[simp] theorem State.clusterNow_groups (k : Nat) : (s.clusterNow k).2.groups = s.groups := rfl
@[simp] theorem State.clusterNow_groupDone (k : Nat) : (s.clusterNow k).2.groupDone = s.groupDone := rfl
@[simp] theorem State.clusterNow_sweep (k : Nat) : (s.clusterNow k).2.sweep = s.sweep := rfl
@[simp] theorem State.clusterNow_lastSweep (k : Nat) : (s.clusterNow k).2.lastSweep = s.lastSweep := rfl
@[simp] theorem State.clusterNow_reports (k : Nat) : (s.clusterNow k).2.reports = s.reports := rfl
@[simp] theorem State.clusterNow_sweptAt (k : Nat) : (s.clusterNow k).2.sweptAt = s.sweptAt := rfl
@[simp] theorem State.clusterNow_rsvs (k : Nat) : (s.clusterNow k).2.rsvs = s.rsvs := rfl
@[simp] theorem State.clusterNow_moves (k : Nat) : (s.clusterNow k).2.moves = s.moves := rfl
@[simp] theorem State.clusterNow_lostLaunch (k : Nat) : (s.clusterNow k).2.lostLaunch = s.lostLaunch := rfl
@[simp] theorem State.clusterNow_abwFail (k : Nat) : (s.clusterNow k).2.abwFail = s.abwFail := rfl
@[simp] theorem State.clusterNow_cmds (k : Nat) : (s.clusterNow k).2.cmds = s.cmds := rfl
@[simp] theorem State.clusterNow_cmdCount (k : Nat) : (s.clusterNow k).2.cmdCount = s.cmdCount := rfl
@[simp] theorem State.clusterNow_engAnswers (k : Nat) : (s.clusterNow k).2.engAnswers = s.engAnswers := rfl
@[simp] theorem State.clusterNow_engCounts (k : Nat) : (s.clusterNow k).2.engCounts = s.engCounts := rfl
@[simp] theorem State.clusterNow_ports (k : Nat) : (s.clusterNow k).2.ports = s.ports := rfl
@[simp] theorem State.clusterNow_svcFlight (k : Nat) : (s.clusterNow k).2.svcFlight = s.svcFlight := rfl
@[simp] theorem State.clusterNow_svcAnswers (k : Nat) : (s.clusterNow k).2.svcAnswers = s.svcAnswers := rfl
@[simp] theorem State.clusterNow_svc (k : Nat) : (s.clusterNow k).2.svc = s.svc := rfl
@[simp] theorem State.clusterNow_objects (k : Nat) : (s.clusterNow k).2.objects = s.objects := rfl
@[simp] theorem State.clusterNow_sessions (k : Nat) : (s.clusterNow k).2.sessions = s.sessions := rfl
@[simp] theorem State.clusterNow_hqueues (k : Nat) : (s.clusterNow k).2.hqueues = s.hqueues := rfl
@[simp] theorem State.clusterNow_host (k : Nat) : (s.clusterNow k).2.host = s.host := rfl
@[simp] theorem State.clusterNow_twin (k : Nat) : (s.clusterNow k).2.twin = s.twin := rfl
@[simp] theorem State.clusterNow_power (k : Nat) : (s.clusterNow k).2.power = s.power := rfl
@[simp] theorem State.clusterNow_meters (k : Nat) : (s.clusterNow k).2.meters = s.meters := rfl
@[simp] theorem State.clusterNow_telemetry (k : Nat) : (s.clusterNow k).2.telemetry = s.telemetry := rfl
@[simp] theorem State.sliceNow_mem (k : Nat) : (s.sliceNow k).2.mem = s.mem := rfl
@[simp] theorem State.sliceNow_lpddr (k : Nat) : (s.sliceNow k).2.lpddr = s.lpddr := rfl
@[simp] theorem State.sliceNow_stale (k : Nat) : (s.sliceNow k).2.stale = s.stale := rfl
@[simp] theorem State.sliceNow_ecc (k : Nat) : (s.sliceNow k).2.ecc = s.ecc := rfl
@[simp] theorem State.sliceNow_linkPoison (k : Nat) : (s.sliceNow k).2.linkPoison = s.linkPoison := rfl
@[simp] theorem State.sliceNow_ctxs (k : Nat) : (s.sliceNow k).2.ctxs = s.ctxs := rfl
@[simp] theorem State.sliceNow_jobs (k : Nat) : (s.sliceNow k).2.jobs = s.jobs := rfl
@[simp] theorem State.sliceNow_cores (k : Nat) : (s.sliceNow k).2.cores = s.cores := rfl
@[simp] theorem State.sliceNow_clusters (k : Nat) : (s.sliceNow k).2.clusters = s.clusters := rfl
@[simp] theorem State.sliceNow_sluice (k : Nat) : (s.sliceNow k).2.sluice = s.sluice := rfl
@[simp] theorem State.sliceNow_am (k : Nat) : (s.sliceNow k).2.am = s.am := rfl
@[simp] theorem State.sliceNow_answers (k : Nat) : (s.sliceNow k).2.answers = s.answers := rfl
@[simp] theorem State.sliceNow_slotReleases (k : Nat) : (s.sliceNow k).2.slotReleases = s.slotReleases := rfl
@[simp] theorem State.sliceNow_gmsg (k : Nat) : (s.sliceNow k).2.gmsg = s.gmsg := rfl
@[simp] theorem State.sliceNow_eng (k : Nat) : (s.sliceNow k).2.eng = s.eng := rfl
@[simp] theorem State.sliceNow_weirArrivals (k : Nat) : (s.sliceNow k).2.weirArrivals = s.weirArrivals := rfl
@[simp] theorem State.sliceNow_firings (k : Nat) : (s.sliceNow k).2.firings = s.firings := rfl
@[simp] theorem State.sliceNow_barrierArrivals (k : Nat) : (s.sliceNow k).2.barrierArrivals = s.barrierArrivals := rfl
@[simp] theorem State.sliceNow_groups (k : Nat) : (s.sliceNow k).2.groups = s.groups := rfl
@[simp] theorem State.sliceNow_groupDone (k : Nat) : (s.sliceNow k).2.groupDone = s.groupDone := rfl
@[simp] theorem State.sliceNow_sweep (k : Nat) : (s.sliceNow k).2.sweep = s.sweep := rfl
@[simp] theorem State.sliceNow_lastSweep (k : Nat) : (s.sliceNow k).2.lastSweep = s.lastSweep := rfl
@[simp] theorem State.sliceNow_reports (k : Nat) : (s.sliceNow k).2.reports = s.reports := rfl
@[simp] theorem State.sliceNow_sweptAt (k : Nat) : (s.sliceNow k).2.sweptAt = s.sweptAt := rfl
@[simp] theorem State.sliceNow_rsvs (k : Nat) : (s.sliceNow k).2.rsvs = s.rsvs := rfl
@[simp] theorem State.sliceNow_moves (k : Nat) : (s.sliceNow k).2.moves = s.moves := rfl
@[simp] theorem State.sliceNow_lostLaunch (k : Nat) : (s.sliceNow k).2.lostLaunch = s.lostLaunch := rfl
@[simp] theorem State.sliceNow_abwFail (k : Nat) : (s.sliceNow k).2.abwFail = s.abwFail := rfl
@[simp] theorem State.sliceNow_cmds (k : Nat) : (s.sliceNow k).2.cmds = s.cmds := rfl
@[simp] theorem State.sliceNow_cmdCount (k : Nat) : (s.sliceNow k).2.cmdCount = s.cmdCount := rfl
@[simp] theorem State.sliceNow_engAnswers (k : Nat) : (s.sliceNow k).2.engAnswers = s.engAnswers := rfl
@[simp] theorem State.sliceNow_engCounts (k : Nat) : (s.sliceNow k).2.engCounts = s.engCounts := rfl
@[simp] theorem State.sliceNow_ports (k : Nat) : (s.sliceNow k).2.ports = s.ports := rfl
@[simp] theorem State.sliceNow_svcFlight (k : Nat) : (s.sliceNow k).2.svcFlight = s.svcFlight := rfl
@[simp] theorem State.sliceNow_svcAnswers (k : Nat) : (s.sliceNow k).2.svcAnswers = s.svcAnswers := rfl
@[simp] theorem State.sliceNow_svc (k : Nat) : (s.sliceNow k).2.svc = s.svc := rfl
@[simp] theorem State.sliceNow_objects (k : Nat) : (s.sliceNow k).2.objects = s.objects := rfl
@[simp] theorem State.sliceNow_sessions (k : Nat) : (s.sliceNow k).2.sessions = s.sessions := rfl
@[simp] theorem State.sliceNow_hqueues (k : Nat) : (s.sliceNow k).2.hqueues = s.hqueues := rfl
@[simp] theorem State.sliceNow_host (k : Nat) : (s.sliceNow k).2.host = s.host := rfl
@[simp] theorem State.sliceNow_twin (k : Nat) : (s.sliceNow k).2.twin = s.twin := rfl
@[simp] theorem State.sliceNow_power (k : Nat) : (s.sliceNow k).2.power = s.power := rfl
@[simp] theorem State.sliceNow_meters (k : Nat) : (s.sliceNow k).2.meters = s.meters := rfl
@[simp] theorem State.sliceNow_telemetry (k : Nat) : (s.sliceNow k).2.telemetry = s.telemetry := rfl

/-! ### setCtx: only the context changes, in its slot or in its job's image -/

@[simp] theorem State.setCtx_sched (cx : Nat) (c : Ctx) : (s.setCtx cx c).sched = s.sched := by
  unfold State.setCtx; split
  · rfl
  · split
    · split <;> rfl
    · rfl
@[simp] theorem State.setCtx_time (cx : Nat) (c : Ctx) : (s.setCtx cx c).time = s.time := by
  unfold State.setCtx; split
  · rfl
  · split
    · split <;> rfl
    · rfl
@[simp] theorem State.setCtx_mem (cx : Nat) (c : Ctx) : (s.setCtx cx c).mem = s.mem := by
  unfold State.setCtx; split
  · rfl
  · split
    · split <;> rfl
    · rfl
@[simp] theorem State.setCtx_lpddr (cx : Nat) (c : Ctx) : (s.setCtx cx c).lpddr = s.lpddr := by
  unfold State.setCtx; split
  · rfl
  · split
    · split <;> rfl
    · rfl
@[simp] theorem State.setCtx_stale (cx : Nat) (c : Ctx) : (s.setCtx cx c).stale = s.stale := by
  unfold State.setCtx; split
  · rfl
  · split
    · split <;> rfl
    · rfl
@[simp] theorem State.setCtx_ecc (cx : Nat) (c : Ctx) : (s.setCtx cx c).ecc = s.ecc := by
  unfold State.setCtx; split
  · rfl
  · split
    · split <;> rfl
    · rfl
@[simp] theorem State.setCtx_linkPoison (cx : Nat) (c : Ctx) : (s.setCtx cx c).linkPoison = s.linkPoison := by
  unfold State.setCtx; split
  · rfl
  · split
    · split <;> rfl
    · rfl
@[simp] theorem State.setCtx_cores (cx : Nat) (c : Ctx) : (s.setCtx cx c).cores = s.cores := by
  unfold State.setCtx; split
  · rfl
  · split
    · split <;> rfl
    · rfl
@[simp] theorem State.setCtx_clusters (cx : Nat) (c : Ctx) : (s.setCtx cx c).clusters = s.clusters := by
  unfold State.setCtx; split
  · rfl
  · split
    · split <;> rfl
    · rfl
@[simp] theorem State.setCtx_sluice (cx : Nat) (c : Ctx) : (s.setCtx cx c).sluice = s.sluice := by
  unfold State.setCtx; split
  · rfl
  · split
    · split <;> rfl
    · rfl
@[simp] theorem State.setCtx_am (cx : Nat) (c : Ctx) : (s.setCtx cx c).am = s.am := by
  unfold State.setCtx; split
  · rfl
  · split
    · split <;> rfl
    · rfl
@[simp] theorem State.setCtx_answers (cx : Nat) (c : Ctx) : (s.setCtx cx c).answers = s.answers := by
  unfold State.setCtx; split
  · rfl
  · split
    · split <;> rfl
    · rfl
@[simp] theorem State.setCtx_slotReleases (cx : Nat) (c : Ctx) : (s.setCtx cx c).slotReleases = s.slotReleases := by
  unfold State.setCtx; split
  · rfl
  · split
    · split <;> rfl
    · rfl
@[simp] theorem State.setCtx_gmsg (cx : Nat) (c : Ctx) : (s.setCtx cx c).gmsg = s.gmsg := by
  unfold State.setCtx; split
  · rfl
  · split
    · split <;> rfl
    · rfl
@[simp] theorem State.setCtx_eng (cx : Nat) (c : Ctx) : (s.setCtx cx c).eng = s.eng := by
  unfold State.setCtx; split
  · rfl
  · split
    · split <;> rfl
    · rfl
@[simp] theorem State.setCtx_weirArrivals (cx : Nat) (c : Ctx) : (s.setCtx cx c).weirArrivals = s.weirArrivals := by
  unfold State.setCtx; split
  · rfl
  · split
    · split <;> rfl
    · rfl
@[simp] theorem State.setCtx_firings (cx : Nat) (c : Ctx) : (s.setCtx cx c).firings = s.firings := by
  unfold State.setCtx; split
  · rfl
  · split
    · split <;> rfl
    · rfl
@[simp] theorem State.setCtx_barrierArrivals (cx : Nat) (c : Ctx) : (s.setCtx cx c).barrierArrivals = s.barrierArrivals := by
  unfold State.setCtx; split
  · rfl
  · split
    · split <;> rfl
    · rfl
@[simp] theorem State.setCtx_groups (cx : Nat) (c : Ctx) : (s.setCtx cx c).groups = s.groups := by
  unfold State.setCtx; split
  · rfl
  · split
    · split <;> rfl
    · rfl
@[simp] theorem State.setCtx_groupDone (cx : Nat) (c : Ctx) : (s.setCtx cx c).groupDone = s.groupDone := by
  unfold State.setCtx; split
  · rfl
  · split
    · split <;> rfl
    · rfl
@[simp] theorem State.setCtx_sweep (cx : Nat) (c : Ctx) : (s.setCtx cx c).sweep = s.sweep := by
  unfold State.setCtx; split
  · rfl
  · split
    · split <;> rfl
    · rfl
@[simp] theorem State.setCtx_lastSweep (cx : Nat) (c : Ctx) : (s.setCtx cx c).lastSweep = s.lastSweep := by
  unfold State.setCtx; split
  · rfl
  · split
    · split <;> rfl
    · rfl
@[simp] theorem State.setCtx_reports (cx : Nat) (c : Ctx) : (s.setCtx cx c).reports = s.reports := by
  unfold State.setCtx; split
  · rfl
  · split
    · split <;> rfl
    · rfl
@[simp] theorem State.setCtx_sweptAt (cx : Nat) (c : Ctx) : (s.setCtx cx c).sweptAt = s.sweptAt := by
  unfold State.setCtx; split
  · rfl
  · split
    · split <;> rfl
    · rfl
@[simp] theorem State.setCtx_rsvs (cx : Nat) (c : Ctx) : (s.setCtx cx c).rsvs = s.rsvs := by
  unfold State.setCtx; split
  · rfl
  · split
    · split <;> rfl
    · rfl
@[simp] theorem State.setCtx_moves (cx : Nat) (c : Ctx) : (s.setCtx cx c).moves = s.moves := by
  unfold State.setCtx; split
  · rfl
  · split
    · split <;> rfl
    · rfl
@[simp] theorem State.setCtx_lostLaunch (cx : Nat) (c : Ctx) : (s.setCtx cx c).lostLaunch = s.lostLaunch := by
  unfold State.setCtx; split
  · rfl
  · split
    · split <;> rfl
    · rfl
@[simp] theorem State.setCtx_abwFail (cx : Nat) (c : Ctx) : (s.setCtx cx c).abwFail = s.abwFail := by
  unfold State.setCtx; split
  · rfl
  · split
    · split <;> rfl
    · rfl
@[simp] theorem State.setCtx_cmds (cx : Nat) (c : Ctx) : (s.setCtx cx c).cmds = s.cmds := by
  unfold State.setCtx; split
  · rfl
  · split
    · split <;> rfl
    · rfl
@[simp] theorem State.setCtx_cmdCount (cx : Nat) (c : Ctx) : (s.setCtx cx c).cmdCount = s.cmdCount := by
  unfold State.setCtx; split
  · rfl
  · split
    · split <;> rfl
    · rfl
@[simp] theorem State.setCtx_engAnswers (cx : Nat) (c : Ctx) : (s.setCtx cx c).engAnswers = s.engAnswers := by
  unfold State.setCtx; split
  · rfl
  · split
    · split <;> rfl
    · rfl
@[simp] theorem State.setCtx_engCounts (cx : Nat) (c : Ctx) : (s.setCtx cx c).engCounts = s.engCounts := by
  unfold State.setCtx; split
  · rfl
  · split
    · split <;> rfl
    · rfl
@[simp] theorem State.setCtx_ports (cx : Nat) (c : Ctx) : (s.setCtx cx c).ports = s.ports := by
  unfold State.setCtx; split
  · rfl
  · split
    · split <;> rfl
    · rfl
@[simp] theorem State.setCtx_svcFlight (cx : Nat) (c : Ctx) : (s.setCtx cx c).svcFlight = s.svcFlight := by
  unfold State.setCtx; split
  · rfl
  · split
    · split <;> rfl
    · rfl
@[simp] theorem State.setCtx_svcAnswers (cx : Nat) (c : Ctx) : (s.setCtx cx c).svcAnswers = s.svcAnswers := by
  unfold State.setCtx; split
  · rfl
  · split
    · split <;> rfl
    · rfl
@[simp] theorem State.setCtx_svc (cx : Nat) (c : Ctx) : (s.setCtx cx c).svc = s.svc := by
  unfold State.setCtx; split
  · rfl
  · split
    · split <;> rfl
    · rfl
@[simp] theorem State.setCtx_objects (cx : Nat) (c : Ctx) : (s.setCtx cx c).objects = s.objects := by
  unfold State.setCtx; split
  · rfl
  · split
    · split <;> rfl
    · rfl
@[simp] theorem State.setCtx_sessions (cx : Nat) (c : Ctx) : (s.setCtx cx c).sessions = s.sessions := by
  unfold State.setCtx; split
  · rfl
  · split
    · split <;> rfl
    · rfl
@[simp] theorem State.setCtx_hqueues (cx : Nat) (c : Ctx) : (s.setCtx cx c).hqueues = s.hqueues := by
  unfold State.setCtx; split
  · rfl
  · split
    · split <;> rfl
    · rfl
@[simp] theorem State.setCtx_host (cx : Nat) (c : Ctx) : (s.setCtx cx c).host = s.host := by
  unfold State.setCtx; split
  · rfl
  · split
    · split <;> rfl
    · rfl
@[simp] theorem State.setCtx_twin (cx : Nat) (c : Ctx) : (s.setCtx cx c).twin = s.twin := by
  unfold State.setCtx; split
  · rfl
  · split
    · split <;> rfl
    · rfl
@[simp] theorem State.setCtx_power (cx : Nat) (c : Ctx) : (s.setCtx cx c).power = s.power := by
  unfold State.setCtx; split
  · rfl
  · split
    · split <;> rfl
    · rfl
@[simp] theorem State.setCtx_meters (cx : Nat) (c : Ctx) : (s.setCtx cx c).meters = s.meters := by
  unfold State.setCtx; split
  · rfl
  · split
    · split <;> rfl
    · rfl
@[simp] theorem State.setCtx_telemetry (cx : Nat) (c : Ctx) : (s.setCtx cx c).telemetry = s.telemetry := by
  unfold State.setCtx; split
  · rfl
  · split
    · split <;> rfl
    · rfl

/-! ### What is read after a write -/

@[simp] theorem State.job?_putJob_same (h : Nat) (j : Job) : (s.putJob h j).job? h = some j := FMap.find?_insert_same _ _ _
theorem State.job?_putJob_ne {h i : Nat} (j : Job) (hi : i ≠ h) : (s.putJob h j).job? i = s.job? i := FMap.find?_insert_ne _ _ hi
@[simp] theorem State.core_setCore_same (c : Nat) (k : Core) : (s.setCore c k).core c = k := FMap.get_set_same _ _ _ _
theorem State.core_setCore_ne {c i : Nat} (k : Core) (hi : i ≠ c) : (s.setCore c k).core i = s.core i := FMap.get_set_ne _ _ _ hi
@[simp] theorem State.cluster_setCluster_same (k : Nat) (c : Cluster) : (s.setCluster k c).cluster k = c := FMap.get_set_same _ _ _ _
theorem State.cluster_setCluster_ne {k i : Nat} (c : Cluster) (hi : i ≠ k) : (s.setCluster k c).cluster i = s.cluster i :=
  FMap.get_set_ne _ _ _ hi

/-- A context of a core reads as it was written. -/
theorem State.ctx_setCtx_same {cx : Nat} (c : Ctx) (h : cx < numCtx) : (s.setCtx cx c).ctx cx = c := by
  simp [State.setCtx, State.ctx, h]

/-- Another context is unchanged. -/
theorem State.ctx_setCtx_ne {cx i : Nat} (c : Ctx) (h : cx < numCtx) (hi : i ≠ cx) : (s.setCtx cx c).ctx i = s.ctx i := by
  simp [State.setCtx, State.ctx, h, State.job?, FMap.get_set_ne _ _ _ hi]

/-- The jobs are unchanged when a context of a core is written. -/
theorem State.setCtx_jobs {cx : Nat} (c : Ctx) (h : cx < numCtx) : (s.setCtx cx c).jobs = s.jobs := by simp [State.setCtx, h]

@[simp] theorem State.setCur_sched (c : Ctx) : (s.setCur c).sched = s.sched := State.setCtx_sched s _ c
@[simp] theorem State.setCur_mem (c : Ctx) : (s.setCur c).mem = s.mem := State.setCtx_mem s _ c

theorem State.curCtx_setCur {c : Ctx} (h : s.sched.cur < numCtx) : (s.setCur c).curCtx = c := by
  simp only [State.curCtx, State.setCur, State.setCtx_sched]
  exact State.ctx_setCtx_same s c h

/-! ### Registers -/

@[simp] theorem Ctx.reg_zero (c : Ctx) : c.reg 0 = 0 := rfl
/-- A write to s0 is discarded (R89, R94). -/
@[simp] theorem Ctx.setReg_zero (c : Ctx) (v : Word) : c.setReg 0 v = c := rfl
theorem Ctx.reg_setReg_same (c : Ctx) {r : SReg} (v : Word) (h : r.val ≠ 0) : (c.setReg r v).reg r = v := by
  simp [Ctx.reg, Ctx.setReg, h]
theorem Ctx.reg_setReg_ne (c : Ctx) {r q : SReg} (v : Word) (h : q ≠ r) : (c.setReg r v).reg q = c.reg q := by
  unfold Ctx.setReg
  split
  · rfl
  · simp [Ctx.reg, FMap.get_set_ne _ _ _ (fun e => h (Fin.ext e) : q.val ≠ r.val)]

theorem Ctx.reg_count (c : Ctx) (n : Nat) (r : SReg) : (c.count n).reg r = c.reg r := by
  unfold Ctx.count; split
  · split <;> rfl
  · rfl
theorem Ctx.pc_count (c : Ctx) (n : Nat) : (c.count n).pc = c.pc := by
  unfold Ctx.count; split
  · split <;> rfl
  · rfl
/-- Retirement changes the counts and the queue's bookkeeping, not the registers. -/
@[simp] theorem Ctx.reg_retire (c : Ctx) (r : SReg) : c.retire.reg r = c.reg r := by
  simp only [Ctx.retire]; split
  · rfl
  · exact Ctx.reg_count _ _ _
@[simp] theorem Ctx.pc_retire (c : Ctx) : c.retire.pc = c.pc := by
  simp only [Ctx.retire]; split
  · rfl
  · exact Ctx.pc_count _ _
@[simp] theorem Ctx.reg_logUndo (c : Ctx) (ws : List SReg) (vl : Bool) (r : SReg) : (c.logUndo ws vl).reg r = c.reg r := by
  unfold Ctx.logUndo; split <;> rfl

end Sys2Proof.Machine
end

