-- ==== Sys2Proof/Laws/Ops.lean ====
section
/-! SUPPORT. For each shared operation, what it can do: the ways an instruction issues, waits or traps, the entry of a trap, and that
memory keeps its canonical form. -/

namespace Sys2Proof.Machine
open Sys2Proof

variable (s : State)

/-! ### Issue -/

/-- A free instruction waits, takes the error of a register it reads, or has its effect. -/
theorem State.freeIssue_cases (reads writes : List SReg) (vl : Bool) (eff : State → Ctx → Out) :
    s.freeIssue reads writes vl eff = .next s ∨
    (∃ r b, s.curCtx.badRead reads = some (r, b) ∧ s.freeIssue reads writes vl eff = s.badTrap r b) ∨
    (s.curCtx.canIssue reads writes vl = true ∧ s.curCtx.badRead reads = none ∧
      s.freeIssue reads writes vl eff = eff s { s.curCtx.logUndo writes vl with pc := s.nextPc }) := by
  simp only [State.freeIssue]
  split
  · rename_i h
    split
    · rename_i r b hb
      exact .inr (.inl ⟨r, b, hb, rfl⟩)
    · rename_i hb
      exact .inr (.inr ⟨h, hb, rfl⟩)
  · exact .inl rfl

theorem State.freeIssue_ready (reads writes : List SReg) (vl : Bool) (eff : State → Ctx → Out)
    (h : s.curCtx.canIssue reads writes vl = true) (hb : s.curCtx.badRead reads = none) :
    s.freeIssue reads writes vl eff = eff s { s.curCtx.logUndo writes vl with pc := s.nextPc } := by
  simp [State.freeIssue, h, hb]

theorem State.freeIssue_waits (reads writes : List SReg) (vl : Bool) (eff : State → Ctx → Out)
    (h : s.curCtx.canIssue reads writes vl = false) : s.freeIssue reads writes vl eff = .next s := by
  simp [State.freeIssue, h]

theorem State.freeOp_ready (reads writes : List SReg) (vl : Bool) (eff : Ctx → Ctx)
    (h : s.curCtx.canIssue reads writes vl = true) (hb : s.curCtx.badRead reads = none) :
    s.freeOp reads writes vl eff = .next (s.setCur (eff { s.curCtx.logUndo writes vl with pc := s.nextPc }).retire) := by
  simp [State.freeOp, State.freeIssue, h, hb]

/-- A held instruction waits, takes the error of a register it reads, or has its effect. -/
theorem State.heldOp_cases (reads writes : List SReg) (eff : State → Out) :
    s.heldOp reads writes eff = .next s ∨
    (∃ r b, s.curCtx.badRead reads = some (r, b) ∧ s.heldOp reads writes eff = s.badTrap r b) ∨
    (s.curCtx.canIssueHeld reads writes = true ∧ s.curCtx.badRead reads = none ∧ s.heldOp reads writes eff = eff s) := by
  simp only [State.heldOp]
  split
  · rename_i h
    split
    · rename_i r b hb
      exact .inr (.inl ⟨r, b, hb, rfl⟩)
    · rename_i hb
      exact .inr (.inr ⟨h, hb, rfl⟩)
  · exact .inl rfl

theorem State.heldOp_ready (reads writes : List SReg) (eff : State → Out)
    (h : s.curCtx.canIssueHeld reads writes = true) (hb : s.curCtx.badRead reads = none) : s.heldOp reads writes eff = eff s := by
  simp [State.heldOp, h, hb]

theorem State.supervisorOnly_of (k : State → Out) (h : s.curCtx.mode = .supervisor) : s.supervisorOnly k = k s := by
  simp [State.supervisorOnly, h]

theorem State.supervisorOnly_user (k : State → Out) (h : s.curCtx.mode ≠ .supervisor) : s.supervisorOnly k = s.trapCur .privileged 0 := by
  simp [State.supervisorOnly, h]

/-- Without unstarted vector work or a guessed branch, nothing is logged and an instruction retires at once (R86, R103, R227). -/
theorem Ctx.logUndo_started (c : Ctx) (writes : List SReg) (vl : Bool) (h : c.unstarted = false) (hg : c.guess = none) :
    c.logUndo writes vl = c := by
  simp [Ctx.logUndo, h, hg]

theorem Ctx.count_started (c : Ctx) (n : Nat) (h : c.unstarted = false) :
    c.count n = { c with instret := c.instret + BitVec.ofNat 64 n } := by
  unfold Ctx.count; rw [if_neg (by simp [h])]

theorem Ctx.retire_started (c : Ctx) (h : c.unstarted = false) (hg : c.guess = none) :
    c.retire = { c with ord := c.ord + 1, instret := c.instret + 1 } := by
  have h' : ({ c with ord := c.ord + 1 } : Ctx).unstarted = false := h
  unfold Ctx.retire
  rw [if_neg (by simp [hg]), Ctx.count_started _ _ h']
  rfl

/-- Behind a guessed branch an instruction does not retire yet (R227). -/
theorem Ctx.retire_guessed (c : Ctx) (h : c.guess.isSome = true) : c.retire = { c with ord := c.ord + 1 } := by
  simp [Ctx.retire, h]

theorem Ctx.unguess_none (c : Ctx) (h : c.guess = none) : c.unguess = c := by simp [Ctx.unguess, h]

theorem Ctx.squash_started (c : Ctx) (h : c.unstarted = false) (hg : c.guess = none) : c.squash = { c with undo := [], ahead := [] } := by
  have h' : c.vq.find? (fun e => !e.started) = none := by
    rw [List.find?_eq_none]
    intro e he
    have := (List.any_eq_false.mp h) e he
    simpa using this
  simp [Ctx.squash, Ctx.unguess_none c hg, h']

/-! ### Traps -/

theorem State.trapCur_waits (cause : Cause) (v : Word) (h : s.trapHeld s.sched.cur s.curCtx = true) : s.trapCur cause v = .next s := by
  simp [State.trapCur, h]

theorem State.trapCur_takes (cause : Cause) (v : Word) (h : s.trapHeld s.sched.cur s.curCtx = false) :
    s.trapCur cause v = .next (s.takeTrap s.sched.cur { cause := cause, value := v } s.curCtx.pc) := by
  simp [State.trapCur, h]

/-- A quiet context is not held back from a trap: no unstarted vector work, no guessed branch, nothing on its way to s2, and user mode
(R83, R88, R227). -/
theorem State.trapHeld_user (cx : Nat) (c : Ctx) (hu : c.unstarted = false) (hg : c.guess = none) (hb : c.busy regS2 = false)
    (hm : c.mode = .user) : s.trapHeld cx c = false := by
  simp [State.trapHeld, hu, hg, hb, hm]

/-- The error of a register read is taken as a trap, and goes with it (R85, R389). -/
theorem State.badTrap_waits (r : SReg) (b : BadReg) (h : s.trapHeld s.sched.cur s.curCtx = true) : s.badTrap r b = .next s := by
  simp [State.badTrap, State.trapWith, h]

/-- R322: a delegated trap of user mode at depth 0. -/
theorem State.takeTrap_delegated (cx : Nat) (t : TrapInfo) (pc : Word) (h : (s.ctx cx).delegates t = true) :
    s.takeTrap cx t pc = s.setCtx cx { (s.ctx cx).takeTop (s.ctx cx).utsp 32 with
      utepc := pc, utcause := BitVec.ofNat 6 t.cause.code, utval := t.value, utsp := (s.ctx cx).reg regS2
      depth := 1, pc := (s.ctx cx).utvec, status := .running } := by
  simp [State.takeTrap, h]

/-- R322: no handler is left at depth 3. -/
theorem State.takeTrap_deep (cx : Nat) (t : TrapInfo) (pc : Word) (h : (s.ctx cx).delegates t = false) (hd : (s.ctx cx).depth = 3) :
    s.takeTrap cx t pc = s.trapNest cx t pc := by
  simp [State.takeTrap, h, hd]

/-- R322: the entry to supervisor mode from user mode. -/
theorem State.takeTrap_user (cx : Nat) (t : TrapInfo) (pc : Word) (h : (s.ctx cx).delegates t = false) (hd : (s.ctx cx).depth ≠ 3)
    (hm : (s.ctx cx).mode = .user) :
    s.takeTrap cx t pc = s.setCtx cx { (s.ctx cx).takeTop (s.ctx cx).tsp 33 with
      tsp := (s.ctx cx).reg regS2, tepc := pc, tcause := BitVec.ofNat 6 t.cause.code, tval := t.value
      tstatus := BitVec.ofNat 3 ((s.ctx cx).depth + 1), depth := (s.ctx cx).depth + 1, mode := .supervisor, pc := (s.ctx cx).tvec
      status := .running } := by
  have e : (Mode.user == Mode.supervisor) = false := rfl
  simp only [State.takeTrap, h, hd, hm]
  by_cases hr : regS2.val = 0
  · exact absurd hr (by decide)
  · simp [Ctx.takeTop, Ctx.setReg, hr, hm, e]

/-! ### Time (R13, R268) -/

theorem State.counterNow_ge (old : Nat) : old ≤ s.counterNow old ∧ s.time.ref ≤ s.counterNow old := by simp only [State.counterNow]; omega
theorem State.counterNow_le (old : Nat) (h : old ≤ s.time.ref + 8) : s.counterNow old ≤ s.time.ref + 8 := by simp only [State.counterNow]; omega

/-! ### Stores and the canonical form of memory -/

@[simp] theorem State.dirty_mem (p o : Nat) : (s.dirty p o).mem = s.mem := by
  simp only [State.dirty]; split <;> rfl

/-- Reaching a place notes at most that the turn waits (R420, R424). -/
theorem State.touch_cases (p n : Nat) : s.touch p n = s ∨ ∃ q, s.touch p n = { s with sched := { s.sched with held := some q } } := by
  simp only [State.touch]
  split
  · exact .inl rfl
  · exact .inr ⟨_, rfl⟩

@[simp] theorem State.touch_mem (p n : Nat) : (s.touch p n).mem = s.mem := by
  rcases s.touch_cases p n with h | ⟨q, h⟩ <;> rw [h]
@[simp] theorem State.touch_host (p n : Nat) : (s.touch p n).host = s.host := by
  rcases s.touch_cases p n with h | ⟨q, h⟩ <;> rw [h]
@[simp] theorem State.touch_stale (p n : Nat) : (s.touch p n).stale = s.stale := by
  rcases s.touch_cases p n with h | ⟨q, h⟩ <;> rw [h]

/-- A place whose home is ready is reached without a trace. -/
theorem State.touch_ready (p n : Nat) (h : s.unready p n = none) : s.touch p n = s := by simp [State.touch, h]

/-- Scratchpads are always reached (R420). -/
theorem State.unready_pad (p n : Nat) (h : 2 ^ 48 ≤ p) : s.unready p n = none := if_pos h

@[simp] theorem State.snoopRead_mem (p n : Nat) : (s.snoopRead p n).mem = s.mem := by
  simp only [State.snoopRead]; split <;> simp
@[simp] theorem State.snoopWrite_mem (p n : Nat) : (s.snoopWrite p n).mem = s.mem := by
  simp only [State.snoopWrite]; split <;> simp

/-- Without lines at the host a device read only reaches its home (R385, R420). -/
theorem State.snoopRead_none (p n : Nat) (h : s.host.snoop = []) : s.snoopRead p n = s.touch p n := by simp [State.snoopRead, h]
theorem State.snoopWrite_none (p n : Nat) (h : s.host.snoop = []) : s.snoopWrite p n = s.touch p n := by simp [State.snoopWrite, h]
@[simp] theorem State.clearEcc_mem (p n : Nat) : (s.clearEcc p n).mem = s.mem := rfl

/-- A store writes its bytes at its place and no others. -/
@[simp] theorem State.storeBytes_mem (p : Nat) (o : Option Nat) (bs : List Byte) : (s.storeBytes p o bs).mem = s.mem.writeBytes p bs := by
  cases o <;> simp [State.storeBytes]

theorem State.storeBytes_outside (p b : Nat) (o : Option Nat) (bs : List Byte) (h : b < p ∨ p + bs.length ≤ b) :
    (s.storeBytes p o bs).mem.read b = s.mem.read b := by
  rw [State.storeBytes_mem, Memory.read_writeBytes_outside _ _ _ _ h]

theorem State.wf_storeBytes (p : Nat) (o : Option Nat) (bs : List Byte) (h : s.mem.wf = true) : (s.storeBytes p o bs).mem.wf = true := by
  rw [State.storeBytes_mem]; exact Memory.wf_writeBytes _ _ _ h

@[simp] theorem State.putWord_mem (p n v : Nat) : (s.putWord p n v).mem = s.mem.writeN p n v := by simp [State.putWord]

/-- A word that a unit writes changes no byte beyond it. -/
theorem State.putWord_outside (p n v b : Nat) (h : b < p ∨ p + n ≤ b) : (s.putWord p n v).mem.read b = s.mem.read b := by
  rw [State.putWord_mem, Memory.read_writeN_outside _ _ _ _ _ h]

theorem State.wf_putWord (p n v : Nat) (h : s.mem.wf = true) : (s.putWord p n v).mem.wf = true := by
  rw [State.putWord_mem]; exact Memory.wf_writeN _ _ _ _ h

theorem State.wf_putHome (p : Nat) (b : Byte) (h : s.mem.wf = true) : (s.putHome p b).mem.wf = true := by
  simp only [State.putHome]
  split
  · exact h
  · exact Memory.wf_write _ _ _ h

/-- A byte at home under a cached line leaves what the caches hold as it is (R201, R202). -/
theorem State.putHome_under (p : Nat) (b : Byte) (d : CachedLine) (h : s.stale.find? (lineOf p) = some d) : (s.putHome p b).mem = s.mem := by
  simp [State.putHome, h]

/-- A retained copy is beside what memory shows (R201). -/
@[simp] theorem State.retain_mem (l : Nat) : (s.retain l).mem = s.mem := by
  simp only [State.retain]
  split
  · rfl
  · split
    · rfl
    · split
      · rfl
      · rfl

/-- Where no owner has a bank, nothing is retained. -/
theorem State.retain_none (l : Nat) (h : s.holders (homeSlice (64 * l)) = []) : s.retain l = s := by
  simp only [State.retain, h]
  split <;> simp

theorem State.retains_mem (ls : List Nat) (u : State) : (ls.foldl State.retain u).mem = u.mem := by
  induction ls generalizing u with
  | nil => rfl
  | cons l ls ih => exact (ih _).trans (u.retain_mem l)

theorem State.retains_none (ls : List Nat) (h : ∀ l ∈ ls, s.holders (homeSlice (64 * l)) = []) : ls.foldl State.retain s = s := by
  induction ls with
  | nil => rfl
  | cons l ls ih =>
    rw [List.foldl_cons, s.retain_none l (h l (by simp))]
    exact ih fun m hm => h m (by simp [hm])

theorem State.wf_putBytes (p : Nat) (o : Option Nat) (bs : List Byte) (h : s.mem.wf = true) : (s.putBytes p o bs).mem.wf = true := by
  simp only [State.putBytes]
  split
  · exact s.wf_storeBytes p o bs h
  · have go : ∀ (xs : List (Byte × Nat)) (u : State), u.mem.wf = true →
        (xs.foldl (fun s b => s.putHome (p + b.2) b.1) u).mem.wf = true := by
      intro xs
      induction xs with
      | nil => exact fun _ hu => hu
      | cons x xs ih => exact fun u hu => ih _ (u.wf_putHome _ _ hu)
    have hr := State.retains_mem (linesAt p bs.length) s
    split
    · exact go _ _ (by simpa [hr] using h)
    · exact State.wf_storeBytes _ _ _ _ (by rw [hr]; exact h)

/-- An access over no cached line, where none can be retained, is a plain store (R201). -/
theorem State.putBytes_clean (p : Nat) (bs : List Byte) (h : s.underLine p bs.length = false)
    (hh : ∀ l ∈ linesAt p bs.length, s.holders (homeSlice (64 * l)) = []) : s.putBytes p none bs = s.storeBytes p none bs := by
  simp [State.putBytes, s.retains_none _ hh, h]

theorem State.putBytes_cached (p o : Nat) (bs : List Byte) : s.putBytes p (some o) bs = s.storeBytes p (some o) bs := by
  simp [State.putBytes]

theorem State.wf_invalLine (l : Nat) (h : s.mem.wf = true) : (s.invalLine l).mem.wf = true := by
  simp only [State.invalLine]
  split
  · exact h
  · exact Memory.wf_writeBytes _ _ _ h

theorem State.wf_flushLine (l : Nat) (h : s.mem.wf = true) : (s.flushLine l).mem.wf = true := by
  simp only [State.flushLine]
  split
  · exact h
  · split
    · exact h
    · exact Memory.wf_writeBytes _ _ _ h

theorem State.wf_evict (h : s.mem.wf = true) : s.evict.mem.wf = true := by
  simp only [State.evict]
  split
  · exact s.wf_flushLine _ h
  · exact h

/-- An eviction changes memory and the lines that differ from it alone. -/
theorem State.evict_frame : s.evict = { s with mem := s.evict.mem, stale := s.evict.stale } := rfl

theorem State.wf_log (r : LogRec) (h : s.mem.wf = true) : (s.log r).mem.wf = true := by
  simp only [State.log]
  split
  · exact h
  · split
    · repeat apply State.wf_putWord
      simpa using h
    · apply State.wf_putWord
      simpa using h

@[simp] theorem State.tlbFill_mem (a : Agent) (c k : Option Nat) (e : TlbEntry) : (s.tlbFill a c k e).mem = s.mem := by
  cases c <;> cases k <;> simp only [State.tlbFill] <;> (try split) <;> rfl

@[simp] theorem State.snoopWalk_mem (root va : Nat) : (s.snoopWalk root va).mem = s.mem := by
  have go : ∀ (ps : List Nat) (u : State), (ps.foldl (fun s p => s.snoopRead p 8) u).mem = u.mem := by
    intro ps
    induction ps with
    | nil => exact fun _ => rfl
    | cons p ps ih => exact fun u => (ih _).trans (by simp)
  exact go _ _

/-- Without lines at the host, and with its entries' homes ready, a walk changes nothing but what it marks (R385, R420). -/
theorem State.snoopWalk_none (root va : Nat) (h : s.host.snoop = []) (hr : ∀ p ∈ walkReads s.mem va 3 root, s.unready p 8 = none) :
    s.snoopWalk root va = s := by
  have go : ∀ ps : List Nat, (∀ p ∈ ps, s.unready p 8 = none) → ps.foldl (fun s p => s.snoopRead p 8) s = s := by
    intro ps
    induction ps with
    | nil => exact fun _ => rfl
    | cons p ps ih =>
      intro hp
      rw [List.foldl_cons, s.snoopRead_none p 8 h, s.touch_ready p 8 (hp p (by simp))]
      exact ih fun q hq => hp q (by simp [hq])
  exact go _ hr

theorem State.wf_setAD (l : Leaf) (d : Bool) (h : s.mem.wf = true) : (s.setAD l d).mem.wf = true := Memory.wf_write _ _ _ h

theorem State.wf_walkFor (a : Agent) (va : Nat) (k : AccessKind) (d : Bool) (h : s.mem.wf = true) : (s.walkFor a va k d).2.mem.wf = true := by
  simp only [State.walkFor]
  split
  · simpa using h
  · split
    · rw [State.tlbFill_mem]
      apply State.wf_setAD
      split <;> simpa using h
    · simpa using h

theorem State.wf_markLeaf (a : Agent) (va : Nat) (d : Bool) (h : s.mem.wf = true) : (s.markLeaf a va d).mem.wf = true := by
  simp only [State.markLeaf]
  split
  · exact h
  · exact s.wf_setAD _ _ h

@[simp] theorem State.tlbHit_mem (e : Option TlbEntry) : (s.tlbHit e).2.mem = s.mem := by
  cases e <;> rfl

/-- The lookup in both TLBs changes no memory. -/
theorem State.tlbHits_mem (a : Agent) (l1 l2 : Option TlbEntry) :
    (match s.tlbHit l1 with
      | (some e, s) => (some e, s)
      | (none, s) =>
        match s.tlbHit l2 with
        | (some e, s) => (some e, s.tlbFill a a.core none e)
        | (none, s) => (none, s) : Option TlbEntry × State).2.mem = s.mem := by
  have h1 := s.tlbHit_mem l1
  split
  · rename_i hq; rw [hq] at h1; exact h1
  · rename_i u hq
    rw [hq] at h1
    have h2 := u.tlbHit_mem l2
    split
    · rename_i hr; rw [hr] at h2; simp_all
    · rename_i hr; rw [hr] at h2; simp_all

theorem State.wf_pageOf (a : Agent) (va : Nat) (k : AccessKind) (d : Bool) (h : s.mem.wf = true) : (s.pageOf a va k d).2.mem.wf = true := by
  have walks : ∀ t : State, t.mem = s.mem → (t.walkFor a va k d).2.mem.wf = true := fun t ht => t.wf_walkFor a va k d (by rw [ht]; exact h)
  have hits : ∀ (t : State) (e : TlbEntry), t.mem = s.mem → (if d && !e.d then t.walkFor a va k d
      else if e.grants k a.user && t.paExists (e.pa + (va - e.va)) then
        (some e, if e.size = 65536 then t.markLeaf a va d else t)
      else (none, t)).2.mem.wf = true := by
    intro t e ht
    have ht' : t.mem.wf = true := by rw [ht]; exact h
    split
    · exact walks t ht
    · split
      · dsimp only
        split
        · exact t.wf_markLeaf a va d ht'
        · exact ht'
      · exact ht'
  simp only [State.pageOf]
  split
  · rename_i x e he
    refine hits _ e ?_
    clear he
    split
    · split <;> simp
    · exact s.tlbHits_mem a _ _
  · refine walks _ ?_
    split
    · split <;> simp
    · exact s.tlbHits_mem a _ _

theorem State.wf_xlate (a : Agent) (va : Word) (k : AccessKind) (d : Bool) (h : s.mem.wf = true) : (s.xlate a va k d).2.mem.wf = true := by
  simp only [State.xlate]
  split
  · exact h
  · split
    · exact h
    · have := s.wf_pageOf a va.toNat k d h
      split <;> (rename_i heq; rw [heq] at this; exact this)

theorem State.wf_reach (a : Agent) (va : Word) (n : Nat) (k : AccessKind) (d : Bool) (h : s.mem.wf = true) :
    (s.reach a va n k d).2.mem.wf = true := by
  have h1 := s.wf_xlate a va k d h
  have h2 := s.wf_xlate a va k false h
  simp only [State.reach]
  split
  · rename_i heq
    rw [heq] at h1
    split
    · dsimp only; split <;> assumption
    · exact h1
  · exact h1

/-- A data access changes no byte of memory but the A and D bits of the leaf it used. -/
theorem State.wf_access (a : Agent) (va : Word) (n : Nat) (k : AccessKind) (d : Bool) (h : s.mem.wf = true) :
    (s.access a va n k d).2.mem.wf = true := by
  simp only [State.access]
  split
  · exact h
  · exact s.wf_reach a va n k d h

end Sys2Proof.Machine
end

