-- ==== Sys2Proof/Laws/PerInstr.lean ====
section
/-! SUPPORT. Laws of the syntax, one lemma per instruction: every field of an instruction's chain fits its place in the words of
R55 to R59. -/

namespace Sys2Proof.Laws.Encoding

/-- The chain's page, major, register and constant fields and immediate words fit their places. -/
def Fits (c : Chain) : Prop :=
  c.page < 256 ∧ c.major < 15 ∧ c.D < 32 ∧ c.A < 32 ∧ c.B < 32 ∧ c.C < 32 ∧ ∀ x ∈ c.xi, x < 1024

/-- The chain that an instruction is encoded as has fields that fit; an event has no chain. -/
def Statement (i : Instr) : Prop := ∀ c, toChain i = some c → Fits c

/-- The words of an immediate fit. -/
theorem immWords_lt (b n : Nat) (v : Int) (x : Nat) (h : x ∈ immWords b n v) : x < 1024 := by
  simp only [immWords, List.mem_map] at h
  obtain ⟨k, -, rfl⟩ := h
  have := Int.emod_lt_of_pos (v / ((2 ^ (b + 10 * (n - 1 - k)) : Nat) : Int)) (b := 1024) (by decide)
  omega

/-- The words of the limits of WAITC fit. -/
theorem waitWords_lt (mx en : Fin 16) (x : Nat) (h : x ∈ waitWords mx en) : x < 1024 := by
  unfold waitWords at h
  split at h <;> simp at h
  omega

/-- The four base bits of an immediate fit. -/
theorem immBase_four (v : Int) : immBase 4 v < 32 := by
  have := Int.emod_lt_of_pos v (b := 16) (by decide)
  unfold immBase
  norm_num
  omega

/-- The eight base bits of an immediate fit. -/
theorem immBase_eight (v : Int) : immBase 8 v < 256 := by
  have := Int.emod_lt_of_pos v (b := 256) (by decide)
  unfold immBase
  norm_num
  omega

theorem fmt_code_lt (f : Fmt) : f.code < 16 := by cases f <;> decide

theorem add (d : SReg) (a : SReg) (b : SReg) : Statement (.add d a b) := by
  rintro c ⟨⟩
  exact ⟨(by decide : 0x00 < 256), (by decide : 0 < 15), Nat.lt_of_lt_of_le d.isLt (by decide), Nat.lt_of_lt_of_le a.isLt (by decide), Nat.lt_of_lt_of_le b.isLt (by decide), (by decide : 0 < 32), by simp⟩
theorem sub (d : SReg) (a : SReg) (b : SReg) : Statement (.sub d a b) := by
  rintro c ⟨⟩
  exact ⟨(by decide : 0x00 < 256), (by decide : 1 < 15), Nat.lt_of_lt_of_le d.isLt (by decide), Nat.lt_of_lt_of_le a.isLt (by decide), Nat.lt_of_lt_of_le b.isLt (by decide), (by decide : 0 < 32), by simp⟩
theorem and (d : SReg) (a : SReg) (b : SReg) : Statement (.and d a b) := by
  rintro c ⟨⟩
  exact ⟨(by decide : 0x00 < 256), (by decide : 2 < 15), Nat.lt_of_lt_of_le d.isLt (by decide), Nat.lt_of_lt_of_le a.isLt (by decide), Nat.lt_of_lt_of_le b.isLt (by decide), (by decide : 0 < 32), by simp⟩
theorem or (d : SReg) (a : SReg) (b : SReg) : Statement (.or d a b) := by
  rintro c ⟨⟩
  exact ⟨(by decide : 0x00 < 256), (by decide : 3 < 15), Nat.lt_of_lt_of_le d.isLt (by decide), Nat.lt_of_lt_of_le a.isLt (by decide), Nat.lt_of_lt_of_le b.isLt (by decide), (by decide : 0 < 32), by simp⟩
theorem xor (d : SReg) (a : SReg) (b : SReg) : Statement (.xor d a b) := by
  rintro c ⟨⟩
  exact ⟨(by decide : 0x00 < 256), (by decide : 4 < 15), Nat.lt_of_lt_of_le d.isLt (by decide), Nat.lt_of_lt_of_le a.isLt (by decide), Nat.lt_of_lt_of_le b.isLt (by decide), (by decide : 0 < 32), by simp⟩
theorem sll (d : SReg) (a : SReg) (b : SReg) : Statement (.sll d a b) := by
  rintro c ⟨⟩
  exact ⟨(by decide : 0x00 < 256), (by decide : 5 < 15), Nat.lt_of_lt_of_le d.isLt (by decide), Nat.lt_of_lt_of_le a.isLt (by decide), Nat.lt_of_lt_of_le b.isLt (by decide), (by decide : 0 < 32), by simp⟩
theorem addi (d : SReg) (a : SReg) (imm : Int) : Statement (.addi d a imm) := by
  rintro c ⟨⟩
  exact ⟨(by decide : 0x00 < 256), (by decide : 6 < 15), Nat.lt_of_lt_of_le d.isLt (by decide), Nat.lt_of_lt_of_le a.isLt (by decide), immBase_four imm, (by decide : 0 < 32), immWords_lt _ _ _⟩
theorem li (d : SReg) (imm : Int) : Statement (.li d imm) := by
  rintro c ⟨⟩
  exact ⟨(by decide : 0x00 < 256), (by decide : 7 < 15), Nat.lt_of_lt_of_le d.isLt (by decide), by have := immBase_eight imm; simp only; omega, by simp only; omega, (by decide : 0 < 32), immWords_lt _ _ _⟩
theorem ldd (d : SReg) (a : SReg) (imm : Nat) : Statement (.ldd d a imm) := by
  rintro c ⟨⟩
  exact ⟨(by decide : 0x00 < 256), (by decide : 8 < 15), Nat.lt_of_lt_of_le d.isLt (by decide), Nat.lt_of_lt_of_le a.isLt (by decide), immBase_four imm, (by decide : 0 < 32), immWords_lt _ _ _⟩
theorem std (d : SReg) (a : SReg) (imm : Nat) : Statement (.std d a imm) := by
  rintro c ⟨⟩
  exact ⟨(by decide : 0x00 < 256), (by decide : 9 < 15), Nat.lt_of_lt_of_le d.isLt (by decide), Nat.lt_of_lt_of_le a.isLt (by decide), immBase_four imm, (by decide : 0 < 32), immWords_lt _ _ _⟩
theorem beqz (d : SReg) (off : Int) : Statement (.beqz d off) := by
  rintro c ⟨⟩
  exact ⟨(by decide : 0x00 < 256), (by decide : 10 < 15), Nat.lt_of_lt_of_le d.isLt (by decide), by have := immBase_eight off; simp only; omega, by simp only; omega, (by decide : 0 < 32), immWords_lt _ _ _⟩
theorem bnez (d : SReg) (off : Int) : Statement (.bnez d off) := by
  rintro c ⟨⟩
  exact ⟨(by decide : 0x00 < 256), (by decide : 11 < 15), Nat.lt_of_lt_of_le d.isLt (by decide), by have := immBase_eight off; simp only; omega, by simp only; omega, (by decide : 0 < 32), immWords_lt _ _ _⟩
theorem jal (d : SReg) (off : Int) : Statement (.jal d off) := by
  rintro c ⟨⟩
  exact ⟨(by decide : 0x00 < 256), (by decide : 12 < 15), Nat.lt_of_lt_of_le d.isLt (by decide), by have := immBase_eight off; simp only; omega, by simp only; omega, (by decide : 0 < 32), immWords_lt _ _ _⟩
theorem mov (d : SReg) (a : SReg) : Statement (.mov d a) := by
  rintro c ⟨⟩
  exact ⟨(by decide : 0x00 < 256), (by decide : 13 < 15), Nat.lt_of_lt_of_le d.isLt (by decide), Nat.lt_of_lt_of_le a.isLt (by decide), (by decide : 0 < 32), (by decide : 0 < 32), by simp⟩
theorem jalr (d : SReg) (a : SReg) : Statement (.jalr d a) := by
  rintro c ⟨⟩
  exact ⟨(by decide : 0x00 < 256), (by decide : 13 < 15), Nat.lt_of_lt_of_le d.isLt (by decide), Nat.lt_of_lt_of_le a.isLt (by decide), (by decide : 1 < 32), (by decide : 0 < 32), by simp⟩
theorem not (d : SReg) (a : SReg) : Statement (.not d a) := by
  rintro c ⟨⟩
  exact ⟨(by decide : 0x00 < 256), (by decide : 13 < 15), Nat.lt_of_lt_of_le d.isLt (by decide), Nat.lt_of_lt_of_le a.isLt (by decide), (by decide : 2 < 32), (by decide : 0 < 32), by simp⟩
theorem neg (d : SReg) (a : SReg) : Statement (.neg d a) := by
  rintro c ⟨⟩
  exact ⟨(by decide : 0x00 < 256), (by decide : 13 < 15), Nat.lt_of_lt_of_le d.isLt (by decide), Nat.lt_of_lt_of_le a.isLt (by decide), (by decide : 3 < 32), (by decide : 0 < 32), by simp⟩
theorem setvl (d : SReg) (a : SReg) (fmt : Fmt) : Statement (.setvl d a fmt) := by
  rintro c ⟨⟩
  exact ⟨(by decide : 0x00 < 256), (by decide : 14 < 15), Nat.lt_of_lt_of_le d.isLt (by decide), Nat.lt_of_lt_of_le a.isLt (by decide), Nat.lt_trans (fmt_code_lt _) (by decide), (by decide : 0 < 32), by simp⟩
theorem srl (d : SReg) (a : SReg) (b : SReg) : Statement (.srl d a b) := by
  rintro c ⟨⟩
  exact ⟨(by decide : 0x01 < 256), (by decide : 0 < 15), Nat.lt_of_lt_of_le d.isLt (by decide), Nat.lt_of_lt_of_le a.isLt (by decide), Nat.lt_of_lt_of_le b.isLt (by decide), (by decide : 0 < 32), by simp⟩
theorem sra (d : SReg) (a : SReg) (b : SReg) : Statement (.sra d a b) := by
  rintro c ⟨⟩
  exact ⟨(by decide : 0x01 < 256), (by decide : 1 < 15), Nat.lt_of_lt_of_le d.isLt (by decide), Nat.lt_of_lt_of_le a.isLt (by decide), Nat.lt_of_lt_of_le b.isLt (by decide), (by decide : 0 < 32), by simp⟩
theorem slli (d : SReg) (a : SReg) (amt : Nat) : Statement (.slli d a amt) := by
  rintro c ⟨⟩
  exact ⟨(by decide : 0x01 < 256), (by decide : 2 < 15), Nat.lt_of_lt_of_le d.isLt (by decide), Nat.lt_of_lt_of_le a.isLt (by decide), immBase_four amt, (by decide : 0 < 32), immWords_lt _ _ _⟩
theorem srli (d : SReg) (a : SReg) (amt : Nat) : Statement (.srli d a amt) := by
  rintro c ⟨⟩
  exact ⟨(by decide : 0x01 < 256), (by decide : 3 < 15), Nat.lt_of_lt_of_le d.isLt (by decide), Nat.lt_of_lt_of_le a.isLt (by decide), immBase_four amt, (by decide : 0 < 32), immWords_lt _ _ _⟩
theorem srai (d : SReg) (a : SReg) (amt : Nat) : Statement (.srai d a amt) := by
  rintro c ⟨⟩
  exact ⟨(by decide : 0x01 < 256), (by decide : 4 < 15), Nat.lt_of_lt_of_le d.isLt (by decide), Nat.lt_of_lt_of_le a.isLt (by decide), immBase_four amt, (by decide : 0 < 32), immWords_lt _ _ _⟩
theorem mul (d : SReg) (a : SReg) (b : SReg) : Statement (.mul d a b) := by
  rintro c ⟨⟩
  exact ⟨(by decide : 0x01 < 256), (by decide : 5 < 15), Nat.lt_of_lt_of_le d.isLt (by decide), Nat.lt_of_lt_of_le a.isLt (by decide), Nat.lt_of_lt_of_le b.isLt (by decide), (by decide : 0 < 32), by simp⟩
theorem mulh (d : SReg) (a : SReg) (b : SReg) : Statement (.mulh d a b) := by
  rintro c ⟨⟩
  exact ⟨(by decide : 0x01 < 256), (by decide : 6 < 15), Nat.lt_of_lt_of_le d.isLt (by decide), Nat.lt_of_lt_of_le a.isLt (by decide), Nat.lt_of_lt_of_le b.isLt (by decide), (by decide : 0 < 32), by simp⟩
theorem mulhn (d : SReg) (a : SReg) (b : SReg) : Statement (.mulhn d a b) := by
  rintro c ⟨⟩
  exact ⟨(by decide : 0x01 < 256), (by decide : 7 < 15), Nat.lt_of_lt_of_le d.isLt (by decide), Nat.lt_of_lt_of_le a.isLt (by decide), Nat.lt_of_lt_of_le b.isLt (by decide), (by decide : 0 < 32), by simp⟩
theorem div (d : SReg) (a : SReg) (b : SReg) : Statement (.div d a b) := by
  rintro c ⟨⟩
  exact ⟨(by decide : 0x01 < 256), (by decide : 8 < 15), Nat.lt_of_lt_of_le d.isLt (by decide), Nat.lt_of_lt_of_le a.isLt (by decide), Nat.lt_of_lt_of_le b.isLt (by decide), (by decide : 0 < 32), by simp⟩
theorem divn (d : SReg) (a : SReg) (b : SReg) : Statement (.divn d a b) := by
  rintro c ⟨⟩
  exact ⟨(by decide : 0x01 < 256), (by decide : 9 < 15), Nat.lt_of_lt_of_le d.isLt (by decide), Nat.lt_of_lt_of_le a.isLt (by decide), Nat.lt_of_lt_of_le b.isLt (by decide), (by decide : 0 < 32), by simp⟩
theorem rem (d : SReg) (a : SReg) (b : SReg) : Statement (.rem d a b) := by
  rintro c ⟨⟩
  exact ⟨(by decide : 0x01 < 256), (by decide : 10 < 15), Nat.lt_of_lt_of_le d.isLt (by decide), Nat.lt_of_lt_of_le a.isLt (by decide), Nat.lt_of_lt_of_le b.isLt (by decide), (by decide : 0 < 32), by simp⟩
theorem remn (d : SReg) (a : SReg) (b : SReg) : Statement (.remn d a b) := by
  rintro c ⟨⟩
  exact ⟨(by decide : 0x01 < 256), (by decide : 11 < 15), Nat.lt_of_lt_of_le d.isLt (by decide), Nat.lt_of_lt_of_le a.isLt (by decide), Nat.lt_of_lt_of_le b.isLt (by decide), (by decide : 0 < 32), by simp⟩
theorem slt (d : SReg) (a : SReg) (b : SReg) : Statement (.slt d a b) := by
  rintro c ⟨⟩
  exact ⟨(by decide : 0x01 < 256), (by decide : 12 < 15), Nat.lt_of_lt_of_le d.isLt (by decide), Nat.lt_of_lt_of_le a.isLt (by decide), Nat.lt_of_lt_of_le b.isLt (by decide), (by decide : 0 < 32), by simp⟩
theorem sltn (d : SReg) (a : SReg) (b : SReg) : Statement (.sltn d a b) := by
  rintro c ⟨⟩
  exact ⟨(by decide : 0x01 < 256), (by decide : 13 < 15), Nat.lt_of_lt_of_le d.isLt (by decide), Nat.lt_of_lt_of_le a.isLt (by decide), Nat.lt_of_lt_of_le b.isLt (by decide), (by decide : 0 < 32), by simp⟩
theorem andi (d : SReg) (a : SReg) (imm : Int) : Statement (.andi d a imm) := by
  rintro c ⟨⟩
  exact ⟨(by decide : 0x01 < 256), (by decide : 14 < 15), Nat.lt_of_lt_of_le d.isLt (by decide), Nat.lt_of_lt_of_le a.isLt (by decide), immBase_four imm, (by decide : 0 < 32), immWords_lt _ _ _⟩
theorem ori (d : SReg) (a : SReg) (imm : Int) : Statement (.ori d a imm) := by
  rintro c ⟨⟩
  exact ⟨(by decide : 0x02 < 256), (by decide : 0 < 15), Nat.lt_of_lt_of_le d.isLt (by decide), Nat.lt_of_lt_of_le a.isLt (by decide), immBase_four imm, (by decide : 0 < 32), immWords_lt _ _ _⟩
theorem xori (d : SReg) (a : SReg) (imm : Int) : Statement (.xori d a imm) := by
  rintro c ⟨⟩
  exact ⟨(by decide : 0x02 < 256), (by decide : 1 < 15), Nat.lt_of_lt_of_le d.isLt (by decide), Nat.lt_of_lt_of_le a.isLt (by decide), immBase_four imm, (by decide : 0 < 32), immWords_lt _ _ _⟩
theorem min (d : SReg) (a : SReg) (b : SReg) : Statement (.min d a b) := by
  rintro c ⟨⟩
  exact ⟨(by decide : 0x02 < 256), (by decide : 2 < 15), Nat.lt_of_lt_of_le d.isLt (by decide), Nat.lt_of_lt_of_le a.isLt (by decide), Nat.lt_of_lt_of_le b.isLt (by decide), (by decide : 0 < 32), by simp⟩
theorem max (d : SReg) (a : SReg) (b : SReg) : Statement (.max d a b) := by
  rintro c ⟨⟩
  exact ⟨(by decide : 0x02 < 256), (by decide : 3 < 15), Nat.lt_of_lt_of_le d.isLt (by decide), Nat.lt_of_lt_of_le a.isLt (by decide), Nat.lt_of_lt_of_le b.isLt (by decide), (by decide : 0 < 32), by simp⟩
theorem minn (d : SReg) (a : SReg) (b : SReg) : Statement (.minn d a b) := by
  rintro c ⟨⟩
  exact ⟨(by decide : 0x02 < 256), (by decide : 4 < 15), Nat.lt_of_lt_of_le d.isLt (by decide), Nat.lt_of_lt_of_le a.isLt (by decide), Nat.lt_of_lt_of_le b.isLt (by decide), (by decide : 0 < 32), by simp⟩
theorem maxn (d : SReg) (a : SReg) (b : SReg) : Statement (.maxn d a b) := by
  rintro c ⟨⟩
  exact ⟨(by decide : 0x02 < 256), (by decide : 5 < 15), Nat.lt_of_lt_of_le d.isLt (by decide), Nat.lt_of_lt_of_le a.isLt (by decide), Nat.lt_of_lt_of_le b.isLt (by decide), (by decide : 0 < 32), by simp⟩
theorem clz (d : SReg) (a : SReg) : Statement (.clz d a) := by
  rintro c ⟨⟩
  exact ⟨(by decide : 0x02 < 256), (by decide : 6 < 15), Nat.lt_of_lt_of_le d.isLt (by decide), Nat.lt_of_lt_of_le a.isLt (by decide), (by decide : 0 < 32), (by decide : 0 < 32), by simp⟩
theorem ctz (d : SReg) (a : SReg) : Statement (.ctz d a) := by
  rintro c ⟨⟩
  exact ⟨(by decide : 0x02 < 256), (by decide : 7 < 15), Nat.lt_of_lt_of_le d.isLt (by decide), Nat.lt_of_lt_of_le a.isLt (by decide), (by decide : 0 < 32), (by decide : 0 < 32), by simp⟩
theorem popc (d : SReg) (a : SReg) : Statement (.popc d a) := by
  rintro c ⟨⟩
  exact ⟨(by decide : 0x02 < 256), (by decide : 8 < 15), Nat.lt_of_lt_of_le d.isLt (by decide), Nat.lt_of_lt_of_le a.isLt (by decide), (by decide : 0 < 32), (by decide : 0 < 32), by simp⟩
theorem sext (d : SReg) (a : SReg) (w : Fin 3) : Statement (.sext d a w) := by
  rintro c ⟨⟩
  exact ⟨(by decide : 0x02 < 256), (by decide : 9 < 15), Nat.lt_of_lt_of_le d.isLt (by decide), Nat.lt_of_lt_of_le a.isLt (by decide), Nat.lt_of_lt_of_le w.isLt (by decide), (by decide : 0 < 32), by simp⟩
theorem zext (d : SReg) (a : SReg) (w : Fin 3) : Statement (.zext d a w) := by
  rintro c ⟨⟩
  exact ⟨(by decide : 0x02 < 256), (by decide : 10 < 15), Nat.lt_of_lt_of_le d.isLt (by decide), Nat.lt_of_lt_of_le a.isLt (by decide), Nat.lt_of_lt_of_le w.isLt (by decide), (by decide : 0 < 32), by simp⟩
theorem lih (d : SReg) (a : SReg) (imm : Nat) : Statement (.lih d a imm) := by
  rintro c ⟨⟩
  exact ⟨(by decide : 0x02 < 256), (by decide : 11 < 15), Nat.lt_of_lt_of_le d.isLt (by decide), Nat.lt_of_lt_of_le a.isLt (by decide), immBase_four imm, (by decide : 0 < 32), immWords_lt _ _ _⟩
theorem addpc (d : SReg) (off : Int) : Statement (.addpc d off) := by
  rintro c ⟨⟩
  exact ⟨(by decide : 0x02 < 256), (by decide : 12 < 15), Nat.lt_of_lt_of_le d.isLt (by decide), by have := immBase_eight off; simp only; omega, by simp only; omega, (by decide : 0 < 32), immWords_lt _ _ _⟩
theorem addsl (d : SReg) (a : SReg) (b : SReg) (c : Fin 32) : Statement (.addsl d a b c) := by
  rintro c ⟨⟩
  exact ⟨(by decide : 0x02 < 256), (by decide : 13 < 15), Nat.lt_of_lt_of_le d.isLt (by decide), Nat.lt_of_lt_of_le a.isLt (by decide), Nat.lt_of_lt_of_le b.isLt (by decide), Nat.lt_of_lt_of_le c.isLt (by decide), by simp⟩
theorem select (d : SReg) (a : SReg) (b : SReg) (c : SReg) : Statement (.select d a b c) := by
  rintro c ⟨⟩
  exact ⟨(by decide : 0x02 < 256), (by decide : 14 < 15), Nat.lt_of_lt_of_le d.isLt (by decide), Nat.lt_of_lt_of_le a.isLt (by decide), Nat.lt_of_lt_of_le b.isLt (by decide), Nat.lt_of_lt_of_le c.isLt (by decide), by simp⟩
theorem beq (d : SReg) (a : SReg) (off : Int) : Statement (.beq d a off) := by
  rintro c ⟨⟩
  exact ⟨(by decide : 0x03 < 256), (by decide : 0 < 15), Nat.lt_of_lt_of_le d.isLt (by decide), Nat.lt_of_lt_of_le a.isLt (by decide), immBase_four off, (by decide : 0 < 32), immWords_lt _ _ _⟩
theorem bne (d : SReg) (a : SReg) (off : Int) : Statement (.bne d a off) := by
  rintro c ⟨⟩
  exact ⟨(by decide : 0x03 < 256), (by decide : 1 < 15), Nat.lt_of_lt_of_le d.isLt (by decide), Nat.lt_of_lt_of_le a.isLt (by decide), immBase_four off, (by decide : 0 < 32), immWords_lt _ _ _⟩
theorem blt (d : SReg) (a : SReg) (off : Int) : Statement (.blt d a off) := by
  rintro c ⟨⟩
  exact ⟨(by decide : 0x03 < 256), (by decide : 2 < 15), Nat.lt_of_lt_of_le d.isLt (by decide), Nat.lt_of_lt_of_le a.isLt (by decide), immBase_four off, (by decide : 0 < 32), immWords_lt _ _ _⟩
theorem bge (d : SReg) (a : SReg) (off : Int) : Statement (.bge d a off) := by
  rintro c ⟨⟩
  exact ⟨(by decide : 0x03 < 256), (by decide : 3 < 15), Nat.lt_of_lt_of_le d.isLt (by decide), Nat.lt_of_lt_of_le a.isLt (by decide), immBase_four off, (by decide : 0 < 32), immWords_lt _ _ _⟩
theorem bltn (d : SReg) (a : SReg) (off : Int) : Statement (.bltn d a off) := by
  rintro c ⟨⟩
  exact ⟨(by decide : 0x03 < 256), (by decide : 4 < 15), Nat.lt_of_lt_of_le d.isLt (by decide), Nat.lt_of_lt_of_le a.isLt (by decide), immBase_four off, (by decide : 0 < 32), immWords_lt _ _ _⟩
theorem bgen (d : SReg) (a : SReg) (off : Int) : Statement (.bgen d a off) := by
  rintro c ⟨⟩
  exact ⟨(by decide : 0x03 < 256), (by decide : 5 < 15), Nat.lt_of_lt_of_le d.isLt (by decide), Nat.lt_of_lt_of_le a.isLt (by decide), immBase_four off, (by decide : 0 < 32), immWords_lt _ _ _⟩
theorem loopsm (rc : SReg) (p : SReg) (np : Fin 4) (off : Int) : Statement (.loopsm rc p np off) := by
  rintro c ⟨⟩
  exact ⟨(by decide : 0x03 < 256), (by decide : 6 < 15), Nat.lt_of_lt_of_le rc.isLt (by decide), Nat.lt_of_lt_of_le p.isLt (by decide), Nat.lt_of_lt_of_le np.isLt (by decide), (by decide : 0 < 32), immWords_lt _ _ _⟩
theorem get (d : SReg) (idx : Byte) : Statement (.get d idx) := by
  rintro c ⟨⟩
  exact ⟨(by decide : 0x03 < 256), (by decide : 7 < 15), Nat.lt_of_lt_of_le d.isLt (by decide), by simp only; omega, by simp only; omega, (by decide : 0 < 32), by simp⟩
theorem set (a : SReg) (idx : Byte) : Statement (.set a idx) := by
  rintro c ⟨⟩
  exact ⟨(by decide : 0x03 < 256), (by decide : 8 < 15), Nat.lt_of_lt_of_le a.isLt (by decide), by simp only; omega, by simp only; omega, (by decide : 0 < 32), by simp⟩
theorem time (d : SReg) : Statement (.time d) := by
  rintro c ⟨⟩
  exact ⟨(by decide : 0x03 < 256), (by decide : 9 < 15), Nat.lt_of_lt_of_le d.isLt (by decide), (by decide : 0 < 32), (by decide : 0 < 32), (by decide : 0 < 32), by simp⟩
theorem rdcnt (d : SReg) (sel : Fin 7) : Statement (.rdcnt d sel) := by
  rintro c ⟨⟩
  exact ⟨(by decide : 0x03 < 256), (by decide : 10 < 15), Nat.lt_of_lt_of_le d.isLt (by decide), (by decide : 0 < 32), Nat.lt_of_lt_of_le sel.isLt (by decide), (by decide : 0 < 32), by simp⟩
theorem waitc (ld : Fin 16) (st : Fin 16) (cp : Fin 16) (mx : Fin 16) (en : Fin 16) : Statement (.waitc ld st cp mx en) := by
  rintro c ⟨⟩
  exact ⟨(by decide : 0x03 < 256), (by decide : 11 < 15), Nat.lt_of_lt_of_le ld.isLt (by decide), Nat.lt_of_lt_of_le st.isLt (by decide), Nat.lt_of_lt_of_le cp.isLt (by decide), (by decide : 0 < 32), waitWords_lt mx en⟩
theorem vadd (vd : VReg) (va : VReg) (vb : VReg) (q : Qual) : Statement (.vadd vd va vb q) := by
  rintro c ⟨⟩
  exact ⟨(by decide : 0x10 < 256), (by decide : 0 < 15), Nat.lt_of_lt_of_le vd.isLt (by decide), Nat.lt_of_lt_of_le va.isLt (by decide), Nat.lt_of_lt_of_le vb.isLt (by decide), (by decide : 0 < 32), by simp⟩
theorem vsub (vd : VReg) (va : VReg) (vb : VReg) (q : Qual) : Statement (.vsub vd va vb q) := by
  rintro c ⟨⟩
  exact ⟨(by decide : 0x10 < 256), (by decide : 1 < 15), Nat.lt_of_lt_of_le vd.isLt (by decide), Nat.lt_of_lt_of_le va.isLt (by decide), Nat.lt_of_lt_of_le vb.isLt (by decide), (by decide : 0 < 32), by simp⟩
theorem vmul (vd : VReg) (va : VReg) (vb : VReg) (q : Qual) : Statement (.vmul vd va vb q) := by
  rintro c ⟨⟩
  exact ⟨(by decide : 0x10 < 256), (by decide : 2 < 15), Nat.lt_of_lt_of_le vd.isLt (by decide), Nat.lt_of_lt_of_le va.isLt (by decide), Nat.lt_of_lt_of_le vb.isLt (by decide), (by decide : 0 < 32), by simp⟩
theorem vmac (vd : VReg) (va : VReg) (vb : VReg) (q : Qual) : Statement (.vmac vd va vb q) := by
  rintro c ⟨⟩
  exact ⟨(by decide : 0x10 < 256), (by decide : 3 < 15), Nat.lt_of_lt_of_le vd.isLt (by decide), Nat.lt_of_lt_of_le va.isLt (by decide), Nat.lt_of_lt_of_le vb.isLt (by decide), (by decide : 0 < 32), by simp⟩
theorem vmin (vd : VReg) (va : VReg) (vb : VReg) (q : Qual) : Statement (.vmin vd va vb q) := by
  rintro c ⟨⟩
  exact ⟨(by decide : 0x10 < 256), (by decide : 4 < 15), Nat.lt_of_lt_of_le vd.isLt (by decide), Nat.lt_of_lt_of_le va.isLt (by decide), Nat.lt_of_lt_of_le vb.isLt (by decide), (by decide : 0 < 32), by simp⟩
theorem vmax (vd : VReg) (va : VReg) (vb : VReg) (q : Qual) : Statement (.vmax vd va vb q) := by
  rintro c ⟨⟩
  exact ⟨(by decide : 0x10 < 256), (by decide : 5 < 15), Nat.lt_of_lt_of_le vd.isLt (by decide), Nat.lt_of_lt_of_le va.isLt (by decide), Nat.lt_of_lt_of_le vb.isLt (by decide), (by decide : 0 < 32), by simp⟩
theorem vminn (vd : VReg) (va : VReg) (vb : VReg) (q : Qual) : Statement (.vminn vd va vb q) := by
  rintro c ⟨⟩
  exact ⟨(by decide : 0x10 < 256), (by decide : 6 < 15), Nat.lt_of_lt_of_le vd.isLt (by decide), Nat.lt_of_lt_of_le va.isLt (by decide), Nat.lt_of_lt_of_le vb.isLt (by decide), (by decide : 0 < 32), by simp⟩
theorem vmaxn (vd : VReg) (va : VReg) (vb : VReg) (q : Qual) : Statement (.vmaxn vd va vb q) := by
  rintro c ⟨⟩
  exact ⟨(by decide : 0x10 < 256), (by decide : 7 < 15), Nat.lt_of_lt_of_le vd.isLt (by decide), Nat.lt_of_lt_of_le va.isLt (by decide), Nat.lt_of_lt_of_le vb.isLt (by decide), (by decide : 0 < 32), by simp⟩
theorem vand (vd : VReg) (va : VReg) (vb : VReg) (q : Qual) : Statement (.vand vd va vb q) := by
  rintro c ⟨⟩
  exact ⟨(by decide : 0x10 < 256), (by decide : 8 < 15), Nat.lt_of_lt_of_le vd.isLt (by decide), Nat.lt_of_lt_of_le va.isLt (by decide), Nat.lt_of_lt_of_le vb.isLt (by decide), (by decide : 0 < 32), by simp⟩
theorem vor (vd : VReg) (va : VReg) (vb : VReg) (q : Qual) : Statement (.vor vd va vb q) := by
  rintro c ⟨⟩
  exact ⟨(by decide : 0x10 < 256), (by decide : 9 < 15), Nat.lt_of_lt_of_le vd.isLt (by decide), Nat.lt_of_lt_of_le va.isLt (by decide), Nat.lt_of_lt_of_le vb.isLt (by decide), (by decide : 0 < 32), by simp⟩
theorem vxor (vd : VReg) (va : VReg) (vb : VReg) (q : Qual) : Statement (.vxor vd va vb q) := by
  rintro c ⟨⟩
  exact ⟨(by decide : 0x10 < 256), (by decide : 10 < 15), Nat.lt_of_lt_of_le vd.isLt (by decide), Nat.lt_of_lt_of_le va.isLt (by decide), Nat.lt_of_lt_of_le vb.isLt (by decide), (by decide : 0 < 32), by simp⟩
theorem vsll (vd : VReg) (va : VReg) (vb : VReg) (q : Qual) : Statement (.vsll vd va vb q) := by
  rintro c ⟨⟩
  exact ⟨(by decide : 0x10 < 256), (by decide : 11 < 15), Nat.lt_of_lt_of_le vd.isLt (by decide), Nat.lt_of_lt_of_le va.isLt (by decide), Nat.lt_of_lt_of_le vb.isLt (by decide), (by decide : 0 < 32), by simp⟩
theorem vsrl (vd : VReg) (va : VReg) (vb : VReg) (q : Qual) : Statement (.vsrl vd va vb q) := by
  rintro c ⟨⟩
  exact ⟨(by decide : 0x10 < 256), (by decide : 12 < 15), Nat.lt_of_lt_of_le vd.isLt (by decide), Nat.lt_of_lt_of_le va.isLt (by decide), Nat.lt_of_lt_of_le vb.isLt (by decide), (by decide : 0 < 32), by simp⟩
theorem vsra (vd : VReg) (va : VReg) (vb : VReg) (q : Qual) : Statement (.vsra vd va vb q) := by
  rintro c ⟨⟩
  exact ⟨(by decide : 0x10 < 256), (by decide : 13 < 15), Nat.lt_of_lt_of_le vd.isLt (by decide), Nat.lt_of_lt_of_le va.isLt (by decide), Nat.lt_of_lt_of_le vb.isLt (by decide), (by decide : 0 < 32), by simp⟩
theorem vdiv (vd : VReg) (va : VReg) (vb : VReg) (q : Qual) : Statement (.vdiv vd va vb q) := by
  rintro c ⟨⟩
  exact ⟨(by decide : 0x10 < 256), (by decide : 14 < 15), Nat.lt_of_lt_of_le vd.isLt (by decide), Nat.lt_of_lt_of_le va.isLt (by decide), Nat.lt_of_lt_of_le vb.isLt (by decide), (by decide : 0 < 32), by simp⟩
theorem vdivn (vd : VReg) (va : VReg) (vb : VReg) (q : Qual) : Statement (.vdivn vd va vb q) := by
  rintro c ⟨⟩
  exact ⟨(by decide : 0x11 < 256), (by decide : 0 < 15), Nat.lt_of_lt_of_le vd.isLt (by decide), Nat.lt_of_lt_of_le va.isLt (by decide), Nat.lt_of_lt_of_le vb.isLt (by decide), (by decide : 0 < 32), by simp⟩
theorem vrem (vd : VReg) (va : VReg) (vb : VReg) (q : Qual) : Statement (.vrem vd va vb q) := by
  rintro c ⟨⟩
  exact ⟨(by decide : 0x11 < 256), (by decide : 1 < 15), Nat.lt_of_lt_of_le vd.isLt (by decide), Nat.lt_of_lt_of_le va.isLt (by decide), Nat.lt_of_lt_of_le vb.isLt (by decide), (by decide : 0 < 32), by simp⟩
theorem vremn (vd : VReg) (va : VReg) (vb : VReg) (q : Qual) : Statement (.vremn vd va vb q) := by
  rintro c ⟨⟩
  exact ⟨(by decide : 0x11 < 256), (by decide : 2 < 15), Nat.lt_of_lt_of_le vd.isLt (by decide), Nat.lt_of_lt_of_le va.isLt (by decide), Nat.lt_of_lt_of_le vb.isLt (by decide), (by decide : 0 < 32), by simp⟩
theorem vadds (vd : VReg) (va : VReg) (vb : VReg) (q : Qual) : Statement (.vadds vd va vb q) := by
  rintro c ⟨⟩
  exact ⟨(by decide : 0x11 < 256), (by decide : 3 < 15), Nat.lt_of_lt_of_le vd.isLt (by decide), Nat.lt_of_lt_of_le va.isLt (by decide), Nat.lt_of_lt_of_le vb.isLt (by decide), (by decide : 0 < 32), by simp⟩
theorem vsubs (vd : VReg) (va : VReg) (vb : VReg) (q : Qual) : Statement (.vsubs vd va vb q) := by
  rintro c ⟨⟩
  exact ⟨(by decide : 0x11 < 256), (by decide : 4 < 15), Nat.lt_of_lt_of_le vd.isLt (by decide), Nat.lt_of_lt_of_le va.isLt (by decide), Nat.lt_of_lt_of_le vb.isLt (by decide), (by decide : 0 < 32), by simp⟩
theorem vmulhq (vd : VReg) (va : VReg) (vb : VReg) (q : Qual) : Statement (.vmulhq vd va vb q) := by
  rintro c ⟨⟩
  exact ⟨(by decide : 0x11 < 256), (by decide : 5 < 15), Nat.lt_of_lt_of_le vd.isLt (by decide), Nat.lt_of_lt_of_le va.isLt (by decide), Nat.lt_of_lt_of_le vb.isLt (by decide), (by decide : 0 < 32), by simp⟩
theorem vabs (vd : VReg) (va : VReg) (q : Qual) : Statement (.vabs vd va q) := by
  rintro c ⟨⟩
  exact ⟨(by decide : 0x11 < 256), (by decide : 6 < 15), Nat.lt_of_lt_of_le vd.isLt (by decide), Nat.lt_of_lt_of_le va.isLt (by decide), (by decide : 0 < 32), (by decide : 0 < 32), by simp⟩
theorem vneg (vd : VReg) (va : VReg) (q : Qual) : Statement (.vneg vd va q) := by
  rintro c ⟨⟩
  exact ⟨(by decide : 0x11 < 256), (by decide : 7 < 15), Nat.lt_of_lt_of_le vd.isLt (by decide), Nat.lt_of_lt_of_le va.isLt (by decide), (by decide : 0 < 32), (by decide : 0 < 32), by simp⟩
theorem vrcp (vd : VReg) (va : VReg) (q : Qual) : Statement (.vrcp vd va q) := by
  rintro c ⟨⟩
  exact ⟨(by decide : 0x11 < 256), (by decide : 8 < 15), Nat.lt_of_lt_of_le vd.isLt (by decide), Nat.lt_of_lt_of_le va.isLt (by decide), (by decide : 0 < 32), (by decide : 0 < 32), by simp⟩
theorem vrsqrt (vd : VReg) (va : VReg) (q : Qual) : Statement (.vrsqrt vd va q) := by
  rintro c ⟨⟩
  exact ⟨(by decide : 0x11 < 256), (by decide : 9 < 15), Nat.lt_of_lt_of_le vd.isLt (by decide), Nat.lt_of_lt_of_le va.isLt (by decide), (by decide : 0 < 32), (by decide : 0 < 32), by simp⟩
theorem vexp2 (vd : VReg) (va : VReg) (q : Qual) : Statement (.vexp2 vd va q) := by
  rintro c ⟨⟩
  exact ⟨(by decide : 0x11 < 256), (by decide : 10 < 15), Nat.lt_of_lt_of_le vd.isLt (by decide), Nat.lt_of_lt_of_le va.isLt (by decide), (by decide : 0 < 32), (by decide : 0 < 32), by simp⟩
theorem vlog2 (vd : VReg) (va : VReg) (q : Qual) : Statement (.vlog2 vd va q) := by
  rintro c ⟨⟩
  exact ⟨(by decide : 0x11 < 256), (by decide : 11 < 15), Nat.lt_of_lt_of_le vd.isLt (by decide), Nat.lt_of_lt_of_le va.isLt (by decide), (by decide : 0 < 32), (by decide : 0 < 32), by simp⟩
theorem vsqrt (vd : VReg) (va : VReg) (q : Qual) : Statement (.vsqrt vd va q) := by
  rintro c ⟨⟩
  exact ⟨(by decide : 0x11 < 256), (by decide : 12 < 15), Nat.lt_of_lt_of_le vd.isLt (by decide), Nat.lt_of_lt_of_le va.isLt (by decide), (by decide : 0 < 32), (by decide : 0 < 32), by simp⟩
theorem vclass (vd : VReg) (va : VReg) (q : Qual) : Statement (.vclass vd va q) := by
  rintro c ⟨⟩
  exact ⟨(by decide : 0x11 < 256), (by decide : 13 < 15), Nat.lt_of_lt_of_le vd.isLt (by decide), Nat.lt_of_lt_of_le va.isLt (by decide), (by decide : 0 < 32), (by decide : 0 < 32), by simp⟩
theorem vscale (vd : VReg) (va : VReg) (vb : VReg) (q : Qual) : Statement (.vscale vd va vb q) := by
  rintro c ⟨⟩
  exact ⟨(by decide : 0x11 < 256), (by decide : 14 < 15), Nat.lt_of_lt_of_le vd.isLt (by decide), Nat.lt_of_lt_of_le va.isLt (by decide), Nat.lt_of_lt_of_le vb.isLt (by decide), (by decide : 0 < 32), by simp⟩
theorem vceq (md : MReg) (va : VReg) (vb : VReg) (q : Qual) : Statement (.vceq md va vb q) := by
  rintro c ⟨⟩
  exact ⟨(by decide : 0x12 < 256), (by decide : 0 < 15), Nat.lt_of_lt_of_le md.isLt (by decide), Nat.lt_of_lt_of_le va.isLt (by decide), Nat.lt_of_lt_of_le vb.isLt (by decide), (by decide : 0 < 32), by simp⟩
theorem vcne (md : MReg) (va : VReg) (vb : VReg) (q : Qual) : Statement (.vcne md va vb q) := by
  rintro c ⟨⟩
  exact ⟨(by decide : 0x12 < 256), (by decide : 1 < 15), Nat.lt_of_lt_of_le md.isLt (by decide), Nat.lt_of_lt_of_le va.isLt (by decide), Nat.lt_of_lt_of_le vb.isLt (by decide), (by decide : 0 < 32), by simp⟩
theorem vclt (md : MReg) (va : VReg) (vb : VReg) (q : Qual) : Statement (.vclt md va vb q) := by
  rintro c ⟨⟩
  exact ⟨(by decide : 0x12 < 256), (by decide : 2 < 15), Nat.lt_of_lt_of_le md.isLt (by decide), Nat.lt_of_lt_of_le va.isLt (by decide), Nat.lt_of_lt_of_le vb.isLt (by decide), (by decide : 0 < 32), by simp⟩
theorem vcle (md : MReg) (va : VReg) (vb : VReg) (q : Qual) : Statement (.vcle md va vb q) := by
  rintro c ⟨⟩
  exact ⟨(by decide : 0x12 < 256), (by decide : 3 < 15), Nat.lt_of_lt_of_le md.isLt (by decide), Nat.lt_of_lt_of_le va.isLt (by decide), Nat.lt_of_lt_of_le vb.isLt (by decide), (by decide : 0 < 32), by simp⟩
theorem vcltn (md : MReg) (va : VReg) (vb : VReg) (q : Qual) : Statement (.vcltn md va vb q) := by
  rintro c ⟨⟩
  exact ⟨(by decide : 0x12 < 256), (by decide : 4 < 15), Nat.lt_of_lt_of_le md.isLt (by decide), Nat.lt_of_lt_of_le va.isLt (by decide), Nat.lt_of_lt_of_le vb.isLt (by decide), (by decide : 0 < 32), by simp⟩
theorem vclen (md : MReg) (va : VReg) (vb : VReg) (q : Qual) : Statement (.vclen md va vb q) := by
  rintro c ⟨⟩
  exact ⟨(by decide : 0x12 < 256), (by decide : 5 < 15), Nat.lt_of_lt_of_le md.isLt (by decide), Nat.lt_of_lt_of_le va.isLt (by decide), Nat.lt_of_lt_of_le vb.isLt (by decide), (by decide : 0 < 32), by simp⟩
theorem vceqi (md : MReg) (va : VReg) (imm : Int) (q : Qual) : Statement (.vceqi md va imm q) := by
  rintro c ⟨⟩
  exact ⟨(by decide : 0x12 < 256), (by decide : 6 < 15), Nat.lt_of_lt_of_le md.isLt (by decide), Nat.lt_of_lt_of_le va.isLt (by decide), immBase_four imm, (by decide : 0 < 32), immWords_lt _ _ _⟩
theorem vclti (md : MReg) (va : VReg) (imm : Int) (q : Qual) : Statement (.vclti md va imm q) := by
  rintro c ⟨⟩
  exact ⟨(by decide : 0x12 < 256), (by decide : 7 < 15), Nat.lt_of_lt_of_le md.isLt (by decide), Nat.lt_of_lt_of_le va.isLt (by decide), immBase_four imm, (by decide : 0 < 32), immWords_lt _ _ _⟩
theorem mand (md : MReg) (ma : MReg) (mb : MReg) : Statement (.mand md ma mb) := by
  rintro c ⟨⟩
  exact ⟨(by decide : 0x12 < 256), (by decide : 8 < 15), Nat.lt_of_lt_of_le md.isLt (by decide), Nat.lt_of_lt_of_le ma.isLt (by decide), Nat.lt_of_lt_of_le mb.isLt (by decide), (by decide : 0 < 32), by simp⟩
theorem mor (md : MReg) (ma : MReg) (mb : MReg) : Statement (.mor md ma mb) := by
  rintro c ⟨⟩
  exact ⟨(by decide : 0x12 < 256), (by decide : 9 < 15), Nat.lt_of_lt_of_le md.isLt (by decide), Nat.lt_of_lt_of_le ma.isLt (by decide), Nat.lt_of_lt_of_le mb.isLt (by decide), (by decide : 0 < 32), by simp⟩
theorem mxor (md : MReg) (ma : MReg) (mb : MReg) : Statement (.mxor md ma mb) := by
  rintro c ⟨⟩
  exact ⟨(by decide : 0x12 < 256), (by decide : 10 < 15), Nat.lt_of_lt_of_le md.isLt (by decide), Nat.lt_of_lt_of_le ma.isLt (by decide), Nat.lt_of_lt_of_le mb.isLt (by decide), (by decide : 0 < 32), by simp⟩
theorem mnot (md : MReg) (ma : MReg) : Statement (.mnot md ma) := by
  rintro c ⟨⟩
  exact ⟨(by decide : 0x12 < 256), (by decide : 11 < 15), Nat.lt_of_lt_of_le md.isLt (by decide), Nat.lt_of_lt_of_le ma.isLt (by decide), (by decide : 0 < 32), (by decide : 0 < 32), by simp⟩
theorem mcnt (d : SReg) (ma : MReg) : Statement (.mcnt d ma) := by
  rintro c ⟨⟩
  exact ⟨(by decide : 0x12 < 256), (by decide : 12 < 15), Nat.lt_of_lt_of_le d.isLt (by decide), Nat.lt_of_lt_of_le ma.isLt (by decide), (by decide : 0 < 32), (by decide : 0 < 32), by simp⟩
theorem many (d : SReg) (ma : MReg) : Statement (.many d ma) := by
  rintro c ⟨⟩
  exact ⟨(by decide : 0x12 < 256), (by decide : 13 < 15), Nat.lt_of_lt_of_le d.isLt (by decide), Nat.lt_of_lt_of_le ma.isLt (by decide), (by decide : 0 < 32), (by decide : 0 < 32), by simp⟩
theorem mfirst (d : SReg) (ma : MReg) : Statement (.mfirst d ma) := by
  rintro c ⟨⟩
  exact ⟨(by decide : 0x12 < 256), (by decide : 14 < 15), Nat.lt_of_lt_of_le d.isLt (by decide), Nat.lt_of_lt_of_le ma.isLt (by decide), (by decide : 0 < 32), (by decide : 0 < 32), by simp⟩
theorem vmv (vd : VReg) (va : VReg) (q : Qual) : Statement (.vmv vd va q) := by
  rintro c ⟨⟩
  exact ⟨(by decide : 0x13 < 256), (by decide : 0 < 15), Nat.lt_of_lt_of_le vd.isLt (by decide), Nat.lt_of_lt_of_le va.isLt (by decide), (by decide : 0 < 32), (by decide : 0 < 32), by simp⟩
theorem vsplat (vd : VReg) (a : SReg) (q : Qual) : Statement (.vsplat vd a q) := by
  rintro c ⟨⟩
  exact ⟨(by decide : 0x13 < 256), (by decide : 1 < 15), Nat.lt_of_lt_of_le vd.isLt (by decide), Nat.lt_of_lt_of_le a.isLt (by decide), (by decide : 0 < 32), (by decide : 0 < 32), by simp⟩
theorem vext (d : SReg) (va : VReg) (b : SReg) (fo : Option Fmt) : Statement (.vext d va b fo) := by
  rintro c ⟨⟩
  exact ⟨(by decide : 0x13 < 256), (by decide : 2 < 15), Nat.lt_of_lt_of_le d.isLt (by decide), Nat.lt_of_lt_of_le va.isLt (by decide), Nat.lt_of_lt_of_le b.isLt (by decide), (by decide : 0 < 32), by simp⟩
theorem vins (vd : VReg) (a : SReg) (b : SReg) (fo : Option Fmt) : Statement (.vins vd a b fo) := by
  rintro c ⟨⟩
  exact ⟨(by decide : 0x13 < 256), (by decide : 3 < 15), Nat.lt_of_lt_of_le vd.isLt (by decide), Nat.lt_of_lt_of_le a.isLt (by decide), Nat.lt_of_lt_of_le b.isLt (by decide), (by decide : 0 < 32), by simp⟩
theorem vslideup (vd : VReg) (va : VReg) (b : SReg) (q : Qual) : Statement (.vslideup vd va b q) := by
  rintro c ⟨⟩
  exact ⟨(by decide : 0x13 < 256), (by decide : 4 < 15), Nat.lt_of_lt_of_le vd.isLt (by decide), Nat.lt_of_lt_of_le va.isLt (by decide), Nat.lt_of_lt_of_le b.isLt (by decide), (by decide : 0 < 32), by simp⟩
theorem vslidedn (vd : VReg) (va : VReg) (b : SReg) (q : Qual) : Statement (.vslidedn vd va b q) := by
  rintro c ⟨⟩
  exact ⟨(by decide : 0x13 < 256), (by decide : 5 < 15), Nat.lt_of_lt_of_le vd.isLt (by decide), Nat.lt_of_lt_of_le va.isLt (by decide), Nat.lt_of_lt_of_le b.isLt (by decide), (by decide : 0 < 32), by simp⟩
theorem vperm (vd : VReg) (va : VReg) (vb : VReg) (q : Qual) : Statement (.vperm vd va vb q) := by
  rintro c ⟨⟩
  exact ⟨(by decide : 0x13 < 256), (by decide : 6 < 15), Nat.lt_of_lt_of_le vd.isLt (by decide), Nat.lt_of_lt_of_le va.isLt (by decide), Nat.lt_of_lt_of_le vb.isLt (by decide), (by decide : 0 < 32), by simp⟩
theorem vcompress (vd : VReg) (va : VReg) (q : Qual) : Statement (.vcompress vd va q) := by
  rintro c ⟨⟩
  exact ⟨(by decide : 0x13 < 256), (by decide : 7 < 15), Nat.lt_of_lt_of_le vd.isLt (by decide), Nat.lt_of_lt_of_le va.isLt (by decide), (by decide : 0 < 32), (by decide : 0 < 32), by simp⟩
theorem vexpand (vd : VReg) (va : VReg) (q : Qual) : Statement (.vexpand vd va q) := by
  rintro c ⟨⟩
  exact ⟨(by decide : 0x13 < 256), (by decide : 8 < 15), Nat.lt_of_lt_of_le vd.isLt (by decide), Nat.lt_of_lt_of_le va.isLt (by decide), (by decide : 0 < 32), (by decide : 0 < 32), by simp⟩
theorem viota (vd : VReg) (q : Qual) : Statement (.viota vd q) := by
  rintro c ⟨⟩
  exact ⟨(by decide : 0x13 < 256), (by decide : 9 < 15), Nat.lt_of_lt_of_le vd.isLt (by decide), (by decide : 0 < 32), (by decide : 0 < 32), (by decide : 0 < 32), by simp⟩
theorem vid (vd : VReg) (q : Qual) : Statement (.vid vd q) := by
  rintro c ⟨⟩
  exact ⟨(by decide : 0x13 < 256), (by decide : 10 < 15), Nat.lt_of_lt_of_le vd.isLt (by decide), (by decide : 0 < 32), (by decide : 0 < 32), (by decide : 0 < 32), by simp⟩
theorem vmerge (vd : VReg) (va : VReg) (vb : VReg) (q : Qual) : Statement (.vmerge vd va vb q) := by
  rintro c ⟨⟩
  exact ⟨(by decide : 0x13 < 256), (by decide : 11 < 15), Nat.lt_of_lt_of_le vd.isLt (by decide), Nat.lt_of_lt_of_le va.isLt (by decide), Nat.lt_of_lt_of_le vb.isLt (by decide), (by decide : 0 < 32), by simp⟩
theorem vredsum (vd : VReg) (va : VReg) (q : Qual) : Statement (.vredsum vd va q) := by
  rintro c ⟨⟩
  exact ⟨(by decide : 0x13 < 256), (by decide : 12 < 15), Nat.lt_of_lt_of_le vd.isLt (by decide), Nat.lt_of_lt_of_le va.isLt (by decide), (by decide : 0 < 32), (by decide : 0 < 32), by simp⟩
theorem vredmax (vd : VReg) (va : VReg) (q : Qual) : Statement (.vredmax vd va q) := by
  rintro c ⟨⟩
  exact ⟨(by decide : 0x13 < 256), (by decide : 13 < 15), Nat.lt_of_lt_of_le vd.isLt (by decide), Nat.lt_of_lt_of_le va.isLt (by decide), (by decide : 0 < 32), (by decide : 0 < 32), by simp⟩
theorem vredmin (vd : VReg) (va : VReg) (q : Qual) : Statement (.vredmin vd va q) := by
  rintro c ⟨⟩
  exact ⟨(by decide : 0x13 < 256), (by decide : 14 < 15), Nat.lt_of_lt_of_le vd.isLt (by decide), Nat.lt_of_lt_of_le va.isLt (by decide), (by decide : 0 < 32), (by decide : 0 < 32), by simp⟩
theorem vcvt (vd : VReg) (va : VReg) (tf : Fmt) (q : Qual) : Statement (.vcvt vd va tf q) := by
  rintro c ⟨⟩
  exact ⟨(by decide : 0x14 < 256), (by decide : 0 < 15), Nat.lt_of_lt_of_le vd.isLt (by decide), Nat.lt_of_lt_of_le va.isLt (by decide), Nat.lt_trans (fmt_code_lt _) (by decide), (by decide : 0 < 32), by simp⟩
theorem vqscale (vd : VReg) (va : VReg) (g : Fin 16) (sf : Fmt) (q : Qual) : Statement (.vqscale vd va g sf q) := by
  rintro c ⟨⟩
  exact ⟨(by decide : 0x14 < 256), (by decide : 1 < 15), Nat.lt_of_lt_of_le vd.isLt (by decide), Nat.lt_of_lt_of_le va.isLt (by decide), Nat.lt_of_lt_of_le g.isLt (by decide), Nat.lt_trans (fmt_code_lt _) (by decide), by simp⟩
theorem vquant (vd : VReg) (va : VReg) (vb : VReg) (sf : Fmt) (q : Qual) : Statement (.vquant vd va vb sf q) := by
  rintro c ⟨⟩
  exact ⟨(by decide : 0x14 < 256), (by decide : 2 < 15), Nat.lt_of_lt_of_le vd.isLt (by decide), Nat.lt_of_lt_of_le va.isLt (by decide), Nat.lt_of_lt_of_le vb.isLt (by decide), Nat.lt_trans (fmt_code_lt _) (by decide), by simp⟩
theorem vdeq (vd : VReg) (va : VReg) (vb : VReg) (tf : Fmt) (q : Qual) : Statement (.vdeq vd va vb tf q) := by
  rintro c ⟨⟩
  exact ⟨(by decide : 0x14 < 256), (by decide : 3 < 15), Nat.lt_of_lt_of_le vd.isLt (by decide), Nat.lt_of_lt_of_le va.isLt (by decide), Nat.lt_of_lt_of_le vb.isLt (by decide), Nat.lt_trans (fmt_code_lt _) (by decide), by simp⟩
theorem vcblk (vd : VReg) (va : VReg) (cb : Fin 2) (q : Qual) : Statement (.vcblk vd va cb q) := by
  rintro c ⟨⟩
  exact ⟨(by decide : 0x14 < 256), (by decide : 4 < 15), Nat.lt_of_lt_of_le vd.isLt (by decide), Nat.lt_of_lt_of_le va.isLt (by decide), Nat.lt_of_lt_of_le cb.isLt (by decide), (by decide : 0 < 32), by simp⟩
theorem vwidenlo (vd : VReg) (va : VReg) (u : Fin 2) (q : Qual) : Statement (.vwidenlo vd va u q) := by
  rintro c ⟨⟩
  exact ⟨(by decide : 0x14 < 256), (by decide : 5 < 15), Nat.lt_of_lt_of_le vd.isLt (by decide), Nat.lt_of_lt_of_le va.isLt (by decide), Nat.lt_of_lt_of_le u.isLt (by decide), (by decide : 0 < 32), by simp⟩
theorem vwidenhi (vd : VReg) (va : VReg) (u : Fin 2) (q : Qual) : Statement (.vwidenhi vd va u q) := by
  rintro c ⟨⟩
  exact ⟨(by decide : 0x14 < 256), (by decide : 6 < 15), Nat.lt_of_lt_of_le vd.isLt (by decide), Nat.lt_of_lt_of_le va.isLt (by decide), Nat.lt_of_lt_of_le u.isLt (by decide), (by decide : 0 < 32), by simp⟩
theorem vnarrow (vd : VReg) (va : VReg) (vb : VReg) (tf : Fmt) (q : Qual) : Statement (.vnarrow vd va vb tf q) := by
  rintro c ⟨⟩
  exact ⟨(by decide : 0x14 < 256), (by decide : 7 < 15), Nat.lt_of_lt_of_le vd.isLt (by decide), Nat.lt_of_lt_of_le va.isLt (by decide), Nat.lt_of_lt_of_le vb.isLt (by decide), Nat.lt_trans (fmt_code_lt _) (by decide), by simp⟩
theorem vcadd (vd : VReg) (va : VReg) (vb : VReg) (q : Qual) : Statement (.vcadd vd va vb q) := by
  rintro c ⟨⟩
  exact ⟨(by decide : 0x30 < 256), (by decide : 0 < 15), Nat.lt_of_lt_of_le vd.isLt (by decide), Nat.lt_of_lt_of_le va.isLt (by decide), Nat.lt_of_lt_of_le vb.isLt (by decide), (by decide : 0 < 32), by simp⟩
theorem vcsub (vd : VReg) (va : VReg) (vb : VReg) (q : Qual) : Statement (.vcsub vd va vb q) := by
  rintro c ⟨⟩
  exact ⟨(by decide : 0x30 < 256), (by decide : 1 < 15), Nat.lt_of_lt_of_le vd.isLt (by decide), Nat.lt_of_lt_of_le va.isLt (by decide), Nat.lt_of_lt_of_le vb.isLt (by decide), (by decide : 0 < 32), by simp⟩
theorem vcmul (vd : VReg) (va : VReg) (vb : VReg) (q : Qual) : Statement (.vcmul vd va vb q) := by
  rintro c ⟨⟩
  exact ⟨(by decide : 0x30 < 256), (by decide : 2 < 15), Nat.lt_of_lt_of_le vd.isLt (by decide), Nat.lt_of_lt_of_le va.isLt (by decide), Nat.lt_of_lt_of_le vb.isLt (by decide), (by decide : 0 < 32), by simp⟩
theorem vcmulj (vd : VReg) (va : VReg) (vb : VReg) (q : Qual) : Statement (.vcmulj vd va vb q) := by
  rintro c ⟨⟩
  exact ⟨(by decide : 0x30 < 256), (by decide : 3 < 15), Nat.lt_of_lt_of_le vd.isLt (by decide), Nat.lt_of_lt_of_le va.isLt (by decide), Nat.lt_of_lt_of_le vb.isLt (by decide), (by decide : 0 < 32), by simp⟩
theorem vcmac (vd : VReg) (va : VReg) (vb : VReg) (q : Qual) : Statement (.vcmac vd va vb q) := by
  rintro c ⟨⟩
  exact ⟨(by decide : 0x30 < 256), (by decide : 4 < 15), Nat.lt_of_lt_of_le vd.isLt (by decide), Nat.lt_of_lt_of_le va.isLt (by decide), Nat.lt_of_lt_of_le vb.isLt (by decide), (by decide : 0 < 32), by simp⟩
theorem vcmacj (vd : VReg) (va : VReg) (vb : VReg) (q : Qual) : Statement (.vcmacj vd va vb q) := by
  rintro c ⟨⟩
  exact ⟨(by decide : 0x30 < 256), (by decide : 5 < 15), Nat.lt_of_lt_of_le vd.isLt (by decide), Nat.lt_of_lt_of_le va.isLt (by decide), Nat.lt_of_lt_of_le vb.isLt (by decide), (by decide : 0 < 32), by simp⟩
theorem vconj (vd : VReg) (va : VReg) (q : Qual) : Statement (.vconj vd va q) := by
  rintro c ⟨⟩
  exact ⟨(by decide : 0x30 < 256), (by decide : 6 < 15), Nat.lt_of_lt_of_le vd.isLt (by decide), Nat.lt_of_lt_of_le va.isLt (by decide), (by decide : 0 < 32), (by decide : 0 < 32), by simp⟩
theorem vcrot (vd : VReg) (va : VReg) (k : Fin 4) (q : Qual) : Statement (.vcrot vd va k q) := by
  rintro c ⟨⟩
  exact ⟨(by decide : 0x30 < 256), (by decide : 7 < 15), Nat.lt_of_lt_of_le vd.isLt (by decide), Nat.lt_of_lt_of_le va.isLt (by decide), Nat.lt_of_lt_of_le k.isLt (by decide), (by decide : 0 < 32), by simp⟩
theorem vcabs2 (vd : VReg) (va : VReg) (q : Qual) : Statement (.vcabs2 vd va q) := by
  rintro c ⟨⟩
  exact ⟨(by decide : 0x30 < 256), (by decide : 8 < 15), Nat.lt_of_lt_of_le vd.isLt (by decide), Nat.lt_of_lt_of_le va.isLt (by decide), (by decide : 0 < 32), (by decide : 0 < 32), by simp⟩
theorem vcscale (vd : VReg) (va : VReg) (vb : VReg) (q : Qual) : Statement (.vcscale vd va vb q) := by
  rintro c ⟨⟩
  exact ⟨(by decide : 0x30 < 256), (by decide : 9 < 15), Nat.lt_of_lt_of_le vd.isLt (by decide), Nat.lt_of_lt_of_le va.isLt (by decide), Nat.lt_of_lt_of_le vb.isLt (by decide), (by decide : 0 < 32), by simp⟩
theorem vcdot (vd : VReg) (va : VReg) (vb : VReg) (q : Qual) : Statement (.vcdot vd va vb q) := by
  rintro c ⟨⟩
  exact ⟨(by decide : 0x30 < 256), (by decide : 10 < 15), Nat.lt_of_lt_of_le vd.isLt (by decide), Nat.lt_of_lt_of_le va.isLt (by decide), Nat.lt_of_lt_of_le vb.isLt (by decide), (by decide : 0 < 32), by simp⟩
theorem vcreal (vd : VReg) (va : VReg) (q : Qual) : Statement (.vcreal vd va q) := by
  rintro c ⟨⟩
  exact ⟨(by decide : 0x30 < 256), (by decide : 11 < 15), Nat.lt_of_lt_of_le vd.isLt (by decide), Nat.lt_of_lt_of_le va.isLt (by decide), (by decide : 0 < 32), (by decide : 0 < 32), by simp⟩
theorem vcswap (vd : VReg) (va : VReg) (q : Qual) : Statement (.vcswap vd va q) := by
  rintro c ⟨⟩
  exact ⟨(by decide : 0x30 < 256), (by decide : 12 < 15), Nat.lt_of_lt_of_le vd.isLt (by decide), Nat.lt_of_lt_of_le va.isLt (by decide), (by decide : 0 < 32), (by decide : 0 < 32), by simp⟩
theorem vcmag (vd : VReg) (va : VReg) (q : Qual) : Statement (.vcmag vd va q) := by
  rintro c ⟨⟩
  exact ⟨(by decide : 0x30 < 256), (by decide : 13 < 15), Nat.lt_of_lt_of_le vd.isLt (by decide), Nat.lt_of_lt_of_le va.isLt (by decide), (by decide : 0 < 32), (by decide : 0 < 32), by simp⟩
theorem vcmacs (vd : VReg) (va : VReg) (vb : VReg) (q : Qual) : Statement (.vcmacs vd va vb q) := by
  rintro c ⟨⟩
  exact ⟨(by decide : 0x30 < 256), (by decide : 14 < 15), Nat.lt_of_lt_of_le vd.isLt (by decide), Nat.lt_of_lt_of_le va.isLt (by decide), Nat.lt_of_lt_of_le vb.isLt (by decide), (by decide : 0 < 32), by simp⟩
theorem vbfly2 (vd : VReg) (va : VReg) (b : SReg) (vt : VReg) (q : Qual) : Statement (.vbfly2 vd va b vt q) := by
  rintro c ⟨⟩
  exact ⟨(by decide : 0x31 < 256), (by decide : 0 < 15), Nat.lt_of_lt_of_le vd.isLt (by decide), Nat.lt_of_lt_of_le va.isLt (by decide), Nat.lt_of_lt_of_le b.isLt (by decide), Nat.lt_of_lt_of_le vt.isLt (by decide), by simp⟩
theorem vbfly3 (vd : VReg) (va : VReg) (b : SReg) (vt : VReg) (q : Qual) : Statement (.vbfly3 vd va b vt q) := by
  rintro c ⟨⟩
  exact ⟨(by decide : 0x31 < 256), (by decide : 1 < 15), Nat.lt_of_lt_of_le vd.isLt (by decide), Nat.lt_of_lt_of_le va.isLt (by decide), Nat.lt_of_lt_of_le b.isLt (by decide), Nat.lt_of_lt_of_le vt.isLt (by decide), by simp⟩
theorem vbfly4 (vd : VReg) (va : VReg) (b : SReg) (vt : VReg) (q : Qual) : Statement (.vbfly4 vd va b vt q) := by
  rintro c ⟨⟩
  exact ⟨(by decide : 0x31 < 256), (by decide : 2 < 15), Nat.lt_of_lt_of_le vd.isLt (by decide), Nat.lt_of_lt_of_le va.isLt (by decide), Nat.lt_of_lt_of_le b.isLt (by decide), Nat.lt_of_lt_of_le vt.isLt (by decide), by simp⟩
theorem vbfly5 (vd : VReg) (va : VReg) (b : SReg) (vt : VReg) (q : Qual) : Statement (.vbfly5 vd va b vt q) := by
  rintro c ⟨⟩
  exact ⟨(by decide : 0x31 < 256), (by decide : 3 < 15), Nat.lt_of_lt_of_le vd.isLt (by decide), Nat.lt_of_lt_of_le va.isLt (by decide), Nat.lt_of_lt_of_le b.isLt (by decide), Nat.lt_of_lt_of_le vt.isLt (by decide), by simp⟩
theorem vtwid (vd : VReg) (a : SReg) (b : SReg) (q : Qual) : Statement (.vtwid vd a b q) := by
  rintro c ⟨⟩
  exact ⟨(by decide : 0x31 < 256), (by decide : 4 < 15), Nat.lt_of_lt_of_le vd.isLt (by decide), Nat.lt_of_lt_of_le a.isLt (by decide), Nat.lt_of_lt_of_le b.isLt (by decide), (by decide : 0 < 32), by simp⟩
theorem vdrev (vd : VReg) (va : VReg) (b : SReg) (q : Qual) : Statement (.vdrev vd va b q) := by
  rintro c ⟨⟩
  exact ⟨(by decide : 0x31 < 256), (by decide : 5 < 15), Nat.lt_of_lt_of_le vd.isLt (by decide), Nat.lt_of_lt_of_le va.isLt (by decide), Nat.lt_of_lt_of_le b.isLt (by decide), (by decide : 0 < 32), by simp⟩
theorem vtrans (vd : VReg) (va : VReg) (b : SReg) (q : Qual) : Statement (.vtrans vd va b q) := by
  rintro c ⟨⟩
  exact ⟨(by decide : 0x31 < 256), (by decide : 6 < 15), Nat.lt_of_lt_of_le vd.isLt (by decide), Nat.lt_of_lt_of_le va.isLt (by decide), Nat.lt_of_lt_of_le b.isLt (by decide), (by decide : 0 < 32), by simp⟩
theorem vmgmul (vd : VReg) (va : VReg) (vb : VReg) (q : Qual) : Statement (.vmgmul vd va vb q) := by
  rintro c ⟨⟩
  exact ⟨(by decide : 0x32 < 256), (by decide : 0 < 15), Nat.lt_of_lt_of_le vd.isLt (by decide), Nat.lt_of_lt_of_le va.isLt (by decide), Nat.lt_of_lt_of_le vb.isLt (by decide), (by decide : 0 < 32), by simp⟩
theorem vmgmulh (vd : VReg) (va : VReg) (vb : VReg) (q : Qual) : Statement (.vmgmulh vd va vb q) := by
  rintro c ⟨⟩
  exact ⟨(by decide : 0x32 < 256), (by decide : 1 < 15), Nat.lt_of_lt_of_le vd.isLt (by decide), Nat.lt_of_lt_of_le va.isLt (by decide), Nat.lt_of_lt_of_le vb.isLt (by decide), (by decide : 0 < 32), by simp⟩
theorem vmgmv (vd : VReg) (va : VReg) (vb : VReg) (q : Qual) : Statement (.vmgmv vd va vb q) := by
  rintro c ⟨⟩
  exact ⟨(by decide : 0x32 < 256), (by decide : 2 < 15), Nat.lt_of_lt_of_le vd.isLt (by decide), Nat.lt_of_lt_of_le va.isLt (by decide), Nat.lt_of_lt_of_le vb.isLt (by decide), (by decide : 0 < 32), by simp⟩
theorem vhchol (vd : VReg) (va : VReg) (q : Qual) : Statement (.vhchol vd va q) := by
  rintro c ⟨⟩
  exact ⟨(by decide : 0x32 < 256), (by decide : 3 < 15), Nat.lt_of_lt_of_le vd.isLt (by decide), Nat.lt_of_lt_of_le va.isLt (by decide), (by decide : 0 < 32), (by decide : 0 < 32), by simp⟩
theorem vhinv (vd : VReg) (va : VReg) (q : Qual) : Statement (.vhinv vd va q) := by
  rintro c ⟨⟩
  exact ⟨(by decide : 0x32 < 256), (by decide : 4 < 15), Nat.lt_of_lt_of_le vd.isLt (by decide), Nat.lt_of_lt_of_le va.isLt (by decide), (by decide : 0 < 32), (by decide : 0 < 32), by simp⟩
theorem vschur (vd : VReg) (va : VReg) (p : Fin 4) (q : Qual) : Statement (.vschur vd va p q) := by
  rintro c ⟨⟩
  exact ⟨(by decide : 0x32 < 256), (by decide : 5 < 15), Nat.lt_of_lt_of_le vd.isLt (by decide), Nat.lt_of_lt_of_le va.isLt (by decide), Nat.lt_of_lt_of_le p.isLt (by decide), (by decide : 0 < 32), by simp⟩
theorem vschurv (vd : VReg) (va : VReg) (vb : VReg) (p : Fin 4) (q : Qual) : Statement (.vschurv vd va vb p q) := by
  rintro c ⟨⟩
  exact ⟨(by decide : 0x32 < 256), (by decide : 6 < 15), Nat.lt_of_lt_of_le vd.isLt (by decide), Nat.lt_of_lt_of_le va.isLt (by decide), Nat.lt_of_lt_of_le vb.isLt (by decide), Nat.lt_of_lt_of_le p.isLt (by decide), by simp⟩
theorem vhsolve (vd : VReg) (va : VReg) (vb : VReg) (q : Qual) : Statement (.vhsolve vd va vb q) := by
  rintro c ⟨⟩
  exact ⟨(by decide : 0x32 < 256), (by decide : 7 < 15), Nat.lt_of_lt_of_le vd.isLt (by decide), Nat.lt_of_lt_of_le va.isLt (by decide), Nat.lt_of_lt_of_le vb.isLt (by decide), (by decide : 0 < 32), by simp⟩
theorem vmgtr (vd : VReg) (va : VReg) (q : Qual) : Statement (.vmgtr vd va q) := by
  rintro c ⟨⟩
  exact ⟨(by decide : 0x32 < 256), (by decide : 8 < 15), Nat.lt_of_lt_of_le vd.isLt (by decide), Nat.lt_of_lt_of_le va.isLt (by decide), (by decide : 0 < 32), (by decide : 0 < 32), by simp⟩
theorem vhreg (vd : VReg) (va : VReg) (b : SReg) (q : Qual) : Statement (.vhreg vd va b q) := by
  rintro c ⟨⟩
  exact ⟨(by decide : 0x32 < 256), (by decide : 9 < 15), Nat.lt_of_lt_of_le vd.isLt (by decide), Nat.lt_of_lt_of_le va.isLt (by decide), Nat.lt_of_lt_of_le b.isLt (by decide), (by decide : 0 < 32), by simp⟩
theorem mxcfg (n : Fin 16) (a : SReg) : Statement (.mxcfg n a) := by
  rintro c ⟨⟩
  exact ⟨(by decide : 0x40 < 256), (by decide : 0 < 15), Nat.lt_of_lt_of_le n.isLt (by decide), Nat.lt_of_lt_of_le a.isLt (by decide), (by decide : 0 < 32), (by decide : 0 < 32), by simp⟩
theorem mma (z : ZReg) (a : SReg) (b : SReg) : Statement (.mma z a b) := by
  rintro c ⟨⟩
  exact ⟨(by decide : 0x40 < 256), (by decide : 1 < 15), Nat.lt_of_lt_of_le z.isLt (by decide), Nat.lt_of_lt_of_le a.isLt (by decide), Nat.lt_of_lt_of_le b.isLt (by decide), (by decide : 0 < 32), by simp⟩
theorem mmaz (z : ZReg) (a : SReg) (b : SReg) : Statement (.mmaz z a b) := by
  rintro c ⟨⟩
  exact ⟨(by decide : 0x40 < 256), (by decide : 2 < 15), Nat.lt_of_lt_of_le z.isLt (by decide), Nat.lt_of_lt_of_le a.isLt (by decide), Nat.lt_of_lt_of_le b.isLt (by decide), (by decide : 0 < 32), by simp⟩
theorem mxzero (z : ZReg) : Statement (.mxzero z) := by
  rintro c ⟨⟩
  exact ⟨(by decide : 0x40 < 256), (by decide : 3 < 15), Nat.lt_of_lt_of_le z.isLt (by decide), (by decide : 0 < 32), (by decide : 0 < 32), (by decide : 0 < 32), by simp⟩
theorem mxst (z : ZReg) (a : SReg) (b : SReg) : Statement (.mxst z a b) := by
  rintro c ⟨⟩
  exact ⟨(by decide : 0x40 < 256), (by decide : 4 < 15), Nat.lt_of_lt_of_le z.isLt (by decide), Nat.lt_of_lt_of_le a.isLt (by decide), Nat.lt_of_lt_of_le b.isLt (by decide), (by decide : 0 < 32), by simp⟩
theorem mxld (z : ZReg) (a : SReg) (b : SReg) : Statement (.mxld z a b) := by
  rintro c ⟨⟩
  exact ⟨(by decide : 0x40 < 256), (by decide : 5 < 15), Nat.lt_of_lt_of_le z.isLt (by decide), Nat.lt_of_lt_of_le a.isLt (by decide), Nat.lt_of_lt_of_le b.isLt (by decide), (by decide : 0 < 32), by simp⟩
theorem mxldcb (cb : Fin 2) (a : SReg) : Statement (.mxldcb cb a) := by
  rintro c ⟨⟩
  exact ⟨(by decide : 0x40 < 256), (by decide : 6 < 15), Nat.lt_of_lt_of_le cb.isLt (by decide), Nat.lt_of_lt_of_le a.isLt (by decide), (by decide : 0 < 32), (by decide : 0 < 32), by simp⟩
theorem vmovz (vd : VReg) (z : ZReg) (b : SReg) (q : Qual) : Statement (.vmovz vd z b q) := by
  rintro c ⟨⟩
  exact ⟨(by decide : 0x40 < 256), (by decide : 7 < 15), Nat.lt_of_lt_of_le vd.isLt (by decide), Nat.lt_of_lt_of_le z.isLt (by decide), Nat.lt_of_lt_of_le b.isLt (by decide), (by decide : 0 < 32), by simp⟩
theorem vmovtoz (z : ZReg) (va : VReg) (b : SReg) (q : Qual) : Statement (.vmovtoz z va b q) := by
  rintro c ⟨⟩
  exact ⟨(by decide : 0x40 < 256), (by decide : 8 < 15), Nat.lt_of_lt_of_le z.isLt (by decide), Nat.lt_of_lt_of_le va.isLt (by decide), Nat.lt_of_lt_of_le b.isLt (by decide), (by decide : 0 < 32), by simp⟩
theorem mxpark (a : SReg) : Statement (.mxpark a) := by
  rintro c ⟨⟩
  exact ⟨(by decide : 0x40 < 256), (by decide : 9 < 15), (by decide : 0 < 32), Nat.lt_of_lt_of_le a.isLt (by decide), (by decide : 0 < 32), (by decide : 0 < 32), by simp⟩
theorem mxunpark (a : SReg) : Statement (.mxunpark a) := by
  rintro c ⟨⟩
  exact ⟨(by decide : 0x40 < 256), (by decide : 10 < 15), (by decide : 0 < 32), Nat.lt_of_lt_of_le a.isLt (by decide), (by decide : 0 < 32), (by decide : 0 < 32), by simp⟩
theorem mxscale (a : SReg) (b : SReg) : Statement (.mxscale a b) := by
  rintro c ⟨⟩
  exact ⟨(by decide : 0x40 < 256), (by decide : 11 < 15), (by decide : 0 < 32), Nat.lt_of_lt_of_le a.isLt (by decide), Nat.lt_of_lt_of_le b.isLt (by decide), (by decide : 0 < 32), by simp⟩
theorem mxshare (a : SReg) : Statement (.mxshare a) := by
  rintro c ⟨⟩
  exact ⟨(by decide : 0x40 < 256), (by decide : 12 < 15), (by decide : 0 < 32), Nat.lt_of_lt_of_le a.isLt (by decide), (by decide : 0 < 32), (by decide : 0 < 32), by simp⟩
theorem mxstat (d : SReg) (sel : Fin 9) : Statement (.mxstat d sel) := by
  rintro c ⟨⟩
  exact ⟨(by decide : 0x40 < 256), (by decide : 13 < 15), Nat.lt_of_lt_of_le d.isLt (by decide), (by decide : 0 < 32), Nat.lt_of_lt_of_le sel.isLt (by decide), (by decide : 0 < 32), by simp⟩
theorem gsend (d : SReg) (vp : VReg) (b : SReg) : Statement (.gsend d vp b) := by
  rintro c ⟨⟩
  exact ⟨(by decide : 0x48 < 256), (by decide : 0 < 15), Nat.lt_of_lt_of_le d.isLt (by decide), Nat.lt_of_lt_of_le vp.isLt (by decide), Nat.lt_of_lt_of_le b.isLt (by decide), (by decide : 0 < 32), by simp⟩
theorem gsendc (d : SReg) (vp : VReg) (b : SReg) : Statement (.gsendc d vp b) := by
  rintro c ⟨⟩
  exact ⟨(by decide : 0x48 < 256), (by decide : 1 < 15), Nat.lt_of_lt_of_le d.isLt (by decide), Nat.lt_of_lt_of_le vp.isLt (by decide), Nat.lt_of_lt_of_le b.isLt (by decide), (by decide : 0 < 32), by simp⟩
theorem gld (vp : VReg) (a : SReg) (b : SReg) : Statement (.gld vp a b) := by
  rintro c ⟨⟩
  exact ⟨(by decide : 0x48 < 256), (by decide : 2 < 15), Nat.lt_of_lt_of_le vp.isLt (by decide), Nat.lt_of_lt_of_le a.isLt (by decide), Nat.lt_of_lt_of_le b.isLt (by decide), (by decide : 0 < 32), by simp⟩
theorem gsum (vp : VReg) (a : SReg) : Statement (.gsum vp a) := by
  rintro c ⟨⟩
  exact ⟨(by decide : 0x48 < 256), (by decide : 3 < 15), Nat.lt_of_lt_of_le vp.isLt (by decide), Nat.lt_of_lt_of_le a.isLt (by decide), (by decide : 0 < 32), (by decide : 0 < 32), by simp⟩
theorem gsumx (vp : VReg) (a : SReg) : Statement (.gsumx vp a) := by
  rintro c ⟨⟩
  exact ⟨(by decide : 0x48 < 256), (by decide : 4 < 15), Nat.lt_of_lt_of_le vp.isLt (by decide), Nat.lt_of_lt_of_le a.isLt (by decide), (by decide : 0 < 32), (by decide : 0 < 32), by simp⟩
theorem gdamp (vp : VReg) (vq : VReg) (b : SReg) : Statement (.gdamp vp vq b) := by
  rintro c ⟨⟩
  exact ⟨(by decide : 0x48 < 256), (by decide : 5 < 15), Nat.lt_of_lt_of_le vp.isLt (by decide), Nat.lt_of_lt_of_le vq.isLt (by decide), Nat.lt_of_lt_of_le b.isLt (by decide), (by decide : 0 < 32), by simp⟩
theorem gcfg (n : Fin 16) (a : SReg) : Statement (.gcfg n a) := by
  rintro c ⟨⟩
  exact ⟨(by decide : 0x48 < 256), (by decide : 6 < 15), Nat.lt_of_lt_of_le n.isLt (by decide), Nat.lt_of_lt_of_le a.isLt (by decide), (by decide : 0 < 32), (by decide : 0 < 32), by simp⟩
theorem gmarg (vp : VReg) (vq : VReg) (b : SReg) : Statement (.gmarg vp vq b) := by
  rintro c ⟨⟩
  exact ⟨(by decide : 0x48 < 256), (by decide : 7 < 15), Nat.lt_of_lt_of_le vp.isLt (by decide), Nat.lt_of_lt_of_le vq.isLt (by decide), Nat.lt_of_lt_of_le b.isLt (by decide), (by decide : 0 < 32), by simp⟩
theorem gembed (vp : VReg) (vq : VReg) (b : SReg) : Statement (.gembed vp vq b) := by
  rintro c ⟨⟩
  exact ⟨(by decide : 0x48 < 256), (by decide : 8 < 15), Nat.lt_of_lt_of_le vp.isLt (by decide), Nat.lt_of_lt_of_le vq.isLt (by decide), Nat.lt_of_lt_of_le b.isLt (by decide), (by decide : 0 < 32), by simp⟩
theorem gmean (vp : VReg) (vq : VReg) : Statement (.gmean vp vq) := by
  rintro c ⟨⟩
  exact ⟨(by decide : 0x48 < 256), (by decide : 9 < 15), Nat.lt_of_lt_of_le vp.isLt (by decide), Nat.lt_of_lt_of_le vq.isLt (by decide), (by decide : 0 < 32), (by decide : 0 < 32), by simp⟩
theorem gstat (d : SReg) (sel : Fin 16) : Statement (.gstat d sel) := by
  rintro c ⟨⟩
  exact ⟨(by decide : 0x48 < 256), (by decide : 10 < 15), Nat.lt_of_lt_of_le d.isLt (by decide), (by decide : 0 < 32), Nat.lt_of_lt_of_le sel.isLt (by decide), (by decide : 0 < 32), by simp⟩
theorem lb (d : SReg) (a : SReg) (imm : Nat) : Statement (.lb d a imm) := by
  rintro c ⟨⟩
  exact ⟨(by decide : 0x50 < 256), (by decide : 0 < 15), Nat.lt_of_lt_of_le d.isLt (by decide), Nat.lt_of_lt_of_le a.isLt (by decide), immBase_four imm, (by decide : 0 < 32), immWords_lt _ _ _⟩
theorem lbn (d : SReg) (a : SReg) (imm : Nat) : Statement (.lbn d a imm) := by
  rintro c ⟨⟩
  exact ⟨(by decide : 0x50 < 256), (by decide : 1 < 15), Nat.lt_of_lt_of_le d.isLt (by decide), Nat.lt_of_lt_of_le a.isLt (by decide), immBase_four imm, (by decide : 0 < 32), immWords_lt _ _ _⟩
theorem lh (d : SReg) (a : SReg) (imm : Nat) : Statement (.lh d a imm) := by
  rintro c ⟨⟩
  exact ⟨(by decide : 0x50 < 256), (by decide : 2 < 15), Nat.lt_of_lt_of_le d.isLt (by decide), Nat.lt_of_lt_of_le a.isLt (by decide), immBase_four imm, (by decide : 0 < 32), immWords_lt _ _ _⟩
theorem lhn (d : SReg) (a : SReg) (imm : Nat) : Statement (.lhn d a imm) := by
  rintro c ⟨⟩
  exact ⟨(by decide : 0x50 < 256), (by decide : 3 < 15), Nat.lt_of_lt_of_le d.isLt (by decide), Nat.lt_of_lt_of_le a.isLt (by decide), immBase_four imm, (by decide : 0 < 32), immWords_lt _ _ _⟩
theorem lw (d : SReg) (a : SReg) (imm : Nat) : Statement (.lw d a imm) := by
  rintro c ⟨⟩
  exact ⟨(by decide : 0x50 < 256), (by decide : 4 < 15), Nat.lt_of_lt_of_le d.isLt (by decide), Nat.lt_of_lt_of_le a.isLt (by decide), immBase_four imm, (by decide : 0 < 32), immWords_lt _ _ _⟩
theorem lwn (d : SReg) (a : SReg) (imm : Nat) : Statement (.lwn d a imm) := by
  rintro c ⟨⟩
  exact ⟨(by decide : 0x50 < 256), (by decide : 5 < 15), Nat.lt_of_lt_of_le d.isLt (by decide), Nat.lt_of_lt_of_le a.isLt (by decide), immBase_four imm, (by decide : 0 < 32), immWords_lt _ _ _⟩
theorem sb (d : SReg) (a : SReg) (imm : Nat) : Statement (.sb d a imm) := by
  rintro c ⟨⟩
  exact ⟨(by decide : 0x50 < 256), (by decide : 6 < 15), Nat.lt_of_lt_of_le d.isLt (by decide), Nat.lt_of_lt_of_le a.isLt (by decide), immBase_four imm, (by decide : 0 < 32), immWords_lt _ _ _⟩
theorem sh (d : SReg) (a : SReg) (imm : Nat) : Statement (.sh d a imm) := by
  rintro c ⟨⟩
  exact ⟨(by decide : 0x50 < 256), (by decide : 7 < 15), Nat.lt_of_lt_of_le d.isLt (by decide), Nat.lt_of_lt_of_le a.isLt (by decide), immBase_four imm, (by decide : 0 < 32), immWords_lt _ _ _⟩
theorem sw (d : SReg) (a : SReg) (imm : Nat) : Statement (.sw d a imm) := by
  rintro c ⟨⟩
  exact ⟨(by decide : 0x50 < 256), (by decide : 8 < 15), Nat.lt_of_lt_of_le d.isLt (by decide), Nat.lt_of_lt_of_le a.isLt (by decide), immBase_four imm, (by decide : 0 < 32), immWords_lt _ _ _⟩
theorem ldx (d : SReg) (a : SReg) (b : SReg) : Statement (.ldx d a b) := by
  rintro c ⟨⟩
  exact ⟨(by decide : 0x50 < 256), (by decide : 9 < 15), Nat.lt_of_lt_of_le d.isLt (by decide), Nat.lt_of_lt_of_le a.isLt (by decide), Nat.lt_of_lt_of_le b.isLt (by decide), (by decide : 0 < 32), by simp⟩
theorem stx (d : SReg) (a : SReg) (b : SReg) : Statement (.stx d a b) := by
  rintro c ⟨⟩
  exact ⟨(by decide : 0x50 < 256), (by decide : 10 < 15), Nat.lt_of_lt_of_le d.isLt (by decide), Nat.lt_of_lt_of_le a.isLt (by decide), Nat.lt_of_lt_of_le b.isLt (by decide), (by decide : 0 < 32), by simp⟩
theorem pref (hint : Fin 3) (a : SReg) (imm : Nat) : Statement (.pref hint a imm) := by
  rintro c ⟨⟩
  exact ⟨(by decide : 0x50 < 256), (by decide : 11 < 15), Nat.lt_of_lt_of_le hint.isLt (by decide), Nat.lt_of_lt_of_le a.isLt (by decide), immBase_four imm, (by decide : 0 < 32), immWords_lt _ _ _⟩
theorem cflush (a : SReg) : Statement (.cflush a) := by
  rintro c ⟨⟩
  exact ⟨(by decide : 0x50 < 256), (by decide : 12 < 15), (by decide : 0 < 32), Nat.lt_of_lt_of_le a.isLt (by decide), (by decide : 0 < 32), (by decide : 0 < 32), by simp⟩
theorem cinv (a : SReg) : Statement (.cinv a) := by
  rintro c ⟨⟩
  exact ⟨(by decide : 0x50 < 256), (by decide : 13 < 15), (by decide : 0 < 32), Nat.lt_of_lt_of_le a.isLt (by decide), (by decide : 0 < 32), (by decide : 0 < 32), by simp⟩
theorem amoadd (d : SReg) (a : SReg) (b : SReg) (w32 : Bool) : Statement (.amoadd d a b w32) := by
  rintro c ⟨⟩
  exact ⟨(by decide : 0x51 < 256), (by decide : 0 < 15), Nat.lt_of_lt_of_le d.isLt (by decide), Nat.lt_of_lt_of_le a.isLt (by decide), Nat.lt_of_lt_of_le b.isLt (by decide), (by decide : 0 < 32), by simp⟩
theorem amoand (d : SReg) (a : SReg) (b : SReg) (w32 : Bool) : Statement (.amoand d a b w32) := by
  rintro c ⟨⟩
  exact ⟨(by decide : 0x51 < 256), (by decide : 1 < 15), Nat.lt_of_lt_of_le d.isLt (by decide), Nat.lt_of_lt_of_le a.isLt (by decide), Nat.lt_of_lt_of_le b.isLt (by decide), (by decide : 0 < 32), by simp⟩
theorem amoor (d : SReg) (a : SReg) (b : SReg) (w32 : Bool) : Statement (.amoor d a b w32) := by
  rintro c ⟨⟩
  exact ⟨(by decide : 0x51 < 256), (by decide : 2 < 15), Nat.lt_of_lt_of_le d.isLt (by decide), Nat.lt_of_lt_of_le a.isLt (by decide), Nat.lt_of_lt_of_le b.isLt (by decide), (by decide : 0 < 32), by simp⟩
theorem amoxor (d : SReg) (a : SReg) (b : SReg) (w32 : Bool) : Statement (.amoxor d a b w32) := by
  rintro c ⟨⟩
  exact ⟨(by decide : 0x51 < 256), (by decide : 3 < 15), Nat.lt_of_lt_of_le d.isLt (by decide), Nat.lt_of_lt_of_le a.isLt (by decide), Nat.lt_of_lt_of_le b.isLt (by decide), (by decide : 0 < 32), by simp⟩
theorem amomin (d : SReg) (a : SReg) (b : SReg) (w32 : Bool) : Statement (.amomin d a b w32) := by
  rintro c ⟨⟩
  exact ⟨(by decide : 0x51 < 256), (by decide : 4 < 15), Nat.lt_of_lt_of_le d.isLt (by decide), Nat.lt_of_lt_of_le a.isLt (by decide), Nat.lt_of_lt_of_le b.isLt (by decide), (by decide : 0 < 32), by simp⟩
theorem amomax (d : SReg) (a : SReg) (b : SReg) (w32 : Bool) : Statement (.amomax d a b w32) := by
  rintro c ⟨⟩
  exact ⟨(by decide : 0x51 < 256), (by decide : 5 < 15), Nat.lt_of_lt_of_le d.isLt (by decide), Nat.lt_of_lt_of_le a.isLt (by decide), Nat.lt_of_lt_of_le b.isLt (by decide), (by decide : 0 < 32), by simp⟩
theorem amominn (d : SReg) (a : SReg) (b : SReg) (w32 : Bool) : Statement (.amominn d a b w32) := by
  rintro c ⟨⟩
  exact ⟨(by decide : 0x51 < 256), (by decide : 6 < 15), Nat.lt_of_lt_of_le d.isLt (by decide), Nat.lt_of_lt_of_le a.isLt (by decide), Nat.lt_of_lt_of_le b.isLt (by decide), (by decide : 0 < 32), by simp⟩
theorem amomaxn (d : SReg) (a : SReg) (b : SReg) (w32 : Bool) : Statement (.amomaxn d a b w32) := by
  rintro c ⟨⟩
  exact ⟨(by decide : 0x51 < 256), (by decide : 7 < 15), Nat.lt_of_lt_of_le d.isLt (by decide), Nat.lt_of_lt_of_le a.isLt (by decide), Nat.lt_of_lt_of_le b.isLt (by decide), (by decide : 0 < 32), by simp⟩
theorem amoswp (d : SReg) (a : SReg) (b : SReg) (w32 : Bool) : Statement (.amoswp d a b w32) := by
  rintro c ⟨⟩
  exact ⟨(by decide : 0x51 < 256), (by decide : 8 < 15), Nat.lt_of_lt_of_le d.isLt (by decide), Nat.lt_of_lt_of_le a.isLt (by decide), Nat.lt_of_lt_of_le b.isLt (by decide), (by decide : 0 < 32), by simp⟩
theorem amocas (d : SReg) (a : SReg) (b : SReg) (c : SReg) (w32 : Bool) : Statement (.amocas d a b c w32) := by
  rintro c ⟨⟩
  exact ⟨(by decide : 0x51 < 256), (by decide : 9 < 15), Nat.lt_of_lt_of_le d.isLt (by decide), Nat.lt_of_lt_of_le a.isLt (by decide), Nat.lt_of_lt_of_le b.isLt (by decide), Nat.lt_of_lt_of_le c.isLt (by decide), by simp⟩
theorem ldaq (d : SReg) (a : SReg) : Statement (.ldaq d a) := by
  rintro c ⟨⟩
  exact ⟨(by decide : 0x51 < 256), (by decide : 10 < 15), Nat.lt_of_lt_of_le d.isLt (by decide), Nat.lt_of_lt_of_le a.isLt (by decide), (by decide : 0 < 32), (by decide : 0 < 32), by simp⟩
theorem strl (d : SReg) (a : SReg) : Statement (.strl d a) := by
  rintro c ⟨⟩
  exact ⟨(by decide : 0x51 < 256), (by decide : 11 < 15), Nat.lt_of_lt_of_le d.isLt (by decide), Nat.lt_of_lt_of_le a.isLt (by decide), (by decide : 0 < 32), (by decide : 0 < 32), by simp⟩
theorem fence (before : Fin 16) (after : Fin 16) (scope : Fin 5) : Statement (.fence before after scope) := by
  rintro c ⟨⟩
  exact ⟨(by decide : 0x51 < 256), (by decide : 12 < 15), Nat.lt_of_lt_of_le before.isLt (by decide), Nat.lt_of_lt_of_le after.isLt (by decide), Nat.lt_of_lt_of_le scope.isLt (by decide), (by decide : 0 < 32), by simp⟩
theorem vld (vd : VReg) (a : SReg) (q : Qual) : Statement (.vld vd a q) := by
  rintro c ⟨⟩
  exact ⟨(by decide : 0x52 < 256), (by decide : 0 < 15), Nat.lt_of_lt_of_le vd.isLt (by decide), Nat.lt_of_lt_of_le a.isLt (by decide), (by decide : 0 < 32), (by decide : 0 < 32), by simp⟩
theorem vst (vd : VReg) (a : SReg) (q : Qual) : Statement (.vst vd a q) := by
  rintro c ⟨⟩
  exact ⟨(by decide : 0x52 < 256), (by decide : 1 < 15), Nat.lt_of_lt_of_le vd.isLt (by decide), Nat.lt_of_lt_of_le a.isLt (by decide), (by decide : 0 < 32), (by decide : 0 < 32), by simp⟩
theorem vlds (vd : VReg) (a : SReg) (b : SReg) (q : Qual) : Statement (.vlds vd a b q) := by
  rintro c ⟨⟩
  exact ⟨(by decide : 0x52 < 256), (by decide : 2 < 15), Nat.lt_of_lt_of_le vd.isLt (by decide), Nat.lt_of_lt_of_le a.isLt (by decide), Nat.lt_of_lt_of_le b.isLt (by decide), (by decide : 0 < 32), by simp⟩
theorem vsts (vd : VReg) (a : SReg) (b : SReg) (q : Qual) : Statement (.vsts vd a b q) := by
  rintro c ⟨⟩
  exact ⟨(by decide : 0x52 < 256), (by decide : 3 < 15), Nat.lt_of_lt_of_le vd.isLt (by decide), Nat.lt_of_lt_of_le a.isLt (by decide), Nat.lt_of_lt_of_le b.isLt (by decide), (by decide : 0 < 32), by simp⟩
theorem vldx (vd : VReg) (a : SReg) (vb : VReg) (amt : Fin 7) (q : Qual) : Statement (.vldx vd a vb amt q) := by
  rintro c ⟨⟩
  exact ⟨(by decide : 0x52 < 256), (by decide : 4 < 15), Nat.lt_of_lt_of_le vd.isLt (by decide), Nat.lt_of_lt_of_le a.isLt (by decide), Nat.lt_of_lt_of_le vb.isLt (by decide), Nat.lt_of_lt_of_le amt.isLt (by decide), by simp⟩
theorem vstx (vd : VReg) (a : SReg) (vb : VReg) (amt : Fin 7) (q : Qual) : Statement (.vstx vd a vb amt q) := by
  rintro c ⟨⟩
  exact ⟨(by decide : 0x52 < 256), (by decide : 5 < 15), Nat.lt_of_lt_of_le vd.isLt (by decide), Nat.lt_of_lt_of_le a.isLt (by decide), Nat.lt_of_lt_of_le vb.isLt (by decide), Nat.lt_of_lt_of_le amt.isLt (by decide), by simp⟩
theorem vldb (vd : VReg) (a : SReg) (q : Qual) : Statement (.vldb vd a q) := by
  rintro c ⟨⟩
  exact ⟨(by decide : 0x52 < 256), (by decide : 6 < 15), Nat.lt_of_lt_of_le vd.isLt (by decide), Nat.lt_of_lt_of_le a.isLt (by decide), (by decide : 0 < 32), (by decide : 0 < 32), by simp⟩
theorem vamoadd (vd : VReg) (a : SReg) (vb : VReg) (amt : Fin 7) (q : Qual) : Statement (.vamoadd vd a vb amt q) := by
  rintro c ⟨⟩
  exact ⟨(by decide : 0x52 < 256), (by decide : 7 < 15), Nat.lt_of_lt_of_le vd.isLt (by decide), Nat.lt_of_lt_of_le a.isLt (by decide), Nat.lt_of_lt_of_le vb.isLt (by decide), Nat.lt_of_lt_of_le amt.isLt (by decide), by simp⟩
theorem vldff (vd : VReg) (a : SReg) (q : Qual) : Statement (.vldff vd a q) := by
  rintro c ⟨⟩
  exact ⟨(by decide : 0x52 < 256), (by decide : 8 < 15), Nat.lt_of_lt_of_le vd.isLt (by decide), Nat.lt_of_lt_of_le a.isLt (by decide), (by decide : 0 < 32), (by decide : 0 < 32), by simp⟩
theorem scopy (sn : SReg) (sd : SReg) (ss : SReg) (sc : SReg) (fo : Option Fmt) : Statement (.scopy sn sd ss sc fo) := by
  rintro c ⟨⟩
  exact ⟨(by decide : 0x60 < 256), (by decide : 0 < 15), Nat.lt_of_lt_of_le sn.isLt (by decide), Nat.lt_of_lt_of_le sd.isLt (by decide), Nat.lt_of_lt_of_le ss.isLt (by decide), Nat.lt_of_lt_of_le sc.isLt (by decide), by simp⟩
theorem spat (n : Fin 8) (a : SReg) : Statement (.spat n a) := by
  rintro c ⟨⟩
  exact ⟨(by decide : 0x60 < 256), (by decide : 1 < 15), Nat.lt_of_lt_of_le n.isLt (by decide), Nat.lt_of_lt_of_le a.isLt (by decide), (by decide : 0 < 32), (by decide : 0 < 32), by simp⟩
theorem sstrm (n : Fin 8) (sd : SReg) (ss : SReg) : Statement (.sstrm n sd ss) := by
  rintro c ⟨⟩
  exact ⟨(by decide : 0x60 < 256), (by decide : 2 < 15), Nat.lt_of_lt_of_le n.isLt (by decide), Nat.lt_of_lt_of_le sd.isLt (by decide), Nat.lt_of_lt_of_le ss.isLt (by decide), (by decide : 0 < 32), by simp⟩
theorem swaitm (a : SReg) (b : SReg) : Statement (.swaitm a b) := by
  rintro c ⟨⟩
  exact ⟨(by decide : 0x60 < 256), (by decide : 3 < 15), (by decide : 0 < 32), Nat.lt_of_lt_of_le a.isLt (by decide), Nat.lt_of_lt_of_le b.isLt (by decide), (by decide : 0 < 32), by simp⟩
theorem stestm (d : SReg) (a : SReg) (b : SReg) : Statement (.stestm d a b) := by
  rintro c ⟨⟩
  exact ⟨(by decide : 0x60 < 256), (by decide : 4 < 15), Nat.lt_of_lt_of_le d.isLt (by decide), Nat.lt_of_lt_of_le a.isLt (by decide), Nat.lt_of_lt_of_le b.isLt (by decide), (by decide : 0 < 32), by simp⟩
theorem sclrm (a : SReg) (b : SReg) : Statement (.sclrm a b) := by
  rintro c ⟨⟩
  exact ⟨(by decide : 0x60 < 256), (by decide : 5 < 15), (by decide : 0 < 32), Nat.lt_of_lt_of_le a.isLt (by decide), Nat.lt_of_lt_of_le b.isLt (by decide), (by decide : 0 < 32), by simp⟩
theorem flpop (d : SReg) (a : SReg) : Statement (.flpop d a) := by
  rintro c ⟨⟩
  exact ⟨(by decide : 0x60 < 256), (by decide : 6 < 15), Nat.lt_of_lt_of_le d.isLt (by decide), Nat.lt_of_lt_of_le a.isLt (by decide), (by decide : 0 < 32), (by decide : 0 < 32), by simp⟩
theorem flrel (a : SReg) (b : SReg) : Statement (.flrel a b) := by
  rintro c ⟨⟩
  exact ⟨(by decide : 0x60 < 256), (by decide : 7 < 15), (by decide : 0 < 32), Nat.lt_of_lt_of_le a.isLt (by decide), Nat.lt_of_lt_of_le b.isLt (by decide), (by decide : 0 < 32), by simp⟩
theorem flpush (d : SReg) (a : SReg) : Statement (.flpush d a) := by
  rintro c ⟨⟩
  exact ⟨(by decide : 0x60 < 256), (by decide : 8 < 15), Nat.lt_of_lt_of_le d.isLt (by decide), Nat.lt_of_lt_of_le a.isLt (by decide), (by decide : 0 < 32), (by decide : 0 < 32), by simp⟩
theorem fldone (a : SReg) (b : SReg) : Statement (.fldone a b) := by
  rintro c ⟨⟩
  exact ⟨(by decide : 0x60 < 256), (by decide : 9 < 15), (by decide : 0 < 32), Nat.lt_of_lt_of_le a.isLt (by decide), Nat.lt_of_lt_of_le b.isLt (by decide), (by decide : 0 < 32), by simp⟩
theorem ecmd (d : SReg) (a : SReg) : Statement (.ecmd d a) := by
  rintro c ⟨⟩
  exact ⟨(by decide : 0x60 < 256), (by decide : 10 < 15), Nat.lt_of_lt_of_le d.isLt (by decide), Nat.lt_of_lt_of_le a.isLt (by decide), (by decide : 0 < 32), (by decide : 0 < 32), by simp⟩
theorem ecancel (d : SReg) (a : SReg) : Statement (.ecancel d a) := by
  rintro c ⟨⟩
  exact ⟨(by decide : 0x60 < 256), (by decide : 11 < 15), Nat.lt_of_lt_of_le d.isLt (by decide), Nat.lt_of_lt_of_le a.isLt (by decide), (by decide : 0 < 32), (by decide : 0 < 32), by simp⟩
theorem estat (d : SReg) (a : SReg) (sel : Fin 7) : Statement (.estat d a sel) := by
  rintro c ⟨⟩
  exact ⟨(by decide : 0x60 < 256), (by decide : 12 < 15), Nat.lt_of_lt_of_le d.isLt (by decide), Nat.lt_of_lt_of_le a.isLt (by decide), Nat.lt_of_lt_of_le sel.isLt (by decide), (by decide : 0 < 32), by simp⟩
theorem spawn (d : SReg) (a : SReg) : Statement (.spawn d a) := by
  rintro c ⟨⟩
  exact ⟨(by decide : 0x68 < 256), (by decide : 0 < 15), Nat.lt_of_lt_of_le d.isLt (by decide), Nat.lt_of_lt_of_le a.isLt (by decide), (by decide : 0 < 32), (by decide : 0 < 32), by simp⟩
theorem jend : Statement .jend := by
  rintro c ⟨⟩
  exact ⟨(by decide : 0x68 < 256), (by decide : 1 < 15), (by decide : 0 < 32), (by decide : 0 < 32), (by decide : 0 < 32), (by decide : 0 < 32), by simp⟩
theorem jdead (d : SReg) : Statement (.jdead d) := by
  rintro c ⟨⟩
  exact ⟨(by decide : 0x68 < 256), (by decide : 2 < 15), Nat.lt_of_lt_of_le d.isLt (by decide), (by decide : 0 < 32), (by decide : 0 < 32), (by decide : 0 < 32), by simp⟩
theorem jtight (d : SReg) (a : SReg) : Statement (.jtight d a) := by
  rintro c ⟨⟩
  exact ⟨(by decide : 0x68 < 256), (by decide : 3 < 15), Nat.lt_of_lt_of_le d.isLt (by decide), Nat.lt_of_lt_of_le a.isLt (by decide), (by decide : 0 < 32), (by decide : 0 < 32), by simp⟩
theorem jwid (d : SReg) (a : SReg) (lvl : Fin 6) : Statement (.jwid d a lvl) := by
  rintro c ⟨⟩
  exact ⟨(by decide : 0x68 < 256), (by decide : 4 < 15), Nat.lt_of_lt_of_le d.isLt (by decide), Nat.lt_of_lt_of_le a.isLt (by decide), Nat.lt_of_lt_of_le lvl.isLt (by decide), (by decide : 0 < 32), by simp⟩
theorem jself (d : SReg) : Statement (.jself d) := by
  rintro c ⟨⟩
  exact ⟨(by decide : 0x68 < 256), (by decide : 5 < 15), Nat.lt_of_lt_of_le d.isLt (by decide), (by decide : 0 < 32), (by decide : 0 < 32), (by decide : 0 < 32), by simp⟩
theorem jabort (d : SReg) (a : SReg) : Statement (.jabort d a) := by
  rintro c ⟨⟩
  exact ⟨(by decide : 0x68 < 256), (by decide : 6 < 15), Nat.lt_of_lt_of_le d.isLt (by decide), Nat.lt_of_lt_of_le a.isLt (by decide), (by decide : 0 < 32), (by decide : 0 < 32), by simp⟩
theorem jinfo (d : SReg) (sel : Fin 8) : Statement (.jinfo d sel) := by
  rintro c ⟨⟩
  exact ⟨(by decide : 0x68 < 256), (by decide : 7 < 15), Nat.lt_of_lt_of_le d.isLt (by decide), (by decide : 0 < 32), Nat.lt_of_lt_of_le sel.isLt (by decide), (by decide : 0 < 32), by simp⟩
theorem msendrq (d : SReg) (a : SReg) (p : SReg) (n : Fin 9) : Statement (.msendrq d a p n) := by
  rintro c ⟨⟩
  exact ⟨(by decide : 0x70 < 256), (by decide : 0 < 15), Nat.lt_of_lt_of_le d.isLt (by decide), Nat.lt_of_lt_of_le a.isLt (by decide), Nat.lt_of_lt_of_le p.isLt (by decide), Nat.lt_of_lt_of_le n.isLt (by decide), by simp⟩
theorem msendrp (d : SReg) (a : SReg) (p : SReg) (n : Fin 9) : Statement (.msendrp d a p n) := by
  rintro c ⟨⟩
  exact ⟨(by decide : 0x70 < 256), (by decide : 1 < 15), Nat.lt_of_lt_of_le d.isLt (by decide), Nat.lt_of_lt_of_le a.isLt (by decide), Nat.lt_of_lt_of_le p.isLt (by decide), Nat.lt_of_lt_of_le n.isLt (by decide), by simp⟩
theorem mtag (d : SReg) (a : SReg) (mx : Fin 2) : Statement (.mtag d a mx) := by
  rintro c ⟨⟩
  exact ⟨(by decide : 0x70 < 256), (by decide : 2 < 15), Nat.lt_of_lt_of_le d.isLt (by decide), Nat.lt_of_lt_of_le a.isLt (by decide), Nat.lt_of_lt_of_le mx.isLt (by decide), (by decide : 0 < 32), by simp⟩
theorem men (a : SReg) : Statement (.men a) := by
  rintro c ⟨⟩
  exact ⟨(by decide : 0x70 < 256), (by decide : 3 < 15), (by decide : 0 < 32), Nat.lt_of_lt_of_le a.isLt (by decide), (by decide : 0 < 32), (by decide : 0 < 32), by simp⟩
theorem mdis (a : SReg) : Statement (.mdis a) := by
  rintro c ⟨⟩
  exact ⟨(by decide : 0x70 < 256), (by decide : 4 < 15), (by decide : 0 < 32), Nat.lt_of_lt_of_le a.isLt (by decide), (by decide : 0 < 32), (by decide : 0 < 32), by simp⟩
theorem mpend (d : SReg) : Statement (.mpend d) := by
  rintro c ⟨⟩
  exact ⟨(by decide : 0x70 < 256), (by decide : 5 < 15), Nat.lt_of_lt_of_le d.isLt (by decide), (by decide : 0 < 32), (by decide : 0 < 32), (by decide : 0 < 32), by simp⟩
theorem mclr (d : SReg) (a : SReg) : Statement (.mclr d a) := by
  rintro c ⟨⟩
  exact ⟨(by decide : 0x70 < 256), (by decide : 6 < 15), Nat.lt_of_lt_of_le d.isLt (by decide), Nat.lt_of_lt_of_le a.isLt (by decide), (by decide : 0 < 32), (by decide : 0 < 32), by simp⟩
theorem warm (d : SReg) (a : SReg) (b : SReg) (c : SReg) : Statement (.warm d a b c) := by
  rintro c ⟨⟩
  exact ⟨(by decide : 0x70 < 256), (by decide : 7 < 15), Nat.lt_of_lt_of_le d.isLt (by decide), Nat.lt_of_lt_of_le a.isLt (by decide), Nat.lt_of_lt_of_le b.isLt (by decide), Nat.lt_of_lt_of_le c.isLt (by decide), by simp⟩
theorem wpost (d : SReg) (a : SReg) (b : SReg) : Statement (.wpost d a b) := by
  rintro c ⟨⟩
  exact ⟨(by decide : 0x70 < 256), (by decide : 8 < 15), Nat.lt_of_lt_of_le d.isLt (by decide), Nat.lt_of_lt_of_le a.isLt (by decide), Nat.lt_of_lt_of_le b.isLt (by decide), (by decide : 0 < 32), by simp⟩
theorem wsig (a : SReg) (b : SReg) : Statement (.wsig a b) := by
  rintro c ⟨⟩
  exact ⟨(by decide : 0x70 < 256), (by decide : 9 < 15), (by decide : 0 < 32), Nat.lt_of_lt_of_le a.isLt (by decide), Nat.lt_of_lt_of_le b.isLt (by decide), (by decide : 0 < 32), by simp⟩
theorem wstat (d : SReg) (a : SReg) : Statement (.wstat d a) := by
  rintro c ⟨⟩
  exact ⟨(by decide : 0x70 < 256), (by decide : 10 < 15), Nat.lt_of_lt_of_le d.isLt (by decide), Nat.lt_of_lt_of_le a.isLt (by decide), (by decide : 0 < 32), (by decide : 0 < 32), by simp⟩
theorem binit (d : SReg) (a : SReg) (b : SReg) : Statement (.binit d a b) := by
  rintro c ⟨⟩
  exact ⟨(by decide : 0x70 < 256), (by decide : 11 < 15), Nat.lt_of_lt_of_le d.isLt (by decide), Nat.lt_of_lt_of_le a.isLt (by decide), Nat.lt_of_lt_of_le b.isLt (by decide), (by decide : 0 < 32), by simp⟩
theorem barrive (a : SReg) : Statement (.barrive a) := by
  rintro c ⟨⟩
  exact ⟨(by decide : 0x70 < 256), (by decide : 12 < 15), (by decide : 0 < 32), Nat.lt_of_lt_of_le a.isLt (by decide), (by decide : 0 < 32), (by decide : 0 < 32), by simp⟩
theorem bwait (d : SReg) (a : SReg) (b : SReg) : Statement (.bwait d a b) := by
  rintro c ⟨⟩
  exact ⟨(by decide : 0x70 < 256), (by decide : 13 < 15), Nat.lt_of_lt_of_le d.isLt (by decide), Nat.lt_of_lt_of_le a.isLt (by decide), Nat.lt_of_lt_of_le b.isLt (by decide), (by decide : 0 < 32), by simp⟩
theorem bsync (d : SReg) (a : SReg) : Statement (.bsync d a) := by
  rintro c ⟨⟩
  exact ⟨(by decide : 0x70 < 256), (by decide : 14 < 15), Nat.lt_of_lt_of_le d.isLt (by decide), Nat.lt_of_lt_of_le a.isLt (by decide), (by decide : 0 < 32), (by decide : 0 < 32), by simp⟩
theorem qopen (d : SReg) (a : SReg) (b : SReg) : Statement (.qopen d a b) := by
  rintro c ⟨⟩
  exact ⟨(by decide : 0x71 < 256), (by decide : 0 < 15), Nat.lt_of_lt_of_le d.isLt (by decide), Nat.lt_of_lt_of_le a.isLt (by decide), Nat.lt_of_lt_of_le b.isLt (by decide), (by decide : 0 < 32), by simp⟩
theorem qclose (d : SReg) (a : SReg) : Statement (.qclose d a) := by
  rintro c ⟨⟩
  exact ⟨(by decide : 0x71 < 256), (by decide : 1 < 15), Nat.lt_of_lt_of_le d.isLt (by decide), Nat.lt_of_lt_of_le a.isLt (by decide), (by decide : 0 < 32), (by decide : 0 < 32), by simp⟩
theorem qstat (d : SReg) (a : SReg) (sel : Fin 6) : Statement (.qstat d a sel) := by
  rintro c ⟨⟩
  exact ⟨(by decide : 0x71 < 256), (by decide : 2 < 15), Nat.lt_of_lt_of_le d.isLt (by decide), Nat.lt_of_lt_of_le a.isLt (by decide), Nat.lt_of_lt_of_le sel.isLt (by decide), (by decide : 0 < 32), by simp⟩
theorem trap (imm : Nat) : Statement (.trap imm) := by
  rintro c ⟨⟩
  exact ⟨(by decide : 0x78 < 256), (by decide : 0 < 15), (by decide : 0 < 32), by have := immBase_eight imm; simp only; omega, by simp only; omega, (by decide : 0 < 32), immWords_lt _ _ _⟩
theorem tret : Statement .tret := by
  rintro c ⟨⟩
  exact ⟨(by decide : 0x78 < 256), (by decide : 1 < 15), (by decide : 0 < 32), (by decide : 0 < 32), (by decide : 0 < 32), (by decide : 0 < 32), by simp⟩
theorem tretSkip : Statement .tretSkip := by
  rintro c ⟨⟩
  exact ⟨(by decide : 0x78 < 256), (by decide : 1 < 15), (by decide : 0 < 32), (by decide : 0 < 32), (by decide : 1 < 32), (by decide : 0 < 32), by simp⟩
theorem svc (d : SReg) (a : SReg) (b : SReg) : Statement (.svc d a b) := by
  rintro c ⟨⟩
  exact ⟨(by decide : 0x78 < 256), (by decide : 2 < 15), Nat.lt_of_lt_of_le d.isLt (by decide), Nat.lt_of_lt_of_le a.isLt (by decide), Nat.lt_of_lt_of_le b.isLt (by decide), (by decide : 0 < 32), by simp⟩
theorem gateinfo (d : SReg) (sel : Fin 7) : Statement (.gateinfo d sel) := by
  rintro c ⟨⟩
  exact ⟨(by decide : 0x78 < 256), (by decide : 3 < 15), Nat.lt_of_lt_of_le d.isLt (by decide), (by decide : 0 < 32), Nat.lt_of_lt_of_le sel.isLt (by decide), (by decide : 0 < 32), by simp⟩
theorem enmtr (d : SReg) (a : SReg) (kind : Fin 3) : Statement (.enmtr d a kind) := by
  rintro c ⟨⟩
  exact ⟨(by decide : 0x78 < 256), (by decide : 4 < 15), Nat.lt_of_lt_of_le d.isLt (by decide), Nat.lt_of_lt_of_le a.isLt (by decide), Nat.lt_of_lt_of_le kind.isLt (by decide), (by decide : 0 < 32), by simp⟩
theorem pgateGate (d : SReg) (a : SReg) : Statement (.pgateGate d a) := by
  rintro c ⟨⟩
  exact ⟨(by decide : 0x78 < 256), (by decide : 5 < 15), Nat.lt_of_lt_of_le d.isLt (by decide), Nat.lt_of_lt_of_le a.isLt (by decide), (by decide : 0 < 32), (by decide : 0 < 32), by simp⟩
theorem pgateUngate (d : SReg) (a : SReg) : Statement (.pgateUngate d a) := by
  rintro c ⟨⟩
  exact ⟨(by decide : 0x78 < 256), (by decide : 5 < 15), Nat.lt_of_lt_of_le d.isLt (by decide), Nat.lt_of_lt_of_le a.isLt (by decide), (by decide : 1 < 32), (by decide : 0 < 32), by simp⟩
theorem pgateQuery (d : SReg) (a : SReg) : Statement (.pgateQuery d a) := by
  rintro c ⟨⟩
  exact ⟨(by decide : 0x78 < 256), (by decide : 5 < 15), Nat.lt_of_lt_of_le d.isLt (by decide), Nat.lt_of_lt_of_le a.isLt (by decide), (by decide : 2 < 32), (by decide : 0 < 32), by simp⟩
theorem halt (a : SReg) : Statement (.halt a) := by
  rintro c ⟨⟩
  exact ⟨(by decide : 0x78 < 256), (by decide : 6 < 15), (by decide : 0 < 32), Nat.lt_of_lt_of_le a.isLt (by decide), (by decide : 0 < 32), (by decide : 0 < 32), by simp⟩
theorem ctxsave (d : SReg) (a : SReg) (b : SReg) : Statement (.ctxsave d a b) := by
  rintro c ⟨⟩
  exact ⟨(by decide : 0x78 < 256), (by decide : 7 < 15), Nat.lt_of_lt_of_le d.isLt (by decide), Nat.lt_of_lt_of_le a.isLt (by decide), Nat.lt_of_lt_of_le b.isLt (by decide), (by decide : 0 < 32), by simp⟩
theorem ctxload (d : SReg) (a : SReg) (b : SReg) : Statement (.ctxload d a b) := by
  rintro c ⟨⟩
  exact ⟨(by decide : 0x78 < 256), (by decide : 8 < 15), Nat.lt_of_lt_of_le d.isLt (by decide), Nat.lt_of_lt_of_le a.isLt (by decide), Nat.lt_of_lt_of_le b.isLt (by decide), (by decide : 0 < 32), by simp⟩
theorem tlbinv (a : SReg) (b : SReg) : Statement (.tlbinv a b) := by
  rintro c ⟨⟩
  exact ⟨(by decide : 0x78 < 256), (by decide : 9 < 15), (by decide : 0 < 32), Nat.lt_of_lt_of_le a.isLt (by decide), Nat.lt_of_lt_of_le b.isLt (by decide), (by decide : 0 < 32), by simp⟩
theorem idle (a : SReg) : Statement (.idle a) := by
  rintro c ⟨⟩
  exact ⟨(by decide : 0x78 < 256), (by decide : 10 < 15), (by decide : 0 < 32), Nat.lt_of_lt_of_le a.isLt (by decide), (by decide : 0 < 32), (by decide : 0 < 32), by simp⟩
theorem brk (imm : Byte) : Statement (.brk imm) := by
  rintro c ⟨⟩
  exact ⟨(by decide : 0x78 < 256), (by decide : 11 < 15), (by decide : 0 < 32), by simp only; omega, by simp only; omega, (by decide : 0 < 32), by simp⟩
theorem rsvadd (d : SReg) (a : SReg) : Statement (.rsvadd d a) := by
  rintro c ⟨⟩
  exact ⟨(by decide : 0x78 < 256), (by decide : 12 < 15), Nat.lt_of_lt_of_le d.isLt (by decide), Nat.lt_of_lt_of_le a.isLt (by decide), (by decide : 0 < 32), (by decide : 0 < 32), by simp⟩
theorem vectorStart (cx : Nat) : Statement (.vectorStart cx) := by rintro c ⟨⟩
theorem vectorComplete (cx : Nat) : Statement (.vectorComplete cx) := by rintro c ⟨⟩
theorem scalarLoadReturn (cx : Nat) (idx : Nat) : Statement (.scalarLoadReturn cx idx) := by rintro c ⟨⟩
theorem storePerformed (cx : Nat) (idx : Nat) : Statement (.storePerformed cx idx) := by rintro c ⟨⟩
theorem mxCmdBegin (core : Nat) : Statement (.mxCmdBegin core) := by rintro c ⟨⟩
theorem mxRowReady (core : Nat) (z : ZReg) (row : Nat) : Statement (.mxRowReady core z row) := by rintro c ⟨⟩
theorem mxCmdComplete (core : Nat) : Statement (.mxCmdComplete core) := by rintro c ⟨⟩
theorem mxShareTimeout (core : Nat) : Statement (.mxShareTimeout core) := by rintro c ⟨⟩
theorem waitSatisfied (cx : Nat) : Statement (.waitSatisfied cx) := by rintro c ⟨⟩
theorem idleExpire (cx : Nat) : Statement (.idleExpire cx) := by rintro c ⟨⟩
theorem deadlineComparator (cx : Nat) : Statement (.deadlineComparator cx) := by rintro c ⟨⟩
theorem abandonAction (h : Nat) : Statement (.abandonAction h) := by rintro c ⟨⟩
theorem queuedDeadlinePass (q : QueuedRef) : Statement (.queuedDeadlinePass q) := by rintro c ⟨⟩
theorem reservationRelease (r : Nat) : Statement (.reservationRelease r) := by rintro c ⟨⟩
theorem budgetUpdate : Statement .budgetUpdate := by rintro c ⟨⟩
theorem governorDispatch (k : Nat) : Statement (.governorDispatch k) := by rintro c ⟨⟩
theorem loadAveraging (k : Nat) : Statement (.loadAveraging k) := by rintro c ⟨⟩
theorem jobMoveArrive (idx : Nat) : Statement (.jobMoveArrive idx) := by rintro c ⟨⟩
theorem amArrival (m : AmSource) : Statement (.amArrival m) := by rintro c ⟨⟩
theorem amAnswer (idx : Nat) : Statement (.amAnswer idx) := by rintro c ⟨⟩
theorem emptyRelease (r : ReleaseSource) : Statement (.emptyRelease r) := by rintro c ⟨⟩
theorem engDelivery (m : EngIn) : Statement (.engDelivery m) := by rintro c ⟨⟩
theorem gmsgMerge (m : GmSource) : Statement (.gmsgMerge m) := by rintro c ⟨⟩
theorem weirArrival (idx : Nat) : Statement (.weirArrival idx) := by rintro c ⟨⟩
theorem weirPacketMake (idx : Nat) : Statement (.weirPacketMake idx) := by rintro c ⟨⟩
theorem barrierArrival (idx : Nat) : Statement (.barrierArrival idx) := by rintro c ⟨⟩
theorem sweep : Statement .sweep := by rintro c ⟨⟩
theorem groupCompletionSend (g : Nat) : Statement (.groupCompletionSend g) := by rintro c ⟨⟩
theorem engineCmdArrive (idx : Nat) : Statement (.engineCmdArrive idx) := by rintro c ⟨⟩
theorem engineAnswer (idx : Nat) : Statement (.engineAnswer idx) := by rintro c ⟨⟩
theorem ldpcDecode (e : Nat) : Statement (.ldpcDecode e) := by rintro c ⟨⟩
theorem ldpcEncode (e : Nat) : Statement (.ldpcEncode e) := by rintro c ⟨⟩
theorem polarDecode (e : Nat) : Statement (.polarDecode e) := by rintro c ⟨⟩
theorem polarEncode (e : Nat) : Statement (.polarEncode e) := by rintro c ⟨⟩
theorem rateDematch (e : Nat) : Statement (.rateDematch e) := by rintro c ⟨⟩
theorem rateMatch (e : Nat) : Statement (.rateMatch e) := by rintro c ⟨⟩
theorem crcCheck (e : Nat) : Statement (.crcCheck e) := by rintro c ⟨⟩
theorem engineCompletion (e : Nat) : Statement (.engineCompletion e) := by rintro c ⟨⟩
theorem streamChunkServe (k : Nat) (idx : Nat) : Statement (.streamChunkServe k idx) := by rintro c ⟨⟩
theorem chunkDone (k : Nat) (idx : Nat) : Statement (.chunkDone k idx) := by rintro c ⟨⟩
theorem ethFrameReceive (port : Nat) (frame : EthFrame) : Statement (.ethFrameReceive port frame) := by rintro c ⟨⟩
theorem rowCloseTimeout (port : Nat) (g : Nat) : Statement (.rowCloseTimeout port g) := by rintro c ⟨⟩
theorem rowSlotFill (port : Nat) (g : Nat) : Statement (.rowSlotFill port g) := by rintro c ⟨⟩
theorem overrunRowFill (port : Nat) (g : Nat) : Statement (.overrunRowFill port g) := by rintro c ⟨⟩
theorem cplaneTransmit (port : Nat) (put : Option EthFrame) : Statement (.cplaneTransmit port put) := by rintro c ⟨⟩
theorem windowStart (u : TimeUnit) : Statement (.windowStart u) := by rintro c ⟨⟩
theorem edgeGuard (core : Nat) : Statement (.edgeGuard core) := by rintro c ⟨⟩
theorem edgeSwapComplete (core : Nat) : Statement (.edgeSwapComplete core) := by rintro c ⟨⟩
theorem coreRepower (core : Nat) : Statement (.coreRepower core) := by rintro c ⟨⟩
theorem loanStart (core : Nat) : Statement (.loanStart core) := by rintro c ⟨⟩
theorem loanEnd (core : Nat) : Statement (.loanEnd core) := by rintro c ⟨⟩
theorem tableEpoch : Statement .tableEpoch := by rintro c ⟨⟩
theorem svcCallArrive (idx : Nat) : Statement (.svcCallArrive idx) := by rintro c ⟨⟩
theorem svcAnswer (idx : Nat) : Statement (.svcAnswer idx) := by rintro c ⟨⟩
theorem internalCall (sl : Nat) (dst : Nat) (ws : List Word) : Statement (.internalCall sl dst ws) := by rintro c ⟨⟩
theorem nop (sl : Nat) : Statement (.nop sl) := by rintro c ⟨⟩
theorem rsvAdd (sl : Nat) : Statement (.rsvAdd sl) := by rintro c ⟨⟩
theorem rsvRemove (sl : Nat) : Statement (.rsvRemove sl) := by rintro c ⟨⟩
theorem counter (sl : Nat) : Statement (.counter sl) := by rintro c ⟨⟩
theorem mapObject (sl : Nat) : Statement (.mapObject sl) := by rintro c ⟨⟩
theorem unmapObject (sl : Nat) : Statement (.unmapObject sl) := by rintro c ⟨⟩
theorem harvest (sl : Nat) : Statement (.harvest sl) := by rintro c ⟨⟩
theorem harvestAuto (t : Nat) (obj : Nat) : Statement (.harvestAuto t obj) := by rintro c ⟨⟩
theorem objectFaultServe (sl : Nat) : Statement (.objectFaultServe sl) := by rintro c ⟨⟩
theorem queueBind (sl : Nat) : Statement (.queueBind sl) := by rintro c ⟨⟩
theorem queueUnbind (sl : Nat) : Statement (.queueUnbind sl) := by rintro c ⟨⟩
theorem tableLoad (sl : Nat) : Statement (.tableLoad sl) := by rintro c ⟨⟩
theorem quarClear (sl : Nat) : Statement (.quarClear sl) := by rintro c ⟨⟩
theorem sweepSet (sl : Nat) : Statement (.sweepSet sl) := by rintro c ⟨⟩
theorem logSet (sl : Nat) : Statement (.logSet sl) := by rintro c ⟨⟩
theorem imageLoad (sl : Nat) : Statement (.imageLoad sl) := by rintro c ⟨⟩
theorem flumeSet (sl : Nat) : Statement (.flumeSet sl) := by rintro c ⟨⟩
theorem groupSet (sl : Nat) : Statement (.groupSet sl) := by rintro c ⟨⟩
theorem poisonClear (sl : Nat) : Statement (.poisonClear sl) := by rintro c ⟨⟩
theorem biasSet (sl : Nat) : Statement (.biasSet sl) := by rintro c ⟨⟩
theorem linkDump (sl : Nat) : Statement (.linkDump sl) := by rintro c ⟨⟩
theorem twinExport (sl : Nat) : Statement (.twinExport sl) := by rintro c ⟨⟩
theorem debugOpen (sl : Nat) : Statement (.debugOpen sl) := by rintro c ⟨⟩
theorem debugClose (sl : Nat) : Statement (.debugClose sl) := by rintro c ⟨⟩
theorem debugRead (sl : Nat) : Statement (.debugRead sl) := by rintro c ⟨⟩
theorem debugWrite (sl : Nat) : Statement (.debugWrite sl) := by rintro c ⟨⟩
theorem debugResume (sl : Nat) : Statement (.debugResume sl) := by rintro c ⟨⟩
theorem hlqdb (q : Nat) (tail : Nat) : Statement (.hlqdb q tail) := by rintro c ⟨⟩
theorem biasreq (v : Word) : Statement (.biasreq v) := by rintro c ⟨⟩
theorem hostsig : Statement .hostsig := by rintro c ⟨⟩
theorem hostsigw (v : Word) : Statement (.hostsigw v) := by rintro c ⟨⟩
theorem registerWrite (off : Nat) (v : Word) : Statement (.registerWrite off v) := by rintro c ⟨⟩
theorem hostMemAccess (acc : HostAccess) : Statement (.hostMemAccess acc) := by rintro c ⟨⟩
theorem hostSnoop (line : Nat) (excl : Bool) : Statement (.hostSnoop line excl) := by rintro c ⟨⟩
theorem hostLinkDown : Statement .hostLinkDown := by rintro c ⟨⟩
theorem twinPair (grants : List TwinGrant) : Statement (.twinPair grants) := by rintro c ⟨⟩
theorem twinLinkDown : Statement .twinLinkDown := by rintro c ⟨⟩
theorem spdmMeasurements : Statement .spdmMeasurements := by rintro c ⟨⟩
theorem powerOn : Statement .powerOn := by rintro c ⟨⟩
theorem deviceReset : Statement .deviceReset := by rintro c ⟨⟩
theorem bootImageVerify (u : ImageUnit) (image : List Byte) (good : Bool) : Statement (.bootImageVerify u image good) := by rintro c ⟨⟩
theorem channelTrained (c : Nat) (units : Nat) : Statement (.channelTrained c units) := by rintro c ⟨⟩
theorem clusterReady (k : Nat) : Statement (.clusterReady k) := by rintro c ⟨⟩
theorem headracePortReady (port : Nat) : Statement (.headracePortReady port) := by rintro c ⟨⟩
theorem ptpFirstLock (t : Nat) : Statement (.ptpFirstLock t) := by rintro c ⟨⟩
theorem ptpLockLoss : Statement .ptpLockLoss := by rintro c ⟨⟩
theorem ptpLockRegained : Statement .ptpLockRegained := by rintro c ⟨⟩
theorem dvfsStepChange (step : Nat) : Statement (.dvfsStepChange step) := by rintro c ⟨⟩
theorem powerCapCheck : Statement .powerCapCheck := by rintro c ⟨⟩
theorem energyMeterUpdate : Statement .energyMeterUpdate := by rintro c ⟨⟩
theorem ungateComplete (u : GateUnit) : Statement (.ungateComplete u) := by rintro c ⟨⟩
theorem stillEnter : Statement .stillEnter := by rintro c ⟨⟩
theorem channelWake (c : Nat) : Statement (.channelWake c) := by rintro c ⟨⟩
theorem lpddrScrub (sl : Nat) (w : Nat) : Statement (.lpddrScrub sl w) := by rintro c ⟨⟩
theorem sramScrub (x : ScrubTarget) : Statement (.sramScrub x) := by rintro c ⟨⟩
theorem illegalInstruction : Statement .illegalInstruction := by rintro c ⟨⟩
theorem prefixChain : Statement .prefixChain := by rintro c ⟨⟩
theorem fetchFault (exec : Bool) (va : Word) : Statement (.fetchFault exec va) := by rintro c ⟨⟩
theorem hostLinkUp : Statement .hostLinkUp := by rintro c ⟨⟩
theorem twinMemoryAccess (acc : TwinAccess) : Statement (.twinMemoryAccess acc) := by rintro c ⟨⟩
theorem hdmWindowSet (hb : Nat) (hs : Nat) : Statement (.hdmWindowSet hb hs) := by rintro c ⟨⟩

end Sys2Proof.Laws.Encoding
end

