-- ==== Sys2Proof/Laws/Service.lean ====
section
/-! SUPPORT. What a turn of a service core can do: the steps of a call before its last, and what charging a turn changes. -/

namespace Sys2Proof.Machine
open Sys2Proof

variable (s : State) (sl : Nat) (t : SvcTurn)

/-- A step of a service core changes its queues as it is told, its credits and registers, the count of MSI-X messages and the draws of
the free values, and nothing else (R365, R375, R382). -/
theorem State.svcCharge_frame (q : SvcCore) : ∃ q' m, q'.calls = q.calls ∧ q'.faults = q.faults ∧ s.svcCharge sl t q =
    { s with
      sched := { s.sched with draws := s.sched.draws + 4 }, svc := s.svc.set {} sl q', host := { s.host with msix := m } } := by
  have h (b : Bool) (v : Nat) : ∃ m, (if b then { s.host with msix := s.host.msix.set 0 v (s.host.msix.get 0 v + 1) } else s.host) =
      { s.host with msix := m } := by cases b; exacts [⟨_, rfl⟩, ⟨_, rfl⟩]
  obtain ⟨m, h⟩ := h (s.host.up && decide (Config.freeNat (s.sched.draws + 3) < 64)) (Config.freeNat (s.sched.draws + 3))
  let credit := t.credit.set 0 t.owner
    (if q.busy t.owner then t.credit.get 0 t.owner - (Config.freeNat (s.sched.draws + 1) % 20000 + 1 : Nat) else 0)
  let q' : SvcCore := { q with last := t.owner, credit := credit, hart := Hart.free (Config.freeNat (s.sched.draws + 2)) s.telemetry }
  exact ⟨q', m, rfl, rfl, congrArg (fun x =>
    ({ s with sched := { s.sched with draws := s.sched.draws + 4 }, svc := s.svc.set {} sl q', host := x } : State)) h⟩

/-- A turn takes its piece of work out of the core's queues. -/
theorem State.svcTake_frame : ∃ q m, s.svcTake sl t =
    { s with
      sched := { s.sched with draws := s.sched.draws + 4 }, svc := s.svc.set {} sl q, host := { s.host with msix := m } } ∧
    (match t.work with
     | .fault i => q.faults = (s.svc.get {} sl).faults.eraseIdx i ∧ q.calls = (s.svc.get {} sl).calls
     | .call i => q.calls = (s.svc.get {} sl).calls.eraseIdx i ∧ q.faults = (s.svc.get {} sl).faults) := by
  unfold State.svcTake
  cases t.work with
  | fault i =>
    obtain ⟨q, m, h1, h2, h3⟩ := s.svcCharge_frame sl t { s.svc.get {} sl with faults := (s.svc.get {} sl).faults.eraseIdx i }
    exact ⟨q, m, h3, h2, h1⟩
  | call i =>
    obtain ⟨q, m, h1, h2, h3⟩ := s.svcCharge_frame sl t { s.svc.get {} sl with calls := (s.svc.get {} sl).calls.eraseIdx i }
    exact ⟨q, m, h3, h1, h2⟩

theorem State.svcTake_mem : (s.svcTake sl t).mem = s.mem := by obtain ⟨q, m, h, -⟩ := s.svcTake_frame sl t; rw [h]
theorem State.svcTake_jobs : (s.svcTake sl t).jobs = s.jobs := by obtain ⟨q, m, h, -⟩ := s.svcTake_frame sl t; rw [h]
theorem State.svcTake_ctxs : (s.svcTake sl t).ctxs = s.ctxs := by obtain ⟨q, m, h, -⟩ := s.svcTake_frame sl t; rw [h]

variable (ok : Nat → Bool) (k : SvcTurn → Nat → Call → List Nat → Out) (i : Nat) (c : Call)

/-- The steps of a call: its first reads its block, one before the last only takes time, one with an answer from instance 0 completes,
and the last is that of its function (R370, R374, R375). -/
theorem State.svcLast_turn (ht : s.svcTurn sl = some t) (hw : t.work = .call i) (hc : (s.svc.get {} sl).calls[i]? = some c) :
    (c.work = none → s.svcLast sl ok k = .next (s.svcBegin sl t i c)) ∧
    (∀ ws n, c.work = some (ws, n + 1) → s.svcLast sl ok k = .next (s.svcKeep sl t i { c with work := some (ws, n) })) ∧
    (∀ ws r, c.work = some (ws, 0) → c.answer = some r → s.svcLast sl ok k = .next ((s.svcTake sl t).svcFinish sl c ws r)) ∧
    ∀ ws, c.work = some (ws, 0) → c.answer = none → s.svcLast sl ok k = if ok (ws.getD 0 0) then k t i c ws else .next s := by
  refine ⟨fun h => ?_, fun ws n h => ?_, fun ws r h h2 => ?_, fun ws h h2 => ?_⟩ <;> simp only [State.svcLast, ht, hw, hc, h]
  · rw [h2]
  · rw [h2]

/-- A permitted function's last step at once. -/
theorem State.svcServe_last (who : Caller) (fn : State → Call → (Nat → Nat) → SvcResult) (ws : List Nat) (ht : s.svcTurn sl = some t)
    (hw : t.work = .call i) (hc : (s.svc.get {} sl).calls[i]? = some c) (h : c.work = some (ws, 0)) (h2 : c.answer = none)
    (hok : ok (ws.getD 0 0) = true) (hwho : who.allows c.tenant = true) :
    s.svcServe sl ok who fn = .next ((fn (s.svcTake sl t) c fun j => ws.getD (2 + j) 0).2.svcFinish sl c ws
      (fn (s.svcTake sl t) c fun j => ws.getD (2 + j) 0).1) := by
  rw [State.svcServe, State.svcServeWhen, (s.svcLast_turn sl t ok _ i c ht hw hc).2.2.2 ws h h2, if_pos hok]
  simp [hwho]

end Sys2Proof.Machine
end

