-- ==== Sys2Proof/Laws/Turn.lean ====
section
/-! SUPPORT. What a step can do: time passes, an event that is due comes first, and a turn that waits has no effect. -/

namespace Sys2Proof.Machine
open Sys2Proof

variable (s : State)

/-- All that the passing of time can change: the step number, the clocks, an evicted line, and the notes on the mesh and the sweeps. -/
theorem State.tick_frame : s.tick = { s with
    sched := { s.sched with steps := s.sched.steps + 1, held := none }
    time := { s.time with ref := s.time.ref + Config.elapsed s.sched.steps, cycles := s.time.cycles + Config.cycles s.sched.steps }
    mem := s.tick.mem, stale := s.tick.stale, lastSweep := s.tick.lastSweep
    power := { s.power with lastMesh := s.tick.power.lastMesh } } := by exact rfl

@[simp] theorem State.tick_supplies : s.tick.power.supplies = s.power.supplies := by rw [State.tick_frame]
@[simp] theorem State.tick_ctxs : s.tick.ctxs = s.ctxs := by exact rfl
@[simp] theorem State.tick_jobs : s.tick.jobs = s.jobs := by exact rfl
@[simp] theorem State.tick_sluice : s.tick.sluice = s.sluice := by exact rfl
@[simp] theorem State.tick_cur : s.tick.curCtx = s.curCtx := by exact rfl

theorem State.tick_wf (h : s.mem.wf = true) : s.tick.mem.wf = true := State.wf_evict _ h

/-- A wait for a home changes the power state alone. -/
theorem State.await_frame (p : Nat) : s.await p = { s with power := (s.await p).power } := by
  unfold State.await
  dsimp only
  split <;> rfl

/-- A turn that has a next state either gives it, or waits. -/
theorem State.settle_next (t : State) (k : State → Out) :
    (t.sched.held = none → s.settle (.next t) k = .next t) ∧ ∀ p, t.sched.held = some p → s.settle (.next t) k = k (s.await p) := by
  refine ⟨fun h => ?_, fun p h => ?_⟩ <;> simp only [State.settle, h]

/-- With nothing due a step is the turn of the agenda's head, or of what is pending. -/
theorem step_turn (h : s.tick.overdue s.tick.takeTurn.1 = []) : step s = s.tick.turn := by
  rw [step, h]; rfl

/-- The first event due takes the step, or waits and leaves it to the next. -/
theorem step_due (i : Instr) (is : List Instr) (h : s.tick.overdue s.tick.takeTurn.1 = i :: is) :
    step s = s.tick.settle (exec i s.tick) (State.serve State.turn is) := by
  rw [step, h]; rfl

/-- The agenda's head has the turn. -/
theorem State.takeTurn_agenda (t : Turn) (ts : List Turn) (h : s.sched.agenda = t :: ts) :
    s.takeTurn = (t, { s with sched := { s.sched with agenda := ts } }) := by
  simp only [State.takeTurn, h]

/-- Without supplies nothing is due, and POWER_ON alone acts (R430). -/
theorem State.overdue_off (t : Turn) (h : s.power.supplies = false) : s.overdue t = [] := by
  simp [State.overdue, h]

/-- A context without a guessed branch, for which nothing is due and no handler of the micro-kernel begins, issues (R82, R287, R336). -/
theorem State.runTurn_issue (cx : Nat) (a b : State) (h1 : (s.ctx cx).guess = none) (h2 : s.mayIssue cx = true)
    (h3 : s.windowDue (clusterOf (coreOf cx)) = (false, a)) (h4 : a.comparatorLate cx = (false, b)) (h5 : b.kernelHere cx = false) :
    s.runTurn cx = (b.atTurn cx).issue := by
  simp [State.runTurn, State.decideBranch, State.goOn, h1, h2, h3, h4, h5]

/-- The chain at the context's pc decodes, and its instruction is executed with its length (R54, R63). -/
theorem State.issue_decoded (ws : List Nat) (t : State) (i : Instr) (n : Nat) (h : s.fetchChain s.sched.cur s.curCtx.pc = (.chain ws, t))
    (hd : decode ws = .ok (i, n)) : s.issue = exec i { t with sched := { t.sched with ilen := n } } := by
  simp only [State.issue, h, hd]

end Sys2Proof.Machine
end

