-- ==== Sys2Proof/Tests/Slice0.lean ====
section
/-! SUPPORT. Tests: words written out from the encoding tables, ill-formed terms, single results, and for every obligation with
hypotheses a state and operands that meet them. -/

namespace Sys2Proof.Tests
set_option Elab.async false
open Sys2Proof Sys2Proof.Machine Sys2Proof.Claims

/-! ### States -/

/-- A running best-effort job of tenant 0 in context 0, with one page of code and data at virtual address 0. -/
def ready : State := State.reset.withFetchWord 16 0

/-- Memory with some words: address, size, value. -/
def words (ws : List (Nat × Nat × Nat)) (m : Memory) : Memory := ws.foldl (fun m x => m.writeN x.1 x.2.1 x.2.2) m

/-- One window of 100 µs whose resources tenant 0 owns, with 256 KiB for it in core 0 and 64 KiB in cluster 0. -/
def table : Table :=
  { img := words [(0x08, 8, 100000), (0x18, 8, 257), (0x48, 4, 100000), (0x11100, 4, 0x20000), (0x1D000, 4, 32768), (0x11040, 2, 0x0404),
      (0x110C0, 1, 4)] [] }

/-- The same job with a table in force and every memory channel trained. -/
def owned : State :=
  { ready with sluice := { ready.sluice with table := some table, inForce := true, clusterWin := [(0, some { cycle := 0, idx := 0 })] } }


/-- Some registers of the context. -/
def withRegs (s : State) (rs : List (SReg × Nat)) : State :=
  s.modCtx 0 fun c => rs.foldl (fun c x => c.setReg x.1 (BitVec.ofNat 64 x.2)) c

/-- In supervisor mode. -/
def kernelMode (s : State) : State := s.modCtx 0 fun c => { c with mode := .supervisor, depth := 1, tstatus := 1 }

/-- With the matrix unit of its core. -/
def withUnit (s : State) : State := s.modCore 0 fun k => { k with mx := { k.mx with job := some 1 } }

/-- Claims.Quiet as a test. -/
def quietB (s : State) : Bool :=
  let c := s.curCtx
  decide (s.sched.cur < numCtx) && c.vq.isEmpty && c.undo.isEmpty && c.ahead.isEmpty && c.loads.isEmpty && c.stores.isEmpty &&
    c.fences.isEmpty && c.ops.isEmpty && c.guess.isNone && c.badRegs.isEmpty && c.vecEcc.isEmpty && (match s.mxOf s.sched.cur c with
      | some m => m.queue.isEmpty
      | none => true) && !s.schurTaken s.sched.cur

theorem quiet_of (s : State) (h : quietB s = true) : Quiet s := by
  simp only [quietB, Bool.and_eq_true, decide_eq_true_eq, List.isEmpty_iff, Option.isNone_iff_eq_none] at h
  obtain ⟨⟨⟨⟨⟨⟨⟨⟨⟨⟨⟨⟨h1, h2⟩, h3⟩, h4⟩, h5⟩, h6⟩, h7⟩, h8⟩, h9⟩, h10⟩, h11⟩, h12⟩, h13⟩ := h
  refine ⟨h1, h2, h3, h4, h5, h6, h7, h8, h9, h10, h11, fun m hm => ?_, by simpa using h13⟩
  rw [hm] at h12
  simpa using h12

theorem quiet_ready : Quiet ready := quiet_of _ (by decide +kernel)
theorem quiet_owned : Quiet owned := quiet_of _ (by decide +kernel)

/-- A held instruction of the context can issue, as a test. -/
theorem held_of (s : State) (rs ws : List SReg) (h : (decide (s.sched.cur < numCtx) && s.curCtx.canIssueHeld rs ws &&
    (s.curCtx.badRead rs).isNone) = true) : HeldReady s rs ws := by
  simp only [Bool.and_eq_true, decide_eq_true_eq, Option.isNone_iff_eq_none] at h
  exact ⟨h.1.1, h.1.2, h.2⟩

/-- The same where a trap of the instruction could be entered. -/
theorem clear_of (s : State) (rs ws : List SReg) (h : (decide (s.sched.cur < numCtx) && s.curCtx.canIssueHeld rs ws &&
    (s.curCtx.badRead rs).isNone && !s.trapHeld s.sched.cur s.curCtx) = true) : HeldClear s rs ws := by
  rw [Bool.and_eq_true] at h
  exact ⟨held_of s rs ws h.1, by simpa using h.2⟩

theorem free_of (s : State) (rs ws : List SReg) (vl : Bool) (h : (decide (s.sched.cur < numCtx) && s.curCtx.canIssue rs ws vl &&
    (s.curCtx.badRead rs).isNone) = true) : FreeReady s rs ws vl := by
  simp only [Bool.and_eq_true, decide_eq_true_eq, Option.isNone_iff_eq_none] at h
  exact ⟨h.1.1, h.1.2, h.2⟩

/-! ### Decoding: the words stand in the spec's worked examples and encoding tables (03_encoding.md, R55 to R69) -/

theorem test_decode_li : decode [0xF003, 0x75E8] = .ok (.li 5 1000, 2) ∧ decode [0xF3FC, 0x7518] = .ok (.li 5 (-1000), 2) ∧
    decode [0x7703] = .ok (.li 7 3, 1) := by decide +kernel
theorem test_decode_chain_of_four : decode [0xF840, 0xF680, 0xFE5F, 0x0431] =
    .ok (.vadd 20 3 17 { mask := some (2, true), fo := none }, 4) := by decide +kernel
theorem test_decode_jump_into_chain : decode [0xF680, 0xFE5F, 0x0431] = .error .illegal := by decide +kernel
theorem test_decode_scalar_loads : decode [0x8530] = .ok (.ldd 5 3 0, 1) ∧ decode [0x8631] = .ok (.ldd 6 3 1, 1) := by decide +kernel
theorem test_decode_vector_loop : decode [0xE852] = .ok (.setvl 8 5 .i32, 1) ∧ decode [0xF84C, 0x1170] = .ok (.vsplat 1 7 {}, 2) ∧
    decode [0xF948, 0x1160] = .ok (.vst 1 6 {}, 2) ∧ decode [0xF80C, 0xF3FE, 0x6560] = .ok (.loopsm 5 6 0 (-2), 3) ∧
    decode [0xF9A0, 0x1000] = .ok (.jend, 2) := by decide +kernel
theorem test_decode_scalar_pages : decode [0xF804, 0x5123] = .ok (.mul 1 2 3, 2) ∧
    decode [0xF808, 0xF410, 0xE123] = .ok (.select 1 2 3 4, 3) ∧ decode [0xF80C, 0xA102] = .ok (.rdcnt 1 2, 2) ∧
    decode [0xF80C, 0xB123] = .ok (.waitc 1 2 3 15 15, 2) := by decide +kernel
theorem test_decode_vector_pages : decode [0xF844, 0x6120] = .ok (.vabs 1 2 {}, 2) ∧ decode [0xF848, 0x0123] = .ok (.vceq 1 2 3 {}, 2) ∧
    decode [0xF848, 0x8123] = .ok (.mand 1 2 3, 2) ∧ decode [0xF850, 0x5120] = .ok (.vwidenlo 1 2 0 {}, 2) := by decide +kernel
theorem test_decode_complex_pages : decode [0xF8C0, 0x2123] = .ok (.vcmul 1 2 3 {}, 2) ∧ decode [0xF8C4, 0x5120] = .ok (.vdrev 1 2 0 {}, 2) ∧
    decode [0xF8C8, 0x3120] = .ok (.vhchol 1 2 {}, 2) := by decide +kernel
theorem test_decode_matrix_page : decode [0xF900, 0x1123] = .ok (.mma 1 2 3, 2) ∧ decode [0xF900, 0xD102] = .ok (.mxstat 1 2, 2) := by
  decide +kernel
theorem test_decode_gauss_page : decode [0xF920, 0x2212] = .ok (.gld 2 1 2, 2) ∧ decode [0xF920, 0x2112] = .error .illegal := by
  decide +kernel
theorem test_decode_memory_pages : decode [0xF940, 0x8123] = .ok (.sw 1 2 3, 2) ∧ decode [0xF944, 0x0123] = .ok (.amoadd 1 2 3 false, 2) ∧
    decode [0xF944, 0xF802, 0x0123] = .error .illegal ∧ decode [0xF948, 0x0120] = .ok (.vld 1 2 {}, 2) := by decide +kernel
theorem test_decode_stream_page : decode [0xF980, 0x6120] = .ok (.flpop 1 2, 2) ∧ decode [0xF980, 0xA120] = .ok (.ecmd 1 2, 2) := by
  decide +kernel
theorem test_decode_job_and_message_pages : decode [0xF9A0, 0x0120] = .ok (.spawn 1 2, 2) ∧ decode [0xF9C0, 0x9012] = .ok (.wsig 1 2, 2) ∧
    decode [0xF9C4, 0x0123] = .ok (.qopen 1 2 3, 2) := by decide +kernel
theorem test_decode_system_page : decode [0xF9E0, 0x1000] = .ok (.tret, 2) ∧ decode [0xF9E0, 0x2123] = .ok (.svc 1 2 3, 2) := by
  decide +kernel
theorem test_decode_refusals : decode [0xF814, 0x0000] = .error .illegal ∧ decode [0xF8C8, 0xA120] = .error .illegal ∧
    decode [0xD004] = .error .illegal ∧ decode [0xF000, 0xF000, 0xF000, 0xF000, 0xF000, 0x7000] = .error .prefixChain := by decide +kernel

/-! ### Terms with no encoding, each refused by one check of Instr.wellFormed -/

theorem test_illformed_signed : Instr.wellFormed (.addi 1 2 (2 ^ 43)) = false ∧ Instr.wellFormed (.li 20 (2 ^ 37)) = false ∧
    Instr.wellFormed (.loopsm 5 6 0 (2 ^ 29)) = false := by decide +kernel
theorem test_illformed_unsigned : Instr.wellFormed (.ldd 1 2 (2 ^ 44)) = false ∧ Instr.wellFormed (.trap (2 ^ 18)) = false := by
  decide +kernel
theorem test_illformed_amount : Instr.wellFormed (.slli 1 2 64) = false := by decide +kernel
theorem test_illformed_high_half : Instr.wellFormed (.lih 1 2 65536) = false := by decide +kernel
theorem test_illformed_loop : Instr.wellFormed (.loopsm 5 0 0 0) = false ∧ Instr.wellFormed (.loopsm 5 30 2 0) = false ∧
    Instr.wellFormed (.loopsm 5 4 1 0) = false := by decide +kernel
theorem test_illformed_payload : Instr.wellFormed (.msendrq 1 2 3 0) = false ∧ Instr.wellFormed (.msendrp 1 2 28 5) = false := by
  decide +kernel
theorem test_illformed_pair : Instr.wellFormed (.gsend 1 3 2) = false ∧ Instr.wellFormed (.gsendc 1 2 0) = false := by decide +kernel
theorem test_illformed_selector : Instr.wellFormed (.gstat 1 5) = false := by decide +kernel
theorem test_illformed_mask : Instr.wellFormed (.vcompress 1 2 {}) = false ∧ Instr.wellFormed (.vmerge 1 2 3 {}) = false := by
  decide +kernel
theorem test_illformed_has_no_words : encode (.slli 1 2 64) = none := by decide +kernel

/-! ### States and operands that meet the hypotheses of the statements, each theorem named for its statement -/

/-- Registers for the scalar witnesses: s1 odd, s2 even, s3 zero, s4 the least negative word, s5 minus one. -/
def scalars : State := withRegs ready [(1, 7), (2, 0x40), (4, 2 ^ 63), (5, 2 ^ 64 - 1)]

theorem wit_ScalarRegisterResults : FreeReady scalars [1, 2] [3] false ∧ FreeReady scalars [0, 31] [0] false ∧
    FreeReady scalars [] [31] false ∧ FreeReady scalars [4] [4] false ∧ FreeReady scalars [1, 2, 3] [3] false :=
  ⟨free_of _ _ _ _ (by decide +kernel), free_of _ _ _ _ (by decide +kernel), free_of _ _ _ _ (by decide +kernel),
    free_of _ _ _ _ (by decide +kernel), free_of _ _ _ _ (by decide +kernel)⟩

theorem wit_ScalarDivision : HeldReady scalars [4, 5] [3] ∧ HeldReady scalars [1, 3] [3] ∧ scalars.curCtx.reg 4 = BitVec.intMin 64 ∧
    scalars.curCtx.reg 5 = BitVec.allOnes 64 ∧ scalars.curCtx.reg 3 = 0 :=
  ⟨held_of _ _ _ (by decide +kernel), held_of _ _ _ (by decide +kernel), by decide +kernel, by decide +kernel, by decide +kernel⟩

theorem wit_BranchAndJumpResults : FreeReady scalars [1, 2] [] false ∧ FreeReady scalars [2] [1] false ∧
    (scalars.curCtx.reg 2).getLsbD 0 = false ∧ scalars.trapHeld scalars.sched.cur scalars.curCtx = false ∧ (scalars.curCtx.reg 1).getLsbD 0 = true :=
  ⟨free_of _ _ _ _ (by decide +kernel), free_of _ _ _ _ (by decide +kernel), by decide +kernel, by decide +kernel, by decide +kernel⟩

theorem wit_VectorLengthInstructions : FreeReady scalars [2] [6] true ∧ loopsmOk 5 28 3 = true ∧
    FreeReady scalars (5 :: loopPointers 28 3) (5 :: loopPointers 28 3) true :=
  ⟨free_of _ _ _ _ (by decide +kernel), by decide, free_of _ _ _ _ (by decide +kernel)⟩

theorem wit_TimeAndCounterReads : FreeReady scalars [] [6] false ∧ FreeReady scalars [] [] false ∧ scalars.curCtx.cntLd ≤ 0 ∧
    scalars.curCtx.cntSt ≤ 0 ∧ scalars.curCtx.cntCp ≤ 0 ∧ scalars.cntMx scalars.sched.cur scalars.curCtx ≤ 0 ∧ scalars.curCtx.cntEn ≤ 0 ∧
    ∀ m, scalars.mxOf scalars.sched.cur scalars.curCtx = some m → m.fpend = false :=
  ⟨free_of _ _ _ _ (by decide +kernel), free_of _ _ _ _ (by decide +kernel), by decide +kernel, by decide +kernel, by decide +kernel,
    by decide +kernel, by decide +kernel, fun m h => absurd h (by rw [show scalars.mxOf _ _ = none by decide +kernel]; simp)⟩

/-- In supervisor mode, with an odd word and words that their registers hold. -/
def supervisorRegs : State := withRegs (kernelMode owned) [(1, 0x41), (2, 4)]

theorem wit_StateRegisterAccess_get : FreeReady supervisorRegs [] [3] false ∧ supervisorRegs.curCtx.mode = .supervisor ∧
    (supervisorRegs.stateReg supervisorRegs.sched.cur supervisorRegs.curCtx 0x82).isSome = true ∧ supervisorRegs.curCtx.regWaits 0x82 = false :=
  ⟨free_of _ _ _ _ (by decide +kernel), by decide +kernel, by decide +kernel, by decide +kernel⟩

theorem wit_StateRegisterAccess_set : HeldReady supervisorRegs [1] [] ∧ HeldReady supervisorRegs [2] [] ∧
    (writableReg 0x04 && stateValueOk 0x04 (supervisorRegs.curCtx.reg 2) && writableReg 0x05 && stateValueOk 0x05 (supervisorRegs.curCtx.reg 1) &&
      writableReg 0x0D && stateValueOk 0x0D (supervisorRegs.curCtx.reg 1) && writableReg 0x81 && stateValueOk 0x81 (supervisorRegs.curCtx.reg 2) &&
      writableReg 0x82 && stateValueOk 0x82 (supervisorRegs.curCtx.reg 1) && writableReg 0x86 && stateValueOk 0x86 (supervisorRegs.curCtx.reg 1) &&
      writableReg 0x87 && stateValueOk 0x87 (supervisorRegs.curCtx.reg 1)) = true ∧
    (∀ i ∈ [0x04, 0x05, 0x0D, 0x81, 0x82, 0x86, 0x87], supervisorRegs.curCtx.regWaits i = false) :=
  ⟨held_of _ _ _ (by decide +kernel), held_of _ _ _ (by decide +kernel), by decide +kernel, by decide +kernel⟩

theorem wit_StateRegisterAccess_privileged : scalars.sched.cur < numCtx ∧ scalars.trapHeld scalars.sched.cur scalars.curCtx = false ∧
    scalars.curCtx.mode = .user := by decide +kernel

/-- VL 3 in a format, a mask, and lengths. -/
def vectorState (f : Fmt) (vgrp : Nat) : State :=
  (withRegs ready [(1, 5), (2, 1), (3, 2)]).modCtx 0 fun c => { c with vl := 3, vtype := f, vgrp := BitVec.ofNat _ vgrp }

theorem wit_VectorInstructionsRun : Quiet (vectorState .i32 2) ∧ Quiet (vectorState .cf32 2) ∧ Quiet (vectorState .e4m3 2) ∧
    formatIn {} fmtI (vectorState .i32 2).curCtx = true ∧ formatIn {} fmtF (vectorState .i32 2).curCtx = false ∧
    formatIn { mask := none, fo := some .f32 } fmtF (vectorState .i32 2).curCtx = true ∧ formatIn {} [.cf32] (vectorState .cf32 2).curCtx = true ∧
    formatIn {} [.e4m3, .e5m2, .cb4] (vectorState .e4m3 2).curCtx = true ∧ groupOk 0 4 = true ∧ groupOk 30 2 = true :=
  ⟨quiet_of _ (by decide +kernel), quiet_of _ (by decide +kernel), quiet_of _ (by decide +kernel), by decide +kernel, by decide +kernel,
    by decide +kernel, by decide +kernel, by decide +kernel, by decide +kernel, by decide +kernel⟩

/-- With the 1 × 1 matrices 1.0 in v2. -/
def matrixState : State :=
  (vectorState .cf32 1).modCtx 0 fun c => c.setVreg 2 (BitVec.ofNat _ (0x3F800000 + 2 ^ 64 * 0x3F800000 + 2 ^ 128 * 0x3F800000))

theorem wit_VectorInstructionsRun_pivot : Quiet matrixState ∧
    (entryOf (.vhinv 1 2 {}) matrixState.curCtx (matrixState.curCtx.reg 0) 0).pivotFail matrixState.curCtx = none ∧
    (entryOf (.vadd 1 2 3 {}) (vectorState .i32 2).curCtx 0 0).pivotFail (vectorState .i32 2).curCtx = none :=
  ⟨quiet_of _ (by decide +kernel), by decide +kernel, by decide +kernel⟩

theorem wit_ComplexAndTransformRuns : (1 ≤ bitsOf ((vectorState .cf32 2).curCtx.reg 1).toNat 15 0 ∧ ((vectorState .cf32 2).curCtx.reg 1).toNat < 2 ^ 19 ∧
      1 ≤ ((vectorState .cf32 2).curCtx.reg 2).toNat ∧ ((vectorState .cf32 2).curCtx.reg 2).toNat ≤ 65536) ∧
    (1 : Fin 4).val < (vectorState .cf32 2).curCtx.vgrp.toNat ∧
    drevOk 0x11 = true := by decide +kernel

theorem wit_VectorElementResults : Quiet (vectorState .i32 2) ∧ 1 ≤ min (vectorState .i32 2).curCtx.vl ((vectorState .i32 2).curCtx.vbits / Fmt.bits (vectorState .i32 2).curCtx.vtype) ∧
    (vectorState .i32 2).curCtx.vtype ≠ .cb4 := ⟨quiet_of _ (by decide +kernel), by decide +kernel, by decide +kernel⟩

theorem wit_RoundingIsNearest : ∃ b g y, b < FFmt.f32.signBit ∧ decodeF .f32 b = .fin g y ∧ (if (3 : Rat) < 0 then -3 else 3) ≤ y :=
  ⟨0x40800000, false, 4, by decide +kernel, by decide +kernel, by decide +kernel⟩

/-- A matrix command that has not begun. -/
def cmdOf (op : MxOp) : MxCmd := { ord := 0, op := op, begun := false, left := 0, rows := 0, ready := 0, sharing := false }

/-- The unit of core 0 with 2 × 2 × 4 bf16 and these commands. -/
def unitState (geom : Nat) (q : List MxCmd) : State :=
  (owned.modCore 0 fun k => { k with mx := { k.mx with job := some 1, geom := BitVec.ofNat 64 geom, queue := q } }).modCtx 0 fun c => { c with ord := 1 }

/-- A unit with nothing queued; s1 is the scratchpad's base, s2 an odd word. -/
def idleUnit : State := withRegs (unitState 0x5500040202 []) [(1, 0x7F0000000000), (2, 0x15500040202), (3, 0x5500040202), (4, 32)]

theorem wit_MatrixCommandsAndStatus : HeldReady idleUnit [1, 3] [] ∧ HeldClear idleUnit [1, 2] [] ∧ HasUnit idleUnit { job := some 1, geom := 0x5500040202 } ∧
    mxcfgOk 0 (idleUnit.curCtx.reg 3) = true ∧ mxcfgOk 0 (idleUnit.curCtx.reg 2) = false ∧ mxcfgOk 1 (idleUnit.curCtx.reg 4) = true ∧
    idleUnit.curFenced 2 = false :=
  ⟨held_of _ _ _ (by decide +kernel), clear_of _ _ _ (by decide +kernel), ⟨by decide +kernel, by decide +kernel, by decide +kernel⟩,
    by decide +kernel, by decide +kernel, by decide +kernel, by decide +kernel⟩

theorem wit_MatrixCommands_traps : HeldClear owned [1, 2] [] ∧ owned.mxOf owned.sched.cur owned.curCtx = none ∧
    (let s := idleUnit.modCtx 0 fun c => { c with depth := 1 }
     HeldClear s [1, 2] [] ∧ s.mxOf s.sched.cur s.curCtx = some { job := some 1, geom := 0x5500040202 } ∧ 0 < s.curCtx.depth) ∧
    (let s := idleUnit.modCore 0 fun k => { k with mx := { k.mx with fpend := true } }
     HeldClear s [1, 2] [] ∧ s.mxOf s.sched.cur s.curCtx = some { job := some 1, geom := 0x5500040202, fpend := true }) :=
  ⟨clear_of _ _ _ (by decide +kernel), by decide +kernel, ⟨clear_of _ _ _ (by decide +kernel), by decide +kernel, by decide +kernel⟩,
    clear_of _ _ _ (by decide +kernel), by decide +kernel⟩

/-- Claims.Begins as a test. -/
theorem begins_of (s : State) (core cx : Nat) (cmd : MxCmd) (h : (s.shareGroupOf core == [] && s.mxReady core == some (cx, cmd) && !cmd.begun &&
    cmd.shared.isNone && !(s.core core).mx.fpend && (s.mxCheck (s.agentOf cx (s.ctx cx)) (s.core core).mx cmd.op).isNone) = true) :
    Begins (.mxCmdBegin core) s core cx (s.core core).mx cmd := by
  simp only [Bool.and_eq_true, beq_iff_eq, Bool.not_eq_true', Option.isNone_iff_eq_none] at h
  exact ⟨Or.inl ⟨rfl, h.1.1.1.1.1⟩, h.1.1.1.1.2, rfl, ⟨h.1.1.1.2, h.1.1.2⟩, h.1.2, h.2⟩

def opWitness (op : MxOp) : State := unitState 0x5500040202 [cmdOf op]

/-- The unit of core 0 in such a state. -/
def unitOf (op : MxOp) : MatrixUnit := ((opWitness op).core 0).mx

theorem wit_MatrixCommandEffects : Begins (.mxCmdBegin 0) (opWitness (.zero 3)) 0 0 (unitOf (.zero 3)) (cmdOf (.zero 3)) ∧
    Begins (.mxCmdBegin 0) (opWitness (.cfg 2 16)) 0 0 (unitOf (.cfg 2 16)) (cmdOf (.cfg 2 16)) ∧
    Begins (.mxCmdBegin 0) (opWitness (.scale 1 2)) 0 0 (unitOf (.scale 1 2)) (cmdOf (.scale 1 2)) ∧
    Begins (.mxCmdBegin 0) (opWitness (.share 0)) 0 0 (unitOf (.share 0)) (cmdOf (.share 0)) ∧
    Begins (.mxCmdBegin 0) (opWitness (.ldcb 1 0x7F0000000000)) 0 0 (unitOf (.ldcb 1 0x7F0000000000)) (cmdOf (.ldcb 1 0x7F0000000000)) ∧
    NoEcc (opWitness (.ldcb 1 0x7F0000000000)) (unitOf (.ldcb 1 0x7F0000000000)) :=
  ⟨begins_of _ _ _ _ (by decide +kernel), begins_of _ _ _ _ (by decide +kernel), begins_of _ _ _ _ (by decide +kernel),
    begins_of _ _ _ _ (by decide +kernel), begins_of _ _ _ _ (by decide +kernel), by decide +kernel, by decide +kernel⟩

theorem wit_MatrixStoreAndLoad :
    (let s := opWitness (.st 3 0x7F0000000000 32); let m := unitOf (.st 3 0x7F0000000000 32)
     Begins (.mxCmdBegin 0) s 0 0 m (cmdOf (.st 3 0x7F0000000000 32)) ∧ NoEcc s m ∧ geomM m.geom = 2 ∧ geomN m.geom = 2 ∧
       (s.mxPlace (s.agentOf 0 (s.ctx 0)) 0x7F0000000000).isSome = true ∧ (∀ c ∈ m.queue, c.out = []) ∧ s.mxOf 0 (s.ctx 0) = some m) ∧
    Begins (.mxCmdBegin 0) (opWitness (.ld 3 0x7F0000000000 0)) 0 0 (unitOf (.ld 3 0x7F0000000000 0)) (cmdOf (.ld 3 0x7F0000000000 0)) :=
  ⟨⟨begins_of _ _ _ _ (by decide +kernel), ⟨by decide +kernel, by decide +kernel⟩, by decide +kernel, by decide +kernel, by decide +kernel,
    by decide +kernel, by decide +kernel⟩, begins_of _ _ _ _ (by decide +kernel)⟩

theorem wit_MatrixShareTimeout : (let s := unitState 0x5500040202 [{ cmdOf (.zero 0) with sharing := true }]
    Begins (.mxShareTimeout 0) s 0 0 (s.core 0).mx { cmdOf (.zero 0) with sharing := true }) :=
  ⟨Or.inr ⟨rfl, rfl⟩, by decide +kernel, rfl, by decide +kernel, by decide +kernel, by decide +kernel⟩

theorem wit_MatrixProductElements :
    (let m := unitOf (.mma 3 0x7F0000000000 0x7F0000000100 false)
     Begins (.mxCmdBegin 0) (opWitness (.mma 3 0x7F0000000000 0x7F0000000100 false)) 0 0 m (cmdOf (.mma 3 0x7F0000000000 0x7F0000000100 false)) ∧
       geomK m.geom = 4 ∧ geomFA m.geom = 5 ∧ geomFB m.geom = 5) :=
  ⟨begins_of _ _ _ _ (by decide +kernel), by decide +kernel, by decide +kernel, by decide +kernel⟩

theorem wit_MatrixCommandProgress :
    (let s := opWitness (.st 0 0x7F0000100000 32)
     s.mxReady 0 = some (0, cmdOf (.st 0 0x7F0000100000 32)) ∧ (cmdOf (.st 0 0x7F0000100000 32)).begun = false ∧ s.shareGroupOf 0 = [] ∧ (s.core 0).mx.fpend = false ∧
       (s.mxCheck (s.agentOf 0 (s.ctx 0)) (s.core 0).mx (.st 0 0x7F0000100000 32)).isSome = true) ∧
    (let s := (opWitness (.zero 0)).modCore 0 fun k => { k with mx := { k.mx with fpend := true } }
     s.mxReady 0 = some (0, cmdOf (.zero 0)) ∧ (cmdOf (.zero 0)).begun = false ∧ (s.core 0).mx.fpend = true) ∧
    (let c := { cmdOf (.zero 2) with begun := true, rows := 2, ready := 1 }
     ((unitState 0x5500040202 [c]).core 0).mx.queue = c :: [] ∧ c.begun = true ∧ c.left = 0 ∧ c.op.tile = some (2 : ZReg).val ∧
       c.ready < c.rows) ∧
    (let c := { cmdOf (.zero 2) with begun := true, rows := 2, ready := 2 }
     ((unitState 0x5500040202 [cmdOf (.zero 1), c]).core 0).mx.queue = [cmdOf (.zero 1)] ++ c :: [] ∧ c.begun = true ∧ c.left = 0 ∧
       c.ready = c.rows ∧ c.out = [] ∧ (cmdOf (.zero 1)).begun = false) := by decide +kernel

theorem wit_MatrixParkAndUnpark : (let s := (withRegs (kernelMode idleUnit) [(1, 0x7F0000000000)]).modCtx 0 fun c => { c with ord := 0 }
    Quiet s ∧ (s.mxOf s.sched.cur s.curCtx) = some { job := some 1, geom := 0x5500040202 } ∧
      (s.parkPlace (s.curCtx.reg 1)).toOption.isSome = true ∧ s.curCtx.depth = 1 ∧
      ({ job := some 1, geom := 0x5500040202 } : MatrixUnit).tiles.wf 0 = true ∧
      ({ job := some 1, geom := 0x5500040202 } : MatrixUnit).cba.length = 16) :=
  ⟨quiet_of _ (by decide +kernel), by decide +kernel, by decide +kernel, by decide +kernel, by decide +kernel, by decide +kernel⟩

theorem wit_TileMoves : (let s := (withRegs idleUnit [(1, 4095)]).modCtx 0 fun c => { c with vl := 2, vtype := .f32 }
    Quiet s ∧ formatIn {} fmtF s.curCtx = true ∧ (s.curCtx.reg 1).toNat ≤ 4095 ∧
      s.mxOf s.sched.cur s.curCtx = some { job := some 1, geom := 0x5500040202 }) :=
  ⟨quiet_of _ (by decide +kernel), by decide +kernel, by decide +kernel, by decide +kernel⟩

/-- Two mailboxes of tenant 0 at offset 0x1000 of its region of core 0, the first valid with order 2; s1 = 1, s2 = 2, s3 the place of a
shadow in the first, s4 a table word, s5 and s6 ranges, s7 a mail address. -/
def mailState : State :=
  let s := (withRegs owned [(1, 1), (2, 2), (3, 0x7F0000001000), (4, 0x20000002), (5, 0x20000), (6, 0x20001), (7, 0x100)]).modCore 0
    fun k => { k with mbtab := [(0, 0x10000002)] }
  { s.modCtx 0 fun c => ({ c with vgrp := 2 } : Ctx).put64 4 [0x3F800000, 0, 0, 0x3F800000] with
    mem := words [(corePlace 0 0x1009, 1, 2), (corePlace 0 0x100C, 4, 1)] s.mem }

/-- Claims.LinesBelow where nothing is cached dirty and the host holds nothing. -/
theorem lines_of (s : State) (h : (s.stale.isEmpty && s.host.snoop.isEmpty) = true) : LinesBelow s := by
  rw [Bool.and_eq_true, List.isEmpty_iff, List.isEmpty_iff] at h
  exact ⟨by rw [h.1]; simp [FMap.find?], by rw [h.2]; simp⟩

theorem wit_MailboxReads : LinesBelow mailState ∧ Quiet mailState ∧ mailState.tenantOf mailState.curCtx = 0 ∧ mbCount ((mailState.core 0).mbtab.get 0 0) = 2 ∧
    (mailState.curCtx.vgrp.toNat) ^ 2 ≤ mailState.curCtx.vbits / 64 ∧ mailState.lpddr ≤ 2 ^ 40 ∧ (mailState.curCtx.reg 1).toNat < 2 ∧
    2 ≤ (mailState.curCtx.reg 2).toNat ∧ rangeOk false (mailState.curCtx.reg 6) = true ∧ rangeOk true (mailState.curCtx.reg 6) = true ∧
    2 < rangeFirst (mailState.curCtx.reg 6) + rangeCnt (mailState.curCtx.reg 6) ∧ (mailState.curCtx.reg 2).toNat < 1024 ∧ mailState.curCtx.mode = .user ∧
    mailState.curCtx.deleg.getLsbD 9 = false ∧ rangeOk false (mailState.curCtx.reg 5) = true ∧ rangeOk true (mailState.curCtx.reg 5) = true ∧
    rangeFirst (mailState.curCtx.reg 5) + rangeCnt (mailState.curCtx.reg 5) = 2 :=
  ⟨lines_of _ (by decide +kernel), quiet_of _ (by decide +kernel), by decide +kernel⟩

theorem wit_GaussRegisterInstructions : (mailState.curCtx.reg 2 != 0) = true ∧ (mailState.curCtx.reg 2).toNat < 2 ^ mailState.curCtx.vgrp.toNat ∧
    (mailState.curCtx.reg 2).toNat < 256 ∧
    (entryOf (.gmean 2 4) mailState.curCtx 0 0).pivotFail mailState.curCtx = none := by decide +kernel

theorem wit_MessageSends : mailState.curCtx.job = some 1 ∧ (mailState.job? 1).isSome = true ∧
    mailWordOk mailState.twin.paired (mailState.curCtx.reg 7) = true ∧ mailState.curCtx.reg 0 = 0 ∧
    (mailState.curCtx.reg 3).toNat = 0x7F0000000000 + 0x1000 ∧ 0x1000 + 192 ≤ (mailState.coreRegion 0 0).2 ∧
    (mailState.coreRegion 0 0).2 ≤ 0x400000 ∧
    (let p := corePlace 0 0x1000; let c := mailState.curCtx
     (mailAt mailState p).valid = true ∧ (mailAt mailState p).order = c.vgrp.toNat ∧
      residualSettled (decodeF .f32 c.gtau.toNat)
        (parts (hermBits c.vgrp.toNat (c.elems64 2 (c.vgrp.toNat * c.vgrp.toNat))) (hermBits c.vgrp.toNat (mailAt mailState p).lam) ++
          parts (c.elems64 (pairHi 2) c.vgrp.toNat) ((mailAt mailState p).eta.take c.vgrp.toNat)) = true) := by decide +kernel

theorem wit_MailboxTables : HeldReady mailState [4] [] ∧ (mailState.curCtx.reg 4).toNat < 2 ^ 48 ∧
    bitsOf (mailState.curCtx.reg 4).toNat 15 11 = 0 ∧ mbCount (mailState.curCtx.reg 4) ≤ 1024 ∧ mbBase (mailState.curCtx.reg 4) % 64 = 0 ∧
    mbBase (mailState.curCtx.reg 4) + 192 * mbCount (mailState.curCtx.reg 4) ≤ (mailState.coreRegion 0 0).2 ∧ HeldReady mailState [] [8] ∧
    mailState.curCtx.vq = [] :=
  ⟨held_of _ _ _ (by decide +kernel), by decide +kernel, by decide +kernel, by decide +kernel, by decide +kernel, by decide +kernel,
    held_of _ _ _ (by decide +kernel), by decide +kernel⟩

/-- A message of a given order for a mailbox. -/
def gaussMsg (order index : Nat) : GaussMsg :=
  { order := order, lam := List.replicate (order ^ 2) 0x3F800000, eta := List.replicate order 0, tenant := 0, group := 0xFF, deadline := 0
    src := 0, core := 0, index := index }

theorem wit_MessageMerges : (∀ i < 2, (gaussMsg 2 i).core < 96 ∧ 1 ≤ (gaussMsg 2 i).order ∧ (gaussMsg 2 i).order ≤ 4 ∧
      (gaussMsg 2 i).index < mbCount ((mailState.core 0).mbtab.get 0 0) ∧ (gaussMsg 2 i).lam.length = (gaussMsg 2 i).order ^ 2 ∧
      (gaussMsg 2 i).eta.length = (gaussMsg 2 i).order ∧ ∀ x ∈ (gaussMsg 2 i).lam ++ (gaussMsg 2 i).eta, x < 2 ^ 64) ∧
    (mailAt mailState (mailState.mailbox 0 0 0)).valid = true ∧ (mailAt mailState (mailState.mailbox 0 0 0)).order = (gaussMsg 2 0).order ∧
    (mailAt mailState (mailState.mailbox 0 0 1)).valid = false ∧ mbCount ((mailState.core 0).mbtab.get 0 0) ≤ (gaussMsg 2 2).index := by
  decide +kernel

/-- s1 a data address, s2 an odd one, s3 a hole, s4 an own-core window address, s5 past its region, s6 an unmapped page. -/
def memState : State :=
  withRegs owned [(1, 0x100), (2, 0x101), (3, 0x7F3010000000), (4, 0x7F0000000000 + 0x3FFF8), (5, 0x7F0000000000 + 0x40000), (6, 0x1000),
    (7, 0xFFF8)]

/-- Claims.PlaceReady of an access, as a test. -/
def memReadyB (s : State) (x : Except TrapInfo Xlat) : Bool :=
  quietB s && s.ecc.isEmpty && match x with
    | .ok x => s.homeReady x.place && (x.cached.isSome || s.stale.isEmpty)
    | .error _ => false

theorem memReady_of (s : State) (r : Except TrapInfo Xlat) (h : memReadyB s r = true) : ∃ x, r = .ok x ∧ PlaceReady s x := by
  cases r with
  | error e => simp [memReadyB] at h
  | ok x =>
    simp only [memReadyB, Bool.and_eq_true, List.isEmpty_iff] at h
    exact ⟨x, rfl, ⟨quiet_of s h.1.1, h.2.1, h.1.2⟩, fun hc i _ => by rw [show s.stale = [] by simpa [hc] using h.2.2]; rfl⟩

/-- An access of the current context. -/
def accessAt (s : State) (va : Word) (size : Nat) (k : AccessKind) (d : Bool) : Except TrapInfo Xlat :=
  (s.access (s.agentOf s.sched.cur s.curCtx) va size k d).1

theorem wit_ScalarAccessResults : (∃ x, accessAt memState (memState.curCtx.reg 1) 8 .read false = .ok x ∧ PlaceReady memState x) ∧
    (∃ x, accessAt memState (memState.curCtx.reg 4) 8 .read false = .ok x ∧ PlaceReady memState x) ∧
    (∃ x, accessAt memState (memState.curCtx.reg 1) 8 .write true = .ok x ∧ PlaceReady memState x) ∧
    (∃ x, accessAt memState (memState.curCtx.reg 2) 1 .write true = .ok x ∧ PlaceReady memState x) :=
  ⟨memReady_of _ _ (by decide +kernel), memReady_of _ _ (by decide +kernel), memReady_of _ _ (by decide +kernel),
    memReady_of _ _ (by decide +kernel)⟩

theorem wit_AtomicsAndOwnStores_atomics : (∃ x, accessAt memState (memState.curCtx.reg 1) 4 .write true = .ok x ∧ PlaceReady memState x) ∧
    (∃ x, accessAt memState (memState.curCtx.reg 1) 8 .write false = .ok x ∧ PlaceReady memState x) :=
  ⟨memReady_of _ _ (by decide +kernel), memReady_of _ _ (by decide +kernel)⟩

/-- The error of an access. -/
def accessError (s : State) (va : Word) (size : Nat) (k : AccessKind) (d : Bool) : Option TrapInfo :=
  match accessAt s va size k d with
  | .ok _ => none
  | .error t => some t

theorem wit_AccessChecks : Quiet memState ∧ accessError memState (memState.curCtx.reg 2) 8 .read false = some { cause := .misaligned, value := 0x101 } ∧
    (memState.curCtx.reg 2).toNat % 8 ≠ 0 ∧ accessError memState (memState.curCtx.reg 3) 8 .read false = some { cause := .protection, value := 0x7F3010000000 } ∧
    accessError memState (memState.curCtx.reg 5) 8 .write true = some { cause := .windowBounds, value := 0x7F0000040000 } ∧
    (memState.coreRegion 0 0).2 = 0x40000 ∧ memState.linkPoison = [] ∧ memState.lpddr ≤ 2 ^ 40 ∧
    accessError memState (memState.curCtx.reg 6) 8 .read false = some { cause := .pageFaultRead, value := 0x1000 } ∧
    walk memState.mem 0x1000 3 (ptePpn (memState.agentOf 0 memState.curCtx).root.toNat) = none ∧ (memState.core 0).tlb = [] ∧
    (memState.cluster 0).tlb = [] := ⟨quiet_of _ (by decide +kernel), by decide +kernel⟩

theorem wit_LoadSeesOwnStore :
    (let p : PendStore := { ord := 0, place := 0x5100, size := 8, kind := .data (bytesOf 77 8), cached := none, release := false, vec := false }
     let l : PendLoad := { ord := 1, dst := 3, place := 0x5100, size := 8, signed := false, va := 0x100, cached := none, kind := .plain }
     let s := memState.modCtx 0 fun c => { c with stores := [p], loads := [l], ord := 2 }
     (s.ctx 0).stores = [p] ∧ (s.ctx 0).loads = [l] ∧ (s.ctx 0).vq = [] ∧ p.ord < l.ord ∧ s.homeReady l.place = true ∧
      s.poisoned l.place = false ∧ s.ecc = [] ∧ s.mxOf 0 (s.ctx 0) = none) := by decide +kernel

/-- A translation of the current context. -/
def xlateAt (s : State) (va : Word) (k : AccessKind) (d : Bool) : Except TrapInfo Xlat := (s.xlate (s.agentOf s.sched.cur s.curCtx) va k d).1

theorem wit_CacheAndFenceResults : FreeReady memState [1] [] false ∧ (∃ x, xlateAt memState (memState.curCtx.reg 1) .read false = .ok x ∧ PlaceReady memState x) ∧
    (∃ x, xlateAt memState (memState.curCtx.reg 1) .write true = .ok x ∧ PlaceReady memState x) ∧
    (∃ x, xlateAt memState (memState.curCtx.reg 4) .write true = .ok x ∧ PlaceReady memState x) ∧ HeldReady memState [] [] ∧
    (let s := memState.modCtx 0 fun c =>
      { c with ord := 1, loads := [{ ord := 0, dst := 3, place := 0x5100, size := 8, signed := false, va := 0x100, cached := none, kind := .plain }] }
     HeldReady s [] [] ∧ s.curCtx.fences = [] ∧ s.curCtx.loads.any (fun l => l.ord < s.curCtx.ord) = true) :=
  ⟨free_of _ _ _ _ (by decide +kernel), memReady_of _ _ (by decide +kernel), memReady_of _ _ (by decide +kernel),
    memReady_of _ _ (by decide +kernel), held_of _ _ _ (by decide +kernel), held_of _ _ _ (by decide +kernel), by decide +kernel,
    by decide +kernel⟩

theorem wit_CacheAndFenceResults_forms : (match xlateAt memState (memState.curCtx.reg 1) .read false with
      | .ok x => x.uc = false ∧ x.place < 2 ^ 48 ∧ isTwinPa x.place = false ∧ memState.homeReady (x.place / 64 * 64) = true
      | .error _ => False) ∧
    (match xlateAt memState (memState.curCtx.reg 4) .write true with
      | .ok x => 2 ^ 48 ≤ x.place ∧ isTwinPa x.place = false
      | .error _ => False) := by
  constructor
  · have h : (match xlateAt memState (memState.curCtx.reg 1) .read false with
      | .ok x => !x.uc && decide (x.place < 2 ^ 48) && !isTwinPa x.place && memState.homeReady (x.place / 64 * 64)
      | .error _ => false) = true := by decide +kernel
    revert h
    cases xlateAt memState (memState.curCtx.reg 1) .read false <;> simp_all
  · have h : (match xlateAt memState (memState.curCtx.reg 4) .write true with
      | .ok x => decide (2 ^ 48 ≤ x.place) && !isTwinPa x.place
      | .error _ => false) = true := by decide +kernel
    revert h
    cases xlateAt memState (memState.curCtx.reg 4) .write true <;> simp_all

/-- A vector of four i32 elements at an address. -/
def vecMemState (va : Nat) : State := (withRegs owned [(1, va), (2, 4)]).modCtx 0 fun c => { c with vl := 4, vtype := .i32 }

/-- Claims.ElementsPass with the result of its probe, as a test. -/
theorem pass_of (s : State) (i : Instr) (m : VMem) (sb : Word) (ok : List Fmt) (a : SReg)
    (h : (quietB s && decide (s.curCtx.vbits ≤ 4096) && formatIn m.q ok s.curCtx && s.ecc.isEmpty &&
      ((s.probeMem s.sched.cur s.curCtx (entryOf i s.curCtx (s.curCtx.reg a) sb) m).1.acc.all fun x =>
        s.homeReady x.place && x.cached.isNone) && s.stale.isEmpty) = true) :
    ElementsPass s i m sb ok a (s.probeMem s.sched.cur s.curCtx (entryOf i s.curCtx (s.curCtx.reg a) sb) m).1
      (s.probeMem s.sched.cur s.curCtx (entryOf i s.curCtx (s.curCtx.reg a) sb) m).2.mem := by
  simp only [Bool.and_eq_true, decide_eq_true_eq, List.isEmpty_iff, List.all_eq_true] at h
  obtain ⟨⟨⟨⟨⟨h1, h2⟩, h3⟩, h4⟩, h5⟩, h6⟩ := h
  exact ⟨quiet_of s h1, h2, h3, rfl, rfl, fun x hx => (h5 x hx).1,
    fun x _ _ _ _ => ⟨by rw [h6]; rfl, fun y hy _ _ _ => by simpa using (h5 y hy).2⟩, h4⟩

def probeOf (s : State) (i : Instr) (m : VMem) (sb : Word) (a : SReg) : Probe :=
  (s.probeMem s.sched.cur s.curCtx (entryOf i s.curCtx (s.curCtx.reg a) sb) m).1

def memOf (s : State) (i : Instr) (m : VMem) (sb : Word) (a : SReg) : Memory :=
  (s.probeMem s.sched.cur s.curCtx (entryOf i s.curCtx (s.curCtx.reg a) sb) m).2.mem

theorem wit_VectorMemoryResults_loads :
    (let m : VMem := { reg := 3, addr := .strided, q := {}, write := false }
     ElementsPass (vecMemState 0x100) (.vlds 3 1 2 {}) m 4 (fmtAll.filter (· ≠ .cb4)) 1 (probeOf (vecMemState 0x100) (.vlds 3 1 2 {}) m 4 1)
        (memOf (vecMemState 0x100) (.vlds 3 1 2 {}) m 4 1) ∧
      (probeOf (vecMemState 0x100) (.vlds 3 1 2 {}) m 4 1).fail = none) ∧
    (let m : VMem := { reg := 3, addr := .unit, q := {}, write := false }
     ElementsPass (vecMemState 0xFF8) (.vldff 3 1 {}) m 0 fmtAll 1 (probeOf (vecMemState 0xFF8) (.vldff 3 1 {}) m 0 1)
        (memOf (vecMemState 0xFF8) (.vldff 3 1 {}) m 0 1) ∧
      (probeOf (vecMemState 0xFF8) (.vldff 3 1 {}) m 0 1).fail.map (·.1) = some 2 ∧
      ElementsPass (vecMemState 0x1000) (.vldff 3 1 {}) m 0 fmtAll 1 (probeOf (vecMemState 0x1000) (.vldff 3 1 {}) m 0 1)
        (memOf (vecMemState 0x1000) (.vldff 3 1 {}) m 0 1) ∧
      (probeOf (vecMemState 0x1000) (.vldff 3 1 {}) m 0 1).fail.map (·.1) = some 0 ∧
      (vecMemState 0x1000).curCtx.deleg.getLsbD (Cause.code .pageFaultRead) = false) :=
  ⟨⟨pass_of _ _ _ _ _ _ (by decide +kernel), by decide +kernel⟩, pass_of _ _ _ _ _ _ (by decide +kernel), by decide +kernel,
    pass_of _ _ _ _ _ _ (by decide +kernel), by decide +kernel, by decide +kernel⟩

theorem wit_VectorMemoryResults_stores :
    (let m : VMem := { reg := 3, addr := .indexed 4 2, q := {}, write := true }
     ElementsPass (vecMemState 0x100) (.vamoadd 3 1 4 2 {}) m 0 [.i32, .i64, .f32] 1 (probeOf (vecMemState 0x100) (.vamoadd 3 1 4 2 {}) m 0 1)
        (memOf (vecMemState 0x100) (.vamoadd 3 1 4 2 {}) m 0 1) ∧
      (probeOf (vecMemState 0x100) (.vamoadd 3 1 4 2 {}) m 0 1).fail = none) :=
  ⟨pass_of _ _ _ _ _ _ (by decide +kernel), by decide +kernel⟩

/-- s1 a data address, s2 another, s3 1024 elements, s4 a bit mask, s5 the flume word of flume 0, s6 flume 1, s7 slot address of
flume 0, s8 of flume 1, s9 the polling word of flume 2, s10 a map whose owner is another; map 0 holds bit 0.  Flume 0 holds a filled
slot, flume 1 a claimed one, flume 2 is empty. -/
def streamState : State :=
  let f : Flume := { en := true, owner := 0, log2n := 2, slotsz := 64 }
  let s := withRegs owned [(1, 0x100), (2, 0x800), (3, 16), (4, 1), (5, 0), (6, 1), (7, 0x7F2000000000), (8, 0x7F2000000000), (9, 0x8002), (10, 2)]
  s.modCluster 0 fun k => { k with maps := [(0, 1)], flumes := [(0, { f with pop := 0, fill := 2, claim := 2 }), (1, { f with claim := 1 }), (2, f)] }

theorem wit_ChunkMapsAndFlumes_maps : HeldReady streamState [0, 4] [] ∧ HeldReady streamState [0, 4] [11] ∧ mapOperandOk (streamState.curCtx.reg 0) = true ∧
    streamState.mapOwner streamState.curCluster 0 = streamState.tenantOf streamState.curCtx ∧
    streamState.chunkMap streamState.curCluster 0 &&& streamState.curCtx.reg 4 = streamState.curCtx.reg 4 ∧
    streamState.chunkMap streamState.curCluster 0 &&& streamState.curCtx.reg 10 ≠ streamState.curCtx.reg 10 :=
  ⟨held_of _ _ _ (by decide +kernel), held_of _ _ _ (by decide +kernel), by decide +kernel, by decide +kernel, by decide +kernel,
    by decide +kernel⟩

/-- The owners of nothing: without a table every map is owner 63's. -/
theorem wit_ChunkMapsAndFlumes_foreign : HeldClear ready [0, 4] [] ∧ HeldClear ready [0, 4] [11] ∧ mapOperandOk (ready.curCtx.reg 0) = true ∧
    ready.mapOwner ready.curCluster ((ready.curCtx.reg 0).toNat % 64) ≠ ready.tenantOf ready.curCtx :=
  ⟨clear_of _ _ _ (by decide +kernel), clear_of _ _ _ (by decide +kernel), by decide +kernel, by decide +kernel⟩

theorem wit_ChunkMapsAndFlumes_pop : FlumeReady streamState [] 5 [11] false 0 0 ∧ ctr16 (streamState.flume 0 0).fill (streamState.flume 0 0).pop ≠ 0 ∧
    FlumeReady streamState [] 9 [11] false 0 2 ∧ ctr16 (streamState.flume 0 2).fill (streamState.flume 0 2).pop = 0 ∧
    (streamState.curCtx.reg 9).getLsbD 15 = true ∧ FlumeReady streamState [] 10 [11] false 0 2 ∧ (streamState.curCtx.reg 10).getLsbD 15 = false :=
  ⟨⟨held_of _ _ _ (by decide +kernel), by decide +kernel, by decide +kernel, by decide +kernel, by decide +kernel⟩, by decide +kernel,
    ⟨held_of _ _ _ (by decide +kernel), by decide +kernel, by decide +kernel, by decide +kernel, by decide +kernel⟩, by decide +kernel, by decide +kernel,
    ⟨held_of _ _ _ (by decide +kernel), by decide +kernel, by decide +kernel, by decide +kernel, by decide +kernel⟩, by decide +kernel⟩

theorem wit_ChunkMapsAndFlumes_push : FlumeReady streamState [] 9 [11] true 0 2 ∧
    ctr16 (streamState.flume 0 2).claim (streamState.flume 0 2).rel < 2 ^ (streamState.flume 0 2).log2n ∧
    FlumeReady streamState [8] 6 [] true 0 1 ∧ (streamState.flume 0 1).fill = 0 ∧ (streamState.flume 0 1).done = [] ∧
    ctr16 (streamState.flume 0 1).claim 0 ≠ 0 ∧ streamState.curCtx.reg 8 = (streamState.flume 0 1).address streamState.curCluster 0 0 ∧
    streamState.pendClasses streamState.sched.cur streamState.curCtx 7 streamState.curCtx.ord = false :=
  ⟨⟨held_of _ _ _ (by decide +kernel), by decide +kernel, by decide +kernel, by decide +kernel, by decide +kernel⟩, by decide +kernel,
    ⟨held_of _ _ _ (by decide +kernel), by decide +kernel, by decide +kernel, by decide +kernel, by decide +kernel⟩, by decide +kernel, by decide +kernel,
    by decide +kernel, by decide +kernel, by decide +kernel⟩

/-- Flume 2 with every slot claimed. -/
def fullFlume : State := streamState.modCluster 0 fun k => { k with flumes := [(2, { en := true, owner := 0, log2n := 2, slotsz := 64, claim := 4 })] }

theorem wit_ChunkMapsAndFlumes_full : FlumeReady fullFlume [] 9 [11] true 0 2 ∧ fullFlume.curCtx.flumes.length < 8 ∧
    2 ^ (fullFlume.flume 0 2).log2n ≤ ctr16 (fullFlume.flume 0 2).claim (fullFlume.flume 0 2).rel ∧ (fullFlume.curCtx.reg 9).getLsbD 15 = true ∧
    FlumeReady fullFlume [] 10 [11] true 0 2 ∧ (fullFlume.curCtx.reg 10).getLsbD 15 = false :=
  ⟨⟨held_of _ _ _ (by decide +kernel), by decide +kernel, by decide +kernel, by decide +kernel, by decide +kernel⟩, by decide +kernel, by decide +kernel,
    by decide +kernel, ⟨held_of _ _ _ (by decide +kernel), by decide +kernel, by decide +kernel, by decide +kernel, by decide +kernel⟩, by decide +kernel⟩

theorem wit_ChunkMapsAndFlumes_release : (let s := streamState.modCluster 0 fun k => { k with flumes := [(0, { en := true, owner := 0, log2n := 2, slotsz := 64, pop := 1, fill := 1, claim := 1 })] }
    FlumeReady s [7] 5 [] false 0 0 ∧ (s.flume 0 0).rel = 0 ∧ (s.flume 0 0).released = [] ∧ ctr16 (s.flume 0 0).pop 0 ≠ 0 ∧
      s.curCtx.reg 7 = (s.flume 0 0).address s.curCluster 0 0) :=
  ⟨⟨held_of _ _ _ (by decide +kernel), by decide +kernel, by decide +kernel, by decide +kernel, by decide +kernel⟩, by decide +kernel, by decide +kernel,
    by decide +kernel, by decide +kernel⟩

/-- The pieces a strip of n bytes from s1 to s2 would have. -/
def stripPieces (n : Nat) : Option (List Piece) :=
  (streamState.probeStrip (streamState.agentOf streamState.sched.cur streamState.curCtx)
    (cutRow n 0 n (streamState.curCtx.reg 1) (streamState.curCtx.reg 2))).1.toOption

theorem wit_Strips_scopy : Quiet streamState ∧ streamState.curCtx.job = some 1 ∧ streamWordOk (streamState.curCtx.reg 0) = true ∧
    streamState.mapOwner streamState.curCluster (swMap (streamState.curCtx.reg 0)) = streamState.tenantOf streamState.curCtx ∧
    streamState.stripDst 2 (streamState.curCtx.reg 0) = .at_ 0x800 ∧ streamState.curCtx.reg 0 = 0 ∧
    512 ≤ streamState.stripFree streamState.curCluster (streamState.tenantOf streamState.curCtx) ∧
    (StripDst.at_ 0x800).clip (min ((streamState.curCtx.reg 3).toNat * 4) ((64 - swFirst (streamState.curCtx.reg 0)) * 512)) = 64 ∧
    (stripPieces 64).isSome = true :=
  ⟨quiet_of _ (by decide +kernel), by decide +kernel, by decide +kernel, by decide +kernel, by decide +kernel, by decide +kernel,
    by decide +kernel, by decide +kernel, by decide +kernel⟩

/-- A pattern of two rows of 32 bytes under map 0. -/
def patternWord : Nat := 32 + 2 ^ 48 * 2 + 2 ^ 64 * 64 + 2 ^ 128 * 64

theorem wit_Strips_patterns : patOk patternWord = true ∧ patternWord ≠ 0 ∧ patRows patternWord * patLen patternWord = 64 ∧
    ((streamState.wordPlaces (streamState.agentOf streamState.sched.cur streamState.curCtx) (streamState.curCtx.reg 1) 4).1.toOption.map
      (·.all fun p => streamState.homeReady p.place && (p.cached.isSome || streamState.stale.isEmpty))) = some true ∧
    ((streamState.probeStrip (streamState.agentOf streamState.sched.cur streamState.curCtx)
      (patPieces patternWord (streamState.curCtx.reg 1) (streamState.curCtx.reg 2))).1.toOption).isSome = true ∧
    streamState.stripDst 2 (patWord patternWord) = .at_ 0x800 ∧ (StripDst.at_ 0x800).clip 64 = 64 := by decide +kernel

theorem wit_Strips_service :
    (let p : Piece := { at_ := 0, len := 64, src := 0x5100, dst := 0x5800, from_ := none, cached := none }
     let x : Strip := { tenant := 0, sender := { job := 1, ord := 0 }, port := 0, map := 0, first := 1, bytes := 64, pieces := [p], begun := false, todo := [0], served := [], slot := none }
     let s := streamState.modCluster 0 fun k => { k with strips := [x] }
     (s.cluster 0).strips = [x] ∧ x.todo = [0] ∧ x.served = [] ∧ x.pieces = [p] ∧ p.src + 64 ≤ p.dst ∧ s.ecc = [] ∧ s.released (some x.sender) 3 = true ∧
      s.homeReady p.src = true ∧ s.homeReady p.dst = true ∧ (∀ j < 64, s.poisoned (p.src + j) = false) ∧
      isHostPa p.dst = false ∧ x.tenant < 64 ∧ p.at_ = 0 ∧ ∀ j < 64, s.stale.find? ((p.dst + j) / 64) = none) := by decide +kernel

/-- The words of a CRC_CHECK command on 32 bits of the cluster scratchpad, with no completion. -/
def crcWords : List Nat := [7, 2 ^ 62, 0x7F3000000000, 4, 0, 0x7F3000001000, 64 + 2 ^ 32 * 32, 0]

/-- Such a block at address 0x100. -/
def engineState : State := { streamState with mem := words ((crcWords.mapIdx fun i w => (0x5100 + 8 * i, 8, w))) streamState.mem }

/-- The command as it stands at its engine. -/
def crcCmd : EngCmd :=
  { engine := 0, tenant := 0, sender := some { job := 1, ord := 0 }, addr := 0x100, words := crcWords.map (BitVec.ofNat 64), root := 0x1000
    deadline := 0, be := true, group := 0xFF, counted := false, stage := .flight, arrival := 0, discard := false }

theorem wit_EngineCommands_issue : Quiet engineState ∧ engineState.curCtx.job = some 1 ∧ (engineState.job? 1).isSome = true ∧
    (engineState.curCtx.reg 1).toNat % 64 = 0 ∧
    (let r := engineState.wordPlaces (engineState.agentOf engineState.sched.cur engineState.curCtx) (engineState.curCtx.reg 1) 8
     r.1.toOption.map (fun ps => ps.all (fun p => engineState.homeReady p.place && engineState.stale.isEmpty) &&
       (ps.map fun p => r.2.mem.readN p.place 8) == crcWords) = some true) ∧
    engineState.ecc = [] ∧ engineState.footprints < 1024 ∧ engineState.footprintsOf 0 < 64 ∧ engineState.blockOk crcCmd = true ∧
    engineState.blockOk { crcCmd with words := [0] } = false ∧ (engineState.curCtx.reg 1).toNat < 2 ^ 17 ∧
    (engineState.curCtx.reg 0).toNat < 16 ∧ engineState.cmds = [] := ⟨quiet_of _ (by decide +kernel), by decide +kernel⟩

theorem wit_EngineCommands_arrival : (let s : State := { engineState with cmds := [crcCmd] }
    s.cmds = [crcCmd] ∧ crcCmd.stage = .flight ∧ s.released crcCmd.sender 3 = true ∧ s.cmdHeld 0 crcCmd = false ∧ s.inboxOf 0 0 < 4 ∧ s.gated (.engine 0) = false ∧
      s.sliceReady (crcCmd.engine / 2) = true) ∧
    (let s : State := { engineState with cmds := crcCmd :: List.replicate 4 { crcCmd with stage := .waiting } }
     4 ≤ s.inboxOf 0 0 ∧ s.released crcCmd.sender 3 = true ∧ s.cmdHeld 0 crcCmd = false) ∧
    (let o : PendOp := { ord := 0, cls := .en, dst := 3, outbox := false }
     let s : State := ({ engineState with engAnswers := [{ sender := { job := 1, ord := 0 }, status := 0, slot := none, counted := none }] } : State).modCtx 0
       fun c => { c with ops := [o] }
     (s.job? 1).map (·.state) = some (.running 0) ∧ (s.ctx 0).ops = [o]) := by decide +kernel

theorem wit_EngineOperationsRun_lines : LinesBelow { engineState with cmds := [{ crcCmd with stage := .waiting }] } ∧
    LinesBelow { engineState with cmds := [{ crcCmd with stage := .done 0 0 0 }] } :=
  ⟨lines_of _ (by decide +kernel), lines_of _ (by decide +kernel)⟩

theorem wit_EngineOperationsRun : (let c := { crcCmd with stage := .waiting }
    let s : State := { engineState with cmds := [c] }
    s.enginePick 0 = some c ∧ c.opcode = 7 ∧ s.sluice.table.isSome = true ∧ s.ecc = [] ∧ s.linkPoison = [] ∧ s.cmdTwin c = none ∧ c.r1.len = 0 ∧ c.wr.base % 64 = 0 ∧
      (s.clusterRegion 0 0).2 ≤ 0x800000 ∧ c.r0.base = 0x7F3000000000 ∧ 0 + c.r0.len ≤ (s.clusterRegion 0 0).2 ∧ c.wr.base = 0x7F3000000000 + 0x1000 ∧
      0x1000 + (64 + (c.compute (s.mem.readBytes (clusterPlace 0 0) c.r0.len) []).2.2.length) ≤ (s.clusterRegion 0 0).2 ∧ s.lpddr ≤ 2 ^ 40) := by
  decide +kernel

theorem wit_EngineCommandCompletes : (let c := { crcCmd with stage := .done 0 0 0 }
    let s : State := { engineState with cmds := [c] }
    s.cmds = [c] ∧ c.engine = 0 ∧ c.wr.base % 64 = 0 ∧ c.wr.base = 0x7F3000000000 + 0x1000 ∧ 0x1000 + 64 ≤ (s.clusterRegion 0 0).2 ∧ s.linkPoison = [] ∧
      c.discard = false ∧ c.reply.getLsbD 63 = false ∧ c.reply.getLsbD 62 = true) := by decide +kernel

/-- The words of a valid launch record of one best-effort child in cluster 0. -/
def launchWords : List Nat := [0x200, 5, 0, 0, 2 ^ 52 * 0xFFF + 2 ^ 44 * 0xFF + 2 ^ 32 * 1 + 2 ^ 27 + 2 ^ 8, 2 ^ 48 * 0x1FFF, 0, 0]

/-- Bytes at data address 0x100, and s1 that address. -/
def blockState (ws : List Nat) : State :=
  let s := withRegs owned [(1, 0x100), (2, 1), (3, 0x10000)]
  { s with
    mem := words (ws.mapIdx fun i w => (0x5100 + 8 * i, 8, w)) s.mem, power := { s.power with cluster := [(0, true)] } }

theorem readsWords_of (s : State) (va : Word) (n : Nat) (ws : List Nat)
    (h : (s.ecc.isEmpty && ((s.wordPlaces (s.agentOf s.sched.cur s.curCtx) va n).1.toOption.any fun ps =>
      ps.all (fun p => s.homeReady p.place && (p.cached.isSome || s.stale.isEmpty)) &&
        (ps.map fun p => (s.wordPlaces (s.agentOf s.sched.cur s.curCtx) va n).2.mem.readN p.place 8) == ws)) = true) :
    ReadsWords s va n ws := by
  unfold ReadsWords
  cases hr : (s.wordPlaces (s.agentOf s.sched.cur s.curCtx) va n).1 with
  | error e => simp [hr, Except.toOption] at h
  | ok ps =>
    simp only [hr, Except.toOption, Option.any_some, Bool.and_eq_true, List.isEmpty_iff, List.all_eq_true, beq_iff_eq] at h
    exact ⟨ps, rfl, fun x hx => ⟨(h.2.1 x hx).1, fun hc i _ => by rw [show s.stale = [] by simpa [hc] using (h.2.1 x hx).2]; rfl⟩, h.1, h.2.2.symm⟩

theorem wit_LaunchesAndEnds_spawn : Quiet (blockState launchWords) ∧ (blockState launchWords).curCtx.job = some 1 ∧
    ReadsWords (blockState launchWords) 0x100 8 launchWords ∧ (blockState launchWords).curCtx.reg 1 = 0x100 ∧
    (blockState launchWords).recordOk 0 (LaunchRec.ofWords launchWords) = true ∧
    (∀ k ∈ maskClusters ((blockState launchWords).reducedMask 0 (LaunchRec.ofWords launchWords).clusters), 128 < (blockState launchWords).freeRecords k) ∧
    ReadsWords (blockState [1]) 0x100 8 [1, 0, 0, 0, 0, 0, 0, 0] ∧ (blockState [1]).recordOk 0 (LaunchRec.ofWords [1, 0, 0, 0, 0, 0, 0, 0]) = false :=
  ⟨quiet_of _ (by decide +kernel), by decide +kernel, readsWords_of _ _ _ _ (by decide +kernel), by decide +kernel, by decide +kernel,
    by decide +kernel, readsWords_of _ _ _ _ (by decide +kernel), by decide +kernel⟩

theorem wit_LaunchesAndEnds_end : HeldReady owned [] [] ∧ (owned.job? 1).map (·.state) = some (.running owned.sched.cur) ∧
    owned.pdepth owned.sched.cur owned.curCtx = 0 ∧ owned.drained owned.sched.cur owned.curCtx = true ∧
    owned.mxOf owned.sched.cur owned.curCtx = none ∧
    (let s := owned.modCtx 0 fun c => { c with ops := [{ ord := 0, cls := .en, dst := 0, outbox := false }], ord := 1 }
     HeldReady s [] [] ∧ s.drained s.sched.cur s.curCtx = false) :=
  ⟨held_of _ _ _ (by decide +kernel), by decide +kernel, by decide +kernel, by decide +kernel, by decide +kernel,
    held_of _ _ _ (by decide +kernel), by decide +kernel⟩

/-- The running job has a queued child, 2. -/
def parentState : State := (blockState launchWords).putJob 2 { ancestors := [1], parent := some 1 }

theorem wit_JobIdentityAndWaits_abort : (let s := withRegs parentState [(2, 2), (3, 3)]
    HeldReady s [2] [4] ∧ HeldReady s [0] [4] ∧ (s.job? 1).map (·.state) = some (.running s.sched.cur) ∧ s.curCtx.reg 0 = 0 ∧
      (s.curCtx.reg 2).toNat = 2 ∧ (s.live 2).map (fun j => (j.state, j.ancestors)) = some (.queued, [1]) ∧ (s.curCtx.reg 3).toNat = 3 ∧
      s.live 3 = none) :=
  ⟨held_of _ _ _ (by decide +kernel), held_of _ _ _ (by decide +kernel), by decide +kernel⟩

/-- The running job's child 2 in a state. -/
def childState (st : JobState) : State := withRegs ((blockState launchWords).putJob 2 { ancestors := [1], parent := some 1, state := st }) [(2, 2)]

theorem wit_JobIdentityAndWaits_started : (HeldReady (childState (.running 4)) [2] [4] ∧ ((childState (.running 4)).curCtx.reg 2).toNat = 2 ∧
      (childState (.running 4)).live 2 = some { ancestors := [1], parent := some 1, state := .running 4 } ∧ 4 ≠ (childState (.running 4)).sched.cur) ∧
    (childState (.parking 4)).live 2 = some { ancestors := [1], parent := some 1, state := .parking 4 } ∧
    (childState (.saved 4)).live 2 = some { ancestors := [1], parent := some 1, state := .saved 4 } ∧
    (childState (.parked 4)).live 2 = some { ancestors := [1], parent := some 1, state := .parked 4 } ∧
    (childState .moving).live 2 = some { ancestors := [1], parent := some 1, state := .moving } :=
  ⟨⟨held_of _ _ _ (by decide +kernel), by decide +kernel⟩, by decide +kernel⟩

theorem wit_JobIdentityAndWaits_waits : (∃ m, (owned.ctx 0).job = some m) ∧
    (let s : State := ({ owned with time := { owned.time with ref := 100 } } : State).modCtx 0 fun c => { c with status := .waiting (.until 100 0) }
     (s.ctx 0).status = .waiting (.until 100 0) ∧ 100 ≤ s.time.ref) ∧
    (let s : State := ({ owned with time := { owned.time with ref := 91 } } : State).modCtx 0 fun c => { c with status := .waiting (.until 100 0) }
     (s.ctx 0).status = .waiting (.until 100 0) ∧ s.time.ref + 8 < 100 ∧ s.time.cluster.get 0 0 < 100) :=
  ⟨⟨1, by decide +kernel⟩, by decide +kernel, by decide +kernel⟩

/-- A queued job on cluster 0, core 0 open to its tenant, and no window in force. -/
def dispatchState : State :=
  let s := { owned with sluice := { owned.sluice with clusterWin := [] }, ctxs := [], jobs := [(7, { be := true, deadline := 50 })] }
  s.modCore 0 fun k => { k with owner := 0 }

theorem wit_DispatchAndDeadlines_dispatch : NoEdgeNear dispatchState 0 ∧ dispatchState.jobs = [(7, { be := true, deadline := 50 })] ∧
    dispatchState.heldJob { be := true, deadline := 50 } = false ∧ (dispatchState.core 0).entries = [] ∧ dispatchState.sluice.loading = false ∧
    (dispatchState.pick (dispatchState.openCores 0 0) 0 false).isSome = true :=
  ⟨fun _ _ _ => rfl, by decide +kernel⟩

theorem no_entries (m : FMap Core) (h : (m.all fun k => k.2.entries.isEmpty) = true) (c : Nat) : (m.get {} c).entries = [] := by
  induction m with
  | nil => rfl
  | cons x m ih =>
    simp only [List.all_cons, Bool.and_eq_true, List.isEmpty_iff] at h
    simp only [FMap.get]
    split
    · exact h.1
    · exact ih h.2

theorem wit_DispatchAndDeadlines_entries : ∀ c, (dispatchState.core c).entries = [] := no_entries _ (by decide +kernel)

/-- An RT job running in context 0 whose deadline has passed. -/
def lateState (demote : Bool) : State :=
  let s := owned.putJob 1 { state := .running 0, deadline := 10, demote := demote }
  { s with time := { s.time with ref := 10, everLocked := true, locked := true } }

theorem wit_DispatchAndDeadlines_deadlines : ((lateState true).ctx 0).job = some 1 ∧
    (lateState true).job? 1 = some { state := .running 0, deadline := 10, demote := true } ∧ (lateState true).time.everLocked = true ∧
    (10 : Word).toNat ≤ (lateState true).time.ref ∧ ((lateState false).ctx 0).mode = .user ∧
    ((kernelMode (lateState false)).ctx 0).mode = .supervisor ∧
    ((lateState true).putJob 2 { deadline := 10 }).job? 2 = some { deadline := 10 } ∧
    (let s := (lateState true).modCore 0 fun k => { k with entries := [{ kind := .request, tag := 0, tenant := 0, group := 0xFF, deadline := 10, payload := [], src := none, ready := 0 }] }
     (s.core 0).entries.length = 1 ∧ ((s.core 0).tags.get {} 0).be = false) := by decide +kernel

/-- A job being abandoned in context 0, with a queued and a started descendant. -/
def abandonState (phase : Nat) : State :=
  let s := owned.putJob 1 { state := .abandoning 0 phase, abaddr := 0x100, dispatched := some 0 }
  if phase = 0 then (s.putJob 2 { ancestors := [1] }).putJob 3 { ancestors := [1], dispatched := some 1, state := .saved 1 } else s

theorem wit_AbandonmentAndBudgets_actions : ((abandonState 0).job? 1).map (·.state) = some (.abandoning 0 0) ∧
    RisingKeys (abandonState 0).jobs ∧ ((abandonState 0).ctx 0).flumes = [] ∧ ((abandonState 0).ctx 0).settled = true ∧
    (abandonState 0).cntMx 0 ((abandonState 0).ctx 0) = 0 ∧
    (((abandonState 0).modCtx 0 fun c => { c with ops := [{ ord := 0, cls := .en, dst := 0, outbox := false }] }).ctx 0).settled = false ∧
    ((abandonState 1).job? 1).map (·.state) = some (.abandoning 0 1) ∧ (abandonState 1).descendants 1 = [] ∧
    ((abandonState 1).access { owner := 0, root := 0x1000, user := true, core := some 0, cluster := some 0 } 0x100 8 .write true).1.toOption.isSome = true ∧
    ((abandonState 1).access { owner := 0, root := 0x1000, user := true, core := some 0, cluster := some 0 } 0x101 8 .write true).1.toOption.isSome = false := by
  refine ⟨by decide +kernel, ?_, by decide +kernel, by decide +kernel, by decide +kernel, by decide +kernel, by decide +kernel,
    by decide +kernel, by decide +kernel, by decide +kernel⟩
  unfold RisingKeys
  decide +kernel

/-- A reservation whose release has come, with one child. -/
def rsvState (ref : Nat) : State :=
  let s := blockState launchWords
  { s with
    rsvs := [(4, { p := 1000, q := 500, d := 900, o := 0, tenant := 0, root := LaunchRec.ofWords launchWords, consumed := 3, next := 5000 })]
    time := { s.time with ref := ref, everLocked := true }
    jobs := [(1, { state := .running 0, be := true, reservation := some 4 })] }

theorem wit_AbandonmentAndBudgets_reservations : (rsvState 5000).rsvs.find? 4 =
      some { p := 1000, q := 500, d := 900, o := 0, tenant := 0, root := LaunchRec.ofWords launchWords, consumed := 3, next := 5000 } ∧
    (rsvState 5000).time.everLocked = true ∧ 5000 ≤ (rsvState 5000).time.ref ∧ (rsvState 5000).recordOk 0 (LaunchRec.ofWords launchWords) = true ∧
    (rsvState 4991).time.ref + 8 < 5000 ∧ (rsvState 4991).time.cluster.get 0 0 < 5000 ∧
    (rsvState 5000).jobs = [(1, { state := .running 0, be := true, reservation := some 4 })] ∧
    ((rsvState 5000).cluster 0).lastBudget < (rsvState 5000).time.ref / 1000 ∧ ((rsvState 5000).cluster 0).lastAverage < (rsvState 5000).time.ref / 2000 ∧
    (let s : State := { rsvState 5000 with moves := [{ job := 1, group := 0xFF, from_ := 0, to_ := 1, arrived := none }] }
     (s.job? 1).isSome = true) := by decide +kernel

theorem wit_AbandonmentAndBudgets_keys : RisingKeys (rsvState 5000).jobs := by
  unfold RisingKeys
  decide +kernel

/-- s1 a data address, s2 = 1, s3 a message word, s4 a weir, s5 the last weir, s6 a packet word of kind 3, s7 barrier 0 of core 0, s8 tag 0,
s9 group 5. -/
def messageState : State :=
  withRegs (blockState launchWords) [(1, 0x100), (2, 1), (3, 0x100), (4, 5), (5, 6143), (6, 3 * 2 ^ 62), (7, 0), (8, 0), (9, 5), (10, 254)]

theorem wit_MessagesAndTags_send : Quiet messageState ∧ messageState.curCtx.job = some 1 ∧ messageState.msgWordOk (messageState.curCtx.reg 3) = true ∧
    messageState.tbl.arspSize (coreOf messageState.sched.cur) 0 ≠ 0 ∧ 1 ≤ messageState.curCtx.oblim.toNat ∧
    messageState.freeReply (coreOf messageState.sched.cur) 0 ≠ 0 ∧
    (let s := messageState.modCtx 0 fun c => { c with oblim := 0, deleg := 2 ^ 14 }
     Quiet s ∧ s.curCtx.oblim.toNat = 0 ∧ s.curCtx.depth = 0 ∧ s.curCtx.deleg.getLsbD 14 = true) ∧
    (let s := messageState.modCtx 0 fun c => { c with oblim := 0 }
     Quiet s ∧ s.curCtx.oblim.toNat = 0 ∧ s.curCtx.deleg.getLsbD 14 = false) :=
  ⟨quiet_of _ (by decide +kernel), by decide +kernel, by decide +kernel, by decide +kernel, by decide +kernel, by decide +kernel,
    ⟨quiet_of _ (by decide +kernel), by decide +kernel⟩, quiet_of _ (by decide +kernel), by decide +kernel⟩

/-- A tag record for tag 0 at address 0x100. -/
theorem wit_MessagesAndTags_tags : (let s := withRegs (blockState [0x200, 0x0000000000020100]) [(1, 0x100), (8, 0)]
    Quiet s ∧ (s.curCtx.reg 8).toNat < 64 ∧ s.tagOwner 0 0 = s.tenantOf s.curCtx ∧
      (s.access (s.agentOf s.sched.cur s.curCtx) (s.curCtx.reg 1) 16 .read false).1.toOption.isSome = true ∧ s.homeReady 0x5100 = true ∧
      s.mem.readN 0x5108 1 = 0 ∧ s.mem.readN 0x5109 1 ≤ 1 ∧ s.mem.readN 0x510A 1 ≤ 2 ∧ s.mem.readN 0x510B 1 = 0 ∧ s.mem.readN 0x5100 8 % 2 = 0 ∧ s.mem.readN 0x5100 8 < 2 ^ 48 ∧ s.stale = [] ∧
      s.ecc = []) ∧
    HeldReady messageState [2] [] ∧ HeldReady messageState [] [11] ∧ HeldReady messageState [2] [11] ∧
    (∀ t < 64, (messageState.curCtx.reg 2).getLsbD t = true → messageState.tagOwner 0 t = messageState.tenantOf messageState.curCtx) ∧
    (let s := withRegs ready [(2, 1)]; HeldClear s [2] [11] ∧ (s.curCtx.reg 2).getLsbD 0 = true ∧ s.tagOwner (coreOf s.sched.cur) 0 ≠ s.tenantOf s.curCtx) ∧
    (HeldClear ready [0, 2] [] ∧ ready.curFenced 0 = false ∧ (ready.curCtx.reg 0).toNat < 64 ∧
      ready.tagOwner (coreOf ready.sched.cur) (ready.curCtx.reg 0).toNat ≠ ready.tenantOf ready.curCtx) :=
  ⟨⟨quiet_of _ (by decide +kernel), by decide +kernel⟩, held_of _ _ _ (by decide +kernel), held_of _ _ _ (by decide +kernel),
    held_of _ _ _ (by decide +kernel), by decide +kernel, ⟨clear_of _ _ _ (by decide +kernel), by decide +kernel⟩,
    clear_of _ _ _ (by decide +kernel), by decide +kernel⟩

/-- A request of tenant o to tag 0 of core 0. -/
def request (o : Nat) : ActiveMsg :=
  { reply := false, right := false, tenant := o, deadline := 0, group := 0xFF, src := 0, dst := 0, tag := 0, payload := [1]
    sender := some { job := 1, ord := 0 }, sent := 0 }

def fullEntries (kind : EntryKind) : List HandlerEntry :=
  List.replicate 4 { kind := kind, tag := 0, tenant := 0, group := 0xFF, deadline := 0, payload := [], src := some 0, ready := 0 }

/-- A reply that holds the reply right. -/
def rightReply : ActiveMsg := { request 0 with reply := true, right := true }

theorem wit_MessageDeliveries_reply : (let s : State := { messageState with am := [rightReply] }
    rightReply.reply = true ∧ rightReply.right = true ∧ rightReply.dst < 96 ∧ s.slotReleases = [] ∧ s.released rightReply.sender 3 = true ∧
      s.tagOwner rightReply.dst rightReply.tag = rightReply.tenant) := by decide +kernel

theorem wit_MessageDeliveries : (let s : State := { messageState with am := [request 0] }
    (request 0).reply = false ∧ (request 0).dst < 96 ∧ s.amHeld 0 (request 0) = false ∧ s.released (request 0).sender 3 = true ∧ s.tagOwner 0 0 = (request 0).tenant ∧
      (s.core 0).held .request 0 < s.tbl.areqSize 0 0) ∧
    (let s : State := ({ messageState with am := [request 0] } : State).modCore 0 fun k => { k with entries := fullEntries .request }
     ¬(s.core 0).held .request 0 < s.tbl.areqSize 0 0) ∧
    messageState.tagOwner 0 0 ≠ (request 1).tenant ∧
    (let y : PendOp := { ord := 0, cls := .en, dst := 3, outbox := true }
     let s := (({ messageState with answers := [{ sender := { job := 1, ord := 0 }, status := 1, slot := some (0, 0), counted := some (0, 0xFF) }] } : State).modCtx 0
      fun c => { c with ops := [y], ord := 2 }).modCore 0 fun k => { k with reserved := [(0, 1)] }
     (s.job? 1).map (·.state) = some (.running 0) ∧ (s.ctx 0).ops = [y] ∧
       s.answerEarly { sender := { job := 1, ord := 0 }, status := 1, slot := some (0, 0), counted := some (0, 0xFF) } = false) ∧
    (let s : State := { messageState with slotReleases := [{ src := 0, core := 95, owner := 0, sent := 1 }], am := [rightReply] }
     (∀ m ∈ s.am, m.reply = true → m.sent < 1 → sameRoute m.src m.dst 0 95 = true → s.released m.sender 3 = false)) ∧
    (let p : EngPacket := { source := .service 0, tenant := 0, dst := 0, tag := 0, payload := [1], deadline := 0, counted := none }
     let s : State := { messageState with eng := [p] }
     s.engHeld p.source.node (coreNode p.dst) p.sent 0 0 0 = false ∧ s.tagOwner p.dst p.tag = p.tenant) ∧
    (messageState.core 0).held .completion 0 < messageState.tbl.completionSize 0 0 ∧
    (let s := messageState.modCore 0 fun k => { k with entries := fullEntries .completion }
     s.tbl.completionSize 0 0 ≤ (s.core 0).held .completion 0) := by decide +kernel

theorem weirReady_of (s : State) (reads : List SReg) (a : SReg) (ws : List SReg) (h : HeldReady s (a :: reads) ws)
    (h2 : (decide ((s.curCtx.reg a).toNat < 6144) && decide (s.weirOwner (s.curCtx.reg a).toNat = s.tenantOf s.curCtx) && s.weirArrivals.isEmpty) = true) :
    WeirReady s reads a ws (s.curCtx.reg a).toNat := by
  simp only [Bool.and_eq_true, decide_eq_true_eq, List.isEmpty_iff] at h2
  exact ⟨h, rfl, h2.1.1, h2.1.2, by simp [h2.2]⟩

/-- Weir 5 armed with a count. -/
def armedState (n : Nat) : State :=
  messageState.modCluster 0 fun k => { k with weirs := [(5, { armed := true, count := n, kind := 3 })] }

theorem wit_Weirs_instructions : WeirReady messageState [2, 6] 4 [11] 5 ∧ 1 ≤ (messageState.curCtx.reg 2).toNat ∧
    (messageState.curCtx.reg 2).toNat < 2 ^ 20 ∧ packetOk (messageState.curCtx.reg 6) = true ∧ (messageState.weir 5).armed = false ∧
    WeirReady (armedState 1) [2] 4 [11] 5 ∧ ((armedState 1).weir 5).armed = true ∧ ((armedState 1).weir 5).count + 1 < 2 ^ 20 ∧
    WeirReady (armedState (2 ^ 20 - 1)) [2] 4 [11] 5 ∧ 2 ^ 20 ≤ ((armedState (2 ^ 20 - 1)).weir 5).count + 1 ∧ WeirReady messageState [] 5 [11] 6143 ∧
    HeldReady messageState [5, 2] [] ∧ messageState.weirOwner 6143 = messageState.tenantOf messageState.curCtx :=
  ⟨weirReady_of _ _ _ _ (held_of _ _ _ (by decide +kernel)) (by decide +kernel), by decide +kernel, by decide +kernel, by decide +kernel,
    by decide +kernel, weirReady_of _ _ _ _ (held_of _ _ _ (by decide +kernel)) (by decide +kernel), by decide +kernel, by decide +kernel,
    weirReady_of _ _ _ _ (held_of _ _ _ (by decide +kernel)) (by decide +kernel), by decide +kernel,
    weirReady_of _ _ _ _ (held_of _ _ _ (by decide +kernel)) (by decide +kernel), held_of _ _ _ (by decide +kernel), by decide +kernel⟩

/-- An arrival of tenant o at weir 5. -/
def arrivalAt5 (o w : Nat) : WeirArrival := { source := .core 0, weir := 5, tenant := o, weight := w, abort := false, sender := none }

theorem wit_Weirs_arrivals : (let s : State := { armedState 3 with weirArrivals := [arrivalAt5 0 2] }
    s.released (arrivalAt5 0 2).sender 3 = true ∧
      s.engHeld (arrivalAt5 0 2).source.node (clusterNode ((arrivalAt5 0 2).weir / 512)) (arrivalAt5 0 2).sent 0 0 0 = false ∧ (arrivalAt5 0 2).tenant = s.weirOwner 5 ∧ (s.weir 5).armed = true ∧ 2 < (s.weir 5).count ∧
      (s.weir 5).count ≤ 3) ∧ (arrivalAt5 1 1).tenant ≠ messageState.weirOwner 5 ∧ (messageState.weir 5).armed = false := by decide +kernel

/-- A firing of weir 5 with its packet at address 0x100. -/
def firingOf (kind : Nat) (at_ : Word) : Firing :=
  { weir := 5, kind := kind, pointer := at_, abort := false, who := { tenant := 0, root := 0x1000 } }

theorem wit_Weirs_packets : (let s : State := { messageState with firings := [firingOf 0 0x100] }
    let r := s.wordPlaces { owner := 0, root := 0x1000, user := true, core := none, cluster := some 0 } 0x100 8
    s.ecc = [] ∧ r.1.toOption.map (fun ps => ps.map fun p => r.2.mem.readN p.place 8) = some launchWords ∧
      r.1.toOption.map (fun ps => ps.all fun p => p.cached.isSome || s.stale.isEmpty) = some true ∧
      s.recordOk 0 (LaunchRec.ofWords launchWords) = true ∧
      (s.wordPlaces { owner := 0, root := 0x1000, user := true, core := none, cluster := some 0 } 0x1000 8).1.toOption.isNone = true) ∧
    (let s : State := { blockState [0x100, 8] with firings := [firingOf 2 0x100] }
     (s.wordPlaces { owner := 0, root := 0x1000, user := true, core := none, cluster := some 0 } 0x100 10).1.toOption.isSome = true ∧
       s.msgWordOk 0x100 = true) := by decide +kernel

theorem barrierReady_of (s : State) (reads : List SReg) (a : SReg) (ws : List SReg) (id : Nat) (h : HeldReady s (a :: reads) ws)
    (h2 : (decide ((s.curCtx.reg a).toNat = 256 * id + coreOf s.sched.cur) && decide (id < 256) &&
      decide (s.barrierOwner (coreOf s.sched.cur) id = s.tenantOf s.curCtx)) = true) : BarrierReady s reads a ws id := by
  simp only [Bool.and_eq_true, decide_eq_true_eq] at h2
  exact ⟨h, h2.1.1, h2.1.2, h2.2⟩

/-- Barrier 0 of core 0 with two participants, n of them to come. -/
def barrierState (n : Nat) : State := messageState.modCore 0 fun k => { k with barriers := [(0, { part := 2, rem := n, gen := 1 })] }

theorem wit_BarrierInstructions : BarrierReady (barrierState 2) [2] 7 [11] 0 ∧ ((barrierState 2).barrier 0 0).rem = ((barrierState 2).barrier 0 0).part ∧
    BarrierReady (barrierState 1) [2] 7 [11] 0 ∧ ((barrierState 1).barrier 0 0).rem ≠ ((barrierState 1).barrier 0 0).part ∧
    ((barrierState 1).barrier 0 0).gen = ((barrierState 1).curCtx.reg 2).toNat ∧ BarrierReady (barrierState 1) [0] 7 [11] 0 ∧
    ((barrierState 1).barrier 0 0).gen ≠ ((barrierState 1).curCtx.reg 0).toNat ∧ BarrierReady (barrierState 1) [] 7 [11] 0 ∧
    (barrierState 1).curCtx.bsync = none ∧
    (barrierState 1).pendClasses (barrierState 1).sched.cur (barrierState 1).curCtx 7 (barrierState 1).curCtx.ord = false ∧
    ((barrierState 1).barrier 0 0).part ≠ 0 ∧ ((barrierState 1).barrier 0 0).rem ≤ 1 ∧ BarrierReady (barrierState 2) [] 7 [11] 0 ∧
    1 < ((barrierState 2).barrier 0 0).rem :=
  ⟨barrierReady_of _ _ _ _ _ (held_of _ _ _ (by decide +kernel)) (by decide +kernel), by decide +kernel,
    barrierReady_of _ _ _ _ _ (held_of _ _ _ (by decide +kernel)) (by decide +kernel), by decide +kernel, by decide +kernel,
    barrierReady_of _ _ _ _ _ (held_of _ _ _ (by decide +kernel)) (by decide +kernel), by decide +kernel,
    barrierReady_of _ _ _ _ _ (held_of _ _ _ (by decide +kernel)) (by decide +kernel), by decide +kernel, by decide +kernel,
    by decide +kernel, by decide +kernel, barrierReady_of _ _ _ _ _ (held_of _ _ _ (by decide +kernel)) (by decide +kernel), by decide +kernel⟩

/-- The barrier with its error bit, and a BSYNC of the context that has arrived in generation g. -/
def errorBarrier (err : Bool) (g : Nat) : State :=
  (messageState.modCore 0 fun k => { k with barriers := [(0, { part := 2, rem := 1, gen := 1, err := err })] }).modCtx 0 fun c =>
    { c with bsync := some { gen := g, core := 0, id := 0 } }

theorem wit_BarrierInstructions_resumed : BarrierReady (errorBarrier true 1) [2] 7 [11] 0 ∧ ((errorBarrier true 1).barrier 0 0).err = true ∧
    (errorBarrier true 1).trapHeld (errorBarrier true 1).sched.cur (errorBarrier true 1).curCtx = false ∧
    BarrierReady (errorBarrier true 1) [] 7 [11] 0 ∧ (errorBarrier true 1).curCtx.bsync = some { gen := 1, core := 0, id := 0 } ∧
    BarrierReady (errorBarrier false 0) [] 7 [11] 0 ∧ (errorBarrier false 0).curCtx.bsync = some { gen := 0, core := 0, id := 0 } ∧
    ((errorBarrier false 0).barrier 0 0).gen = 1 ∧ BarrierReady (errorBarrier false 1) [] 7 [11] 0 ∧ BarrierReady messageState [] 7 [11] 0 ∧
    messageState.curCtx.bsync = none ∧ (messageState.barrier 0 0).part = 0 ∧
    messageState.pendClasses messageState.sched.cur messageState.curCtx 7 messageState.curCtx.ord = false ∧
    messageState.trapHeld messageState.sched.cur messageState.curCtx = false :=
  ⟨barrierReady_of _ _ _ _ _ (held_of _ _ _ (by decide +kernel)) (by decide +kernel), by decide +kernel, by decide +kernel,
    barrierReady_of _ _ _ _ _ (held_of _ _ _ (by decide +kernel)) (by decide +kernel), by decide +kernel,
    barrierReady_of _ _ _ _ _ (held_of _ _ _ (by decide +kernel)) (by decide +kernel), by decide +kernel, by decide +kernel,
    barrierReady_of _ _ _ _ _ (held_of _ _ _ (by decide +kernel)) (by decide +kernel),
    barrierReady_of _ _ _ _ _ (held_of _ _ _ (by decide +kernel)) (by decide +kernel), by decide +kernel, by decide +kernel, by decide +kernel,
    by decide +kernel⟩

theorem wit_BarrierInstructions_arrivals : (let y : BarrierArrival := { src := 0, core := 0, id := 0, tenant := 0, sender := none }
    let s : State := { barrierState 2 with barrierArrivals := [y] }
    s.released y.sender 7 = true ∧ s.engHeld (coreNode y.src) (coreNode y.core) y.sent 0 0 0 = false ∧ s.barrierOwner y.core y.id = y.tenant ∧ s.barrierOwner y.core y.id ≠ 1) ∧
    HeldReady messageState [7] [] ∧ (messageState.curCtx.reg 7).toNat = 256 * 0 + 0 :=
  ⟨by decide +kernel, held_of _ _ _ (by decide +kernel), by decide +kernel⟩

theorem wit_LaunchGroups : HeldReady messageState [10, 3] [11] ∧ (messageState.curCtx.reg 10).toNat = 254 ∧
    messageState.completionOk (messageState.tenantOf messageState.curCtx) (messageState.curCtx.reg 3) = true ∧
    (messageState.groupOf 254).state = .free ∧
    (let s : State := { messageState with groups := [(5, { state := .open_, owner := 0, started := true, quiet := some 0 })], time := { messageState.time with ref := 1000 } }
     HeldReady s [9] [11] ∧ (s.groupOf 5).state = .open_ ∧ (s.groupOf 5).owner = s.tenantOf s.curCtx ∧ 1 ≤ s.sweep ∧ s.reports = [] ∧
       s.landing = none ∧ (s.groupOf 5).started = true ∧ (s.lastSweep / (500 * s.sweep) + 1) * (500 * s.sweep) ≤ s.time.ref) :=
  ⟨held_of _ _ _ (by decide +kernel), by decide +kernel, by decide +kernel, by decide +kernel, held_of _ _ _ (by decide +kernel),
    by decide +kernel⟩

/-- Group 5 with the reports of clusters 1 to 11 in, each idle with nothing sent or received. -/
def sweepState : State :=
  { messageState with
    groups := [(5, { state := .open_, owner := 0, started := true, quiet := some 0 })]
    reports := (List.range 11).map fun i => (i + 1, [(5, { idle := true, sent := 0, recv := 0 })]) }

theorem wit_LaunchGroups_last : sweepState.unreported = [0] ∧ sweepState.moves = [] ∧ sweepState.lastSweep ≤ sweepState.time.ref ∧
    (∀ i < 12, i ≠ 0 → FMap.find? (sweepState.reports.get [] i) 5 = some { idle := true, sent := 0, recv := 0 }) ∧
    sweepState.groupIdle 0 5 = true ∧ sweepState.groupTotal Core.sent 0 5 = 0 ∧ sweepState.groupTotal Core.recv 0 5 = 0 := by decide +kernel

def illegal0 : TrapInfo := { cause := .illegalInstruction, value := 0 }

/-- ready with a stack and trap vectors, delegating ILLEGAL_INSTRUCTION. -/
def delegating : State := (withRegs ready [(2, 0x800)]).modCtx 0 fun c => { c with deleg := 2 ^ Cause.code .illegalInstruction, utvec := 0x400, tvec := 0x2 }

theorem wit_TrapEntries : GoesToUser delegating.curCtx illegal0 ∧ ¬GoesToUser ready.curCtx illegal0 ∧ ready.curCtx.mode = .user ∧ ready.curCtx.depth < 3 ∧
    ¬GoesToUser delegating.curCtx { cause := .softwareTrap, value := 0x10000 } := by
  unfold GoesToUser
  decide +kernel

/-- In the micro-kernel at some depth, with s2 in the page of data that the tables map. -/
def nestedState (depth : Nat) : State := (withRegs owned [(2, 0x800)]).modCtx 0 fun c => { c with mode := .supervisor, depth := depth, tvec := 0x100 }

theorem wit_TrapEntries_nested : ((nestedState 2).ctx 0).mode = .supervisor ∧ ((nestedState 2).ctx 0).depth < 3 ∧
    ((nestedState 2).framePlaces 0 .write (((nestedState 2).ctx 0).reg 2 - 32)).1 = some [0x57E0, 0x57E8, 0x57F0, 0x57F8] ∧
    ((nestedState 3).ctx 0).depth = 3 ∧ ((nestedState 3).ctx 0).job = some 1 ∧ ((nestedState 3).job? 1).map (·.state) = some (.running 0) ∧
    ((withRegs (nestedState 2) [(2, 0x10)]).framePlaces 0 .write (((withRegs (nestedState 2) [(2, 0x10)]).ctx 0).reg 2 - 32)).1 = none := by
  decide +kernel

theorem wit_SoftwareAndFetchTraps : HeldClear ready [] [] := clear_of _ _ _ (by decide +kernel)

theorem wit_TrapReturns : HeldClear ready [] [2] ∧ ready.curCtx.depth = 0 ∧
    (let s := ready.modCtx 0 fun c => { c with depth := 1, utepc := 0x10 }
     HeldClear s [] [2] ∧ s.curCtx.badRead [2] = none ∧ s.pdepth s.sched.cur s.curCtx < s.curCtx.depth ∧ s.curCtx.mode = .user ∧ s.curCtx.utepc.getLsbD 0 = false) ∧
    (let s := (kernelMode ready).modCtx 0 fun c => { c with tepc := 0 }
     HeldClear s [] [2] ∧ s.curCtx.badRead [2] = none ∧ s.pdepth s.sched.cur s.curCtx < s.curCtx.depth ∧ s.curCtx.mode = .supervisor ∧ s.curCtx.tstatus.getLsbD 2 = false ∧
       s.curCtx.tepc.getLsbD 0 = false) ∧
    (let s := (nestedState 2).modCtx 0 fun c => { c with tstatus := 5 }
     HeldClear s [] [2] ∧ s.curCtx.badRead [2] = none ∧ s.pdepth s.sched.cur s.curCtx < s.curCtx.depth ∧ s.curCtx.tstatus.getLsbD 2 = true ∧ (s.frameWords s.sched.cur s.curCtx).1.toOption.isSome = true) :=
  ⟨clear_of _ _ _ (by decide +kernel), by decide +kernel, ⟨clear_of _ _ _ (by decide +kernel), by decide +kernel⟩,
    ⟨clear_of _ _ _ (by decide +kernel), by decide +kernel⟩, clear_of _ _ _ (by decide +kernel), by decide +kernel⟩

theorem wit_TrapReturns_skip : (match (kernelMode ready).fetchChain 0 0 with
    | (.chain _, _) => true
    | _ => false) = true := by decide +kernel

theorem wit_TrapThenReturn : Quiet ready ∧ ready.curCtx.mode = .user ∧ ready.curCtx.depth = 0 ∧ ready.curCtx.status = .running ∧
    ready.curCtx.pc.getLsbD 0 = false ∧ ready.mxOf ready.sched.cur ready.curCtx = none := ⟨quiet_ready, by decide +kernel⟩

theorem wit_SupervisorInstructions_privileged : ready.sched.cur < numCtx ∧ ready.curCtx.mode = .user ∧
    ready.trapHeld ready.sched.cur ready.curCtx = false := by
  decide +kernel

theorem wit_ServiceAndSystemReads_call : (let s := withRegs owned [(1, 0x100), (2, 0xFFFF), (3, 0x7F0000000000)]
    Quiet s ∧ s.curCtx.job = some 1 ∧ (s.curCtx.reg 1).toNat % 64 = 0 ∧ (s.curCtx.reg 2).toNat < 2 ^ 16 ∧
      (match (s.xlate (s.agentOf s.sched.cur s.curCtx) (s.curCtx.reg 1) .read false).1 with
       | .ok x => s.isLpddr x.place && !x.uc
       | .error _ => false) = true ∧
      (match (s.xlate (s.agentOf s.sched.cur s.curCtx) (s.curCtx.reg 3) .read false).1 with
       | .ok x => !s.isLpddr x.place
       | .error _ => false) = true) := ⟨quiet_of _ (by decide +kernel), by decide +kernel⟩

theorem wit_ServiceAndSystemReads : HeldReady owned [] [3] ∧ owned.sluice.table = some table ∧
    owned.sluice.clusterWin.get none (clusterOf (coreOf owned.sched.cur)) = some { cycle := 0, idx := 0 } ∧ HeldReady owned [1] [3] ∧
    (owned.curCtx.reg 1).toNat = owned.tenantOf owned.curCtx ∧
    (let s := withRegs owned [(1, 5)]; HeldReady s [1] [3] ∧ (s.curCtx.reg 1).toNat ≠ s.tenantOf s.curCtx ∧ s.curCtx.mode = .user) ∧
    ((rsvState 0).rsvs.find? 4).map (·.tenant) = some ((rsvState 0).tenantOf (rsvState 0).curCtx) ∧
    (let s : State := withRegs { rsvState 0 with rsvs := [(4, { p := 1000, q := 500, d := 900, o := 0, tenant := 1, root := LaunchRec.ofWords launchWords, consumed := 3, next := 5000 })] } [(1, 4)]
     HeldReady s [1] [3] ∧ (s.rsvs.find? (s.curCtx.reg 1).toNat).map (·.tenant) = some 1 ∧ s.tenantOf s.curCtx = 0 ∧
       s.trapHeld s.sched.cur s.curCtx = false) ∧ (kernelMode owned).curCtx.mode = .supervisor ∧ HeldReady (kernelMode owned) [1] [3] :=
  ⟨held_of _ _ _ (by decide +kernel), by decide +kernel, by decide +kernel, held_of _ _ _ (by decide +kernel), by decide +kernel,
    ⟨held_of _ _ _ (by decide +kernel), by decide +kernel⟩, by decide +kernel, ⟨held_of _ _ _ (by decide +kernel), by decide +kernel⟩,
    by decide +kernel, held_of _ _ _ (by decide +kernel)⟩

/-- In the micro-kernel, with s1 the unit word of engine 3, s2 of core 5, s3 of core 0, which its tenant owns. -/
def gateState (gated : Bool) : State :=
  ((withRegs (kernelMode owned) [(1, 0x303), (2, 0x500), (3, 0)]).modCore 0 fun k => { k with owner := 0 }).setGated (.engine 3) gated

theorem wit_SupervisorInstructions_power : GateReady (gateState false) 4 1 (.engine 3) ∧ (gateState false).unitUnowned (.engine 3) = false ∧
    (gateState false).unitHolds (.engine 3) = false ∧ (gateState false).gated (.engine 3) = false ∧ GateReady (gateState true) 4 1 (.engine 3) ∧
    (gateState true).gated (.engine 3) = true ∧ GateReady (gateState false) 4 2 (.core 5) ∧ (gateState false).unitUnowned (.core 5) = true ∧
    GateReady (gateState false) 4 3 (.core 0) ∧ (gateState false).unitUnowned (.core 0) = false ∧ (gateState false).unitHolds (.core 0) = true :=
  ⟨⟨held_of _ _ _ (by decide +kernel), by decide +kernel, by decide +kernel⟩, by decide +kernel, by decide +kernel, by decide +kernel,
    ⟨held_of _ _ _ (by decide +kernel), by decide +kernel, by decide +kernel⟩, by decide +kernel,
    ⟨held_of _ _ _ (by decide +kernel), by decide +kernel, by decide +kernel⟩, by decide +kernel,
    ⟨held_of _ _ _ (by decide +kernel), by decide +kernel, by decide +kernel⟩, by decide +kernel, by decide +kernel⟩

/-- A reservation descriptor whose child is that of launchWords. -/
def rsvWords (p : Nat) : List Nat := [p, 5, 900, 0, 0, 0, 0, 0] ++ launchWords

theorem wit_SupervisorInstructions_halt : HeldReady (kernelMode owned) [0] [] ∧ (kernelMode owned).curCtx.job = some 1 ∧
    ((kernelMode owned).job? 1).map (·.state) = some (.running 0) ∧
    (let s : State := withRegs { owned with time := { owned.time with ref := 100 } } [(1, 100), (2, 109)]
     HeldReady s [1] [] ∧ HeldReady s [2] [] ∧ (s.curCtx.reg 1).toNat ≤ s.time.ref ∧ s.time.ref + 8 < (s.curCtx.reg 2).toNat ∧
       s.time.cluster.get 0 (clusterOf (coreOf s.sched.cur)) < (s.curCtx.reg 2).toNat) :=
  ⟨held_of _ _ _ (by decide +kernel), by decide +kernel, by decide +kernel, held_of _ _ _ (by decide +kernel),
    held_of _ _ _ (by decide +kernel), by decide +kernel⟩

theorem wit_SupervisorInstructions_admission : (let s := kernelMode (blockState (rsvWords 1000))
    Quiet s ∧ s.curCtx.mode = .supervisor ∧ (s.curCtx.reg 1).toNat % 64 = 0 ∧ ReadsWords s (s.curCtx.reg 1) 16 (rsvWords 1000) ∧
      s.admitStatus (RsvDesc.ofWords (rsvWords 1000) (some 0)) = 0) ∧
    (let s := kernelMode (blockState (rsvWords 0))
     Quiet s ∧ ReadsWords s (s.curCtx.reg 1) 16 (rsvWords 0) ∧ s.admitStatus (RsvDesc.ofWords (rsvWords 0) (some 0)) = 3) :=
  ⟨⟨quiet_of _ (by decide +kernel), by decide +kernel, by decide +kernel, readsWords_of _ _ _ _ (by decide +kernel), by decide +kernel⟩,
    quiet_of _ (by decide +kernel), readsWords_of _ _ _ _ (by decide +kernel), by decide +kernel⟩

/-- Context 0 in the micro-kernel with context 1 in some status, and a 2 MiB page at the first supervisor address. -/
def imageState (st : CtxStatus) : State :=
  let s := withRegs (kernelMode owned) [(1, 1), (2, 0x800000000000)]
  let s := (s.putJob 2 { state := .running 1 }).modCtx 1 fun c => { c with job := some 2, status := st }
  { s with mem := words [(0x1800, 8, 0x6001), (0x6000, 8, 0x7001), (0x7000, 8, 0x200067)] s.mem, lpddr := 0x400000 }

theorem imageReady_of (st : CtxStatus) (h : (quietB (imageState st) && (imageState st).curCtx.mode == .supervisor) = true)
    (h2 : 1 = ((imageState st).curCtx.reg 1).toNat ∧ 4 * coreOf (imageState st).sched.cur + 1 ≠ (imageState st).sched.cur ∧
      ((imageState st).curCtx.reg 2).toNat % 4096 = 0 ∧ 2 ^ 47 ≤ ((imageState st).curCtx.reg 2).toNat ∧
      ((imageState st).curCtx.reg 2).toNat < 2 ^ 48) : ImageReady (imageState st) 1 2 1 := by
  simp only [Bool.and_eq_true, beq_iff_eq] at h
  exact ⟨quiet_of _ h.1, h.2, h2.1, by omega, h2.2.2.1, h2.2.2.2⟩

theorem wit_ContextImages : ImageReady (imageState .running) 1 2 1 ∧ ((imageState .running).ctx 1).status = .running ∧
    ImageReady (imageState (.waiting .stopped)) 1 2 1 ∧ ((imageState (.waiting .stopped)).ctx 1).status = .waiting .stopped ∧
    ImageReady (imageState (.waiting (.saving 0))) 1 2 1 ∧ (imageState (.waiting (.saving 0))).drained 1 ((imageState (.waiting (.saving 0))).ctx 1) = true ∧
    (imageState (.waiting (.saving 0))).mxOf 1 ((imageState (.waiting (.saving 0))).ctx 1) = none :=
  ⟨imageReady_of _ (by decide +kernel) (by decide +kernel), by decide +kernel, imageReady_of _ (by decide +kernel) (by decide +kernel),
    by decide +kernel, imageReady_of _ (by decide +kernel) (by decide +kernel), by decide +kernel, by decide +kernel⟩

theorem wit_ContextImages_homes (st : CtxStatus) : HomesWhole (imageState st) := fun l x h => by
  have : (imageState st).stale = [] := rfl
  rw [this] at h
  simp [FMap.find?] at h

theorem wit_ContextImages_pages : (let s := imageState (.waiting (.saving 0))
    let r := (s.probeWrite (s.agentOf s.sched.cur s.curCtx) (imagePages (s.curCtx.reg 2))).1
    r.toOption.map (fun ps => ps.map (·.place)) = some ((List.range 22).map fun i => 0x200000 + 4096 * i)) ∧
    (let s := imageState (.waiting .stopped)
     let r := s.probeRange (s.agentOf s.sched.cur s.curCtx) .read false (imagePages (s.curCtx.reg 2))
     r.1.toOption.map (fun ps => s.imageDiffers 1 (r.2.pageReader ps)) = some false) ∧
    (let s : State := { imageState (.waiting .stopped) with mem := words [(0x215400, 8, 1)] (imageState (.waiting .stopped)).mem }
     let r := s.probeRange (s.agentOf s.sched.cur s.curCtx) .read false (imagePages (s.curCtx.reg 2))
     r.1.toOption.map (fun ps => s.imageDiffers 1 (r.2.pageReader ps)) = some true) := by decide +kernel

theorem wit_SupervisorInstructions_tlb : (let s := withRegs (kernelMode owned) [(1, 0x100), (2, 2), (3, 0x3E02)]
    Quiet s ∧ s.curCtx.mode = .supervisor ∧ (s.curCtx.reg 2).toNat % 4 = 2 ∧ (s.curCtx.reg 2).toNat / 256 % 64 = 0 ∧
      (s.curCtx.reg 3).toNat / 256 % 64 = 62 ∧ (s.curCtx.reg 3).toNat / 4 % 64 = 0 ∧ (s.curCtx.reg 3).toNat < 2 ^ 14 ∧ FMap.wf {} s.clusters = true ∧
      s.accessesOf 2 0 s.sched.cur = false) := ⟨quiet_of _ (by decide +kernel), by decide +kernel⟩

/-! ### The gates: the counters read a free value within 8 ns of the reference -/

theorem now_ge (s : State) (k : Nat) : s.time.ref ≤ (s.clusterNow k).1 := by simp only [State.clusterNow, State.counterNow]; omega
theorem now_le (s : State) (k : Nat) (h : s.time.cluster.get 0 k ≤ s.time.ref + 8) : (s.clusterNow k).1 ≤ s.time.ref + 8 := by
  simp only [State.clusterNow, State.counterNow]; omega
theorem slice_ge (s : State) (k : Nat) : s.time.ref ≤ (s.sliceNow k).1 := by simp only [State.sliceNow, State.counterNow]; omega
theorem slice_le (s : State) (k : Nat) (h : s.time.slice.get 0 k ≤ s.time.ref + 8) : (s.sliceNow k).1 ≤ s.time.ref + 8 := by
  simp only [State.sliceNow, State.counterNow]; omega

/-- Two windows of 50 µs: tenant 0 owns core 0 in the first and nobody in the second; tenant 0 lends to tenant 1, of weight 3. -/
def table2 : Table :=
  { img := words [(0x08, 8, 100000), (0x18, 8, 2 + 256 * 2), (0x48, 4, 50000), (0x50, 8, 50000), (0x58, 4, 50000), (0x5C, 4, 1),
      (0x2000, 1, 63), (0x11100, 4, 0x20000), (0x26F10, 8, 2 ^ 64 - 256 + 1), (0x26F40, 2, 3), (0x26F42, 1, 1)] [] }

/-- The time ref in the first window, core 0 with owner o. -/
def gatesState (ref o : Nat) : State :=
  let s := { owned with
    sluice := { owned.sluice with table := some table2 }, time := { owned.time with ref := ref, everLocked := true }, ctxs := [], jobs := [] }
  s.modCore 0 fun k => { k with owner := o }

theorem inWindow (ref o : Nat) : InWindow (gatesState ref o) 0 table2 { cycle := 0, idx := 0 } ((gatesState ref o).clusterNow 0).1 ((gatesState ref o).clusterNow 0).2 :=
  ⟨rfl, rfl, rfl⟩

theorem table2_windows : table2.nwin = 2 ∧ table2.cycle = 100000 ∧ table2.epoch = 0 ∧ table2.winEnd { cycle := 0, idx := 0 } = 50000 ∧
    table2.nextWin { cycle := 0, idx := 0 } = { cycle := 0, idx := 1 } ∧ table2.ownerIn { cycle := 0, idx := 0 } 0 = 0 ∧
    table2.ownerIn { cycle := 0, idx := 1 } 0 = 63 ∧ table2.posAt 50000 = { cycle := 0, idx := 1 } ∧ table2.posAt 50008 = { cycle := 0, idx := 1 } ∧
    table2.posAt 20000 = { cycle := 0, idx := 0 } := by decide +kernel

theorem wit_WindowsAndEdges_starts : (gatesState 50000 0).sluice.table = some table2 ∧ (gatesState 50000 0).sluice.inForce = true ∧
    (gatesState 50000 0).sluice.loading = false ∧ table2.epoch ≤ ((gatesState 50000 0).clusterNow 0).1 ∧
    table2.epoch ≤ ((gatesState 50000 0).sliceNow 7).1 ∧
    (gatesState 50000 0).sluice.clusterWin.get none 0 ≠ some { cycle := 0, idx := 1 } ∧ ((gatesState 50000 0).core 0).edge = none ∧
    table2.ownerIn { cycle := 0, idx := 1 } 0 ≠ ((gatesState 50000 0).core 0).owner := by
  have h : table2.epoch = 0 := by decide +kernel
  refine ⟨by decide +kernel, by decide +kernel, by decide +kernel, by omega, by omega, by decide +kernel, by decide +kernel, by decide +kernel⟩

theorem wit_WindowsAndEdges_guard : table2.winEnd { cycle := 0, idx := 0 } ≤ ((gatesState 49936 0).clusterNow 0).1 + 64 ∧
    ((gatesState 49927 0).clusterNow 0).1 + 64 < table2.winEnd { cycle := 0, idx := 0 } ∧
    table2.ownerIn (table2.nextWin { cycle := 0, idx := 0 }) 0 ≠ table2.ownerIn { cycle := 0, idx := 0 } 0 := by
  have h : table2.winEnd { cycle := 0, idx := 0 } = 50000 := by decide +kernel
  have h1 := now_ge (gatesState 49936 0) 0
  have h2 := now_le (gatesState 49927 0) 0 (by decide +kernel)
  have h3 : (gatesState 49936 0).time.ref = 49936 := rfl
  have h4 : (gatesState 49927 0).time.ref = 49927 := rfl
  exact ⟨by omega, by omega, by decide +kernel⟩

/-- Core 0 gated by an edge, in the second window. -/
def edgeGatedState (ref : Nat) : State :=
  let s := (gatesState ref 63).modCore 0 fun k => { k with edgeGated := true }
  { s with sluice := { s.sluice with clusterWin := [(0, some { cycle := 0, idx := 1 })] } }

theorem wit_WindowsAndEdges_repower : InWindow (edgeGatedState 98000) 0 table2 { cycle := 0, idx := 1 } ((edgeGatedState 98000).clusterNow 0).1
      ((edgeGatedState 98000).clusterNow 0).2 ∧ ((edgeGatedState 98000).core 0).edgeGated = true ∧
    table2.nextOwned 0 table2.nwin { cycle := 0, idx := 1 } = some { cycle := 1, idx := 0 } ∧
    table2.winAt { cycle := 1, idx := 0 } ≤ ((edgeGatedState 98000).clusterNow 0).1 + 2000 ∧
    ((edgeGatedState 97991).clusterNow 0).1 + 2000 < table2.winAt { cycle := 1, idx := 0 } := by
  have h : table2.winAt { cycle := 1, idx := 0 } = 100000 := by decide +kernel
  have h1 := now_ge (edgeGatedState 98000) 0
  have h2 := now_le (edgeGatedState 97991) 0 (by decide +kernel)
  have h3 : (edgeGatedState 98000).time.ref = 98000 := rfl
  have h4 : (edgeGatedState 97991).time.ref = 97991 := rfl
  exact ⟨⟨rfl, rfl, rfl⟩, by decide +kernel, by decide +kernel, by omega, by omega⟩

/-- An edge at 50 µs of core 0 from tenant 0, whose job runs in context 0 or lies saved there. -/
def edgeState (ref in_ : Nat) (saved : Bool) : State :=
  let s := (gatesState ref in_).modCore 0 fun k => { k with edge := some { at_ := 50000, window := 1, out := 0, in_ := in_, loan := false } }
  if saved then { s with jobs := [(1, { state := .saved 0, img := some { job := some 1 } })] }
  else ({ s with jobs := [(1, { state := .running 0 })] } : State).modCtx 0 fun c => { c with job := some 1, status := .running }

theorem wit_EdgeSwap : ((edgeState 50100 63 false).core 0).edge = some { at_ := 50000, window := 1, out := 0, in_ := 63, loan := false } ∧
    (∀ x < 4, ((edgeState 50100 63 false).ctx (4 * 0 + x)).vq = []) ∧ ((edgeState 50492 63 false).clusterNow 0).1 ≤ 50000 + 500 ∧
    50000 + 500 < ((edgeState 50501 63 false).clusterNow 0).1 ∧ (edgeState 50100 63 false).jobs = [(1, { state := .running 0 })] ∧
    ((edgeState 50100 63 false).ctx 0).job = some 1 ∧ (∀ y < 4, y ≠ 0 → ((edgeState 50100 63 false).ctx y).job = none) ∧
    (edgeState 50100 0 true).jobs = [(1, { state := .saved 0, img := some { job := some 1 } })] ∧ ((edgeState 50100 0 true).core 0).quarIdle = false ∧
    (∀ y < 4, ((edgeState 50100 0 true).ctx y).job = none) ∧ ((edgeState 50100 63 false).core 0).mx.drained = true ∧
    ((edgeState 50100 0 true).core 0).mx.drained = true ∧ (edgeState 50100 0 true).power.throttle = 0 := by
  have h1 := now_ge (edgeState 50501 63 false) 0
  have h2 := now_le (edgeState 50492 63 false) 0 (by decide +kernel)
  have h3 : (edgeState 50492 63 false).time.ref = 50492 := rfl
  have h4 : (edgeState 50501 63 false).time.ref = 50501 := rfl
  exact ⟨by decide +kernel, by decide +kernel, by omega, by omega, by decide +kernel, by decide +kernel, by decide +kernel,
    by decide +kernel, by decide +kernel, by decide +kernel, by decide +kernel, by decide +kernel, by decide +kernel⟩

/-- The same with the power cap's first action taken. -/
theorem wit_EdgeSwap_capped : (let s : State := { edgeState 50100 0 true with
      power := { (edgeState 50100 0 true).power with throttle := 1 }, jobs := [(1, { be := true, state := .saved 0, img := some { job := some 1 } })] }
    s.power.throttle ≠ 0 ∧ s.jobs = [(1, { be := true, state := .saved 0, img := some { job := some 1 } })] ∧ (s.core 0).quarIdle = false ∧
      (s.core 0).edge = some { at_ := 50000, window := 1, out := 0, in_ := 0, loan := false } ∧
      (∀ y < 4, (s.ctx y).job = none)) := by decide +kernel

theorem wit_EdgeSwap_deadlines : NotDue (edgeState 50100 0 true) { state := .saved 0, deadline := 60000 } ∧
    (edgeState 50100 0 true).time.everLocked = true ∧
    ({ state := .saved 0, deadline := 50100 } : Job).deadline.toNat ≤ (edgeState 50100 0 true).time.ref := by
  unfold NotDue
  decide +kernel

/-- A cluster's counter that already shows 8 ns more than the reference shows that again. -/
theorem clusterNow_eq (s : State) (k n : Nat) (h : s.time.cluster.get 0 k = n) (h2 : s.time.ref + 8 ≤ n) :
    s.clusterNow k = (n, { s with
      time := { s.time with cluster := s.time.cluster.set 0 k n }, sched := { s.sched with draws := s.sched.draws + 1 } }) := by
  have e : s.counterNow (s.time.cluster.get 0 k) = n := by simp only [State.counterNow]; omega
  simp only [State.clusterNow, e]

/-- Core 0 idle under tenant 0 since the start of its window, with a queued job of tenant 1, at the time 20,008 of its cluster. -/
def loanState (ref : Nat) : State :=
  let s := gatesState ref 0
  { s with jobs := [(9, { tenant := 1, cluster := 0, deadline := 90000 })], time := { s.time with cluster := [(0, ref + 8)] } }

theorem wit_Loans_start : InWindow (loanState 20000) 0 table2 { cycle := 0, idx := 0 } 20008 ((loanState 20000).clusterNow 0).2 ∧
    ((loanState 20000).clusterNow 0).2.lendable table2 { cycle := 0, idx := 0 } 0 20008 = true ∧ (loanState 20000).sluice.loading = false ∧
    table2.donation ((loanState 20000).core 0).owner = [1] ∧ (1 : Nat) ≠ ((loanState 20000).core 0).owner ∧ 0 < table2.weight 1 ∧
    ((loanState 20000).clusterNow 0).2.lendsTo 0 1 false 20008 = true := by
  have h := clusterNow_eq (loanState 20000) 0 20008 (by decide +kernel) (by decide +kernel)
  refine ⟨⟨rfl, rfl, by rw [h]⟩, ?_, by decide +kernel, by decide +kernel, by decide +kernel, by decide +kernel, ?_⟩ <;> rw [h] <;> decide +kernel

theorem wit_Loans_stop : (let s := (loanState 50000).modCore 0 fun k => { k with loan := some { to_ := 1, start := 20000 } }
    (s.core 0).loan = some { to_ := 1, start := 20000 } ∧ (s.core 0).edge = none ∧ table2.winEnd { cycle := 0, idx := 0 } ≤ s.time.ref) := by
  decide +kernel

theorem wit_Loans_epoch : (gatesState 0 0).sluice.table = some table2 ∧ table2.epoch ≤ (gatesState 0 0).time.ref + 8 ∧
    (let t : Table := { img := words [(0x10, 8, 9)] [] }
     let s : State := { owned with sluice := { owned.sluice with table := some t } }
     s.sluice.loading = false ∧ s.time.ref + 8 < t.epoch) := by decide +kernel

/-! ### A table that passes the checks of R338 -/

/-- The smallest such table: one window of 100 µs and one set, everything tenant 0's. -/
def goodTable (epoch : Nat) : Table :=
  { img := words [(0, 8, 1), (8, 8, 100000), (0x10, 8, epoch), (0x18, 8, 257), (0x48, 4, 100000), (0x26F02, 1, 1)] [] }

abbrev gt : Table := goodTable 1000000

theorem gt_cells : gt.img = [(0, 1), (8, 0xA0), (9, 0x86), (10, 1), (0x10, 0x40), (0x11, 0x42), (0x12, 0x0F), (0x18, 1), (0x19, 1), (0x48, 0xA0),
    (0x49, 0x86), (0x4A, 1), (0x26F02, 1)] := by decide +kernel

theorem gt_read (o : Nat) (h : 0x50 ≤ o) (h2 : o ≠ 0x26F02) : gt.img.read o = 0 := by
  rw [gt_cells]
  simp only [Memory.read, FMap.get, emptyByte]
  repeat rw [if_neg (by omega)]

theorem readN_zero (m : Memory) (n : Nat) : ∀ o, (∀ i < n, m.read (o + i) = 0) → m.readN o n = 0 := by
  induction n with
  | zero => intro o _; rfl
  | succ n ih =>
    intro o h
    have h0 := h 0 (by omega)
    have h1 := ih (o + 1) fun i hi => by rw [Nat.add_right_comm, Nat.add_assoc]; exact h (i + 1) (by omega)
    simp only [Nat.add_zero] at h0
    simp [Memory.readN, h0, h1]

theorem gt_readN (o n : Nat) (h : 0x50 ≤ o) (h2 : o + n ≤ 0x26F02 ∨ 0x26F02 < o) : gt.img.readN o n = 0 :=
  readN_zero _ _ _ fun i hi => gt_read _ (by omega) (by omega)
theorem gt_u8 (o : Nat) (h : 0x50 ≤ o) (h2 : o ≠ 0x26F02) : gt.u8 o = 0 := by simp [Table.u8, gt_read o h h2]


theorem gt_regions (c o : Nat) (hc : c < 96) (ho : o < 64) : gt.coreRegion c o = 0 :=
  gt_readN _ _ (by simp only [Table.coreBase]; omega) (by simp only [Table.coreBase]; omega)
theorem gt_clusterRegions (k o : Nat) (hk : k < 12) (ho : o < 64) : gt.clusterRegion k o = 0 := gt_readN _ _ (by omega) (by omega)
theorem gt_areq (c o : Nat) (hc : c < 96) (ho : o < 64) : gt.areqSize c o = 0 := gt_u8 _ (by simp only [Table.coreBase]; omega) (by simp only [Table.coreBase]; omega)
theorem gt_arsp (c o : Nat) (hc : c < 96) (ho : o < 64) : gt.arspSize c o = 0 := gt_u8 _ (by simp only [Table.coreBase]; omega) (by simp only [Table.coreBase]; omega)
theorem gt_completion (c o : Nat) (hc : c < 96) (ho : o < 64) : gt.completionSize c o = 0 :=
  gt_u8 _ (by simp only [Table.coreBase]; omega) (by simp only [Table.coreBase]; omega)
theorem gt_l1 (c : Nat) (hc : c < 96) : gt.u8 (Table.coreBase c) = 0 := gt_u8 _ (by simp only [Table.coreBase]; omega) (by simp only [Table.coreBase]; omega)
theorem gt_set (i : Nat) (h : i < 4096) : gt.u8 (Table.setBase 0 + i) = 0 := gt_u8 _ (by simp only [Table.setBase]; omega) (by simp only [Table.setBase]; omega)
theorem spare_lt : ∀ o ∈ spareCodes, o < 64 := by decide
theorem owners_lt : ∀ o ∈ owners, o < 64 := by decide

theorem gt_format : gt.formatBad = false := by
  have hn : gt.nset = 1 := by decide +kernel
  have hw : gt.nwin = 1 := by decide +kernel
  simp only [Table.formatBad, Bool.or_eq_false_iff, hn, hw, List.any_eq_false]
  and_intros
  · decide +kernel
  · decide +kernel
  · decide +kernel
  · decide +kernel
  · decide +kernel
  · decide +kernel
  · decide +kernel
  · decide +kernel
  · decide +kernel
  · decide +kernel
  · decide +kernel
  · decide +kernel
  · decide +kernel
  · intro j hj
    obtain rfl : j = 0 := by simpa using hj
    have h : (spareCodes.any fun o => gt.linkShare 0 o != 0 || gt.channelShare 0 o != 0) = false := by
      simp only [List.any_eq_false]
      intro o ho
      have := spare_lt o ho
      simp [Table.linkShare, Table.channelShare, Nat.add_assoc, gt_set _ (show 0x1C0 + o < 4096 by omega), gt_set _ (show 0x200 + o < 4096 by omega)]
    simp only [h, Bool.or_false]
    decide +kernel
  · intro c hc
    have hc : c < 96 := by simpa using hc
    have h : (spareCodes.any fun o => gt.areqSize c o != 0 || gt.arspSize c o != 0 || gt.completionSize c o != 0 || gt.coreRegion c o != 0) = false := by
      simp only [List.any_eq_false]
      intro o ho
      have ho := spare_lt o ho
      simp [gt_areq c o hc ho, gt_arsp c o hc ho, gt_completion c o hc ho, gt_regions c o hc ho]
    have h2 : ∀ o ∈ owners, gt.coreRegion c o < 1073741824 := fun o ho => by rw [gt_regions c o hc (owners_lt o ho)]; decide
    have h3 : ∀ c < 96, gt.zeros (Table.coreBase c + 1) 0x3F = true := by decide +kernel
    simpa [h, h3 c hc, gt_l1 c hc] using h2
  · intro k hk
    have hk : k < 12 := by simpa using hk
    have h : (spareCodes.any fun o => gt.clusterRegion k o != 0) = false := by
      simp only [List.any_eq_false]
      intro o ho
      simp [gt_clusterRegions k o hk (spare_lt o ho)]
    have h2 : ∀ o ∈ owners, gt.clusterRegion k o < 8388608 := fun o ho => by rw [gt_clusterRegions k o hk (owners_lt o ho)]; decide
    simpa [h] using h2
  · decide +kernel

theorem gt_owner0 (i : Nat) (h : i < 4096) : gt.u8 (Table.setBase 0 + i) = 0 := gt_set i h

theorem gt_setOwners : ∀ o ∈ gt.setOwners 0, o = 0 := by
  intro o ho
  simp only [Table.setOwners, List.mem_append, List.mem_map, List.mem_range] at ho
  rcases ho with ((⟨c, hc, rfl⟩ | ⟨b, hb, rfl⟩) | ⟨w, hw, rfl⟩) | ⟨w, hw, rfl⟩
  · exact gt_set c (by omega)
  · exact (by simpa [Table.bankOwner, Nat.add_assoc] using gt_set (0x80 + b) (by omega))
  · exact (by simpa [Table.l2tlbWayOwner, Nat.add_assoc] using gt_set (0x100 + (16 * (w / 16) + w % 16)) (by omega))
  · exact (by simpa [Table.l1WayOwner, Nat.add_assoc] using gt_set (0x600 + (16 * (w / 16) + w % 16)) (by omega))

theorem gt_objectOwners : ∀ o ∈ gt.objectOwners, o = 0 := by
  intro o ho
  simp only [Table.objectOwners, List.mem_append, List.mem_flatMap, List.mem_map, List.mem_range] at ho
  rcases ho with ⟨c, hc, ⟨t, ht, rfl⟩ | ⟨b, hb, rfl⟩⟩ | ⟨k, hk, ⟨w, hw, rfl⟩ | ⟨m, hm, rfl⟩⟩
  all_goals exact gt_u8 _ (by omega) (by omega)

theorem gt_setBad : gt.setBad = false := by
  have hn : gt.nset = 1 := by decide +kernel
  have hr : List.range 1 = [0] := rfl
  have hl : ∀ o ∈ owners, gt.linkShare 0 o = 0 := fun o ho => by
    have := owners_lt o ho
    simpa [Table.linkShare, Nat.add_assoc] using gt_set (0x1C0 + o) (by omega)
  have hch : ∀ o ∈ owners, gt.channelShare 0 o = 0 := fun o ho => by
    have := owners_lt o ho
    simpa [Table.channelShare, Nat.add_assoc] using gt_set (0x200 + o) (by omega)
  have hf : ∀ (f : Nat → Nat) (l : List Nat) (n : Nat), (∀ o ∈ l, f o = 0) → l.foldl (fun n o => n + f o) n = n := by
    intro f l
    induction l with
    | nil => intro n _; rfl
    | cons x l ih => intro n h; simp only [List.foldl_cons, h x (by simp), Nat.add_zero]; exact ih n fun o ho => h o (by simp [ho])
  have h1 : (gt.setOwners 0).any (fun o => !ownerCode o) = false := by
    simp only [List.any_eq_false]; intro o ho; rw [gt_setOwners o ho]; decide
  have h2 : gt.objectOwners.any (fun o => !ownerCode o) = false := by
    simp only [List.any_eq_false]; intro o ho; rw [gt_objectOwners o ho]; decide
  have h3 : ∀ b < 128, gt.bankOwner 0 b = 0 := fun b hb => by
    simpa [Table.bankOwner, Nat.add_assoc] using gt_set (0x80 + b) (by omega)
  have h4 : ∀ w < 1536, gt.l1WayOwner 0 (w / 16) (w % 16) = 0 := fun w hw => by
    simpa [Table.l1WayOwner, Nat.add_assoc] using gt_set (0x600 + (16 * (w / 16) + w % 16)) (by omega)
  have h5 : ∀ e < 256, gt.headraceMap 0 (e / 64) (e % 64) = 0 := fun e he =>
    gt_readN _ _ (by simp only [Table.setBase]; omega) (by simp only [Table.setBase]; omega)
  simp only [Table.setBad, hn, hr, List.any_cons, List.any_nil, List.map_cons, List.map_nil, Bool.or_false, h1, h2, hf _ _ _ hl, hf _ _ _ hch,
    Bool.false_or]
  simp only [Bool.or_eq_false_iff, List.any_eq_false]
  refine ⟨⟨⟨by decide, fun b hb => ?_⟩, fun w hw => ?_⟩, fun e he => ?_⟩
  · rw [h3 b (by simpa using hb)]; decide
  · rw [h4 w (by simpa using hw)]; decide
  · rw [h5 e (by simpa using he)]; decide

theorem gt_coreRegions (c : Nat) (hc : c < 96) : gt.coreRegions c = owners.map fun _ => (0, 0) :=
  List.map_congr_left fun o ho => by rw [gt_regions c o hc (owners_lt o ho)]; decide
theorem gt_clusterRegionList (k : Nat) (hk : k < 12) : gt.clusterRegions k = owners.map fun _ => (0, 0) :=
  List.map_congr_left fun o ho => by rw [gt_clusterRegions k o hk (owners_lt o ho)]; decide

theorem gt_overlap : gt.regionsOverlap = false := by
  simp only [Table.regionsOverlap, Bool.or_eq_false_iff, List.any_eq_false, List.mem_range]
  refine ⟨fun c hc => ?_, fun k hk => ?_⟩
  · rw [gt_coreRegions c hc, show gt.l1Bytes c = 0 by simp [Table.l1Bytes, Table.l1Share, gt_l1 c hc]]; decide +kernel
  · rw [gt_clusterRegionList k hk]; decide +kernel

theorem gt_out : gt.regionsOut = false := by
  simp only [Table.regionsOut, Bool.or_eq_false_iff, List.any_eq_false, List.mem_range]
  refine ⟨fun c hc => ?_, fun k hk => ?_⟩
  · simp only [Bool.or_eq_true, not_or, Bool.not_eq_true, List.any_eq_false]
    refine ⟨fun r hr => ?_, fun o ho => ?_⟩
    · rw [gt_coreRegions c hc] at hr; revert r; decide +kernel
    · rw [gt_regions c o hc (owners_lt o ho)]; decide
  · rw [gt_clusterRegionList k hk]; decide +kernel

theorem gt_partition : gt.partitionBad = false := by
  have hf : ∀ (f : Nat → Nat) (l : List Nat) (n : Nat), (∀ o ∈ l, f o = 0) → l.foldl (fun n o => n + f o) n = n := by
    intro f l
    induction l with
    | nil => intro n _; rfl
    | cons x l ih => intro n h; simp only [List.foldl_cons, h x (by simp), Nat.add_zero]; exact ih n fun o ho => h o (by simp [ho])
  simp only [Table.partitionBad, List.any_eq_false, List.mem_range]
  intro c hc
  have h := hf (fun o => gt.areqSize c o + gt.arspSize c o) owners 0 fun o ho => by simp [gt_areq c o hc (owners_lt o ho), gt_arsp c o hc (owners_lt o ho)]
  have h2 := hf (fun o => gt.completionSize c o) owners 0 fun o ho => gt_completion c o hc (owners_lt o ho)
  simp only [Nat.add_assoc] at h ⊢
  simp [h, h2]

theorem gt_owners : gt.ownersBad = false := by
  have hn : gt.nwin = 1 := by decide +kernel
  have hs : gt.winSet 0 = 0 := by decide +kernel
  have hr : List.range 1 = [0] := rfl
  simp only [Table.ownersBad, List.any_eq_false, List.mem_range, hn, hr, List.any_cons, List.any_nil, Bool.or_false, hs]
  intro c hc
  rw [show gt.coreOwner 0 c = 0 from gt_set c (by omega)]
  decide +kernel

theorem gt_tenants : gt.tenantBad = false := by
  have hn : gt.nset = 1 := by decide +kernel
  have hr : List.range 1 = [0] := rfl
  have he : gt.enabled 0 = true := by decide +kernel
  simp only [Table.tenantBad, Bool.or_eq_false_iff, hn, hr, List.any_cons, List.any_nil, Bool.or_false]
  refine ⟨⟨⟨?_, ?_⟩, ?_⟩, ?_⟩
  · simp only [List.any_eq_false]; intro o ho; rw [gt_setOwners o ho]; simp [he]
  · simp only [List.any_eq_false, List.mem_range]
    intro o ho
    have h1 : gt.linkShare 0 o = 0 := by simpa [Table.linkShare, Nat.add_assoc] using gt_set (0x1C0 + o) (by omega)
    have h2 : gt.channelShare 0 o = 0 := by simpa [Table.channelShare, Nat.add_assoc] using gt_set (0x200 + o) (by omega)
    simp [h1, h2]
  · simp only [List.any_eq_false]; intro o ho; rw [gt_objectOwners o ho]; simp [he]
  · simp only [List.any_eq_false, List.mem_range]
    intro o ho
    have h1 : ((List.range 96).any fun c => regionSize (gt.coreRegion c o) != 0 || gt.areqSize c o != 0 || gt.arspSize c o != 0 || gt.completionSize c o != 0) = false := by
      simp only [List.any_eq_false, List.mem_range]
      intro c hc
      have h0 : regionSize 0 = 0 := rfl
      simp [gt_regions c o hc (by omega), gt_areq c o hc (by omega), gt_arsp c o hc (by omega), gt_completion c o hc (by omega), h0]
    have h2 : ((List.range 12).any fun k => gt.clusterRegion k o / 2048 != 0) = false := by
      simp only [List.any_eq_false, List.mem_range]
      intro k hk
      simp [gt_clusterRegions k o hk (by omega)]
    simp only [h1, h2, Bool.or_false, Bool.and_false]
    decide

theorem gt_weights (o : Nat) (h : o < 32) : gt.weight o ≤ 1000 := by
  rw [show gt.weight o = 0 from gt_readN _ _ (by simp only [Table.tenantBase]; omega) (by simp only [Table.tenantBase]; omega)]
  decide

/-- R337, R338: the table passes until 100 µs before its EPOCH, and later is too late; an empty one has no format. -/
theorem test_table_status (now : Nat) : gt.status now = if 900000 < now then 2 else 0 := by
  have h1 : gt.cycle = 100000 ∧ gt.epoch = 1000000 := by decide +kernel
  have h2 : ((List.range gt.nwin).any fun i => decide (gt.winLength i < 1000)) = false := by decide +kernel
  have h3 : gt.layoutBad = false := by decide +kernel
  have h4 : ((List.range 32).any fun o => decide (1000 < gt.weight o)) = false := by
    simp only [List.any_eq_false, List.mem_range]
    intro o ho
    have := gt_weights o ho
    simp; omega
  simp only [Table.status, gt_format, h1, h2, h3, gt_setBad, gt_overlap, gt_out, h4, gt_partition, gt_owners, gt_tenants, Bool.false_eq_true, if_false]
  split <;> split <;> omega

theorem test_table_empty : ({ img := [] } : Table).status 0 = 1 := by decide +kernel

/-! ### Service calls -/

/-- The next turn of a core with at most one call, whatever the free values. -/
def turn0 (s : State) (sl : Nat) : Option SvcTurn :=
  let q := s.svc.get {} sl
  (s.svcOwner q ((ownersAfter q.last).filter q.busy) fun o => (q.workOf o 0).isSome).bind fun x =>
    (q.workOf x.1 0).map fun w => { owner := x.1, work := w, credit := x.2 }

theorem workOf_one (q : SvcCore) (o d : Nat) (h : q.calls.length ≤ 1) : q.workOf o d = q.workOf o 0 := by
  have hl : (q.ready o).length ≤ 1 := by
    unfold SvcCore.ready
    exact Nat.le_trans (List.length_filterMap_le _ _) (by simpa using h)
  unfold SvcCore.workOf
  split
  · rfl
  · match hr : q.ready o, hl with
    | [], _ => simp
    | [x], _ => simp [Nat.mod_one]

theorem svcTurn_one (s : State) (sl : Nat) (hp : s.power.svc.get false sl = true) (h : (s.svc.get {} sl).calls.length ≤ 1) :
    s.svcTurn sl = turn0 s sl := by
  have e : ∀ d, (fun o => ((s.svc.get {} sl).workOf o d).isSome) = fun o => ((s.svc.get {} sl).workOf o 0).isSome := by
    intro d; funext o; rw [workOf_one _ o d h]
  have f : ∀ d (x : Nat × FMap Int), (s.svc.get {} sl).workOf x.1 d = (s.svc.get {} sl).workOf x.1 0 := fun d x => workOf_one _ _ d h
  simp only [State.svcTurn, turn0, hp, Bool.not_true, Bool.false_eq_true, if_false, e, f]

/-- A call of the service domain's own kernel instance at its last step. -/
def ownCall (ws : List Nat) : Call :=
  { tenant := 62, queue := 62, token := 0xFFFF, block := 0, root := 0, deadline := 0, sender := none, src := 0, slice := 0
    own := some (ws.map (BitVec.ofNat 64)), work := some (ws, 0), begun := false }

/-- A call of tenant 0 with its block at address 0x100, which has not begun. -/
def tenantCall : Call :=
  { tenant := 0, queue := 0, token := 0, block := 0x100, root := 0x1000, deadline := 0, sender := none, src := 0, slice := 0, own := none
    begun := false }

/-- The same at its last step, its block holding these words. -/
def tenantLast (ws : List Nat) : Call := { tenantCall with work := some (ws, 0) }

/-- Every service core ready, and one call at core sl; 4 MiB of LPDDR 6. -/
def svcState (sl : Nat) (c : Call) (s : State) : State :=
  { s with svc := [(sl, { calls := [c] })], power := { s.power with svc := (List.range 8).map fun k => (k, true) }, lpddr := 0x400000 }

theorem svcState_calls (sl : Nat) (c : Call) (s : State) : ((svcState sl c s).svc.get {} sl).calls = [c] := by
  show (FMap.get ({} : SvcCore) [(sl, { calls := [c] })] sl).calls = [c]
  unfold FMap.get
  rw [if_pos rfl]

/-- The conditions of Claims.CallTurn for that call, as a test. -/
def svcTestB (sl : Nat) (c : Call) (ws : List Nat) (s : State) : Bool :=
  (match turn0 (svcState sl c s) sl with
   | some t => t.work == .call 0
   | none => false) && (svcState sl c s).power.svc.get false sl && c.work == some (ws, 0) && c.answer == none

theorem turnOf_one (s : State) (sl : Nat) (c : Call) (t : SvcTurn) (hp : (svcState sl c s).power.svc.get false sl = true)
    (ht : turn0 (svcState sl c s) sl = some t) (hw : t.work = .call 0) : TurnOf (svcState sl c s) sl t 0 c := by
  refine ⟨?_, hw, ?_⟩
  · rw [svcTurn_one _ _ hp (by rw [svcState_calls]; exact Nat.le_refl 1)]; exact ht
  · rw [svcState_calls]; rfl

/-- Such a call's turn, with what holds of the state after it whatever turn that is. -/
theorem callTurn_with (s : State) (sl : Nat) (c : Call) (ws : List Nat) (P : State → Prop) (h : svcTestB sl c ws s = true)
    (hP : ∀ t : SvcTurn, t.work = .call 0 → P ((svcState sl c s).svcTake sl t)) :
    ∃ u, CallTurn (svcState sl c s) sl (ws.getD 0 0) c ws u ∧ P u := by
  simp only [svcTestB, Bool.and_eq_true, beq_iff_eq] at h
  obtain ⟨⟨⟨h1, h2⟩, h3⟩, h4⟩ := h
  cases ht : turn0 (svcState sl c s) sl with
  | none => simp [ht] at h1
  | some t =>
    have hw : t.work = .call 0 := by simpa [ht] using h1
    exact ⟨_, ⟨rfl, ⟨h3, h4⟩, t, 0, turnOf_one s sl c t h2 ht hw, rfl⟩, hP t hw⟩

theorem callTurn_of (s : State) (c : Call) (ws : List Nat) (h : svcTestB 0 c ws s = true) :
    ∃ u, CallTurn (svcState 0 c s) 0 (ws.getD 0 0) c ws u := by
  obtain ⟨u, hu, -⟩ := callTurn_with s 0 c ws (fun _ => True) h fun _ _ => trivial
  exact ⟨u, hu⟩

/-- A call of the service domain's kernel, with what holds of the state after the turn. -/
theorem ownTurn (s : State) (ws : List Nat) (P : State → Prop) (h : svcTestB 0 (ownCall ws) ws s = true)
    (hP : ∀ t, P ((svcState 0 (ownCall ws) s).svcTake 0 t)) :
    ∃ u, DomainTurn (svcState 0 (ownCall ws) s) 0 (ws.getD 0 0) (ownCall ws) ws u ∧ P u := by
  obtain ⟨u, hu, hp⟩ := callTurn_with s 0 (ownCall ws) ws P h fun t _ => hP t
  exact ⟨u, ⟨hu, rfl⟩, hp⟩

/-- No call is left at the core whose one call has had its turn. -/
theorem taken_none (s : State) (c : Call) (t : SvcTurn) (hw : t.work = .call 0) :
    ∀ x ∈ ((svcState 0 c s).svcTake 0 t).svc, ∀ d ∈ x.2.calls, d.writes = [] := by
  have h (q : SvcCore) (hq : q.calls = []) : ∀ x ∈ FMap.set {} [(0, { calls := [c] })] 0 q, ∀ d ∈ x.2.calls, d.writes = [] := by
    intro x hx
    simp only [FMap.set, FMap.erase, FMap.insert, if_true] at hx
    split at hx
    · simp at hx
    · simp only [List.mem_singleton] at hx; subst hx; simp [hq]
  refine h _ ?_
  simp only [hw]
  show (FMap.get ({} : SvcCore) [(0, { calls := [c] })] 0).calls.eraseIdx 0 = []
  rfl

theorem wit_ServiceCalls_arrival : (let c := { tenantCall with sender := some { job := 1, ord := 0 } }
    let s : State := { owned with svcFlight := [c] }
    s.released c.sender 3 = true ∧ (s.svc.get {} c.slice).queued c.queue < 32 ∧
      (let t : State := { s with svc := [(0, { calls := List.replicate 32 c })] }
       32 ≤ (t.svc.get {} c.slice).queued c.queue)) ∧
    (let o : PendOp := { ord := 0, cls := .en, dst := 3, outbox := false }
     let s : State := ({ owned with svcAnswers := [{ sender := { job := 1, ord := 0 }, status := 0, slot := none, counted := none }] } : State).modCtx 0
       fun c => { c with ops := [o] }
     (s.job? 1).map (·.state) = some (.running 0) ∧ (s.ctx 0).ops = [o]) := by decide +kernel

theorem wit_ServiceCalls_nop : ∃ u, CallTurn (svcState 0 (ownCall [1]) owned) 0 1 (ownCall [1]) [1] u := callTurn_of _ _ [1] (by decide +kernel)
theorem wit_ServiceCalls_unknown : ∃ u, CallTurn (svcState 0 (ownCall [2]) owned) 0 2 (ownCall [2]) [2] u := callTurn_of _ _ [2] (by decide +kernel)
theorem wit_ServiceCalls_denied : (∃ u, CallTurn (svcState 0 (tenantLast [0x51]) (blockState [0x51])) 0 0x51 (tenantLast [0x51]) [0x51] u) ∧
    (tenantLast [0x51]).tenant ≠ 62 ∧ ∃ u, CallTurn (svcState 0 (ownCall [0x30]) owned) 0 0x30 (ownCall [0x30]) [0x30] u :=
  ⟨callTurn_of _ _ [0x51] (by decide +kernel), by decide, callTurn_of _ _ [0x30] (by decide +kernel)⟩

theorem wit_ServiceCalls_finish : tenantCall.own = none ∧
    ((owned.probeWrite tenantCall.agent [(tenantCall.block + 0x30, 16)]).1.toOption.map fun xs => xs.length) = some 1 ∧ bit (2 ^ 62) 62 = true ∧
    (bit (2 ^ 63 + 5) 62 = false ∧ bit (2 ^ 63 + 5) 63 = true ∧ owned.weirOwner 5 = tenantCall.tenant) ∧ (95 : Nat) % 256 < 96 := by decide +kernel

/-- A call of a tenant at each stage: not begun with a readable block and with none, and with an answer from instance 0. -/
theorem wit_ServiceCallSteps : (∀ c ∈ [tenantCall, { tenantCall with block := 0x1000 }, { tenantCall with work := some ([1], 3) },
      { tenantLast [1] with answer := some (0, 5) }], let s := svcState 0 c (blockState [1])
      (turn0 s 0).map (·.work) = some (.call 0) ∧ s.svcTurn 0 = turn0 s 0 ∧ (s.svc.get {} 0).calls[0]? = some c) ∧
    ((svcState 0 tenantCall (blockState [1])).svcBlock tenantCall).1 = some [1, 0, 0, 0, 0, 0, 0, 0] ∧
    ((svcState 0 tenantCall (blockState [1])).svcBlock { tenantCall with block := 0x1000 }).1 = none ∧
    (callSteps 0).map (·.2) = svcFuncs.filter (· ≠ 0x50) :=
  ⟨fun c hc => ⟨by revert c; decide +kernel, svcTurn_one _ _ rfl (by rw [svcState_calls]; exact Nat.le_refl 1), by rw [svcState_calls]; rfl⟩,
    by decide +kernel, by decide +kernel, rfl⟩

/-- A call by which instance 3 asks instance 0 for a write, at its last step there. -/
def askedCall (w : PageWrite) : Call := { askCall 3 0 7 [w] with work := some ([askFunc, 2 ^ 62], 0) }

theorem wit_ServiceCalls_asked : ∀ w ∈ [PageWrite.clean 0x8008, .invalid 0x8008, .valid 0x8008 3],
    ∃ u, CallTurn (svcState 0 (askedCall w) owned) 0 askFunc (askedCall w) [askFunc, 2 ^ 62] u ∧
      ∀ x ∈ u.svc, ∀ d ∈ x.2.calls, d.writes = [] := by
  intro w h
  have t : svcTestB 0 (askedCall w) [askFunc, 2 ^ 62] owned = true := by revert w; decide +kernel
  exact callTurn_with owned 0 (askedCall w) [askFunc, 2 ^ 62] (fun u => ∀ x ∈ u.svc, ∀ d ∈ x.2.calls, d.writes = []) t
    fun t hw => taken_none owned (askedCall w) t hw

/-- Bytes for a page of slice 0, in 4 MiB of LPDDR 6. -/
theorem wit_ServiceCalls_askedBytes : (let w := PageWrite.bytes 0x8008 [1, 2]
    (∃ u, CallTurn (svcState 0 (askedCall w) owned) 0 askFunc (askedCall w) [askFunc, 2 ^ 62] u ∧
      ∀ x ∈ u.svc, ∀ d ∈ x.2.calls, d.writes = []) ∧ (askedCall w).writes = [.bytes 0x8008 [1, 2]] ∧ 0x8008 + [1, 2].length ≤ hostBase) :=
  ⟨callTurn_with owned 0 _ [askFunc, 2 ^ 62] (fun u => ∀ x ∈ u.svc, ∀ d ∈ x.2.calls, d.writes = []) (by decide +kernel)
    fun t hw => taken_none owned _ t hw, by decide +kernel⟩

theorem wit_ServiceCalls_asked_of : askFunc ∉ svcFuncs ∧ homeSlice 0x8008 = 0 ∧ (askedCall (.clean 0x8008)).asks = some 7 ∧
    (askedCall (.clean 0x8008)).writes = [.clean 0x8008] := by decide +kernel

theorem wit_ServiceCalls_internal : (let s := svcState 0 (ownCall [1]) owned
    s.power.svc.get false 0 = true ∧ s.power.svc.get false 7 = true ∧ (s.svc.get {} 0).queued 62 < 32) := by decide +kernel

theorem wit_ServiceCalls_forwarded : (∃ u, DomainTurn (svcState 3 (ownCall [0x80, 0, 5]) owned) 3 0x80 (ownCall [0x80, 0, 5]) [0x80, 0, 5] u) ∧
    ((svcState 3 (ownCall [0x80, 0, 5]) owned).svc.get {} 0).queued 62 < 32 := by
  obtain ⟨u, hu, -⟩ := callTurn_with owned 3 (ownCall [0x80, 0, 5]) [0x80, 0, 5] (fun _ => True) (by decide +kernel) fun _ _ => trivial
  exact ⟨⟨u, hu, rfl⟩, by decide +kernel⟩

theorem wit_ReservationAndCounterCalls_remove : ∃ u, CallTurn (svcState 0 (ownCall [0x11, 0, 4]) (rsvState 0)) 0 0x11 (ownCall [0x11, 0, 4]) [0x11, 0, 4] u ∧
    u.rsvs.find? (argOf [0x11, 0, 4] 0) ≠ none :=
  callTurn_with (rsvState 0) 0 (ownCall [0x11, 0, 4]) [0x11, 0, 4] (fun u => u.rsvs.find? (argOf [0x11, 0, 4] 0) ≠ none) (by decide +kernel)
    fun t _ => by show (rsvState 0).rsvs.find? 4 ≠ none; decide +kernel

theorem wit_ReservationAndCounterCalls_none : ∃ u, CallTurn (svcState 0 (ownCall [0x11, 0, 5]) (rsvState 0)) 0 0x11 (ownCall [0x11, 0, 5]) [0x11, 0, 5] u ∧
    u.rsvs.find? (argOf [0x11, 0, 5] 0) = none :=
  callTurn_with (rsvState 0) 0 (ownCall [0x11, 0, 5]) [0x11, 0, 5] (fun u => u.rsvs.find? (argOf [0x11, 0, 5] 0) = none) (by decide +kernel)
    fun t _ => by show (rsvState 0).rsvs.find? 5 = none; decide +kernel

theorem svcState_mem (sl : Nat) (c : Call) (s : State) : (svcState sl c s).mem = s.mem := rfl

/-- RSV_ADD of the descriptor at physical address 0x5100. -/
theorem wit_ReservationAndCounterCalls_add : ∃ u, CallTurn (svcState 0 (ownCall [0x10, 0, 0x5100]) (blockState (rsvWords 1000))) 0 0x10
      (ownCall [0x10, 0, 0x5100]) [0x10, 0, 0x5100] u ∧ u.lpddr = 0x400000 ∧ u.mem.readN 0x5100 8 = 1000 :=
  callTurn_with _ 0 (ownCall [0x10, 0, 0x5100]) [0x10, 0, 0x5100] (fun u => u.lpddr = 0x400000 ∧ u.mem.readN 0x5100 8 = 1000) (by decide +kernel)
    fun t _ => by
      have h : (blockState (rsvWords 1000)).mem.readN 0x5100 8 = 1000 := by decide +kernel
      obtain ⟨q, m, e, -⟩ := (svcState 0 (ownCall [0x10, 0, 0x5100]) (blockState (rsvWords 1000))).svcTake_frame 0 t
      exact ⟨by rw [e]; rfl, by rw [State.svcTake_mem, svcState_mem]; exact h⟩

theorem wit_ReservationAndCounterCalls_counter : (∃ u, CallTurn (svcState 0 (ownCall [0x20, 0, 1, 31, 1]) owned) 0 0x20 (ownCall [0x20, 0, 1, 31, 1]) [0x20, 0, 1, 31, 1] u) ∧
    (∃ u, CallTurn (svcState 0 (ownCall [0x20, 0, 3, 0, 0]) owned) 0 0x20 (ownCall [0x20, 0, 3, 0, 0]) [0x20, 0, 3, 0, 0] u) ∧
    ∃ u, CallTurn (svcState 0 (tenantLast [0x20, 0, 3]) owned) 0 0x20 (tenantLast [0x20, 0, 3]) [0x20, 0, 3] u :=
  ⟨callTurn_of _ _ [0x20, 0, 1, 31, 1] (by decide +kernel), callTurn_of _ _ [0x20, 0, 3, 0, 0] (by decide +kernel),
    callTurn_of _ _ [0x20, 0, 3] (by decide +kernel)⟩

/-- An object of one page of tenant 0 at 2 MiB, whose page-table entry, at 0x8000, is e. -/
def object1 : HostObj := { va := 0x200000, length := 0x1000, host := 0x8000, w := true, auto := true, period := 1, root := 0x1000, due := 0 }
def objectState (e : Nat) (ws : List Nat) : State :=
  let s := blockState ws
  { s with mem := (s.mem.writeN 0x3008 8 0x8001).writeN 0x8000 8 e, objects := [(0, object1)], host := { s.host with up := true } }

/-- An object of a page at 0x1000, whose entry lies at 0x4008, in a page of slice 4. -/
def object4 : HostObj := { object1 with va := 0x1000 }

theorem wit_HostObjects_map : objOf [0x200000, 0x1000, 0x8000, 3 + 2 ^ 32, 0, 0, 0, 0] 0x1000 0 = some { object1 with due := 100000 } ∧
    (svcState 0 tenantCall (objectState 0x6000 [])).backingOk 0x1000 0x200000 = true ∧ objOf [1, 0, 0, 0, 0, 0, 0, 0] 0x1000 0 = none ∧
    (∃ u, CallTurn (svcState 0 (tenantLast [0x30, 0, 0x140]) owned) 0 0x30 (tenantLast [0x30, 0, 0x140]) [0x30, 0, 0x140] u) :=
  ⟨by decide +kernel, by decide +kernel, by decide +kernel, callTurn_of _ _ [0x30, 0, 0x140] (by decide +kernel)⟩

theorem objectTurn_of (s : State) (f sl : Nat) (o : HostObj) (h : (svcTestB sl (tenantLast [f]) [f] s &&
    (svcState sl (tenantLast [f]) s).quietFor 0 && s.host.snoop.isEmpty && s.objects.find? 0 == some o) = true) :
    ∃ u, ObjectTurn (svcState sl (tenantLast [f]) s) sl f (tenantLast [f]) [f] u o := by
  simp only [Bool.and_eq_true, beq_iff_eq, List.isEmpty_iff] at h
  obtain ⟨u, hu, -⟩ := callTurn_with s sl (tenantLast [f]) [f] (fun _ => True) h.1.1.1 fun _ _ => trivial
  exact ⟨u, hu, by simp [tenantLast, tenantCall], ⟨rfl, rfl⟩, h.1.1.2, h.1.2, by simp [argOf], h.2⟩

theorem wit_HostObjects_harvest : (∃ u, ObjectTurn (svcState 0 (tenantLast [0x32]) (objectState 0x6077 [])) 0 0x32 (tenantLast [0x32]) [0x32] u object1) ∧
    (∃ u, ObjectTurn (svcState 0 (tenantLast [0x31]) (objectState 0x6037 [])) 0 0x31 (tenantLast [0x31]) [0x31] u object1) ∧
    OneDirty (svcState 0 (tenantLast [0x32]) (objectState 0x6077 [])) object1 0 0x8000 0x6077 ∧ homeSlice 0x8000 = 0 ∧
    homeSlice (hostBase + object1.host + 0) = 0 ∧ (svcState 0 (tenantLast [0x31]) (objectState 0x6037 [])).filling 0 object1 = false ∧
    (svcState 0 (tenantLast [0x32]) (objectState 0x6037 [])).dirtyPages object1 = [] ∧ object1.length = 4096 ∧
    leafSlot (svcState 0 (tenantLast [0x31]) (objectState 0x6037 [])).mem 0x200000 3 (ptePpn object1.root.toNat) = some (0x8000, 0x6037) :=
  ⟨objectTurn_of _ _ _ _ (by decide +kernel), objectTurn_of _ _ _ _ (by decide +kernel),
    ⟨by decide +kernel, by decide +kernel, by decide +kernel, by decide +kernel, by decide +kernel, fun _ _ => rfl⟩, by decide +kernel⟩

/-- The leaf of that object is another instance's. -/
theorem wit_InternalCalls_harvest : (let s : State := { objectState 0 [] with mem := (objectState 0 []).mem.writeN 0x4008 8 0x6077, objects := [(0, object4)] }
    (∃ u, ObjectTurn (svcState 0 (tenantLast [0x32]) s) 0 0x32 (tenantLast [0x32]) [0x32] u object4) ∧
      OneDirty (svcState 0 (tenantLast [0x32]) s) object4 0 0x4008 0x6077 ∧ homeSlice 0x4008 = 4 ∧
      (svcState 0 (tenantLast [0x32]) s).power.svc.get false 4 = true ∧ ((svcState 0 (tenantLast [0x32]) s).svc.get {} 4).queued 62 < 32) :=
  ⟨objectTurn_of _ _ _ _ (by decide +kernel),
    ⟨by decide +kernel, by decide +kernel, by decide +kernel, by decide +kernel, by decide +kernel, fun _ _ => rfl⟩, by decide +kernel⟩

theorem wit_HostObjects_auto : object1.auto = true ∧ object1.due ≤ (objectState 0x6037 []).time.ref ∧
    ((objectState 0x6037 []).svc.get {} (homeSlice object1.va)).queued 62 < 32 ∧
    ((objectState 0x6037 []).sliceNow (homeSlice object1.va)).1 < { object1 with due := 9 }.due := by
  refine ⟨rfl, by decide +kernel, by decide +kernel, ?_⟩
  have h := slice_le (objectState 0x6037 []) (homeSlice object1.va) (by decide +kernel)
  have h2 : (objectState 0x6037 []).time.ref = 0 := by decide +kernel
  show _ < 9
  omega

/-- A forwarded fault of job 1 at an address, at service core 0. -/
def faultState (va : Word) : State :=
  let s := objectState 0x6000 []
  ({ s with svc := [(0, { faults := [{ tenant := 0, job := 1, va := va, write := true }] })], power := { s.power with svc := [(0, true)] } } : State).modCtx 0
    fun c => { c with status := .waiting .object }

theorem wit_ServiceDomainCalls_faults : (turn0 (faultState 0x200008) 0).map (·.work) = some (.fault 0) ∧
    (faultState 0x200008).svcTurn 0 = turn0 (faultState 0x200008) 0 ∧ ((faultState 0x200008).job? 1).map (·.state) = some (.running 0) ∧
    ((faultState 0x200008).ctx 0).status = .waiting .object ∧ (faultState 0x200008).objectAt 0 0x200008 = some (0, object1) ∧
    leafSlot (faultState 0x200008).mem 0x200008 3 (ptePpn object1.root.toNat) = some (0x8000, 0x6000) ∧ homeSlice 0x8000 = 0 ∧ (faultState 0x200008).host.up = true ∧
    (faultState 0x200008).host.snoop = [] ∧ (∀ g ∈ ((faultState 0x200008).svc.get {} 0).faults, g.asks = none) ∧
    (turn0 (faultState 0x2000) 0).map (·.work) = some (.fault 0) ∧ (faultState 0x2000).objectAt 0 0x2000 = none :=
  ⟨by decide +kernel, svcTurn_one _ _ (by decide +kernel) (by decide +kernel), by decide +kernel⟩

theorem wit_ServiceDomainCalls_settings : ∀ ws ∈ [[0x51, 0, 5], [0x52, 0, 32], [0x52, 0, 33], [0x53, 0, 0x10000, 64], [0x70, 0, 2 ^ 64 - 1], [0x70, 0, 64],
      [0x72, 0, 0x10000, 0x1000], [0x73, 0, 63, 0x5100]], ∃ u, DomainTurn (svcState 0 (ownCall ws) owned) 0 (ws.getD 0 0) (ownCall ws) ws u := by
  intro ws h
  have t : svcTestB 0 (ownCall ws) ws owned = true := by revert ws; decide +kernel
  obtain ⟨u, hu⟩ := callTurn_of owned (ownCall ws) ws t
  exact ⟨u, hu, rfl⟩

/-- The window is one page of LPDDR 6. -/
def windowState : State := { owned with host := { owned.host with up := true, hb := 0x6000, hs := 0x1000 } }

theorem wit_ServiceDomainCalls_bias : ∃ u, DomainTurn (svcState 0 (ownCall [0x71, 0, 0x6000, 1]) windowState) 0 0x71 (ownCall [0x71, 0, 0x6000, 1]) [0x71, 0, 0x6000, 1] u ∧
    u.inWindow (0x6000 / 4096 * 4096) = true :=
  ownTurn windowState [0x71, 0, 0x6000, 1] (fun u => u.inWindow (0x6000 / 4096 * 4096) = true) (by decide +kernel)
    fun t => by
      obtain ⟨q, m, e, -⟩ := (svcState 0 (ownCall [0x71, 0, 0x6000, 1]) windowState).svcTake_frame 0 t
      rw [e]
      show windowState.inWindow 0x6000 = true
      decide +kernel

/-- Places whose homes are instance 0 and another. -/
theorem wit_ServiceDomainCalls_places : homeSlice 0x10000 = 0 ∧ 0x10000 + 64 + 32 * 64 ≤ (svcState 0 (ownCall [0x53, 0, 0x10000, 64]) owned).lpddr ∧
    (svcState 0 (ownCall [0x53, 0, 0x10000, 64]) owned).lpddr ≤ hostBase ∧ homeSlice (0x10000 + 0x40) = 0 ∧ homeSlice (0x6080 + 0x40) ≠ 0 ∧
    homeSlice (0x6080 + 0x40) < 8 ∧ (∀ k < 8, (svcState 0 (ownCall [0x40, 0, 63, 0x6080]) owned).power.svc.get false k = true) ∧
    (∀ k < 8, ((svcState 0 (ownCall [0x40, 0, 63, 0x6080]) owned).svc.get {} k).queued 62 < 32) ∧
    (let s : State := { owned with mem := words [(0x10000, 8, 0x7000), (0x10030, 8, 0)] [], lpddr := 0x400000
                                   sluice := { owned.sluice with table := some { img := words [(0x26F02, 1, 1)] [] } } }
     (s.queueOf 0x10000).isSome = true) := by decide +kernel

theorem wit_ServiceDomainCalls_descriptors : (∀ ws ∈ [[0x60, 0, 0x0B3F, 0x5100], [0x61, 0, 0x3F03, 0x5100], [0x40, 0, 63, 0x5100], [0x41, 0, 5]],
      svcTestB 0 (ownCall ws) ws owned = true) ∧
    flumeOf (2 ^ 63 + 0x1FFF * 2 ^ 16) 0 64 = some { en := true, owner := 0, slotsz := 64 } ∧ flumeOf 0 0 0 = none ∧
    owned.flumeRefused 0 0 { en := true, owner := 0, slotsz := 64 } = false ∧
    (groupOf [2 ^ 16 * 16, 100, 0, 0, 0, 0, 0, 0, 16]).isSome = true ∧ groupOf [] = none ∧
    (let s : State := { owned with mem := words [(0x6080, 8, 0x7000), (0x60B0, 8, 0)] [], lpddr := 0x400000
                                   sluice := { owned.sluice with table := some { img := words [(0x26F02, 1, 1)] [] } } }
     (s.queueOf 0x6080).isSome = true) ∧ owned.hqueues.find? 63 = none ∧ (grantOf? 0x1000 1).isSome = true := by decide +kernel

/-- That table in memory at 1 MiB. -/
def tableMemory (epoch : Nat) : Memory :=
  words [(0x100000, 8, 1), (0x100008, 8, 100000), (0x100010, 8, epoch), (0x100018, 8, 257), (0x100048, 4, 100000), (0x126F02, 1, 1)] []

theorem wit_LoadsAndDebug_table : (let s : State := { owned with mem := tableMemory 1000000 }
    svcTestB 0 (ownCall [0x50, 0, 0x100000]) [0x50, 0, 0x100000] s = true ∧ 0x100000 + tableSize ≤ 0x400000 ∧
      (svcState 0 (ownCall [0x50, 0, 0x100000]) s).tableAt 0x100000 = goodTable 1000000 ∧
      (svcState 0 (ownCall [0x50, 0, 0x100000]) s).begunLoad 0 = none ∧ s.sluice.loading = false) ∧
    (let c := { ownCall [0x50, 0, 0] with begun := true }
     let s : State := { svcState 0 c owned with jobs := [], sluice := { owned.sluice with next := some table } }
     s.begunLoad 0 = some (0, c) ∧ s.jobs = [] ∧ s.sluice.next = some table ∧ c.own ≠ none) := by decide +kernel

/-- A load table at 64 KiB with 8 bytes of common part for core 0. -/
def imageTable (format : Nat) : Memory := words [(0x10000, 8, format), (0x10008, 8, 1), (0x10030, 8, 0x2000), (0x10038, 8, 8), (0x10070, 8, 64)] []

theorem wit_LoadsAndDebug_image : (let s := svcState 0 (ownCall [0x54, 0, 0x10000, 0, 0]) { owned with mem := imageTable 1 }
    svcTestB 0 (ownCall [0x54, 0, 0x10000, 0, 0]) [0x54, 0, 0x10000, 0, 0] { owned with mem := imageTable 1 } = true ∧
      s.loadFails (s.loadTable 0x10000) 0 false = none ∧ (s.loadTable 0x10000).selected false = [(0, 0)] ∧ (s.loadTable 0x10000).listed = [] ∧
      (s.loadTable 0x10000).tags.2 = 0 ∧ (s.loadTable 0x10000).common.2 ≤ (s.loadTable 0x10000).pcb) ∧
    (let s := svcState 0 (ownCall [0x54, 0, 0x10000, 0, 0]) { owned with mem := imageTable 2 }
     s.loadFails (s.loadTable 0x10000) 0 false = some 0) := by decide +kernel

/-- Job 1 stopped at a BRK in context 0 under a session of tenant 0. -/
def debugState : State :=
  ({ owned with sessions := [(0, [{ job := 1, core := 0, ctx := 0, tepc := 0x10, imm := 0 }])] } : State).modCtx 0 fun c => { c with status := .waiting .stopped }

theorem wit_LoadsAndDebug_debug : (∀ ws ∈ [[0x80, 0, 0], [0x80, 0, 31], [0x80, 0, 32], [0x81, 0, 5], [0x82, 0, 0, 0, 0x20000], [0x83, 0, 0, 0, 0x20000],
      [0x84, 0, 0, 0, 0], [0x82, 0, 1, 0, 0]], svcTestB 0 (ownCall ws) ws debugState = true) ∧
    svcTestB 0 { ownCall [0x82, 0, 0, 0, 0x20000] with asks := some 7 } [0x82, 0, 0, 0, 0x20000] debugState = true ∧
    (∀ k < 8, let s := svcState 0 (ownCall [0x82, 0, 0, 0, 0x20000]) debugState
      s.power.svc.get false k = true ∧ (s.svc.get {} k).queued 62 < 32) ∧
    (match debugState.fetchFrom (debugState.agentOf 0 (debugState.ctx (debugState.refOf 1))) 4 0x10 [] with
      | (.chain _, _) => true
      | _ => false) = true ∧ bit 1 0 = true ∧ (svcState 0 (ownCall [0x84, 0, 0, 0, 1]) debugState).lpddr ≤ hostBase ∧
    debugState.stopAt 0 0 = some { job := 1, core := 0, ctx := 0, tepc := 0x10, imm := 0 } ∧ debugState.stopAt 1 0 = none ∧
    debugState.sessions.find? 31 = none ∧ debugState.sessions.find? 0 ≠ none ∧ 0x20000 + imageSize ≤ 0x400000 ∧
    debugState.imageDiffers (debugState.refOf 1) (fun o n => debugState.mem.readN (0x20000 + o) n) = false ∧
    debugState.imageDiffers (debugState.refOf 1) (fun o n => (words [(0x35400, 8, 1)] debugState.mem).readN (0x20000 + o) n) = true := by
  decide +kernel

/-! ### The links -/

/-- A queue of tenant 0 with one record at 0x5100. -/
def queue1 : HostQueue :=
  { block := 0x6000, ring := 0x5100, log2n := 0, tenant := 0, floor := 0, ceil := 0, flume := 0, weir0 := 0, weirs := 0, head := 0 }
def queueState (ws : List Nat) : State :=
  let s := blockState ws
  { s with hqueues := [(0, queue1)], host := { s.host with up := true } }
def hostRecord : List Nat := launchWords.set 3 1000

theorem wit_HostQueuesAndSignals_record : (queueState hostRecord).host.up = true ∧ (queueState hostRecord).hqueues.find? 0 = some queue1 ∧
    (let r := LaunchRec.ofWords ((List.range 8).map fun i => (queueState hostRecord).mem.readN (0x5100 + 64 * (0 % 2 ^ 0) + 8 * i) 8)
     (∀ now u, (queueState hostRecord).clusterNow 0 = (now, u) → u.recordReason queue1 r = 0) ∧ r.deadline ≠ 0 ∧
       ∀ now u, (queueState hostRecord).clusterNow 0 = (now, u) → now ≤ r.deadline.toNat) ∧
    (let r := LaunchRec.ofWords ((List.range 8).map fun i => (queueState []).mem.readN (0x5100 + 64 * (0 % 2 ^ 0) + 8 * i) 8)
     (∀ now u, (queueState []).clusterNow 0 = (now, u) → u.recordReason queue1 r ≠ 0) ∧ bit queue1.flume 15 = false) := by
  refine ⟨by decide +kernel, by decide +kernel, ⟨?_, by decide +kernel, ?_⟩, ?_, by decide⟩
  · intro now u h
    rw [show u = ((queueState hostRecord).clusterNow 0).2 by rw [h]]
    decide +kernel
  · intro now u h
    have h2 := now_le (queueState hostRecord) 0 (by decide +kernel)
    rw [h] at h2
    exact Nat.le_trans h2 (by decide +kernel)
  · intro now u h
    rw [show u = ((queueState []).clusterNow 0).2 by rw [h]]
    decide +kernel

/-- A queue with a flume of cluster 0 for its errors, of two slots of which n are taken. -/
def errorState (n : Nat) : State :=
  let s := queueState []
  { s with
    hqueues := [(0, { queue1 with flume := 0x8000 })]
    clusters := [(0, { s.cluster 0 with flumes := [(0, { en := true, owner := 0, prod := 0, log2n := 1, slotsz := 64, claim := n, fill := n })] })] }

theorem wit_HostQueuesAndSignals_errors : (∀ n ∈ [0, 2], (∀ now u, (errorState n).clusterNow 0 = (now, u) → u.recordReason { queue1 with flume := 0x8000 }
      (LaunchRec.ofWords ((List.range 8).map fun i => (errorState n).mem.readN (0x5100 + 64 * (0 % 2 ^ 0) + 8 * i) 8)) ≠ 0)) ∧
    (errorState 0).hqueues.find? 0 = some { queue1 with flume := 0x8000 } ∧ bit 0x8000 15 = true ∧ bitsOf 0x8000 11 8 = 0 ∧
    (let x := (errorState 0).flume 0 0
     x.en = true ∧ x.prod = 0 ∧ x.owner = queue1.tenant ∧ x.full = false ∧ x.done = [] ∧ x.fill = x.claim ∧ x.claim < 65536 ∧
       queue1.block + 0x50 ≤ 2 ^ 48 ∧ 32 ≤ x.slotsz) ∧ ((errorState 2).flume 0 0).full = true := by
  refine ⟨fun n hn now u h => ?_, by decide +kernel⟩
  rw [show u = ((errorState n).clusterNow 0).2 by rw [h]]
  clear h
  revert n
  decide +kernel

theorem wit_HostQueuesAndSignals_signal : (let s : State := { queueState [] with host := { up := true, sigw := 5 }, sluice := { owned.sluice with
      table := some { img := words [(0x25405, 1, 62)] [] } } }
    s.host.up = true ∧ s.host.sigw < 6144 ∧ s.weirOwner s.host.sigw = 62) ∧ (State.reset.host.sigw = 0x1FFF) ∧ (5 : Nat) < 2 ^ 13 := by decide +kernel

/-- 1 GiB of LPDDR 6 and a window of it, with a line of the window in the filter and a dirty host line at 1 TiB. -/
def linkState : State :=
  { State.reset with
    lpddr := 2 ^ 30, host := { up := true, hs := 2 ^ 30, snoop := [(0, true)], dump := some (0x1000, 256, 0), bias := [(0, true)] }
    mem := words [(hostBase, 8, 7)] [], stale := [(2 ^ 34, { owner := 3, home := List.replicate 64 0, dirty := true })] }

theorem wit_Links_window : State.reset.host.hs = 0 ∧ (2 ^ 30 : Nat) ≤ linkState.lpddr ∧ linkState.host.hs ≠ 0 ∧ linkState.host.up = true ∧
    linkState.inWindow (ptePpn (0x3001 : Word).toNat) = true ∧ (0x3001 : Word).getLsbD 0 = true ∧ (linkState.host.hb + 64) % 64 + 64 ≤ 64 ∧
    64 + 64 ≤ linkState.host.hs ∧ [(1 : Byte)] ≠ [] ∧ isHostPa (64 * 2 ^ 34) = true := by decide +kernel

/-- A clean retained line of the host. -/
theorem wit_Links_snoop : (let s : State := { linkState with stale := [(2 ^ 34, { owner := 3, home := List.replicate 64 0, dirty := false })] }
    ∃ d, s.stale.find? (2 ^ 34) = some d ∧ d.dirty = false ∧ d.home.length = 64) ∧
    (∀ d, linkState.stale.find? (2 ^ 34) = some d → d.dirty = true ∧ d.home.length = 64) := by
  refine ⟨⟨_, rfl, rfl, by decide +kernel⟩, fun d h => ?_⟩
  obtain rfl : _ = d := Option.some.inj h
  decide +kernel

theorem wit_Links_loss : (let s : State := { linkState with host := { linkState.host with snoop := [] } }
    s.host.up = true ∧ s.stale = [(2 ^ 34, { owner := 3, home := List.replicate 64 0, dirty := true })] ∧ isHostPa (64 * 2 ^ 34) = true ∧
      (List.replicate 64 (0 : Byte)).length = 64 ∧ s.host.snoop = [] ∧ s.host.dump = some (0x1000, 256, 0) ∧ 0x1000 + 256 ≤ hostBase ∧
      s.sluice.log = none ∧ s.ctxs = [] ∧ s.jobs = [] ∧ 128 * (0 + 1) ≤ 256) ∧ State.reset.host.up = false ∧ 256 < 128 * (2 + 1) := by decide +kernel

/-- The twin's tenant 4 may read and write the page at 0x1000. -/
def twinState : State :=
  { linkState with twin := { paired := true, imports := [], exports := [(0, 0x1000 + 2 ^ 64 * (1 + 2 ^ 32 * 4 + 2 ^ 40 + 2 ^ 41))] } }

theorem wit_Links_twin : twinState.twin.paired = true ∧ twinState.inLpddr 0x1000 8 = true ∧ twinState.exported 4 0x1000 8 true = true ∧
    twinState.exported 4 0x1000 8 false = true ∧ twinState.exported 5 0x1000 8 false = false ∧ twinState.exported 4 0x2000 8 true = false ∧
    twinState.ecc = [] ∧ (∀ g ∈ [({ base := 0x1000, size := 0x2000, owner := 4, r := true, w := false } : TwinGrant)], g.base % 4096 = 0 ∧ g.size % 4096 = 0) := by
  decide +kernel

def twinMsg : ActiveMsg :=
  { reply := false, right := false, tenant := 0, deadline := 0, group := 0xFF, src := 0, dst := 96, tag := 0, payload := [1, 2, 3, 4]
    sender := some { job := 1, ord := 0 }, sent := 0 }

theorem wit_Links_twinLoss : (let s : State := { twinState with am := [twinMsg] }
    s.twin.paired = true ∧ s.am = [twinMsg] ∧ 96 ≤ twinMsg.dst ∧ twinMsg.sender = some { job := 1, ord := 0 } ∧ twinMsg.reply = false) := by decide +kernel

/-! ### Supplies, time, power and scrubbing -/

theorem wit_PlatformState : State.reset.power.supplies = false ∧ State.reset.time.everLocked = false ∧
    (let s : State := { State.reset with time := { everLocked := true } }
     s.time.everLocked = true) ∧ State.reset.tenantWindows = false ∧ ({ State.reset with sluice := { table := some gt } } : State).tenantWindows = true ∧
    (∀ x < 32, x ≠ 5 → owned.power.chan.get 0 x = 1) := by decide +kernel

/-- What each of the micro-kernel's image, the ports and the first lock waits for. -/
theorem wit_PlatformState_units : State.reset.power.microKernel = false ∧ ({ State.reset with power := { microKernel := true } } : State).power.microKernel = true ∧
    (∀ x < 32, x ≠ 5 → owned.power.chan.get 0 x = 1) ∧ (1 : Nat) ≤ 8192 := by decide +kernel

theorem wit_PowerAndScrubbing_wake : (let s : State := { State.reset with power := { wakeAt := [(3, 2000)] }, time := { ref := 2000 } }
    s.power.wakeAt.find? 3 = some 2000 ∧ 2000 ≤ s.time.ref ∧ State.reset.power.wakeAt.find? 3 = none) := by decide +kernel

/-- The draw is free; the clauses of the cap's checks that rest on it have their states at whatever it is. -/
theorem wit_PowerAndScrubbing_cap : (∃ w u, State.reset.drawNat = (w, u)) ∧ State.reset.power.lowSince = none ∧
    (let s : State := { State.reset with power := { lowSince := some 0, throttle := 2 }, time := { ref := 1000000 } }
     s.power.lowSince = some 0 ∧ 0 + 1000000 ≤ s.time.ref) ∧
    (let s : State := { State.reset with power := { throttle := 4, step := 4 } }
     s.power.throttle ≠ 0 ∧ s.beRunning = [] ∧ 4 ≤ s.power.step) := ⟨⟨_, _, rfl⟩, by decide +kernel⟩

theorem wit_PowerAndScrubbing_still : (let s : State := { State.reset with time := { ref := 10000 }, power := { chan := [(0, 8)], gated := ((List.range 16).map fun e => (600 + e, true)) ++
      ((List.range 12).map fun k => (700 + k, true)) } }
    (∀ k < 12, s.gated (.cluster k) = true) ∧ (∀ e < 16, s.gated (.engine e) = true) ∧ s.meshBusy = false ∧ s.power.still = false ∧
      s.power.lastMesh + 10000 ≤ s.time.ref) ∧ State.reset.gated (.cluster 0) = false ∧
    ({ State.reset with am := [twinMsg] } : State).meshBusy = true := by decide +kernel

theorem wit_PowerAndScrubbing_scrub : (∀ s : State, ∃ bad t, s.drawBit = (bad, t)) ∧ linkState.isLpddr (8 * 0x200) = true ∧
    homeSlice (8 * 0x200) = 1 ∧ (ready.ctx 0).job.isSome = true ∧ (ready.job? 1).map (·.state) = some (.running 0) :=
  ⟨fun s => ⟨s.drawBit.1, s.drawBit.2, rfl⟩, by decide +kernel⟩

/-- R1, R383, R419: the identification block, READY with 32 channels trained, and HOSTSIGW at reset. -/
theorem test_bar0 : State.reset.bar0Read 0 = 0x000000B100005960 ∧ State.reset.bar0Read 0x1000 = 0 ∧ owned.bar0Read 0x1000 = 0x0000FFFFFFFFFFFF ∧
    owned.bar0Read 0x1008 = 0xFF000 ∧ State.reset.bar0Read 0x20008 = 0x1FFF := by decide +kernel

/-! ### The headrace -/

/-- A group of the time-domain split with one stream, eAxC id 1, and messages of one sample for it. -/
def group1 (epoch tol : Nat) : HrGroup :=
  { part := 0, mu := 1, cbf := false, nstr := 1, tds := true, nprb := 16, nfft := 256, cplen := 0, tol := tol, epoch := epoch, compHdr := 0
    eaxc := [1], rcnt := [16] }
def frame1 : EthFrame :=
  { part := 0, fcsOk := true
    bytes := [0, 0, 0, 0, 0, 0, 0, 0, 0, 0, 0, 0, 0xAE, 0xFE, 0x10, 0, 0, 16, 0, 1, 9, 0x80, 0x10, 0, 0, 0, 0, 1, 0, 3, 0, 5, 0xFF, 0xFE] }
def msg1 : IqMsg := { eaxc := 1, seqId := 9, frame := 0, subframe := 0, slot := 0, symbol := 0, body := [0, 1, 0, 3, 0, 5, 0xFF, 0xFE] }

def portState (g : HrGroup) (r : HrRows) : State :=
  { owned with ports := [(0, { groups := [(0, g)], rows := [(0, r)] })], power := { owned.power with port := [(0, true)] } }

theorem groupHas (g : HrGroup) (r : HrRows) : GroupHas (portState g r) 0 0 g r := ⟨rfl, rfl⟩

/-- R255, R259: a frame's message and its one section, sample 3 with I = 5 and Q = −2. -/
theorem test_headrace_message : iqMsg frame1 = some msg1 ∧ (group1 0 0).parts msg1 = some [[(3, some [5, -2])]] := by decide +kernel

theorem wit_HeadraceRows_reception : (portState (group1 0 0) {}).power.port.get false 0 = true ∧ iqMsg { frame1 with bytes := [] } = none ∧
    iqMsg frame1 = some msg1 ∧ ((portState (group1 0 0) {}).port 0).classify 0 msg1 = some (0, group1 0 0, 0) ∧
    ((portState (group1 0 0) {}).port 0).classify 1 msg1 = none := by decide +kernel

theorem startOf (a b now : Nat) : (group1 a b).symbolStart msg1 now = a + (now - a + 1279999999) / 2560000000 * 2560000000 := by
  have h : symbolOffset 1 0 0 = 0 := by decide
  have h2 : ∀ b x : Nat, x = now - a → b = a → b + (now - b + 1280000000 - 1) / 2560000000 * 2560000000 =
      a + (x + 1279999999) / 2560000000 * 2560000000 := by omega
  refine h2 _ _ rfl ?_
  show a + 0 * 10000000 + 0 * 1000000 + symbolOffset 1 0 0 = a
  rw [h]; omega

theorem tolOf (a b : Nat) : (group1 a b).tol = b := rfl

theorem portNow (g : HrGroup) (now : Nat) (u : State) (h : (portState g {}).sliceNow (portSlice 0) = (now, u)) : now ≤ 8 := by
  have h2 := slice_le (portState g {}) (portSlice 0) (Nat.zero_le _)
  rw [h] at h2
  exact h2

theorem wit_HeadraceRows_times : (∀ now u, (portState (group1 20000000 0) {}).sliceNow (portSlice 0) = (now, u) →
      now + 10000000 < (group1 20000000 0).symbolStart msg1 now) ∧
    (∀ now, (group1 0 0).symbolStart msg1 now + (group1 0 0).tol ≤ now ∨ 1280000000 < now) ∧
    (∀ now u, (portState (group1 0 1000) {}).sliceNow (portSlice 0) = (now, u) → (group1 0 1000).symbolStart msg1 now ≤ now + 10000000 ∧
      now < (group1 0 1000).symbolStart msg1 now + (group1 0 1000).tol) := by
  refine ⟨fun now u h => ?_, fun now => ?_, fun now u h => ?_⟩
  · have h2 := portNow _ now u h
    rw [startOf]; omega
  · rw [startOf, tolOf]; omega
  · have h2 := portNow _ now u h
    rw [startOf, tolOf]; omega

/-- A closed row, and its flume in cluster 0. -/
def row1 : Row := { start := 0, frame := 0, subframe := 0, slot := 0, symbol := 0, opened := 0, closed := some 10 }
def flumeState (mapped claim fill : Nat) (r : HrRows) : State :=
  let s := portState (group1 0 1000) r
  { s with
    sluice := { s.sluice with table := some { img := words [(0x08, 8, 100000), (0x18, 8, 257), (0x48, 4, 100000), (0x1400, 2, mapped), (0x26F02, 1, 1)] [] } }
    clusters := [(0, { s.cluster 0 with flumes := [(0, { en := true, owner := 0, prod := 1, src := 0, log2n := 0, slotsz := 2048, claim := claim, fill := fill })] })] }

theorem wit_HeadraceRows_rows : (let r : HrRows := { open_ := [(0, row1)] }
    GroupHas (portState (group1 0 0) r) 0 0 (group1 0 0) r ∧ r.open_ = (0, row1) :: [] ∧ row1.closed ≠ none ∧ row1 = { row1 with seq := r.seq } ∧
      r.waiting = []) ∧
    (let r : HrRows := { waiting := [row1] }
     GroupHas (portState (group1 0 0) r) 0 0 (group1 0 0) r ∧ r.waiting = row1 :: []) :=
  ⟨⟨groupHas _ _, by decide⟩, groupHas _ _, by decide⟩

theorem wit_HeadraceRows_delivery : (let r : HrRows := { open_ := [(0, row1)] }
    (flumeState 0 0 0 r).rowTarget 0 0 (group1 0 1000) row1 = none ∧ (flumeState 0x8000 0 0 r).rowTarget 0 0 (group1 0 1000) row1 = some (0, 0) ∧
      ((flumeState 0x8000 0 0 r).flume 0 0).full = false ∧ ((flumeState 0x8000 0 0 r).flume 0 0).claim = ((flumeState 0x8000 0 0 r).flume 0 0).fill ∧
      ((flumeState 0x8000 0 0 r).flume 0 0).done = [] ∧ ((flumeState 0x8000 1 1 r).flume 0 0).full = true ∧
      (flumeState 0x8000 1 1 r).rowTarget 0 0 (group1 0 1000) row1 = some (0, 0)) ∧ 16 ≤ (List.replicate 16 row1).length ∧
    ((({ State.reset with ports := [(0, { tx := [frame1] })] } : State).port 0).tx = frame1 :: []) := by decide +kernel

/-! ### Steps -/

theorem run0 (s : State) (cx : Nat) (rest : List Turn) (h : s.sched.agenda = .run cx :: rest) (a b : State) (ws : List Nat) (u : State)
    (h1 : s.power.supplies = true) (h0 : (s.tick.overdue (.run cx)).isEmpty = true) (h2 : s.mayIssue cx = true)
    (hg : (s.ctx cx).guess = none) (hk : s.kernelHere cx = false)
    (h3 : ({ s.tick with sched := { s.tick.sched with agenda := rest } } : State).windowDue (clusterOf (coreOf cx)) = (false, a))
    (h4 : a.comparatorLate cx = (false, b)) (h5 : (b.atTurn cx).fetchChain cx (s.ctx cx).pc = (.chain ws, u)) : Fetches s cx rest ws u :=
  ⟨h, h1, List.isEmpty_iff.mp h0, h2, hg, hk, a, b, h3, h4, h5⟩

/-- ready at its turn, its cluster's window and its comparator passed. -/
def readyTurn : State := { ready.tick with sched := { ready.tick.sched with agenda := [] } }
def readyFetch : Fetched × State :=
  (((readyTurn.windowDue (clusterOf (coreOf 0))).2.comparatorLate 0).2.atTurn 0).fetchChain 0 (ready.ctx 0).pc

/-- ready has the instruction of the word 0x0001 in front of it. -/
theorem wit_StepsTakeTurns_run : ∃ ws u, Fetches ready 0 [] ws u ∧ (decode ws).toOption.isSome = true := by
  have h : (match readyFetch.1 with
      | .chain ws => (decode ws).toOption.isSome
      | _ => false) = true := by decide +kernel
  match h5 : readyFetch.1, h with
  | .chain ws, h =>
    have h6 : readyFetch = (.chain ws, readyFetch.2) := by rw [← h5]
    refine ⟨ws, readyFetch.2, run0 ready 0 [] (by decide +kernel) (readyTurn.windowDue (clusterOf (coreOf 0))).2
      ((readyTurn.windowDue (clusterOf (coreOf 0))).2.comparatorLate 0).2 ws readyFetch.2 (by decide +kernel) (by decide +kernel)
      (by decide +kernel) (by decide +kernel) (by decide +kernel) (Prod.ext (by decide +kernel) rfl) (Prod.ext (by decide +kernel) rfl) h6, h⟩

/-- What an event of the agenda, or the micro-kernel's turn, needs: nothing overdue, or something. -/
theorem wit_StepsTakeTurns_overdue : (ready.tick.overdue (.event .hostsig)).isEmpty = true ∧
    (let s : State := { ready with power := { ready.power with wakeAt := [(3, 0)] } }
     (s.tick.overdue (.event .hostsig)).isEmpty = false) ∧
    (let s : State := { (kernelMode ready) with power := { ready.power with microKernel := true } }
     (s.tick.overdue (.kernel 0)).isEmpty = true ∧ s.power.supplies = true ∧ (s.ctx 0).guess = none ∧ (s.windowDue (clusterOf (coreOf 0))).1 = false ∧
       (s.comparatorLate 0).1 = false) := by decide +kernel

/-- An unowned core's cluster stands behind the end of its window. -/
theorem wit_StepsTakeTurns_due : (let s := (gatesState 50008 0); s.dueWindow 0 table2 |>.isSome) = true := by decide +kernel

theorem wit_StepsTakeTurns_turns : isUnitEvent .hostsig = true ∧ isUnitEvent (.li 5 3) = false ∧
    (let s : State := { ready with sched := { ready.sched with agenda := [.event .hostsig] } }
     s.sched.agenda = .event .hostsig :: [] ∧ s.power.supplies = true) ∧ State.reset.power.supplies = false ∧
    (let s : State := { (kernelMode ready) with power := { ready.power with microKernel := true }, sched := { ready.sched with agenda := [.kernel 0] } }
     ({ s.tick with sched := { s.tick.sched with agenda := [] } } : State).kernelDue 0 = true) := by decide +kernel

/-! ### Invariants -/

theorem reset_inv : Safety.Inv State.reset := by unfold Safety.Inv; decide +kernel
theorem ready_inv : Safety.Inv ready := by unfold Safety.Inv; decide +kernel

theorem wit_OwnershipIsTheTables : encode (.li 5 3) = some [0x7503] ∧ ready.curCtx.mode = .user ∧ ∃ t, exec (.li 5 3) ready = .next t := by
  refine ⟨by decide +kernel, by decide +kernel, ?_⟩
  have h : (match exec (.li 5 3) ready with
    | .next _ => true
    | _ => false) = true := by decide +kernel
  cases he : exec (.li 5 3) ready <;> simp_all

/-! ### Results: the expected values are those of the spec's worked examples -/

/-- A register of the context after one instruction, and FFLAGS. -/
def after (i : Instr) (s : State) (r : SReg) : Option (Nat × Nat) :=
  match exec i s with
  | .next t => some (((t.ctx 0).reg r).toNat, (t.ctx 0).fflags.toNat)
  | _ => none

/-- Integer division and fixed point (R41): −7 DIV 2 is −3 and −7 REM 2 is −1; a divisor of 0 gives all ones and sets IDZ. -/
theorem test_div : after (.div 3 1 2) (withRegs ready [(1, 2 ^ 64 - 7), (2, 2)]) 3 = some (2 ^ 64 - 3, 0) ∧
    after (.divn 3 1 2) (withRegs ready [(1, 7), (2, 0)]) 3 = some (2 ^ 64 - 1, 64) := by decide +kernel
theorem test_rem : after (.rem 3 1 2) (withRegs ready [(1, 2 ^ 64 - 7), (2, 2)]) 3 = some (2 ^ 64 - 1, 0) ∧
    after (.remn 3 1 2) (withRegs ready [(1, 7), (2, 0)]) 3 = some (7, 64) := by decide +kernel

/-- R18: addition wraps and sets no flag; the source is also the destination. -/
theorem test_add_wraps : after (.add 1 1 1) (withRegs ready [(1, 2 ^ 63 + 5)]) 1 = some (10, 0) := by decide +kernel

/-- R96: `slli s5, s6, 40`, and LIH 0x8000 into the high half written after LI 0. -/
theorem test_slli : after (.slli 5 6 40) (withRegs ready [(6, 0x1000003)]) 5 = some (0x0000030000000000, 0) := by decide +kernel
theorem test_lih : after (.lih 5 5 0x8000) (withRegs ready [(5, 0)]) 5 = some (0x8000000000000000, 0) := by decide +kernel

/-- R100: with f32, VLMAX 64 and VL 64, LOOPSM of s5 = 100 leaves 36 and advances s6 and s7 by 256; the next leaves 0, advances by 144
and sets VL 0. -/
def loopState (n vl : Nat) : State :=
  (withRegs ready [(5, n), (6, 0x1000), (7, 0x2000)]).modCtx 0 fun c => { c with grant := 2048, vtype := .f32, vl := vl }
def loopAfter (n vl : Nat) : Option (List Nat) :=
  match exec (.loopsm 5 6 1 (-6)) (loopState n vl) with
  | .next t => some [((t.ctx 0).reg 5).toNat, ((t.ctx 0).reg 6).toNat, ((t.ctx 0).reg 7).toNat, (t.ctx 0).vl]
  | _ => none
theorem test_loopsm : loopAfter 100 64 = some [36, 0x1100, 0x2100, 36] ∧ loopAfter 36 36 = some [0, 0x1090, 0x2090, 0] := by decide +kernel

/-- R22, R36: 1.09375 in e4m3 is 0x39; 500 is 0x7E with SAT8 and 0x7F without; 2⁻⁸ is 0x02; 464 rounds to 448. -/
theorem test_round_e4m3 : rnd .e4m3 { rm := .rne, sat8 := true } false (35 / 32) = (0x39, flNX) ∧
    rnd .e4m3 { rm := .rne, sat8 := true } false 500 = (0x7E, flOF ||| flNX) ∧
    rnd .e4m3 { rm := .rne, sat8 := false } false 500 = (0x7F, flOF ||| flNX) ∧
    rnd .e4m3 { rm := .rne, sat8 := true } false (1 / 256) = (0x02, 0) ∧
    rnd .e4m3 { rm := .rne, sat8 := false } false 464 = (0x7E, flNX) := by decide +kernel
/-- R22: the ties 0x3F80_8000 and 0x3F81_8000 of f32 to bf16. -/
theorem test_round_bf16 : cvtToF .bf16 { rm := .rne, sat8 := true } (decodeF .f32 0x3F808000) = (0x3F80, flNX) ∧
    cvtToF .bf16 { rm := .rne, sat8 := true } (decodeF .f32 0x3F818000) = (0x3F82, flNX) := by decide +kernel

/-- R39, R40: the block (1.5, −0.25, 3, 10) in e4m3, and (0.375, −1.25, 2.5, 5) in cb4 with the reset codebook. -/
theorem test_quantise_e4m3 : blockScale 8 ([0x3FC00000, 0xBE800000, 0x40400000, 0x41200000].map (decodeF .f32)) = 0x7A ∧
    ([0x3FC00000, 0xBE800000, 0x40400000, 0x41200000].map fun x => quantElem [] { rm := .rne, sat8 := true } .e4m3 (decodeF .f32 x) 0x7A) =
      [(0x64, 0), (0xD0, 0), (0x6C, 0), (0x7A, 0)] := by decide +kernel
theorem test_quantise_cb4 : blockScale (emaxOf resetCodebook .cb4) ([0x3EC00000, 0xBFA00000, 0x40200000, 0x40A00000].map (decodeF .f32)) = 0x7F ∧
    ([0x3EC00000, 0xBFA00000, 0x40200000, 0x40A00000].map fun x => (quantElem resetCodebook { rm := .rne, sat8 := true } .cb4 (decodeF .f32 x) 0x7F).1) =
      [1, 0xA, 4, 6] := by decide +kernel

/-- R44: the tree sum of (2⁻²⁴, 1, −1) is +0 with NX. -/
theorem test_tree_sum : treeTotal { rm := .rne, sat8 := true } (.flt .f32) 3 (fun i => [0x33800000, 0x3F800000, 0xBF800000].getD i 0) = (0, flNX) := by
  decide +kernel

/-- R47: W₁₆¹ is rne(cos(π/8)) − rne(sin(π/8))i, in f32 0x3F6C835E and 0x3EC3EF15; W₁₆⁴ has an exact zero. -/
theorem test_twiddle : twiddle .f32 false 1 16 = 0x3F6C835E ∧ twiddle .f32 true 1 16 = 0x3EC3EF15 ∧ twiddle .f32 false 4 16 = 0 := by decide +kernel

/-- R52: β = 0.5 merges 3's old element 4 and the incoming 2. -/
theorem test_damping : damp64 128 0x40800000 0x40000000 = 0x40400000 := by decide +kernel

/-- R148: [[2, 1 + i], [1 − i, 3]] inverted, and [[1, 1], [1, 1]] with its second pivot replaced by 2⁻¹⁰. -/
def guard10 : Guard := { m := { rm := .rne, sat8 := true }, eps := .of (decodeF .f32 0x3A800000), regular := true }
def invBits (xs : List Nat) : List Nat × Bool :=
  let r := sweeps guard10 2 [[.ofBits .f32 (xs.getD 0 0), .ofBits .f32 (xs.getD 1 0)], [.ofBits .f32 (xs.getD 2 0), .ofBits .f32 (xs.getD 3 0)]]
  ((r.1.flatMap id).map fun x => (x.pack .f32 guard10.m).1, r.2)
theorem test_vhinv : invBits [0x40000000, 0x3F8000003F800000, 0xBF8000003F800000, 0x40400000] =
      ([0x3F400000, 0xBE800000BE800000, 0x3E800000BE800000, 0x3F000000], false) ∧
    (invBits [0x3F800000, 0x3F800000, 0x3F800000, 0x3F800000]).2 = true := by decide +kernel

/-- R279: the densities of the worked example, and its capacity from two windows. -/
theorem test_density : density 300000 500000 = 39322 ∧ density 1500000 1000000 = 98304 ∧ density 100000 250000 = 26215 ∧
    density 98000 250000 = 25691 ∧ 65536 * (4 * 499500 + 2 * 249500) / 1000000 = 163643 := by decide

/-- R60, R98: the target counts halfwords from the first word, the link is the address after the last. -/
theorem test_jal : (match exec (.jal 1 6) { ready with sched := { ready.sched with ilen := 1 } } with
    | .next t => some (((t.ctx 0).reg 1).toNat, (t.ctx 0).pc.toNat)
    | _ => none) = some (2, 12) := by decide +kernel

end Sys2Proof.Tests
end

/-! PROOFS. Ownership (R16): what no operation of the state that a user-mode instruction makes changes, first of the state's operations,
then of each way an instruction issues, then of the instructions. -/

namespace Sys2Proof.Machine
open Sys2Proof

/-- What R16 speaks of: the table and whether its windowed parts are in force, the window of each cluster, and the owner of each core. -/
structure Ownership where
  table : Option Table
  inForce : Bool
  clusterWin : FMap (Option WinPos)
  owner : Nat → Nat

/-- The ownership of a state. -/
def State.ownership (s : State) : Ownership where
  table := s.sluice.table
  inForce := s.sluice.inForce
  clusterWin := s.sluice.clusterWin
  owner c := (s.core c).owner

theorem State.ownership_eq {s t : State} (hs : t.sluice = s.sluice) (hc : t.cores = s.cores) : t.ownership = s.ownership := by
  simp only [State.ownership, State.core, hs, hc]

variable (s : State)

/-! ### Contexts, jobs, cores and clusters -/

@[simp] theorem State.setCtx_ownership (cx : Nat) (c : Ctx) : (s.setCtx cx c).ownership = s.ownership := State.ownership_eq (by simp) (by simp)
@[simp] theorem State.setCur_ownership (c : Ctx) : (s.setCur c).ownership = s.ownership := s.setCtx_ownership _ c
@[simp] theorem State.modCtx_ownership (cx : Nat) (f : Ctx → Ctx) : (s.modCtx cx f).ownership = s.ownership := s.setCtx_ownership cx _
@[simp] theorem State.putJob_ownership (h : Nat) (j : Job) : (s.putJob h j).ownership = s.ownership := rfl
@[simp] theorem State.dropJob_ownership (h : Nat) : (s.dropJob h).ownership = s.ownership := rfl
@[simp] theorem State.modCluster_ownership (k : Nat) (f : Cluster → Cluster) : (s.modCluster k f).ownership = s.ownership := rfl
@[simp] theorem State.modGroup_ownership (g : Nat) (f : Group → Group) : (s.modGroup g f).ownership = s.ownership := rfl
@[simp] theorem State.drawBit_ownership : s.drawBit.2.ownership = s.ownership := rfl
@[simp] theorem State.drawNat_ownership : s.drawNat.2.ownership = s.ownership := rfl
@[simp] theorem State.clusterNow_ownership (k : Nat) : (s.clusterNow k).2.ownership = s.ownership := rfl

theorem State.setCore_ownership (c : Nat) (k : Core) (h : k.owner = (s.core c).owner) : (s.setCore c k).ownership = s.ownership := by
  simp only [State.ownership, State.setCore_sluice, Ownership.mk.injEq, true_and]
  funext i
  by_cases hi : i = c
  · subst hi; simp [h]
  · rw [s.core_setCore_ne k hi]

@[simp] theorem State.modCore_ownership (c : Nat) (f : Core → Core) (h : (f (s.core c)).owner = (s.core c).owner) :
    (s.modCore c f).ownership = s.ownership := s.setCore_ownership c _ h

@[simp] theorem State.modJob_ownership (h : Nat) (f : Job → Job) : (s.modJob h f).ownership = s.ownership := by
  unfold State.modJob
  split <;> rfl

/-- A fold of steps that each keep the ownership keeps it. -/
theorem foldl_ownership {α : Type} (f : State → α → State) (hf : ∀ s a, (f s a).ownership = s.ownership) (xs : List α) :
    (xs.foldl f s).ownership = s.ownership := by
  induction xs generalizing s with
  | nil => rfl
  | cons x xs ih => exact (ih (f s x)).trans (hf s x)

/-- So does a fold that carries a result beside the state. -/
theorem foldl_snd_ownership {α β : Type} (f : β × State → α → β × State) (hf : ∀ r a, (f r a).2.ownership = r.2.ownership)
    (r : β × State) (xs : List α) : (xs.foldl f r).2.ownership = r.2.ownership := by
  induction xs generalizing r with
  | nil => rfl
  | cons x xs ih => exact (ih (f r x)).trans (hf r x)

theorem ownership_of_snd {α : Type} {r : α × State} {x : α} {t : State} {w : Ownership} (h : r = (x, t)) (hr : r.2.ownership = w) :
    t.ownership = w := by subst h; exact hr

/-! ### Memory and the log -/

@[simp] theorem State.touch_ownership (p n : Nat) : (s.touch p n).ownership = s.ownership := by
  rcases s.touch_cases p n with h | ⟨q, h⟩ <;> rw [h]
  rfl

@[simp] theorem State.dirty_ownership (p o : Nat) : (s.dirty p o).ownership = s.ownership := by
  unfold State.dirty
  dsimp only
  split <;> rfl

@[simp] theorem State.snoopRead_ownership (p n : Nat) : (s.snoopRead p n).ownership = s.ownership := by
  unfold State.snoopRead
  dsimp only
  split <;> exact s.touch_ownership p n

@[simp] theorem State.snoopWrite_ownership (p n : Nat) : (s.snoopWrite p n).ownership = s.ownership := by
  unfold State.snoopWrite
  dsimp only
  split <;> exact s.touch_ownership p n

@[simp] theorem State.storeBytes_ownership (p : Nat) (o : Option Nat) (bs : List Byte) : (s.storeBytes p o bs).ownership = s.ownership := by
  cases o with
  | none => exact s.snoopWrite_ownership p _
  | some o => exact (State.snoopWrite_ownership _ p _).trans (s.dirty_ownership p o)

@[simp] theorem State.putWord_ownership (p n v : Nat) : (s.putWord p n v).ownership = s.ownership := s.snoopWrite_ownership p n

@[simp] theorem State.putHome_ownership (p : Nat) (b : Byte) : (s.putHome p b).ownership = s.ownership := by
  unfold State.putHome
  split <;> rfl

@[simp] theorem State.retain_ownership (l : Nat) : (s.retain l).ownership = s.ownership := by
  unfold State.retain
  dsimp only
  split
  · rfl
  · split
    · rfl
    · split <;> rfl

@[simp] theorem State.putBytes_ownership (p : Nat) (o : Option Nat) (bs : List Byte) : (s.putBytes p o bs).ownership = s.ownership := by
  unfold State.putBytes
  dsimp only
  have hr : ((linesAt p bs.length).foldl State.retain s).ownership = s.ownership := foldl_ownership s _ State.retain_ownership _
  split
  · simp
  · split
    · rw [foldl_ownership _ _ fun _ _ => State.putHome_ownership _ _ _]
      exact (State.snoopWrite_ownership _ _ _).trans hr
    · simpa using hr

@[simp] theorem State.log_ownership (r : LogRec) : (s.log r).ownership = s.ownership := by
  unfold State.log
  dsimp only
  split
  · rfl
  · split <;> simp

@[simp] theorem State.logCore_ownership (kind core owner cause : Nat) (v0 v1 : Word) :
    (s.logCore kind core owner cause v0 v1).ownership = s.ownership := by
  simp [State.logCore]

/-! ### Translation -/

@[simp] theorem State.tlbFill_ownership (a : Agent) (c k : Option Nat) (e : TlbEntry) : (s.tlbFill a c k e).ownership = s.ownership := by
  unfold State.tlbFill
  dsimp only
  cases c with
  | none =>
    cases k with
    | none => rfl
    | some k => dsimp only; split <;> rfl
  | some c =>
    have h := s.modCore_ownership c (fun k => { k with
      tlb := tlbPut 4 s.drawNat.1 (fun x => x.bank == a.lane.getD e.anyBank) { e with bank := a.lane.getD e.anyBank } k.tlb }) rfl
    cases k with
    | none => exact h
    | some k => dsimp only; split <;> exact h

@[simp] theorem State.snoopWalk_ownership (root va : Nat) : (s.snoopWalk root va).ownership = s.ownership :=
  foldl_ownership s _ (fun s p => s.snoopRead_ownership p 8) _

@[simp] theorem State.setAD_ownership (l : Leaf) (d : Bool) : (s.setAD l d).ownership = s.ownership := by
  unfold State.setAD
  dsimp only
  split
  · rfl
  · exact s.snoopWrite_ownership _ _

@[simp] theorem State.markLeaf_ownership (a : Agent) (va : Nat) (d : Bool) : (s.markLeaf a va d).ownership = s.ownership := by
  unfold State.markLeaf
  split <;> simp

@[simp] theorem State.walkFor_ownership (a : Agent) (va : Nat) (k : AccessKind) (d : Bool) : (s.walkFor a va k d).2.ownership = s.ownership := by
  unfold State.walkFor
  dsimp only
  split
  · simp
  · split
    · dsimp only
      split <;> simp
    · simp

@[simp] theorem State.tlbHit_ownership (e : Option TlbEntry) : (s.tlbHit e).2.ownership = s.ownership := by
  cases e <;> rfl

@[simp] theorem State.pageOf_ownership (a : Agent) (va : Nat) (k : AccessKind) (d : Bool) : (s.pageOf a va k d).2.ownership = s.ownership := by
  unfold State.pageOf
  grind [State.walkFor_ownership, State.tlbHit_ownership, State.tlbFill_ownership, State.markLeaf_ownership]

@[simp] theorem State.xlate_ownership (a : Agent) (va : Word) (k : AccessKind) (d : Bool) : (s.xlate a va k d).2.ownership = s.ownership := by
  have h := s.pageOf_ownership a va.toNat k d
  unfold State.xlate
  dsimp only
  split
  · rfl
  · split
    · rfl
    · split <;> next heq => exact ownership_of_snd heq h

theorem State.xlate_keeps {s t : State} {a : Agent} {va : Word} {k : AccessKind} {d : Bool} {r : Except TrapInfo Xlat}
    (h : s.xlate a va k d = (r, t)) : t.ownership = s.ownership := ownership_of_snd h (s.xlate_ownership a va k d)

@[simp] theorem State.reach_ownership (a : Agent) (va : Word) (n : Nat) (k : AccessKind) (d : Bool) :
    (s.reach a va n k d).2.ownership = s.ownership := by
  unfold State.reach
  split
  · next heq =>
    have h := State.xlate_keeps heq
    split
    · simp only
      split
      · exact s.xlate_ownership a va k false
      · exact h
    · exact h
  · exact s.xlate_ownership a va k d

theorem State.reach_keeps {s t : State} {a : Agent} {va : Word} {n : Nat} {k : AccessKind} {d : Bool} {r : Except TrapInfo Xlat}
    (h : s.reach a va n k d = (r, t)) : t.ownership = s.ownership := ownership_of_snd h (s.reach_ownership a va n k d)

@[simp] theorem State.access_ownership (a : Agent) (va : Word) (n : Nat) (k : AccessKind) (d : Bool) :
    (s.access a va n k d).2.ownership = s.ownership := by
  unfold State.access
  split <;> simp

theorem State.access_keeps {s t : State} {a : Agent} {va : Word} {n : Nat} {k : AccessKind} {d : Bool} {r : Except TrapInfo Xlat}
    (h : s.access a va n k d = (r, t)) : t.ownership = s.ownership := ownership_of_snd h (s.access_ownership a va n k d)


/-! ### Traps -/

@[simp] theorem State.setMx_ownership (cx : Nat) (m : MatrixUnit) : (s.setMx cx m).ownership = s.ownership := by
  unfold State.setMx
  split
  · exact s.modCore_ownership _ _ rfl
  · exact s.modJob_ownership _ _

@[simp] theorem State.stopJob_ownership (h : Nat) (j : Job) (cx : Nat) : (s.stopJob h j cx).ownership = s.ownership := by
  have hmx (k : Core) : (if k.mx.job = some h then { k with mx := k.mx.stop } else k).owner = k.owner := by split <;> rfl
  simp [State.stopJob, hmx]

@[simp] theorem State.abandonJob_ownership (h : Nat) : (s.abandonJob h).ownership = s.ownership := by
  unfold State.abandonJob
  split
  · rfl
  · split
    case h_2 | h_3 => exact s.stopJob_ownership _ _ _
    all_goals rfl

@[simp] theorem State.trapNest_ownership (cx : Nat) (t : TrapInfo) (pc : Word) : (s.trapNest cx t pc).ownership = s.ownership := by
  unfold State.trapNest
  dsimp only
  split <;> simp

@[simp] theorem State.framePlaces_ownership (cx : Nat) (k : AccessKind) (base : Word) :
    (s.framePlaces cx k base).2.ownership = s.ownership := by
  unfold State.framePlaces
  refine foldl_snd_ownership _ ?_ _ _
  rintro ⟨_ | ps, u⟩ i
  · rfl
  · dsimp only
    split <;> next h => exact State.access_keeps h

@[simp] theorem State.takeTrap_ownership (cx : Nat) (t : TrapInfo) (pc : Word) : (s.takeTrap cx t pc).ownership = s.ownership := by
  unfold State.takeTrap
  dsimp only
  split
  · simp
  · split
    · simp
    · split
      · have h := s.framePlaces_ownership cx .write ((s.ctx cx).reg regS2 - 32)
        split
        · next heq =>
          rw [State.modCtx_ownership, foldl_ownership _ _ fun _ _ => State.putWord_ownership _ _ _ _]
          exact ownership_of_snd heq h
        · next heq => rw [State.trapNest_ownership]; exact ownership_of_snd heq h
      · simp

/-! ### How an instruction issues, waits or traps -/

/-- The next state of an outcome, where it has one, has this ownership. -/
def Leaves (w : Ownership) (o : Out) : Prop := ∀ t, o = .next t → t.ownership = w

variable {s} {w : Ownership}

@[simp] theorem leaves_next (t : State) : Leaves w (.next t) ↔ t.ownership = w :=
  ⟨fun h => h t rfl, fun h _ e => by cases e; exact h⟩

theorem leaves_ite {c : Prop} [Decidable c] {a b : Out} (ha : Leaves w a) (hb : Leaves w b) : Leaves w (if c then a else b) := by
  split
  · exact ha
  · exact hb

@[simp] theorem State.trapCur_leaves (cause : Cause) (v : Word) (h : s.ownership = w) : Leaves w (s.trapCur cause v) :=
  leaves_ite (by simpa using h) (by simpa using h)

@[simp] theorem State.trapWith_leaves (f : State → State) (cause : Cause) (v : Word) (h : s.ownership = w) (hf : (f s).ownership = s.ownership) :
    Leaves w (s.trapWith f cause v) :=
  leaves_ite (by simpa using h) (State.trapCur_leaves _ _ (hf.trans h))

@[simp] theorem State.badTrap_leaves (r : SReg) (b : BadReg) (h : s.ownership = w) : Leaves w (s.badTrap r b) :=
  State.trapWith_leaves _ _ _ h (s.setCur_ownership _)

theorem State.freeIssue_leaves (reads writes : List SReg) (vl : Bool) (eff : State → Ctx → Out) (heff : ∀ c, Leaves s.ownership (eff s c)) :
    Leaves s.ownership (s.freeIssue reads writes vl eff) := by
  rcases s.freeIssue_cases reads writes vl eff with h | ⟨r, b, -, h⟩ | ⟨-, -, h⟩ <;> rw [h]
  · simp
  · simp
  · exact heff _

theorem State.heldOp_leaves (reads writes : List SReg) (eff : State → Out) (heff : Leaves s.ownership (eff s)) :
    Leaves s.ownership (s.heldOp reads writes eff) := by
  rcases s.heldOp_cases reads writes eff with h | ⟨r, b, -, h⟩ | ⟨-, -, h⟩ <;> rw [h]
  · simp
  · simp
  · exact heff

@[simp] theorem State.complete_ownership (s : State) (f : Ctx → Ctx) : (s.complete f).ownership = s.ownership := s.setCur_ownership _
@[simp] theorem State.waitOn_ownership (s : State) (x : Wait) : (s.waitOn x).ownership = s.ownership := s.setCur_ownership _

theorem State.freeOp_leaves (reads writes : List SReg) (vl : Bool) (eff : Ctx → Ctx) : Leaves s.ownership (s.freeOp reads writes vl eff) :=
  State.freeIssue_leaves _ _ _ _ fun c => by simp

theorem State.regOp_leaves (reads : List SReg) (d : SReg) (val : Ctx → Word) : Leaves s.ownership (s.regOp reads d val) :=
  State.freeOp_leaves _ _ _ _

theorem State.divOp_leaves (d a b : SReg) (f : Word → Word → Word × Flags) : Leaves s.ownership (s.divOp d a b f) :=
  State.heldOp_leaves _ _ _ (by simp)

theorem State.heldReg_leaves (reads : List SReg) (d : SReg) (val : Ctx → Word) : Leaves s.ownership (s.heldReg reads d val) :=
  State.heldOp_leaves _ _ _ (by simp)

/-- In user mode a supervisor's instruction only traps (R90). -/
theorem State.supervisorOnly_leaves (k : State → Out) (hu : s.curCtx.mode = .user) : Leaves s.ownership (s.supervisorOnly k) := by
  rw [s.supervisorOnly_user k (by simp [hu])]
  exact State.trapCur_leaves _ _ rfl

theorem State.pgateOp_leaves (d a : SReg) (k : State → GateUnit → Out) (hu : s.curCtx.mode = .user) : Leaves s.ownership (s.pgateOp d a k) :=
  State.supervisorOnly_leaves _ hu

theorem State.ctxOp_leaves (d a b : SReg) (zeroOk : Bool) (k : State → Nat → Word → Out) (hu : s.curCtx.mode = .user) :
    Leaves s.ownership (s.ctxOp d a b zeroOk k) := State.supervisorOnly_leaves _ hu

/-! ### Entry into the vector queue and the matrix queue -/

theorem State.vEnter_leaves (ins : Instr) (reads writes : List SReg) (sa sb : Ctx → Word) (legal : Ctx → Bool)
    (check : Ctx → Option TrapInfo) : Leaves s.ownership (s.vEnter ins reads writes sa sb legal check) := by
  refine leaves_ite (by simp) (leaves_ite (by simp) ?_)
  split
  · simp
  · split <;> simp

theorem State.vIssue_leaves (ins : Instr) (reads writes : List SReg) (sa sb : Ctx → Word) (legal : Ctx → Bool) :
    Leaves s.ownership (s.vIssue ins reads writes sa sb legal) := State.vEnter_leaves _ _ _ _ _ _ _

theorem State.vPlain_leaves (ins : Instr) (q : Qual) (ok : Fmt → Bool) : Leaves s.ownership (s.vPlain ins q ok) :=
  State.vIssue_leaves _ _ _ _ _ _

theorem State.vScalar_leaves (ins : Instr) (q : Qual) (r : SReg) (ok : Fmt → Bool) : Leaves s.ownership (s.vScalar ins q r ok) :=
  State.vIssue_leaves _ _ _ _ _ _

theorem State.bflyEnter_leaves (ins : Instr) (b : SReg) (q : Qual) : Leaves s.ownership (s.bflyEnter ins b q) :=
  State.vEnter_leaves _ _ _ _ _ _ _

theorem State.gaussEnter_leaves (ins : Instr) (reads : List SReg) (a b : SReg) (dst : List SReg) (checks : Ctx → List (Option TrapInfo)) :
    Leaves s.ownership (s.gaussEnter ins reads a b dst checks) := State.vEnter_leaves _ _ _ _ _ _ _

theorem State.vMemEnter_leaves (ins : Instr) (reads : List SReg) (b : SReg) (q : Qual) (ok : Fmt → Bool) :
    Leaves s.ownership (s.vMemEnter ins reads b q ok) :=
  leaves_ite (by simp) (State.vIssue_leaves _ _ _ _ _ _)

theorem State.gsendEnter_leaves (ins : Instr) (d b : SReg) : Leaves s.ownership (s.gsendEnter ins d b) :=
  leaves_ite (by simp) (State.gaussEnter_leaves _ _ _ _ _ _)

theorem State.mxGate_leaves (raises : Bool) (k : MatrixUnit → Out) (hk : ∀ m, Leaves s.ownership (k m)) :
    Leaves s.ownership (s.mxGate raises k) := by
  unfold State.mxGate
  dsimp only
  split
  · simp
  · exact leaves_ite (by simp) (leaves_ite (by simp) (hk _))

theorem State.mxIssue_leaves (reads : List SReg) (check : Ctx → Option TrapInfo) (op : Ctx → MxOp) :
    Leaves s.ownership (s.mxIssue reads check op) := by
  refine State.heldOp_leaves _ _ _ (State.mxGate_leaves _ _ fun m => ?_)
  dsimp only
  split
  · simp
  · exact leaves_ite (by simp) (by simp)

theorem State.mxMove_leaves (ins : Instr) (b : SReg) (q : Qual) : Leaves s.ownership (s.mxMove ins b q) :=
  State.mxGate_leaves _ _ fun _ => State.vEnter_leaves _ _ _ _ _ _ _

/-! ### Branches, loads, stores and atomics -/

@[simp] theorem State.learnBranch_ownership (s : State) (pc : Word) (cx : Nat) (taken : Bool) : (s.learnBranch pc cx taken).ownership = s.ownership :=
  s.modCore_ownership _ _ rfl

@[simp] theorem State.guessBranch_ownership (s : State) (reads : List SReg) (off : Int) (t : BranchTest) :
    (s.guessBranch reads off t).ownership = s.ownership := s.setCur_ownership _

theorem State.branchOp_leaves (reads : List SReg) (off : Int) (t : BranchTest) : Leaves s.ownership (s.branchOp reads off t) :=
  leaves_ite (by rw [leaves_next]; split <;> simp) (State.freeIssue_leaves _ _ _ _ fun c => by simp)

theorem State.loadOp_leaves (reads : List SReg) (d : SReg) (addr : Ctx → Word) (size : Nat) (signed : Bool) :
    Leaves s.ownership (s.loadOp reads d addr size signed) := by
  refine leaves_ite (by simp) (State.freeIssue_leaves _ _ _ _ fun c => ?_)
  dsimp only
  split <;> next h => simp [State.access_keeps h]

theorem State.loadImm_leaves (d a : SReg) (imm size : Nat) (signed : Bool) : Leaves s.ownership (s.loadImm d a imm size signed) :=
  State.loadOp_leaves _ _ _ _ _

@[simp] theorem State.queueStore_ownership (s : State) (x : Xlat) (size : Nat) (kind : StoreKind) (release vec : Bool) :
    (s.queueStore x size kind release vec).ownership = s.ownership := s.complete_ownership _

theorem State.storeOp_leaves (reads : List SReg) (d : SReg) (addr : Ctx → Word) (size : Nat) (release : Bool) :
    Leaves s.ownership (s.storeOp reads d addr size release) := by
  refine leaves_ite (by simp) (State.heldOp_leaves _ _ _ ?_)
  dsimp only
  split <;> next h => simp [State.access_keeps h]

theorem State.storeImm_leaves (d a : SReg) (imm size : Nat) : Leaves s.ownership (s.storeImm d a imm size) :=
  State.storeOp_leaves _ _ _ _ _

theorem State.lineOp_leaves (a : SReg) (k : AccessKind) (kind : StoreKind) : Leaves s.ownership (s.lineOp a k kind) := by
  refine leaves_ite (by simp) (State.heldOp_leaves _ _ _ ?_)
  dsimp only
  split
  · next h => simp [State.xlate_keeps h]
  · next h =>
    have ht := State.xlate_keeps h
    exact leaves_ite (by simp) (leaves_ite (by simp [ht]) (by simp [ht]))

theorem State.amoOp_leaves (op : AmoOp) (d a b c : SReg) (w32 : Bool) : Leaves s.ownership (s.amoOp op d a b c w32) := by
  refine leaves_ite (by simp) (State.heldOp_leaves _ _ _ ?_)
  dsimp only
  split
  · next h => simp [State.access_keeps h]
  · next h =>
    have ht := State.access_keeps h
    refine leaves_ite ?_ (by simp [ht])
    split
    · next h' => simp [State.access_keeps h', ht]
    · next h' =>
      have hu := (State.access_keeps h').trans ht
      exact leaves_ite (by simp [hu]) (leaves_ite (by simp [hu]) (by simp [hu]))

/-! ### Scalar, matrix and belief-memory instructions of their own -/

theorem execJalr_leaves (d a : SReg) : Leaves s.ownership (execJalr d a s) :=
  State.freeIssue_leaves _ _ _ _ fun c => leaves_ite (by simp) (by simp)

theorem execTime_leaves (d : SReg) : Leaves s.ownership (execTime d s) := State.freeIssue_leaves _ _ _ _ fun c => by simp

theorem execLdaq_leaves (d a : SReg) : Leaves s.ownership (execLdaq d a s) := by
  refine leaves_ite (by simp) (State.heldOp_leaves _ _ _ ?_)
  dsimp only
  split <;> next h => simp [State.access_keeps h]

theorem execFence_leaves (before after : Fin 16) (scope : Fin 5) : Leaves s.ownership (execFence before after scope s) :=
  State.heldOp_leaves _ _ _ (by simp)

theorem execGcfg_leaves (n : Fin 16) (a : SReg) : Leaves s.ownership (execGcfg n a s) :=
  State.heldOp_leaves _ _ _ (leaves_ite (by simp) (leaves_ite (by simp) (by simp)))

theorem execGstat_leaves (d : SReg) (sel : Fin 16) : Leaves s.ownership (execGstat d sel s) := by
  refine State.heldOp_leaves _ _ _ ?_
  have put (u : State) (v : Word) (hu : u.ownership = s.ownership) :
      Leaves s.ownership (if s.curCtx.vq.isEmpty then .next (u.complete fun c => c.setReg d v) else .next u) :=
    leaves_ite (by simp [hu]) (by simp [hu])
  dsimp only
  split
  case h_6 => exact leaves_ite (put _ _ (s.modCore_ownership _ _ rfl)) (by simp)
  case h_7 => simp
  all_goals exact put s _ rfl

theorem execMxstat_leaves (d : SReg) (sel : Fin 9) : Leaves s.ownership (execMxstat d sel s) := by
  refine State.heldOp_leaves _ _ _ ?_
  split
  · simp
  · exact leaves_ite (by simp) (by simp)

@[simp] theorem State.parkEcc_ownership (s : State) (p : Nat) (m : MatrixUnit) : (s.parkEcc p m).ownership = s.ownership := by
  unfold State.parkEcc
  generalize List.foldl _ _ _ = e
  rfl

theorem execMxpark_leaves (a : SReg) : Leaves s.ownership (execMxpark a s) := by
  refine State.heldOp_leaves _ _ _ ?_
  dsimp only
  split
  · simp
  · refine leaves_ite (by simp) ?_
    split
    · simp
    · exact leaves_ite (by simp) (by simp)

theorem execMxunpark_leaves (a : SReg) : Leaves s.ownership (execMxunpark a s) := by
  refine State.heldOp_leaves _ _ _ ?_
  dsimp only
  split
  · simp
  · refine leaves_ite (by simp) ?_
    split
    · simp
    · exact leaves_ite (by simp) (leaves_ite (by simp) (by simp))

/-! ### Messages -/

@[simp] theorem State.outboxFull_leaves (sa : Word) (slot : Bool) : Leaves s.ownership (s.outboxFull sa slot) :=
  leaves_ite (by simp) (by simp)

theorem State.sendMsg_leaves (reply : Bool) (d a p : SReg) (n : Nat) : Leaves s.ownership (s.sendMsg reply d a p n) := by
  refine State.heldOp_leaves _ _ _ (leaves_ite (by simp) (leaves_ite (by simp) (leaves_ite (by simp) (leaves_ite (by simp)
    (leaves_ite (by simp) ?_)))))
  split
  · rw [leaves_next, State.complete_ownership]
    split
    · rfl
    · exact State.modCore_ownership _ _ _ rfl
  · simp

theorem execMtag_leaves (d a : SReg) (mx : Fin 2) : Leaves s.ownership (execMtag d a mx s) := by
  refine leaves_ite (by simp) (State.heldOp_leaves _ _ _ (leaves_ite (by simp) (leaves_ite (by simp) ?_)))
  split
  · next h => simp [State.access_keeps h]
  · next h =>
    have ht := State.access_keeps h
    exact leaves_ite (by simp [ht]) (leaves_ite (by simp [ht]) (leaves_ite (by simp [ht]) (by simp [ht])))

theorem State.tagMask_leaves (a : SReg) (writes : List SReg) (k : State → Nat → List Nat → Out)
    (hk : ∀ core ts, Leaves s.ownership (k s core ts)) : Leaves s.ownership (s.tagMask a writes k) :=
  State.heldOp_leaves _ _ _ (leaves_ite (by simp) (hk _ _))

@[simp] theorem State.enableTags_ownership (s : State) (core : Nat) (ts : List Nat) (en : Bool) : (s.enableTags core ts en).ownership = s.ownership :=
  s.modCore_ownership _ _ rfl

theorem execMpend_leaves (d : SReg) : Leaves s.ownership (execMpend d s) := State.heldOp_leaves _ _ _ (by simp)

@[simp] theorem State.dropEntry_ownership (s : State) (core : Nat) (e : HandlerEntry) : (s.dropEntry core e).ownership = s.ownership := by
  unfold State.dropEntry
  split <;> rfl

theorem execMclr_leaves (d a : SReg) : Leaves s.ownership (execMclr d a s) := by
  refine State.tagMask_leaves _ _ _ fun core ts => ?_
  dsimp only
  rw [leaves_next, State.complete_ownership, foldl_ownership _ _ fun s e => s.dropEntry_ownership core e]
  exact s.setCore_ownership _ _ rfl

/-! ### Weirs, barriers and launch groups -/

theorem State.weirOp_leaves (reads : List SReg) (a : SReg) (writes : List SReg) (checks : Ctx → List (Option TrapInfo))
    (k : State → Nat → Out) (hk : ∀ x, Leaves s.ownership (k s x)) : Leaves s.ownership (s.weirOp reads a writes checks k) := by
  refine State.heldOp_leaves _ _ _ ?_
  dsimp only
  split
  · simp
  · exact leaves_ite (by simp) (leaves_ite (by simp) (hk _))

@[simp] theorem State.modWeir_ownership (s : State) (x : Nat) (f : Weir → Weir) : (s.modWeir x f).ownership = s.ownership := rfl

theorem execWarm_leaves (d a b c : SReg) : Leaves s.ownership (execWarm d a b c s) :=
  State.weirOp_leaves _ _ _ _ _ fun _ => leaves_ite (by simp) (by simp)

theorem execWpost_leaves (d a b : SReg) : Leaves s.ownership (execWpost d a b s) :=
  State.weirOp_leaves _ _ _ _ _ fun _ => leaves_ite (by simp) (leaves_ite (by simp) (by simp))

theorem execWstat_leaves (d a : SReg) : Leaves s.ownership (execWstat d a s) := State.weirOp_leaves _ _ _ _ _ fun x => by simp

theorem execWsig_leaves (a b : SReg) : Leaves s.ownership (execWsig a b s) := by
  refine State.heldOp_leaves _ _ _ ?_
  dsimp only
  split
  · simp
  · refine leaves_ite (by simp) ?_
    rw [leaves_next, State.complete_ownership]
    rfl

@[simp] theorem State.setBarrier_ownership (s : State) (c b : Nat) (x : Barrier) : (s.setBarrier c b x).ownership = s.ownership :=
  s.modCore_ownership _ _ rfl

theorem State.barrierOp_leaves (reads : List SReg) (b d : SReg) (checks : Ctx → List (Option TrapInfo)) (k : State → Nat → Nat → Out)
    (hk : ∀ core id, Leaves s.ownership (k s core id)) : Leaves s.ownership (s.barrierOp reads b d checks k) := by
  refine State.heldOp_leaves _ _ _ ?_
  dsimp only
  split
  · simp
  · exact leaves_ite (by simp) (hk _ _)

theorem execBinit_leaves (d a b : SReg) : Leaves s.ownership (execBinit d a b s) :=
  State.barrierOp_leaves _ _ _ _ _ fun _ _ => leaves_ite (by simp) (by simp)

@[simp] theorem State.barrierWait_leaves (d : SReg) (core id g : Nat) (h : s.ownership = w) : Leaves w (s.barrierWait d core id g) :=
  leaves_ite (State.trapWith_leaves _ _ _ h (s.setCur_ownership _)) (leaves_ite (by simpa using h) (by simpa using h))

theorem execBwait_leaves (d a b : SReg) : Leaves s.ownership (execBwait d a b s) :=
  State.barrierOp_leaves _ _ _ _ _ fun core id => by simp

theorem execBsync_leaves (d a : SReg) : Leaves s.ownership (execBsync d a s) := by
  refine State.barrierOp_leaves _ _ _ _ _ fun core id => ?_
  dsimp only
  split
  · simp
  · exact leaves_ite (by simp) (by simp)

theorem execBarrive_leaves (a : SReg) : Leaves s.ownership (execBarrive a s) := by
  refine State.heldOp_leaves _ _ _ (leaves_ite (by simp) ?_)
  rw [leaves_next, State.complete_ownership]
  rfl

theorem execQopen_leaves (d a b : SReg) : Leaves s.ownership (execQopen d a b s) := by
  refine State.heldOp_leaves _ _ _ (leaves_ite (by simp) (leaves_ite (by simp) (leaves_ite (by simp) ?_)))
  rw [leaves_next, State.complete_ownership, foldl_ownership _ _ fun s k => s.modCore_ownership k _ rfl]
  rfl

theorem execQclose_leaves (d a : SReg) : Leaves s.ownership (execQclose d a s) :=
  State.heldOp_leaves _ _ _ (leaves_ite (by simp) (leaves_ite (by simp) (by simp)))

theorem execQstat_leaves (d a : SReg) (sel : Fin 6) : Leaves s.ownership (execQstat d a sel s) := by
  refine State.heldOp_leaves _ _ _ ?_
  dsimp only
  split
  · simp
  · exact leaves_ite (by simp) (by simp)

/-! ### Chunk maps, flumes and strips -/

theorem State.mapOp_leaves (a b : SReg) (writes : List SReg) (k : State → Nat → Nat → Word → Out)
    (hk : ∀ c m v, Leaves s.ownership (k s c m v)) : Leaves s.ownership (s.mapOp a b writes k) :=
  State.heldOp_leaves _ _ _ (leaves_ite (by simp) (leaves_ite (by simp) (hk _ _ _)))

@[simp] theorem State.setChunkMap_ownership (s : State) (k m : Nat) (v : Word) : (s.setChunkMap k m v).ownership = s.ownership := rfl

theorem execSwaitm_leaves (a b : SReg) : Leaves s.ownership (execSwaitm a b s) :=
  State.mapOp_leaves _ _ _ _ fun _ _ _ => leaves_ite (by simp) (by simp)

theorem execStestm_leaves (d a b : SReg) : Leaves s.ownership (execStestm d a b s) := State.mapOp_leaves _ _ _ _ fun _ _ _ => by simp
theorem execSclrm_leaves (a b : SReg) : Leaves s.ownership (execSclrm a b s) := State.mapOp_leaves _ _ _ _ fun _ _ _ => by simp

@[simp] theorem State.probeRange_ownership (s : State) (a : Agent) (k : AccessKind) (d : Bool) (xs : List (Word × Nat)) :
    (s.probeRange a k d xs).2.ownership = s.ownership := by
  unfold State.probeRange
  refine foldl_snd_ownership _ ?_ _ _
  rintro ⟨_ | ps, u⟩ x
  · rfl
  · dsimp only
    split
    · next h => split <;> exact State.reach_keeps h
    · next h => exact State.reach_keeps h

@[simp] theorem State.probeWrite_ownership (s : State) (a : Agent) (xs : List (Word × Nat)) : (s.probeWrite a xs).2.ownership = s.ownership := by
  unfold State.probeWrite
  split
  · next h => exact (State.probeRange_ownership _ _ _ _ _).trans (ownership_of_snd h (s.probeRange_ownership _ _ _ _))
  · exact s.probeRange_ownership _ _ _ _

@[simp] theorem State.probeStrip_ownership (s : State) (a : Agent) (cs : List CutPiece) : (s.probeStrip a cs).2.ownership = s.ownership := by
  have hr := s.probeRange_ownership a .read false (cs.map fun c => (c.src, c.len))
  unfold State.probeStrip
  split
  · next h => exact ownership_of_snd h hr
  · next h => split <;> next h' => exact (ownership_of_snd h' (State.probeWrite_ownership _ _ _)).trans (ownership_of_snd h hr)

@[simp] theorem State.setFlume_ownership (s : State) (k f : Nat) (x : Flume) : (s.setFlume k f x).ownership = s.ownership := rfl

@[simp] theorem State.flumeDone_ownership (s : State) (k f i : Nat) : (s.flumeDone k f i).ownership = s.ownership := by
  unfold State.flumeDone
  dsimp only
  split <;> rfl

@[simp] theorem State.flumeRel_ownership (s : State) (k f i : Nat) : (s.flumeRel k f i).ownership = s.ownership := rfl

theorem State.flumeOp_leaves (reads : List SReg) (a : SReg) (writes : List SReg) (fenced push : Bool) (k : State → Nat → Nat → Out)
    (hk : ∀ c f, Leaves s.ownership (k s c f)) : Leaves s.ownership (s.flumeOp reads a writes fenced push k) := by
  refine leaves_ite (by simp) (State.heldOp_leaves _ _ _ ?_)
  dsimp only
  split
  · simp
  · exact hk _ _

theorem State.flumeTake_leaves (d a : SReg) (push : Bool) : Leaves s.ownership (s.flumeTake d a push) := by
  refine State.flumeOp_leaves _ _ _ _ _ _ fun k f => ?_
  refine leaves_ite (by simp) (leaves_ite (leaves_ite (by simp) (by simp)) ?_)
  rw [leaves_next, State.complete_ownership, State.setFlume_ownership]

theorem State.flumeGive_leaves (a b : SReg) (push : Bool) : Leaves s.ownership (s.flumeGive a b push) := by
  refine State.flumeOp_leaves _ _ _ _ _ _ fun k f => ?_
  dsimp only
  split
  · simp
  · exact leaves_ite (leaves_ite (by simp) (by simp)) (by simp)

@[simp] theorem State.queueStrip_ownership (s : State) (k : Nat) (x : Strip) (f : Ctx → Ctx) : (s.queueStrip k x f).ownership = s.ownership := by
  unfold State.queueStrip
  dsimp only
  split <;> simp

theorem State.probeStrip_keeps {s t : State} {a : Agent} {cs : List CutPiece} {r : Except TrapInfo (List Piece)}
    (h : s.probeStrip a cs = (r, t)) : t.ownership = s.ownership := ownership_of_snd h (s.probeStrip_ownership a cs)

theorem execScopy_leaves (sn sd ss sc : SReg) (fo : Option Fmt) : Leaves s.ownership (execScopy sn sd ss sc fo s) := by
  refine leaves_ite (by simp) (leaves_ite (State.heldOp_leaves _ _ _ (by simp)) (State.heldOp_leaves _ _ _ ?_))
  refine leaves_ite (by simp) (leaves_ite (by simp) (leaves_ite (by simp) (leaves_ite (by simp) (leaves_ite (by simp)
    (leaves_ite (by simp) (leaves_ite (by simp) ?_))))))
  split
  · next h => simp [State.probeStrip_keeps h]
  · next h _ => simp [State.probeStrip_keeps h]
  · next h _ => simp [State.probeStrip_keeps h]

theorem execSstrm_leaves (n : Fin 8) (sd ss : SReg) : Leaves s.ownership (execSstrm n sd ss s) := by
  refine leaves_ite (by simp) (State.heldOp_leaves _ _ _ ?_)
  refine leaves_ite (by simp) (leaves_ite (by simp) (leaves_ite (by simp) (leaves_ite (by simp) ?_)))
  split
  · next h => simp [State.probeStrip_keeps h]
  · next h _ => simp [State.probeStrip_keeps h]
  · next h _ => simp [State.probeStrip_keeps h]

@[simp] theorem State.wordPlaces_ownership (s : State) (a : Agent) (va : Word) (n : Nat) : (s.wordPlaces a va n).2.ownership = s.ownership := by
  unfold State.wordPlaces
  refine foldl_snd_ownership _ ?_ _ _
  rintro ⟨_ | ps, u⟩ i
  · rfl
  · dsimp only
    split <;> next h => exact State.access_keeps h

/-- A class S load of words leaves the ownership that its continuation leaves from a state of the same ownership. -/
theorem State.loadWords_leaves (va : Word) (n : Nat) (k : State → List Nat → Out)
    (hk : ∀ t ws, t.ownership = s.ownership → Leaves s.ownership (k t ws)) : Leaves s.ownership (s.loadWords va n k) := by
  have hw := s.wordPlaces_ownership (s.agentOf s.sched.cur s.curCtx) va n
  unfold State.loadWords
  dsimp only
  split
  · next h => simp [ownership_of_snd h hw]
  · next h =>
    have ht := ownership_of_snd h hw
    refine leaves_ite (by simpa using ht) ?_
    split
    · simp [ht]
    · exact hk _ _ ((foldl_ownership _ _ (fun _ _ => State.snoopRead_ownership _ _ _) _).trans ht)

theorem execSpat_leaves (n : Fin 8) (a : SReg) : Leaves s.ownership (execSpat n a s) :=
  State.heldOp_leaves _ _ _ (State.loadWords_leaves _ _ _ fun t ws ht => leaves_ite (by simp [ht]) (by simp [ht]))

/-! ### Engines -/

theorem execEcmd_leaves (d a : SReg) : Leaves s.ownership (execEcmd d a s) := by
  refine State.heldOp_leaves _ _ _ (leaves_ite (by simp) (State.loadWords_leaves _ _ _ fun t ws ht => ?_))
  split
  · refine leaves_ite (by simp [ht]) (leaves_ite (by simpa using ht) ?_)
    rw [leaves_next, State.complete_ownership]
    exact ht
  · simpa using ht

@[simp] theorem State.countRecv_ownership (s : State) (core g : Nat) : (s.countRecv core g).ownership = s.ownership := by
  unfold State.countRecv
  split
  · rfl
  · exact s.modCore_ownership _ _ rfl

@[simp] theorem State.modEngCount_ownership (s : State) (e t : Nat) (f : EngCounts → EngCounts) :
    (s.modEngCount e t f).ownership = s.ownership := rfl

@[simp] theorem State.countDropped_ownership (s : State) (c : EngCmd) : (s.countDropped c).ownership = s.ownership := by
  unfold State.countDropped
  split <;> simp

@[simp] theorem State.engReply_ownership (s : State) (c : EngCmd) (status header : Nat) (fault : Word) :
    (s.engReply c status header fault).ownership = s.ownership := by
  unfold State.engReply
  split
  · simp
  · dsimp only
    split
    · rfl
    · split <;> rfl

@[simp] theorem State.engLeave_ownership (s : State) (c : EngCmd) (status : Nat) : (s.engLeave c status).ownership = s.ownership := by
  unfold State.engLeave
  split
  · rfl
  · simp

@[simp] theorem State.engUnrun_ownership (s : State) (c : EngCmd) (status : Nat) : (s.engUnrun c status).ownership = s.ownership := by
  simp [State.engUnrun]

@[simp] theorem State.cancelCmds_ownership (s : State) (sel : EngCmd → Bool) : (s.cancelCmds sel).ownership = s.ownership :=
  foldl_ownership _ _ (fun _ _ => State.engUnrun_ownership _ _ _) _

theorem execEcancel_leaves (d a : SReg) : Leaves s.ownership (execEcancel d a s) := by
  refine State.heldOp_leaves _ _ _ (leaves_ite (by simp) ?_)
  split
  · simp
  · exact leaves_ite (by simp) (by simp)

theorem execEstat_leaves (d a : SReg) (sel : Fin 7) : Leaves s.ownership (execEstat d a sel s) :=
  State.heldOp_leaves _ _ _ (leaves_ite (by simp) (by simp))

/-! ### Jobs -/

@[simp] theorem State.startGroup_ownership (s : State) (g : Nat) : (s.startGroup g).ownership = s.ownership := by
  unfold State.startGroup
  split <;> rfl

@[simp] theorem State.addChild_ownership (s : State) (r : LaunchRec) (t : Job) (base i k now : Nat) (lost : Bool) :
    (s.addChild r t base i k now lost).ownership = s.ownership := by
  simp [State.addChild, apply_ite State.ownership]

@[simp] theorem State.place_ownership (s : State) (r : LaunchRec) (t : Job) (home : Nat) (mayLose dead : Bool) :
    (s.place r t home mayLose dead).2.ownership = s.ownership := by
  unfold State.place
  dsimp only
  rw [foldl_ownership]
  · rfl
  · intro u x
    split
    · rfl
    · generalize hv : List.foldl _ (u.clusterNow x.1).2 _ = v
      have h : v.ownership = u.ownership := by
        rw [← hv, foldl_ownership _ _ fun _ _ => State.addChild_ownership _ _ _ _ _ _ _ _]
        rfl
      split <;> exact h

theorem execSpawn_leaves (d a : SReg) : Leaves s.ownership (execSpawn d a s) := by
  refine State.heldOp_leaves _ _ _ (leaves_ite (by simp) (State.loadWords_leaves _ _ _ fun t ws ht => ?_))
  split
  · exact leaves_ite (by simp [ht]) (leaves_ite (by simpa using ht) (leaves_ite (by simpa using ht) (by simpa using ht)))
  · simpa using ht

@[simp] theorem State.charge_ownership (s : State) (h : Nat) : (s.charge h).ownership = s.ownership := by
  unfold State.charge
  split
  · rfl
  · split
    · rfl
    · dsimp only
      split <;> rfl

@[simp] theorem State.clearContext_ownership (s : State) (cx h : Nat) : (s.clearContext cx h).ownership = s.ownership :=
  State.modCore_ownership _ _ _ rfl

@[simp] theorem State.sendRelease_ownership (s : State) (src core owner : Nat) : (s.sendRelease src core owner).ownership = s.ownership := rfl

@[simp] theorem State.endJob_ownership (s : State) (h : Nat) (abandoned : Bool) : (s.endJob h abandoned).ownership = s.ownership := by
  unfold State.endJob
  split
  · rfl
  · grind [State.charge_ownership, State.modGroup_ownership, State.sendRelease_ownership, State.clearContext_ownership, State.dropJob_ownership]

@[simp] theorem execJend.commit_ownership (s : State) (j : Job) (h : Nat) : (execJend.commit s j h).ownership = s.ownership := by
  unfold execJend.commit
  dsimp only
  rw [State.endJob_ownership]
  split <;> rfl

theorem execJend_leaves : Leaves s.ownership (execJend s) := by
  refine State.heldOp_leaves _ _ _ (leaves_ite (by simp) (leaves_ite (by simp) ?_))
  split
  · exact leaves_ite (by simp) (by simp)
  · simp
  · simp

theorem execJdead_leaves (d : SReg) : Leaves s.ownership (execJdead d s) := State.heldOp_leaves _ _ _ (by simp)

theorem execJtight_leaves (d a : SReg) : Leaves s.ownership (execJtight d a s) := by
  refine State.heldOp_leaves _ _ _ ?_
  dsimp only
  split <;> simp

theorem execJwid_leaves (d a : SReg) (lvl : Fin 6) : Leaves s.ownership (execJwid d a lvl s) := State.heldOp_leaves _ _ _ (by simp)

theorem execJself_leaves (d : SReg) : Leaves s.ownership (execJself d s) := by
  refine State.heldOp_leaves _ _ _ ?_
  split <;> simp

theorem execJabort_leaves (d a : SReg) : Leaves s.ownership (execJabort d a s) := by
  refine State.heldOp_leaves _ _ _ ?_
  dsimp only
  split
  · simp
  · refine leaves_ite (by simp) (leaves_ite (by simp) ?_)
    split
    · exact leaves_ite (by simp) (by simp)
    · simp

theorem execJinfo_leaves (d : SReg) (sel : Fin 8) : Leaves s.ownership (execJinfo d sel s) := by
  refine State.heldOp_leaves _ _ _ ?_
  split <;> simp

/-! ### State registers and counters -/

theorem State.moveGroup_keeps {h g : Nat} {t : State} (ht : s.moveGroup h g = some t) : t.ownership = s.ownership := by
  unfold State.moveGroup at ht
  split at ht
  · cases ht
  · split at ht
    · cases ht
    · split at ht <;> cases ht <;> simp

theorem execGet_leaves (d : SReg) (idx : BitVec 8) : Leaves s.ownership (execGet d idx s) := by
  refine leaves_ite (by simp) ?_
  split
  · simp
  · exact leaves_ite (by simp) (State.freeOp_leaves _ _ _ _)

theorem execSet_leaves (a : SReg) (idx : BitVec 8) : Leaves s.ownership (execSet a idx s) := by
  refine leaves_ite (by simp) (leaves_ite (by simp) (State.heldOp_leaves _ _ _ ?_))
  refine leaves_ite (by simp) (leaves_ite (by simp) (leaves_ite ?_ (by simp)))
  split
  · simp
  · next heq =>
    obtain ⟨h, -, ht⟩ := Option.bind_eq_some_iff.mp heq
    simp [State.moveGroup_keeps ht]

theorem execRdcnt_leaves (d : SReg) (sel : Fin 7) : Leaves s.ownership (execRdcnt d sel s) :=
  leaves_ite (by simp) (State.freeIssue_leaves _ _ _ _ fun c => by simp)

theorem execWaitc_leaves (ld st cp mx en : Fin 16) : Leaves s.ownership (execWaitc ld st cp mx en s) := by
  refine leaves_ite (by simp) ?_
  split
  · exact leaves_ite (by simp) (State.freeOp_leaves _ _ _ _)
  · exact State.freeOp_leaves _ _ _ _

/-! ### System instructions -/

@[simp] theorem State.fetchHalf_ownership (s : State) (a : Agent) (va : Word) : (s.fetchHalf a va).2.ownership = s.ownership := by
  unfold State.fetchHalf
  split
  · next h => exact State.xlate_keeps h
  · next h =>
    have ht := State.xlate_keeps h
    split_ifs <;> simp [ht]

theorem State.fetchHalf_keeps {s t : State} {a : Agent} {va : Word} {r : Except TrapInfo Nat} (h : s.fetchHalf a va = (r, t)) :
    t.ownership = s.ownership := ownership_of_snd h (s.fetchHalf_ownership a va)

@[simp] theorem State.fetchFrom_ownership (s : State) (a : Agent) (room : Nat) (va : Word) (ws : List Nat) :
    (s.fetchFrom a room va ws).2.ownership = s.ownership := by
  induction room generalizing s va ws with
  | zero =>
    unfold State.fetchFrom
    split
    · next h => exact State.fetchHalf_keeps h
    · next h => split <;> exact State.fetchHalf_keeps h
  | succ room ih =>
    unfold State.fetchFrom
    split
    · next h => exact State.fetchHalf_keeps h
    · next h =>
      split
      · exact (ih _ _ _).trans (State.fetchHalf_keeps h)
      · exact State.fetchHalf_keeps h

@[simp] theorem State.fetchChain_ownership (s : State) (cx : Nat) (va : Word) : (s.fetchChain cx va).2.ownership = s.ownership := by
  unfold State.fetchChain
  split <;> simp

@[simp] theorem State.frameWords_ownership (s : State) (cx : Nat) (c : Ctx) : (s.frameWords cx c).2.ownership = s.ownership := by
  unfold State.frameWords
  refine foldl_snd_ownership _ ?_ _ _
  rintro ⟨_ | ws, u⟩ i
  · rfl
  · dsimp only
    split <;> next h => simp [State.access_keeps h]

@[simp] theorem State.returnTo_leaves (v : Word) (h : s.ownership = w) : Leaves w (s.returnTo v) := by
  subst h
  refine leaves_ite (by simp) (leaves_ite (by simp) ?_)
  have hf := s.frameWords_ownership s.sched.cur s.curCtx
  split
  · simp
  · refine leaves_ite (by simp) (leaves_ite (by simp) ?_)
    split <;> next h => simp [ownership_of_snd h hf]

theorem State.trapReturn_leaves (skip : Bool) : Leaves s.ownership (s.trapReturn skip) := by
  refine State.heldOp_leaves _ _ _ (leaves_ite (by simp) (leaves_ite (by simp) (leaves_ite ?_ (by simp))))
  split <;> next h => simp [ownership_of_snd h (State.fetchChain_ownership _ _ _)]

theorem execSvc_leaves (d a b : SReg) : Leaves s.ownership (execSvc d a b s) := by
  refine State.heldOp_leaves _ _ _ (leaves_ite (by simp) (leaves_ite (by simp) ?_))
  split
  · next h => simp [State.xlate_keeps h]
  · next h =>
    have ht := State.xlate_keeps h
    split
    · next h' => simp [State.xlate_keeps h', ht]
    · next h' =>
      have hu := (State.xlate_keeps h').trans ht
      refine leaves_ite (by simp [hu]) (leaves_ite (by simp [hu]) ?_)
      split
      · rw [leaves_next, State.complete_ownership]
        exact hu
      · simp [hu]

theorem execEnmtr_leaves (d a : SReg) (kind : Fin 3) : Leaves s.ownership (execEnmtr d a kind s) := by
  refine leaves_ite (by simp) (State.heldOp_leaves _ _ _ ?_)
  dsimp only
  split
  · exact leaves_ite (by simp) (by simp)
  · split
    · simp
    · exact leaves_ite (by simp) (by simp)
  · simp

theorem execIdle_leaves (a : SReg) : Leaves s.ownership (execIdle a s) := by
  refine State.heldOp_leaves _ _ _ ?_
  dsimp only
  split <;> simp

/-! ### Every instruction -/

/-- No instruction that has an encoding changes, in user mode, who owns what (R16); a unit's event has none. -/
theorem exec_leaves_ownership (i : Instr) (c : Chain) (hi : toChain i = some c) (hu : s.curCtx.mode = .user) :
    Leaves s.ownership (exec i s) := by
  unfold exec
  cases i with
  | add | sub | and | or | xor | sll | addi | li | mov | not | neg | srl | sra | slli | srli | srai | mul | mulh | mulhn | slt | sltn
  | andi | ori | xori | min | max | minn | maxn | clz | ctz | popc | sext | zext | lih | addpc | addsl | select =>
    exact State.regOp_leaves _ _ _
  | ldd | lb | lbn | lh | lhn | lw | lwn => exact State.loadImm_leaves _ _ _ _ _
  | std | sb | sh | sw => exact State.storeImm_leaves _ _ _ _
  | beqz | bnez | beq | bne | blt | bge | bltn | bgen => exact State.branchOp_leaves _ _ _
  | jal | setvl | loopsm | pref => exact State.freeOp_leaves _ _ _ _
  | div | divn | rem | remn => exact State.divOp_leaves _ _ _ _
  | vadd | vsub | vmul | vmac | vmin | vmax | vminn | vmaxn | vand | vor | vxor | vsll | vsrl | vsra | vdiv | vdivn | vrem | vremn | vadds
  | vsubs | vmulhq | vabs | vneg | vrcp | vrsqrt | vexp2 | vlog2 | vsqrt | vclass | vscale | vceq | vcne | vclt | vcle | vcltn | vclen
  | vceqi | vclti | mand | mor | mxor | mnot | vmv | vperm | vcompress | vexpand | viota | vid | vmerge | vredsum | vredmax | vredmin
  | vcvt | vqscale | vquant | vdeq | vcblk | vwidenlo | vwidenhi | vnarrow | vcadd | vcsub | vcmul | vcmulj | vcmac | vcmacj | vconj
  | vcrot | vcabs2 | vcscale | vcdot | vcreal | vcswap | vcmag | vcmacs | vmgmul | vmgmulh | vmgmv | vhchol | vhinv | vhsolve | vmgtr =>
    exact State.vPlain_leaves _ _ _
  | mcnt | many | mfirst | vext | vins => exact State.vIssue_leaves _ _ _ _ _ _
  | vsplat | vslideup | vslidedn | vhreg => exact State.vScalar_leaves _ _ _ _
  | vbfly2 | vbfly3 | vbfly4 | vbfly5 => exact State.bflyEnter_leaves _ _ _
  | vtwid | vdrev | vtrans | vschur | vschurv => exact State.vEnter_leaves _ _ _ _ _ _ _
  | mxcfg | mma | mmaz | mxzero | mxst | mxld | mxldcb | mxscale | mxshare => exact State.mxIssue_leaves _ _ _
  | vmovz | vmovtoz => exact State.mxMove_leaves _ _ _
  | gsend | gsendc => exact State.gsendEnter_leaves _ _ _
  | gld | gsum | gsumx | gdamp | gmarg | gembed | gmean => exact State.gaussEnter_leaves _ _ _ _ _ _
  | ldx => exact State.loadOp_leaves _ _ _ _ _
  | stx | strl => exact State.storeOp_leaves _ _ _ _ _
  | cflush | cinv => exact State.lineOp_leaves _ _ _
  | amoadd | amoand | amoor | amoxor | amomin | amomax | amominn | amomaxn | amoswp | amocas => exact State.amoOp_leaves _ _ _ _ _ _
  | vld | vst | vlds | vsts | vldx | vstx | vldb | vamoadd | vldff => exact State.vMemEnter_leaves _ _ _ _ _
  | flpop | flpush => exact State.flumeTake_leaves _ _ _
  | flrel | fldone => exact State.flumeGive_leaves _ _ _
  | tret | tretSkip => exact State.trapReturn_leaves _
  | gateinfo => exact State.heldReg_leaves _ _ _
  | pgateGate | pgateUngate | pgateQuery => exact State.pgateOp_leaves _ _ _ hu
  | halt | tlbinv | rsvadd => exact State.supervisorOnly_leaves _ hu
  | ctxsave | ctxload => exact State.ctxOp_leaves _ _ _ _ _ hu
  | jalr => exact execJalr_leaves _ _
  | get => exact execGet_leaves _ _
  | set => exact execSet_leaves _ _
  | time => exact execTime_leaves _
  | rdcnt => exact execRdcnt_leaves _ _
  | waitc => exact execWaitc_leaves _ _ _ _ _
  | mxpark => exact execMxpark_leaves _
  | mxunpark => exact execMxunpark_leaves _
  | mxstat => exact execMxstat_leaves _ _
  | gcfg => exact execGcfg_leaves _ _
  | gstat => exact execGstat_leaves _ _
  | ldaq => exact execLdaq_leaves _ _
  | fence => exact execFence_leaves _ _ _
  | scopy => exact execScopy_leaves _ _ _ _ _
  | spat => exact execSpat_leaves _ _
  | sstrm => exact execSstrm_leaves _ _ _
  | swaitm => exact execSwaitm_leaves _ _
  | stestm => exact execStestm_leaves _ _ _
  | sclrm => exact execSclrm_leaves _ _
  | ecmd => exact execEcmd_leaves _ _
  | ecancel => exact execEcancel_leaves _ _
  | estat => exact execEstat_leaves _ _ _
  | spawn => exact execSpawn_leaves _ _
  | jend => exact execJend_leaves
  | jdead => exact execJdead_leaves _
  | jtight => exact execJtight_leaves _ _
  | jwid => exact execJwid_leaves _ _ _
  | jself => exact execJself_leaves _
  | jabort => exact execJabort_leaves _ _
  | jinfo => exact execJinfo_leaves _ _
  | msendrq | msendrp => exact State.sendMsg_leaves _ _ _ _ _
  | mtag => exact execMtag_leaves _ _ _
  | men | mdis => exact State.tagMask_leaves _ _ _ fun _ _ => by simp
  | mpend => exact execMpend_leaves _
  | mclr => exact execMclr_leaves _ _
  | warm => exact execWarm_leaves _ _ _ _
  | wpost => exact execWpost_leaves _ _ _
  | wsig => exact execWsig_leaves _ _
  | wstat => exact execWstat_leaves _ _
  | binit => exact execBinit_leaves _ _ _
  | barrive => exact execBarrive_leaves _
  | bwait => exact execBwait_leaves _ _ _
  | bsync => exact execBsync_leaves _ _
  | qopen => exact execQopen_leaves _ _ _
  | qclose => exact execQclose_leaves _ _
  | qstat => exact execQstat_leaves _ _ _
  | trap | brk => exact State.heldOp_leaves _ _ _ (by simp)
  | svc => exact execSvc_leaves _ _ _
  | enmtr => exact execEnmtr_leaves _ _ _
  | idle => exact execIdle_leaves _
  | vectorStart | vectorComplete | scalarLoadReturn | storePerformed | mxCmdBegin | mxRowReady | mxCmdComplete | mxShareTimeout
  | waitSatisfied | idleExpire | deadlineComparator | abandonAction | queuedDeadlinePass | reservationRelease | budgetUpdate
  | governorDispatch | loadAveraging | jobMoveArrive | amArrival | amAnswer | emptyRelease | engDelivery | gmsgMerge | weirArrival
  | weirPacketMake | barrierArrival | sweep | groupCompletionSend | engineCmdArrive | engineAnswer | ldpcDecode | ldpcEncode | polarDecode
  | polarEncode | rateDematch | rateMatch | crcCheck | engineCompletion | streamChunkServe | chunkDone | ethFrameReceive | rowCloseTimeout
  | rowSlotFill | overrunRowFill | cplaneTransmit | windowStart | edgeGuard | edgeSwapComplete | coreRepower | loanStart | loanEnd
  | tableEpoch | svcCallArrive | svcAnswer | internalCall | nop | rsvAdd | rsvRemove | counter | mapObject | unmapObject | harvest
  | harvestAuto | objectFaultServe | queueBind | queueUnbind | tableLoad | quarClear | sweepSet | logSet | imageLoad | flumeSet | groupSet
  | poisonClear | biasSet | linkDump | twinExport | debugOpen | debugClose | debugRead | debugWrite | debugResume | hlqdb | biasreq
  | hostsig | hostsigw | registerWrite | hostMemAccess | hostSnoop | hostLinkDown | twinPair | twinLinkDown | spdmMeasurements | powerOn
  | deviceReset | bootImageVerify | channelTrained | clusterReady | headracePortReady | ptpFirstLock | ptpLockLoss | ptpLockRegained
  | dvfsStepChange | powerCapCheck | energyMeterUpdate | ungateComplete | stillEnter | channelWake | lpddrScrub | sramScrub
  | illegalInstruction | prefixChain | fetchFault | hostLinkUp | twinMemoryAccess | hdmWindowSet =>
    cases hi

/-- With equal tables every owner and every region is the same (R16, R328). -/
theorem owners_of_table_eq (s t : State) (c x o : Nat) (h : s.sluice.table = t.sluice.table) :
    s.tagOwner c x = t.tagOwner c x ∧ s.weirOwner x = t.weirOwner x ∧ s.barrierOwner c x = t.barrierOwner c x ∧
      s.mapOwner c x = t.mapOwner c x ∧ s.coreRegion c o = t.coreRegion c o ∧ s.clusterRegion c o = t.clusterRegion c o := by
  have ht : s.tbl = t.tbl := by rw [State.tbl, State.tbl, h]
  simp only [State.tagOwner, State.weirOwner, State.barrierOwner, State.mapOwner, State.coreRegion, State.clusterRegion, h, ht, and_self]

/-- What is encoded has a chain. -/
theorem toChain_of_encode {i : Instr} {ws : List Nat} (h : encode i = some ws) : ∃ c, toChain i = some c := by
  unfold encode at h
  split at h
  · obtain ⟨c, hc, -⟩ := Option.map_eq_some_iff.mp h
    exact ⟨c, hc⟩
  · cases h

/-- Settles O60: owners and regions are read from the table alone, and every encoded instruction keeps the ownership in user mode. -/
theorem ownershipIsTheTables : Obligations.OwnershipIsTheTables := by
  unfold Obligations.OwnershipIsTheTables
  refine ⟨owners_of_table_eq, fun i ws s t hi hu ht => ?_⟩
  obtain ⟨c, hc⟩ := toChain_of_encode hi
  obtain ⟨htable, hforce, hwin, howner⟩ := Ownership.mk.inj (exec_leaves_ownership i c hc hu t ht)
  exact ⟨htable, hforce, hwin, congrFun howner⟩

end Sys2Proof.Machine

/-! PROOFS. Rounding to nearest (R21, R22). The finite magnitudes of a format fall into binades; within binade `s` they are the multiples
of one quantum, and every higher binade's are multiples of it too. `rnd` rounds at the quantum of the binade that holds |x|, so that its
result is nearest among those multiples, and the magnitudes of the lower binades all lie further below. -/

namespace Sys2Proof.Machine
open Sys2Proof

/-! ### Powers of two and the binary logarithm -/

theorem pow2_eq_zpow (e : Int) : pow2 e = 2 ^ e := by
  unfold pow2
  split
  · lift e to Nat using ‹0 ≤ e›
    simp
  · obtain ⟨n, rfl⟩ := Int.exists_eq_neg_ofNat (a := e) (by omega)
    simp [Rat.mkRat_eq_div]

theorem pow2_pos (e : Int) : 0 < pow2 e := by rw [pow2_eq_zpow]; positivity

theorem pow2_add (a b : Int) : pow2 (a + b) = pow2 a * pow2 b := by
  simp only [pow2_eq_zpow]
  exact zpow_add₀ two_ne_zero a b

theorem pow2_natCast (n : Nat) : pow2 n = 2 ^ n := by simp [pow2_eq_zpow]

theorem pow2_mono {a b : Int} (h : a ≤ b) : pow2 a ≤ pow2 b := by
  simpa only [pow2_eq_zpow] using zpow_le_zpow_right₀ one_le_two h

theorem pow2_neg (e : Int) : pow2 (-e) = (pow2 e)⁻¹ := by simp only [pow2_eq_zpow, zpow_neg]

/-- A rational lies between the powers of two one below and one above the difference of the two logarithms. -/
theorem log2_num_sub_log2_den_bounds {x : Rat} (hx : 0 < x) :
    pow2 ((Nat.log2 x.num.toNat : Int) - Nat.log2 x.den - 1) ≤ x ∧ x < pow2 ((Nat.log2 x.num.toNat : Int) - Nat.log2 x.den + 1) := by
  have hnum : 0 < x.num := Rat.num_pos.mpr hx
  have hx' : x = (x.num.toNat : Rat) / x.den := by
    conv_lhs => rw [← Rat.num_div_den x, ← Int.toNat_of_nonneg hnum.le]
    rfl
  have hden : (0 : Rat) < x.den := by exact_mod_cast x.den_pos
  have hnl : (2 : Rat) ^ Nat.log2 x.num.toNat ≤ x.num.toNat := by exact_mod_cast Nat.log2_self_le (by omega)
  have hnu : (x.num.toNat : Rat) < 2 ^ Nat.log2 x.num.toNat * 2 := by exact_mod_cast Nat.lt_log2_self
  have hdl : (2 : Rat) ^ Nat.log2 x.den ≤ x.den := by exact_mod_cast Nat.log2_self_le x.den_nz
  have hdu : (x.den : Rat) < 2 ^ Nat.log2 x.den * 2 := by exact_mod_cast Nat.lt_log2_self
  constructor
  · rw [pow2_eq_zpow, sub_sub, zpow_sub₀ two_ne_zero, zpow_add₀ two_ne_zero, zpow_natCast, zpow_natCast, zpow_one]
    calc _ ≤ (x.num.toNat : Rat) / x.den := by gcongr
      _ = x := hx'.symm
  · rw [pow2_eq_zpow, sub_add_eq_add_sub, zpow_sub₀ two_ne_zero, zpow_add₀ two_ne_zero, zpow_natCast, zpow_natCast, zpow_one]
    calc x = (x.num.toNat : Rat) / x.den := hx'
      _ < _ := by gcongr

theorem pow2_floorLog2_le {x : Rat} (hx : 0 < x) : pow2 (floorLog2 x) ≤ x := by
  unfold floorLog2
  dsimp only
  split
  · assumption
  · exact (log2_num_sub_log2_den_bounds hx).1

theorem lt_pow2_floorLog2_succ {x : Rat} (hx : 0 < x) : x < pow2 (floorLog2 x + 1) := by
  unfold floorLog2
  dsimp only
  split
  · exact (log2_num_sub_log2_den_bounds hx).2
  next h => rw [sub_add_cancel]; exact not_le.mp h

/-! ### The rounded multiple of the quantum -/

theorem Cut.round_rne_sub_le {n r d : Nat} (hr : r < d) (neg : Bool) :
    |(n + r / d : Rat) - (Cut.round ⟨n, compare (2 * r) d, r == 0⟩ .rne neg : Nat)| ≤ 1 / 2 := by
  have hd : (0 : Rat) < d := by exact_mod_cast (by omega : 0 < d)
  have below (h : 2 * r ≤ d) : |(n + r / d : Rat) - n| ≤ 1 / 2 := by
    have h' : (2 * r : Rat) ≤ d := by exact_mod_cast h
    rw [add_sub_cancel_left, abs_of_nonneg (by positivity), div_le_iff₀ hd]
    linarith
  have above (h : d ≤ 2 * r) : |(n + r / d : Rat) - (n + 1 : Nat)| ≤ 1 / 2 := by
    have h' : (d : Rat) ≤ 2 * r := by exact_mod_cast h
    have hlow : (1 / 2 : Rat) ≤ r / d := by rw [le_div_iff₀ hd]; linarith
    have hhigh : (r / d : Rat) ≤ 1 := by rw [div_le_one hd]; exact_mod_cast hr.le
    rw [abs_le, Nat.cast_succ]
    constructor <;> linarith
  by_cases hz : r = 0
  · simp [Cut.round, hz]
  · rcases lt_trichotomy (2 * r) d with h | h | h
    · simpa [Cut.round, hz, compare_lt_iff_lt.mpr h] using below h.le
    · by_cases he : n % 2 = 0
      · simpa [Cut.round, hz, compare_eq_iff_eq.mpr h, he] using below h.le
      · simpa [Cut.round, hz, compare_eq_iff_eq.mpr h, he] using above h.ge
    · simpa [Cut.round, hz, compare_gt_iff_gt.mpr h] using above h.le

/-- Under round to nearest a cut is within half a quantum of the number cut. -/
theorem cutRat_round_rne_sub_le {x : Rat} (hx : 0 ≤ x) (q : Int) (neg : Bool) :
    |x * pow2 (-q) - ((cutRat x q).round .rne neg : Nat)| ≤ 1 / 2 := by
  set y := x * pow2 (-q)
  have hnum : 0 ≤ y.num := Rat.num_nonneg.mpr (mul_nonneg hx (pow2_pos _).le)
  have hden : (y.den : Rat) ≠ 0 := by exact_mod_cast y.den_nz
  have hsplit : y = (y.num.toNat / y.den : Nat) + (y.num.toNat % y.den : Nat) / y.den := by
    have hdm : ((y.den * (y.num.toNat / y.den) + y.num.toNat % y.den : Nat) : Rat) = y.num := by
      rw [Nat.div_add_mod]
      exact_mod_cast Int.toNat_of_nonneg hnum
    conv_lhs => rw [← Rat.num_div_den y, ← hdm]
    push_cast
    field_simp
  conv_lhs => rw [hsplit]
  exact Cut.round_rne_sub_le (Nat.mod_lt _ y.den_pos) neg

/-- A whole number within a half of y is a nearest one. -/
theorem abs_sub_le_of_abs_sub_le_half {y : Rat} {n : Nat} (h : |y - n| ≤ 1 / 2) (k : Nat) : |y - n| ≤ |y - k| := by
  rcases eq_or_ne n k with rfl | hne
  · exact le_rfl
  · have hone : (1 : Rat) ≤ |(n : Rat) - k| := by
      exact_mod_cast Int.one_le_abs (sub_ne_zero.mpr (by exact_mod_cast hne : (n : Int) ≠ k))
    have htri := abs_sub_le (n : Rat) y k
    rw [abs_sub_comm (n : Rat) y] at htri
    linarith

theorem le_of_abs_sub_le_half {y : Rat} {n k : Nat} (h : |y - n| ≤ 1 / 2) (hk : y ≤ k) : n ≤ k := by
  have hlt : (n : Rat) < (k + 1 : Nat) := by push_cast; linarith [(abs_le.mp h).1]
  exact Nat.lt_succ_iff.mp (by exact_mod_cast hlt)

theorem ge_of_abs_sub_le_half {y : Rat} {n k : Nat} (h : |y - n| ≤ 1 / 2) (hk : k ≤ y) : k ≤ n := by
  have hlt : (k : Rat) < (n + 1 : Nat) := by push_cast; linarith [(abs_le.mp h).2]
  exact Nat.lt_succ_iff.mp (by exact_mod_cast hlt)

/-! ### The finite magnitudes of a format -/

/-- The spacing of a format's values in binade s; binade 0 holds the subnormal and the smallest normal ones (R19). -/
def FFmt.quantum (f : FFmt) (s : Nat) : Rat := pow2 (s + f.emin - f.fracBits)

/-- The binade of an encoding without its sign. -/
def FFmt.binade (f : FFmt) (k : Nat) : Nat := k / 2 ^ f.fracBits - 1

/-- The significand of an encoding without its sign, in quanta of its binade. -/
def FFmt.significand (f : FFmt) (k : Nat) : Nat := k - f.binade k * 2 ^ f.fracBits

/-- The magnitude of an encoding without its sign. -/
def FFmt.magnitude (f : FFmt) (k : Nat) : Rat := f.significand k * f.quantum (f.binade k)

section
variable {f : FFmt}

theorem FFmt.quantum_pos (s : Nat) : 0 < f.quantum s := pow2_pos _

theorem FFmt.quantum_add (s d : Nat) : f.quantum (s + d) = 2 ^ d * f.quantum s := by
  rw [quantum, quantum, ← pow2_natCast, ← pow2_add]
  congr 1
  push_cast
  ring

theorem FFmt.two_pow_mul_quantum (s : Nat) : 2 ^ f.fracBits * f.quantum s = pow2 (s + f.emin) := by
  rw [quantum, ← pow2_natCast, ← pow2_add, add_sub_cancel]

theorem FFmt.magnitude_nonneg (k : Nat) : 0 ≤ f.magnitude k := mul_nonneg (Nat.cast_nonneg _) (quantum_pos _).le

theorem FFmt.binade_mul_add_significand (k : Nat) : f.binade k * 2 ^ f.fracBits + f.significand k = k :=
  Nat.add_sub_cancel' ((Nat.mul_le_mul_right _ (Nat.sub_le _ _)).trans (Nat.div_mul_le_self _ _))

/-- With exponent field 0 an encoding has no leading one; with any other it has one, in the binade one below the field (R19). -/
theorem FFmt.binade_significand_cases (k : Nat) :
    (k / 2 ^ f.fracBits = 0 ∧ f.binade k = 0 ∧ f.significand k = k % 2 ^ f.fracBits) ∨
    (k / 2 ^ f.fracBits = f.binade k + 1 ∧ f.significand k = 2 ^ f.fracBits + k % 2 ^ f.fracBits) := by
  have hk := f.binade_mul_add_significand k
  have hdm := Nat.div_add_mod' k (2 ^ f.fracBits)
  rcases h : k / 2 ^ f.fracBits with _ | e
  · have hb : f.binade k = 0 := by rw [binade, h]
    rw [hb] at hk
    rw [h] at hdm
    exact .inl ⟨rfl, hb, by omega⟩
  · have hb : f.binade k = e := by rw [binade, h, Nat.add_sub_cancel]
    rw [hb] at hk
    rw [h, Nat.add_mul] at hdm
    exact .inr ⟨by rw [hb], by omega⟩

/-- A significand is below two units, and above binade 0 it has its leading one. -/
theorem FFmt.significand_bounds (k : Nat) :
    f.significand k < 2 * 2 ^ f.fracBits ∧ (f.binade k = 0 ∨ 2 ^ f.fracBits ≤ f.significand k) := by
  have hlt := Nat.mod_lt k (Nat.two_pow_pos f.fracBits)
  rcases f.binade_significand_cases k with ⟨-, hb, hs⟩ | ⟨-, hs⟩
  · exact ⟨by omega, .inl hb⟩
  · exact ⟨by omega, .inr (by omega)⟩

/-- Significand n in binade s, with its leading one above binade 0, has the magnitude of n quanta; n may be the next binade's first. -/
theorem FFmt.magnitude_of_significand {s n : Nat} (hlow : s = 0 ∨ 2 ^ f.fracBits ≤ n) (hhigh : n ≤ 2 * 2 ^ f.fracBits) :
    f.magnitude (s * 2 ^ f.fracBits + n) = n * f.quantum s := by
  have hpos := Nat.two_pow_pos f.fracBits
  rcases hhigh.eq_or_lt with rfl | hlt
  · have hb : f.binade (s * 2 ^ f.fracBits + 2 * 2 ^ f.fracBits) = s + 1 := by
      rw [binade, ← Nat.add_mul, Nat.mul_div_cancel _ hpos]
      rfl
    have hs : f.significand (s * 2 ^ f.fracBits + 2 * 2 ^ f.fracBits) = 2 ^ f.fracBits := by
      rw [significand, hb, Nat.add_mul]
      omega
    rw [magnitude, hb, hs, quantum_add]
    push_cast
    ring
  · have hb : f.binade (s * 2 ^ f.fracBits + n) = s := by
      rw [binade, Nat.add_comm, Nat.add_mul_div_right _ _ hpos]
      rcases hlow with rfl | hn
      · have := (Nat.div_lt_iff_lt_mul hpos).mpr hlt
        omega
      · have := (Nat.div_lt_iff_lt_mul hpos).mpr hlt
        have := (Nat.le_div_iff_mul_le hpos).mpr ((Nat.one_mul _).trans_le hn)
        omega
    rw [magnitude, significand, hb, Nat.add_sub_cancel_left]

/-- The magnitudes from binade s on are whole multiples of its quantum. -/
theorem FFmt.magnitude_eq_mul_quantum {s k : Nat} (h : s ≤ f.binade k) :
    f.magnitude k = (f.significand k * 2 ^ (f.binade k - s) : Nat) * f.quantum s := by
  obtain ⟨d, hd⟩ := Nat.exists_eq_add_of_le h
  rw [magnitude, hd, quantum_add, Nat.add_sub_cancel_left]
  push_cast
  ring

/-- The magnitudes of the lower binades lie below binade s. -/
theorem FFmt.magnitude_lt_of_binade_lt {s k : Nat} (h : f.binade k < s) : f.magnitude k < 2 ^ f.fracBits * f.quantum s := by
  obtain ⟨d, rfl⟩ := Nat.exists_eq_add_of_lt h
  have hsig : (f.significand k : Rat) < 2 * 2 ^ f.fracBits := by exact_mod_cast (significand_bounds k).1
  have hq := quantum_pos (f := f) (f.binade k)
  calc f.magnitude k < 2 * 2 ^ f.fracBits * f.quantum (f.binade k) := by unfold magnitude; gcongr
    _ = 2 ^ f.fracBits * f.quantum (f.binade k + 1) := by rw [quantum_add]; ring
    _ ≤ 2 ^ f.fracBits * f.quantum (f.binade k + d + 1) := by
      gcongr
      exact pow2_mono (by push_cast; omega)

/-! ### Decoding -/

/-- R19: a subnormal has no leading one and the smallest normal exponent; a normal value has its own. -/
theorem FFmt.magnitude_eq (k : Nat) : f.magnitude k =
    if k / 2 ^ f.fracBits = 0 then ((k % 2 ^ f.fracBits : Nat) : Rat) * pow2 (f.emin - f.fracBits)
    else ((2 ^ f.fracBits + k % 2 ^ f.fracBits : Nat) : Rat) * pow2 ((k / 2 ^ f.fracBits : Nat) - f.bias - f.fracBits) := by
  rcases f.binade_significand_cases k with ⟨hd, hb, hs⟩ | ⟨hd, hs⟩
  · rw [if_pos hd, magnitude, hb, hs, quantum]
    simp
  · rw [if_neg (by omega), hd, magnitude, hs, quantum, emin]
    congr 2
    push_cast
    ring

theorem FFmt.maxEnc_lt_signBit : f.maxEnc < f.signBit := by cases f <;> decide

theorem FFmt.signBit_pos : 0 < f.signBit := Nat.two_pow_pos _

theorem decodeF_of_mod_le_maxEnc {b : Nat} (h : b % f.signBit ≤ f.maxEnc) :
    decodeF f b = .fin (b / f.signBit % 2 == 1)
      (if b / f.signBit % 2 == 1 then -f.magnitude (b % f.signBit) else f.magnitude (b % f.signBit)) := by
  rw [FFmt.magnitude_eq, decodeF, if_pos h]

/-- A sign bit over the encoding of a finite magnitude. -/
theorem decodeF_sign_add {k : Nat} (h : k ≤ f.maxEnc) (neg : Bool) :
    decodeF f ((if neg then f.signBit else 0) + k) = .fin neg (if neg then -f.magnitude k else f.magnitude k) := by
  have hlt : k < f.signBit := h.trans_lt f.maxEnc_lt_signBit
  cases neg
  · have hmod : k % f.signBit = k := Nat.mod_eq_of_lt hlt
    simp [decodeF_of_mod_le_maxEnc (hmod.trans_le h), hmod, Nat.div_eq_of_lt hlt]
  · have hmod : (f.signBit + k) % f.signBit = k := by rw [Nat.add_mod_left, Nat.mod_eq_of_lt hlt]
    have hdiv : (f.signBit + k) / f.signBit = 1 := by rw [Nat.add_div_left _ f.signBit_pos, Nat.div_eq_of_lt hlt]
    simp [decodeF_of_mod_le_maxEnc (hmod.trans_le h), hmod, hdiv]

/-- What decodes to a finite value is the encoding of a finite magnitude. -/
theorem exists_magnitude_of_decodeF_fin {b : Nat} {g : Bool} {y : Rat} (h : decodeF f b = .fin g y) :
    ∃ k ≤ f.maxEnc, |y| = f.magnitude k := by
  by_cases hle : b % f.signBit ≤ f.maxEnc
  · rw [decodeF_of_mod_le_maxEnc hle] at h
    obtain ⟨-, rfl⟩ := FV.fin.inj h
    exact ⟨_, hle, by split <;> simp [abs_of_nonneg (FFmt.magnitude_nonneg _)]⟩
  · rw [decodeF, if_neg hle] at h
    split at h <;> cases h

/-! ### Rounding to nearest -/

/-- In binade s the number a ≥ 0 rounds to n quanta. -/
structure FFmt.RoundsTo (f : FFmt) (a : Rat) (s n : Nat) : Prop where
  low : s = 0 ∨ ((2 ^ f.fracBits : Nat) : Rat) ≤ a / f.quantum s
  high : a / f.quantum s ≤ (2 * 2 ^ f.fracBits : Nat)
  near : |a / f.quantum s - n| ≤ 1 / 2

theorem abs_sub_mul_quantum (a c : Rat) (s : Nat) : |a - c * f.quantum s| = |a / f.quantum s - c| * f.quantum s := by
  have hq := FFmt.quantum_pos (f := f) s
  rw [← abs_of_pos hq, ← abs_mul, abs_of_pos hq, sub_mul, div_mul_cancel₀ _ hq.ne']

namespace FFmt.RoundsTo
variable {a : Rat} {s n : Nat}

theorem magnitude_eq (h : f.RoundsTo a s n) : f.magnitude (s * 2 ^ f.fracBits + n) = n * f.quantum s :=
  FFmt.magnitude_of_significand (h.low.imp_right (ge_of_abs_sub_le_half h.near)) (le_of_abs_sub_le_half h.near h.high)

/-- Above binade 0 the number is at or above the binade's first magnitude, so that the lower binades' lie below it. -/
theorem magnitude_lt_of_binade_lt (h : f.RoundsTo a s n) {k : Nat} (hk : f.binade k < s) :
    f.magnitude k < 2 ^ f.fracBits * f.quantum s ∧ 2 ^ f.fracBits * f.quantum s ≤ a := by
  refine ⟨FFmt.magnitude_lt_of_binade_lt hk, ?_⟩
  have hlow := h.low.resolve_left (by omega)
  rw [le_div_iff₀ (FFmt.quantum_pos s)] at hlow
  exact_mod_cast hlow

/-- No magnitude of the format is nearer. -/
theorem nearest (h : f.RoundsTo a s n) (k : Nat) : |a - n * f.quantum s| ≤ |a - f.magnitude k| := by
  have multiple (c : Nat) : |a - n * f.quantum s| ≤ |a - c * f.quantum s| := by
    rw [abs_sub_mul_quantum, abs_sub_mul_quantum]
    exact mul_le_mul_of_nonneg_right (abs_sub_le_of_abs_sub_le_half h.near c) (FFmt.quantum_pos s).le
  rcases lt_or_ge (f.binade k) s with hk | hk
  · obtain ⟨hlt, hle⟩ := h.magnitude_lt_of_binade_lt hk
    calc |a - n * f.quantum s| ≤ |a - (2 ^ f.fracBits : Nat) * f.quantum s| := multiple _
      _ = a - 2 ^ f.fracBits * f.quantum s := by push_cast; exact abs_of_nonneg (sub_nonneg.mpr hle)
      _ ≤ a - f.magnitude k := by linarith
      _ ≤ |a - f.magnitude k| := le_abs_self _
  · rw [FFmt.magnitude_eq_mul_quantum hk]
    exact multiple _

/-- Rounding does not pass a magnitude of the format. -/
theorem enc_le (h : f.RoundsTo a s n) {k : Nat} (hk : a ≤ f.magnitude k) : s * 2 ^ f.fracBits + n ≤ k := by
  have hsplit := f.binade_mul_add_significand k
  rcases lt_trichotomy (f.binade k) s with hlt | heq | hgt
  · obtain ⟨hbelow, habove⟩ := h.magnitude_lt_of_binade_lt hlt
    linarith
  · have hn : n ≤ f.significand k := by
      refine le_of_abs_sub_le_half h.near ?_
      rw [div_le_iff₀ (FFmt.quantum_pos s), ← heq]
      exact hk
    rw [heq] at hsplit
    omega
  · have hn : n ≤ 2 * 2 ^ f.fracBits := le_of_abs_sub_le_half h.near h.high
    have hsig := (f.significand_bounds k).2.resolve_left (by omega)
    have hmul : (s + 1) * 2 ^ f.fracBits ≤ f.binade k * 2 ^ f.fracBits := Nat.mul_le_mul_right _ hgt
    rw [Nat.add_mul] at hmul
    omega

end FFmt.RoundsTo

/-- The binade in which a positive number is rounded. -/
def FFmt.binadeOf (f : FFmt) (a : Rat) : Nat := (floorLog2 a - f.emin).toNat

/-- Under round to nearest the model rounds in the number's own binade. -/
theorem roundsTo_cutRat {a : Rat} (ha : 0 < a) (neg : Bool) :
    f.RoundsTo a (f.binadeOf a) ((cutRat a (f.binadeOf a + f.emin - f.fracBits)).round .rne neg) where
  low := by
    rcases Nat.eq_zero_or_pos (f.binadeOf a) with hz | hpos
    · exact .inl hz
    · right
      rw [le_div_iff₀ (FFmt.quantum_pos _)]
      push_cast
      rw [FFmt.two_pow_mul_quantum]
      exact (pow2_mono (by unfold FFmt.binadeOf at hpos ⊢; omega)).trans (pow2_floorLog2_le ha)
  high := by
    rw [div_le_iff₀ (FFmt.quantum_pos _)]
    push_cast
    rw [mul_assoc, FFmt.two_pow_mul_quantum, show (2 : Rat) = pow2 1 from rfl, ← pow2_add]
    exact (lt_pow2_floorLog2_succ ha).le.trans (pow2_mono (by unfold FFmt.binadeOf; omega))
  near := by
    have hcut := cutRat_round_rne_sub_le ha.le (f.binadeOf a + f.emin - f.fracBits) neg
    rwa [pow2_neg, ← div_eq_mul_inv] at hcut

/-- Where nothing overflows, rounding gives the sign over the rounded magnitude's encoding. -/
theorem roundCuts_eq_sign_add {m : RMode} {neg : Bool} {a : Rat} {cut : Int → Cut}
    (h : f.binadeOf a * 2 ^ f.fracBits + (cut (f.binadeOf a + f.emin - f.fracBits)).round m.rm neg ≤ f.maxEnc) :
    (roundCuts f m neg (floorLog2 a) cut).1 = (if neg then f.signBit else 0) +
      (f.binadeOf a * 2 ^ f.fracBits + (cut (f.binadeOf a + f.emin - f.fracBits)).round m.rm neg) := by
  have hq : (if floorLog2 a < f.emin then f.emin else floorLog2 a) = f.binadeOf a + f.emin := by
    unfold FFmt.binadeOf
    split <;> omega
  have hs : (f.binadeOf a + f.emin - f.fracBits + f.fracBits - f.emin : Int).toNat = f.binadeOf a := by omega
  unfold roundCuts
  simp only [hq, hs]
  rw [if_neg h.not_gt]

theorem ratAbs_eq_abs (x : Rat) : ratAbs x = |x| := by
  unfold ratAbs
  split
  next h => exact (abs_of_neg h).symm
  next h => exact (abs_of_nonneg (not_lt.mp h)).symm

/-- A non-zero number in the format's range rounds to its sign over a nearest magnitude of the format. -/
theorem rnd_rne_in_range {m : RMode} (hm : m.rm = .rne) {x : Rat} (hx : x ≠ 0) {l : Nat} (hl : l ≤ f.maxEnc)
    (hxl : |x| ≤ f.magnitude l) (z : Bool) :
    ∃ k ≤ f.maxEnc, (rnd f m z x).1 = (if decide (x < 0) then f.signBit else 0) + k ∧
      ∀ j, |(|x|) - f.magnitude k| ≤ |(|x|) - f.magnitude j| := by
  have h := roundsTo_cutRat (f := f) (abs_pos.mpr hx) (decide (x < 0))
  have hle := (h.enc_le hxl).trans hl
  refine ⟨_, hle, ?_, fun j => h.magnitude_eq ▸ h.nearest j⟩
  rw [← hm] at hle ⊢
  rw [rnd, if_neg hx, ratAbs_eq_abs]
  exact roundCuts_eq_sign_add hle

/-- Under x's own sign a magnitude is as far from x as from |x|. -/
theorem abs_sub_signed (x w : Rat) : |x - (if decide (x < 0) then -w else w)| = |(|x|) - w| := by
  by_cases h : x < 0
  · rw [if_pos (decide_eq_true h), abs_of_neg h, ← abs_neg, neg_sub', sub_neg_eq_add, sub_eq_add_neg]
  · rw [if_neg (by simpa using h), abs_of_nonneg (not_lt.mp h)]

end

/-- Settles O10: the rounding binade's multiples of the quantum hold every magnitude of its own and the higher binades, the lower binades'
lie below its first, and `rnd` takes a nearest multiple. -/
theorem roundingIsNearest : Obligations.RoundingIsNearest := by
  unfold Obligations.RoundingIsNearest
  rintro f z x - ⟨b, g, w, -, hw, hxw⟩
  by_cases hx : x = 0
  · subst hx
    have hzero : f.magnitude 0 = 0 := by simp [FFmt.magnitude, FFmt.significand]
    refine ⟨z, 0, ?_, fun _ _ y _ _ => by simpa using sq_nonneg y⟩
    simpa [rnd, hzero] using decodeF_sign_add (f := f) (Nat.zero_le _) z
  · obtain ⟨l, hl, hwl⟩ := exists_magnitude_of_decodeF_fin hw
    have hxl : |x| ≤ f.magnitude l := by
      rw [← hwl, ← ratAbs_eq_abs]
      exact hxw.trans (le_abs_self w)
    obtain ⟨k, hk, henc, hnear⟩ := rnd_rne_in_range (m := { rm := .rne, sat8 := false }) rfl hx hl hxl z
    refine ⟨_, _, by rw [henc]; exact decodeF_sign_add hk _, fun c h y _ hy => sq_le_sq.mpr ?_⟩
    obtain ⟨j, -, hyj⟩ := exists_magnitude_of_decodeF_fin hy
    calc |x - (if decide (x < 0) then -f.magnitude k else f.magnitude k)| = |(|x|) - f.magnitude k| := abs_sub_signed _ _
      _ ≤ |(|x|) - (|y|)| := hyj ▸ hnear j
      _ ≤ |x - y| := abs_abs_sub_abs_le x y

end Sys2Proof.Machine

/-! PROOFS. Encoding and decoding (R54 to R74). A chain of the assembler's canonical form is read back field by field from its words, and
from its fields the decoder selects the instruction it was made from; so decoding an encoded instruction gives the instruction. The words
show their own shape: only the prefixes have 0xF in bits 15:12, so that a chain ends at its base word. -/

namespace Sys2Proof
open Laws.Encoding (Fits immBase_eight)

/-! ### What a chain of the assembler's canonical form meets -/

/-- The fields of an XQ word have four bits (R56). -/
def XqFits (xq : Option (Bool × Nat × Bool × Nat)) : Prop := ∀ me mr mi fo, xq = some (me, mr, mi, fo) → mr < 16 ∧ fo < 16

/-- The chain's fields fit the words that carry them: without an XR word the registers are below 16 and C is zero, the fields of an XQ word
have four bits, and the prefixes are at most four (R54 to R57). -/
structure Chain.Canonical (c : Chain) : Prop where
  fits : Fits c
  low : c.xr = false → c.D < 16 ∧ c.A < 16 ∧ c.B < 16 ∧ c.C = 0
  qual : XqFits c.xq
  room : c.xi.length ≤ 4 - ((decide (c.page ≠ 0)).toNat + c.xr.toNat + c.xq.isSome.toNat)

/-! ### The words of a chain -/

def Chain.xpWords (c : Chain) : List Nat := if c.page = 0 then [] else [0xF800 + 4 * c.page]

def Chain.xrWords (c : Chain) : List Nat :=
  if c.xr then [0xF400 + 512 * (c.D / 16) + 256 * (c.A / 16) + 128 * (c.B / 16) + 4 * c.C] else []

def Chain.xqWords (c : Chain) : List Nat :=
  match c.xq with
  | none => []
  | some (me, mr, mi, fo) => [0xFC00 + 512 * me.toNat + 32 * mr + 16 * mi.toNat + fo]

/-- The prefixes of a chain in the canonical order (R57). -/
def Chain.prefixWords (c : Chain) : List Nat := c.xpWords ++ c.xrWords ++ c.xqWords ++ c.xi.map (fun x => 0xF000 + x)

/-- The base word of a chain (R55). -/
def Chain.baseWord (c : Chain) : Nat := 4096 * c.major + 256 * (c.D % 16) + 16 * (c.A % 16) + c.B % 16

theorem Chain.words_eq (c : Chain) : c.words = c.prefixWords ++ [c.baseWord] := rfl

namespace Chain.Canonical
variable {c : Chain}

theorem baseWord_lt (h : c.Canonical) : c.baseWord < 61440 := by
  obtain ⟨-, hmajor, -⟩ := h.fits
  unfold baseWord
  omega

theorem prefixWords_length_le (h : c.Canonical) : c.prefixWords.length ≤ 4 := by
  have hp : c.xpWords.length = (decide (c.page ≠ 0)).toNat := by by_cases hp : c.page = 0 <;> simp [xpWords, hp]
  have hr : c.xrWords.length = c.xr.toNat := by cases hr : c.xr <;> simp [xrWords, hr]
  have hq : c.xqWords.length = c.xq.isSome.toNat := by cases hq : c.xq <;> simp [xqWords, hq]
  have := h.room
  have := (decide (c.page ≠ 0)).toNat_le
  have := c.xr.toNat_le
  have := c.xq.isSome.toNat_le
  simp only [prefixWords, List.length_append, List.length_map]
  omega

/-- Each of the prefixes is a halfword with 0xF in bits 15:12. -/
theorem prefix_bits (h : c.Canonical) {w : Nat} (hw : w ∈ c.prefixWords) : w < 65536 ∧ w / 4096 = 15 := by
  obtain ⟨hpage, -, hD, hA, hB, hC, hxi⟩ := h.fits
  simp only [prefixWords, List.mem_append, or_assoc] at hw
  rcases hw with hw | hw | hw | hw
  · simp only [xpWords, List.mem_ite_nil_left, List.mem_singleton] at hw
    omega
  · simp only [xrWords, List.mem_ite_nil_right, List.mem_singleton] at hw
    omega
  · unfold xqWords at hw
    split at hw
    · cases hw
    · next me mr mi fo hq =>
      have := h.qual _ _ _ _ hq
      have := me.toNat_le
      have := mi.toNat_le
      simp only [List.mem_singleton] at hw
      omega
  · obtain ⟨x, hx, rfl⟩ := List.mem_map.mp hw
    have := hxi x hx
    omega

end Chain.Canonical

/-! ### The decoder reads the words back -/

/-- Reading the prefixes takes the chain from one state of the decoder to another, whatever follows and while there is room. -/
def ReadsTo (ws : List Nat) (xp : Bool) (c : Chain) (xp' : Bool) (c' : Chain) : Prop :=
  ∀ room legal n rest, readChain (ws.length + room) legal xp c n (ws ++ rest) = readChain room legal xp' c' (n + ws.length) rest

theorem ReadsTo.nil (xp : Bool) (c : Chain) : ReadsTo [] xp c xp c := fun room legal n rest => by simp

theorem ReadsTo.append {ws vs : List Nat} {xp xp' xp'' : Bool} {c c' c'' : Chain} (h : ReadsTo ws xp c xp' c')
    (h' : ReadsTo vs xp' c' xp'' c'') : ReadsTo (ws ++ vs) xp c xp'' c'' := fun room legal n rest => by
  rw [List.append_assoc, List.length_append, Nat.add_assoc, h, h', Nat.add_assoc]

theorem ReadsTo.word {w : Nat} {xp xp' : Bool} {c c' : Chain} (hw : bitsOf w 15 12 = 15) (h : c.addPrefix xp w = some (c', xp')) :
    ReadsTo [w] xp c xp' c' := fun room legal n rest => by
  rw [List.length_singleton, Nat.add_comm 1 room, List.singleton_append, readChain, if_pos hw]
  simp only [h]

namespace Chain.Canonical
variable {c : Chain} (h : c.Canonical)
include h

/-- An XP word gives the page. -/
theorem readsTo_xpWords : ReadsTo c.xpWords false {} (decide (c.page ≠ 0)) { page := c.page } := by
  by_cases hp : c.page = 0
  · simpa [xpWords, hp] using ReadsTo.nil false {}
  · have := h.fits.1
    rw [xpWords, if_neg hp]
    refine ReadsTo.word (by simp only [bitsOf]; omega) ?_
    have hk : bitsOf (0xF800 + 4 * c.page) 11 10 = 2 := by simp only [bitsOf]; omega
    have hr : bitsOf (0xF800 + 4 * c.page) 1 0 = 0 := by simp only [bitsOf]; omega
    have hv : bitsOf (0xF800 + 4 * c.page) 9 2 = c.page := by simp only [bitsOf]; omega
    simp [addPrefix, hk, hr, hv, hp]

/-- An XR word gives the high bits of the register fields, and C. -/
theorem readsTo_xrWords (xp : Bool) : ReadsTo c.xrWords xp { page := c.page } xp
    { page := c.page, D := 16 * (c.D / 16), A := 16 * (c.A / 16), B := 16 * (c.B / 16), C := c.C, xr := c.xr } := by
  obtain ⟨-, -, hD, hA, hB, hC, -⟩ := h.fits
  cases hx : c.xr with
  | false =>
    obtain ⟨hD, hA, hB, hC⟩ := h.low hx
    simpa [xrWords, hx, hC, Nat.div_eq_of_lt hD, Nat.div_eq_of_lt hA, Nat.div_eq_of_lt hB] using ReadsTo.nil xp { page := c.page }
  | true =>
    rw [xrWords, if_pos hx]
    refine ReadsTo.word (by simp only [bitsOf]; omega) ?_
    generalize hw : 0xF400 + 512 * (c.D / 16) + 256 * (c.A / 16) + 128 * (c.B / 16) + 4 * c.C = w
    have hk : bitsOf w 11 10 = 1 := by simp only [bitsOf]; omega
    have hz : bitsOf w 1 0 = 0 := by simp only [bitsOf]; omega
    have hD : bitsOf w 9 9 = c.D / 16 := by simp only [bitsOf]; omega
    have hA : bitsOf w 8 8 = c.A / 16 := by simp only [bitsOf]; omega
    have hB : bitsOf w 7 7 = c.B / 16 := by simp only [bitsOf]; omega
    have hC : bitsOf w 6 2 = c.C := by simp only [bitsOf]; omega
    simp [addPrefix, hk, hz, hD, hA, hB, hC]

/-- An XQ word gives the qualification. -/
theorem readsTo_xqWords (xp : Bool) {d : Chain} (hd : d.xq = none) : ReadsTo c.xqWords xp d xp { d with xq := c.xq } := by
  unfold xqWords
  split
  · next hq => rw [hq, ← hd]; exact .nil xp d
  · next me mr mi fo hq =>
    obtain ⟨hr, hf⟩ := h.qual _ _ _ _ hq
    have := me.toNat_le
    have := mi.toNat_le
    refine ReadsTo.word (by simp only [bitsOf]; omega) ?_
    generalize hw : 0xFC00 + 512 * me.toNat + 32 * mr + 16 * mi.toNat + fo = w
    have hk : bitsOf w 11 10 = 3 := by simp only [bitsOf]; omega
    have hme : bitsOf w 9 9 = me.toNat := by simp only [bitsOf]; omega
    have hmr : bitsOf w 8 5 = mr := by simp only [bitsOf]; omega
    have hmi : bitsOf w 4 4 = mi.toNat := by simp only [bitsOf]; omega
    have hfo : bitsOf w 3 0 = fo := by simp only [bitsOf]; omega
    simp [addPrefix, hk, hd, hq, hme, hmr, hmi, hfo]

end Chain.Canonical

theorem addPrefix_xi (c : Chain) (xp : Bool) {x : Nat} (hx : x < 1024) :
    c.addPrefix xp (0xF000 + x) = some ({ c with xi := c.xi ++ [x] }, xp) := by
  have hk : bitsOf (0xF000 + x) 11 10 = 0 := by simp only [bitsOf]; omega
  have hv : bitsOf (0xF000 + x) 9 0 = x := by simp only [bitsOf]; omega
  simp only [Chain.addPrefix, hk, hv]

/-- The XI words are collected in fetch order. -/
theorem readsTo_xiWords (xp : Bool) (c : Chain) (xs : List Nat) (hxs : ∀ x ∈ xs, x < 1024) :
    ReadsTo (xs.map fun x => 0xF000 + x) xp c xp { c with xi := c.xi ++ xs } := by
  induction xs generalizing c with
  | nil => simpa using ReadsTo.nil xp c
  | cons x xs ih =>
    have hx : x < 1024 := hxs x List.mem_cons_self
    have hword := ReadsTo.word (by simp only [bitsOf]; omega) (addPrefix_xi c xp hx)
    simpa using hword.append (ih _ fun y hy => hxs y (List.mem_cons_of_mem x hy))

/-- A base word ends a legal chain. -/
theorem readChain_base (room n : Nat) (xp : Bool) (c : Chain) {w : Nat} (hw : bitsOf w 15 12 ≠ 15) (rest : List Nat) :
    readChain room true xp c n (w :: rest) = .ok (c.close w, n + 1) := by
  rw [readChain.eq_def]
  simp only [if_neg hw, if_pos]

namespace Chain.Canonical
variable {c : Chain} (h : c.Canonical)
include h

/-- The prefixes give all of the chain but its major and the low bits of its register fields. -/
theorem readsTo_prefixWords : ReadsTo c.prefixWords false {} (decide (c.page ≠ 0))
    { c with major := 0, D := 16 * (c.D / 16), A := 16 * (c.A / 16), B := 16 * (c.B / 16) } := by
  obtain ⟨-, -, -, -, -, -, hxi⟩ := h.fits
  exact ((h.readsTo_xpWords.append (h.readsTo_xrWords _)).append (h.readsTo_xqWords _ rfl)).append (readsTo_xiWords _ _ c.xi hxi)

/-- The base word completes it. -/
theorem close_baseWord :
    Chain.close { c with major := 0, D := 16 * (c.D / 16), A := 16 * (c.A / 16), B := 16 * (c.B / 16) } c.baseWord = c := by
  obtain ⟨-, hmajor, -⟩ := h.fits
  have hM : bitsOf c.baseWord 15 12 = c.major := by simp only [bitsOf, baseWord]; omega
  have hD : 16 * (c.D / 16) + bitsOf c.baseWord 11 8 = c.D := by simp only [bitsOf, baseWord]; omega
  have hA : 16 * (c.A / 16) + bitsOf c.baseWord 7 4 = c.A := by simp only [bitsOf, baseWord]; omega
  have hB : 16 * (c.B / 16) + bitsOf c.baseWord 3 0 = c.B := by simp only [bitsOf, baseWord]; omega
  simp only [Chain.close, hM, hD, hA, hB]

/-- The decoder reads a chain back from its words, whatever follows them (R54 to R57). -/
theorem readChain_words (rest : List Nat) : readChain 4 true false {} 0 (c.words ++ rest) = .ok (c, c.words.length) := by
  obtain ⟨room, hroom⟩ := Nat.exists_eq_add_of_le h.prefixWords_length_le
  have hbase : bitsOf c.baseWord 15 12 ≠ 15 := by
    have := h.baseWord_lt
    simp only [bitsOf]
    omega
  rw [words_eq, List.append_assoc, hroom, h.readsTo_prefixWords, List.singleton_append, readChain_base _ _ _ _ hbase, h.close_baseWord]
  simp

end Chain.Canonical

/-! ### How long a chain is -/

theorem bitsOf_top (w : Nat) : bitsOf w 15 12 = w / 4096 % 16 := rfl

/-- The first of the prefixes is read whatever it holds, and the rest is read from some state of the decoder. -/
theorem readChain_cons_prefix {w : Nat} (hw : bitsOf w 15 12 = 15) (room : Nat) (legal xp : Bool) (c : Chain) : ∃ legal' xp' c',
    ∀ n rest, readChain (room + 1) legal xp c n (w :: rest) = readChain room legal' xp' c' (n + 1) rest := by
  cases hp : c.addPrefix xp w with
  | some r => exact ⟨legal, r.2, r.1, fun n rest => by simp [readChain, hw, hp]⟩
  | none => exact ⟨false, xp, c, fun n rest => by simp [readChain, hw, hp]⟩

/-- One more of the prefixes than there is room for, whatever they hold (R63). -/
theorem readChain_prefixChain (room : Nat) (legal xp : Bool) (c : Chain) (n : Nat) (ws rest : List Nat) (hlen : ws.length = room + 1)
    (hws : ∀ w ∈ ws, bitsOf w 15 12 = 15) : readChain room legal xp c n (ws ++ rest) = .error .prefixChain := by
  induction ws generalizing room legal xp c n with
  | nil => cases hlen
  | cons w ws ih =>
    obtain ⟨hw, hws⟩ := List.forall_mem_cons.mp hws
    cases room with
    | zero => simp [readChain, hw]
    | succ room =>
      obtain ⟨legal', xp', c', hstep⟩ := readChain_cons_prefix hw room legal xp c
      rw [List.cons_append, hstep]
      exact ih _ _ _ _ _ (Nat.succ.inj hlen) hws

/-- A chain that is read ends at its base word: it depends on nothing behind it, and is no longer than the room for prefixes allows. -/
theorem readChain_ok {room : Nat} {legal xp : Bool} {c d : Chain} {n m : Nat} {ws : List Nat}
    (h : readChain room legal xp c n ws = .ok (d, m)) : ∃ k, m = n + k ∧ 1 ≤ k ∧ k ≤ room + 1 ∧ k ≤ ws.length ∧
      ∀ rest, readChain room legal xp c n (ws.take k ++ rest) = .ok (d, m) := by
  induction ws generalizing room legal xp c n with
  | nil => simp [readChain] at h
  | cons w ws ih =>
    by_cases hw : bitsOf w 15 12 = 15
    · cases room with
      | zero => simp [readChain, hw] at h
      | succ room =>
        obtain ⟨legal', xp', c', hstep⟩ := readChain_cons_prefix hw room legal xp c
        obtain ⟨k, hm, hpos, hroom, hlen, htake⟩ := ih (hstep n ws ▸ h)
        refine ⟨k + 1, by omega, by omega, by omega, Nat.succ_le_succ hlen, fun rest => ?_⟩
        rw [List.take_succ_cons, List.cons_append, hstep]
        exact htake rest
    · cases legal with
      | false => simp [readChain.eq_def, hw] at h
      | true =>
        rw [readChain_base _ _ _ _ hw, Except.ok.injEq, Prod.mk.injEq] at h
        obtain ⟨rfl, rfl⟩ := h
        exact ⟨1, rfl, le_rfl, by omega, by simp, fun rest => readChain_base _ _ _ _ hw rest⟩

/-- What decodes is a chain that selects the instruction. -/
theorem decode_eq_ok_iff {ws : List Nat} {i : Instr} {n : Nat} :
    decode ws = .ok (i, n) ↔ ∃ c, readChain 4 true false {} 0 ws = .ok (c, n) ∧ select c = some i := by
  unfold decode
  cases hr : readChain 4 true false {} 0 ws with
  | error e => simp
  | ok r =>
    obtain ⟨c, m⟩ := r
    cases hs : select c <;> simp [hs, and_comm]

section

/-! ### Immediates (R59, R74) -/

@[simp] theorem immWords_length (b n : Nat) (v : Int) : (immWords b n v).length = n := by simp [immWords]

theorem immWords_succ (b n : Nat) (v : Int) : immWords b (n + 1) v = immWords (b + 10) n v ++ [(v / (2 ^ b : Nat) % 1024).toNat] := by
  have hmap : ∀ k ∈ List.range n, b + 10 * (n + 1 - 1 - k) = b + 10 + 10 * (n - 1 - k) := by
    intro k hk
    rw [List.mem_range] at hk
    omega
  simp only [immWords, List.range_succ, List.map_append, List.map_cons, List.map_nil]
  congr 1
  · exact List.map_congr_left fun k hk => by rw [hmap k hk]
  · simp

theorem immBase_zero (v : Int) : immBase 0 v = 0 := by simp [immBase]

theorem immBase_four_lt (v : Int) : immBase 4 v < 16 := by
  have := Int.emod_lt_of_pos v (b := 16) (by decide)
  simp only [immBase]
  omega

theorem immBase_eight_div (v : Int) : immBase 8 v / 16 < 16 := by
  have := immBase_eight v
  omega

/-- The last digit of a number to base m, and the next ones modulo k. -/
theorem emod_mul_ediv (x : Int) {m k : Int} (hm : 0 < m) (hk : 0 < k) : x / m % k * m + x % m = x % (m * k) := by
  have hx := Int.emod_add_mul_ediv x m
  have hq := Int.emod_add_mul_ediv (x / m) k
  have hx0 := Int.emod_nonneg x hm.ne'
  have hxm := Int.emod_lt_of_pos x hm
  have hq0 := Int.emod_nonneg (x / m) hk.ne'
  have hqk := Int.emod_lt_of_pos (x / m) hk
  refine ((Int.ediv_emod_unique (q := x / m / k) (mul_pos hm hk)).mpr ⟨?_, by positivity, by nlinarith⟩).2.symm
  linear_combination hx + m * hq

/-- The XI words of an immediate hold the bits above its base bits. -/
theorem foldl_immWords (b n : Nat) (v : Int) :
    (((immWords b n v).foldl (fun f x => f * 1024 + x) 0 : Nat) : Int) = v / (2 ^ b : Nat) % (2 ^ (10 * n) : Nat) := by
  induction n generalizing b with
  | zero => simp [immWords]
  | succ n ih =>
    rw [immWords_succ, List.foldl_append, List.foldl_cons, List.foldl_nil, Nat.cast_add, Nat.cast_mul, ih,
      Int.toNat_of_nonneg (Int.emod_nonneg _ (by decide)), show v / ((2 ^ (b + 10) : Nat) : Int) = v / (2 ^ b : Nat) / 1024 by
        rw [Int.ediv_ediv_of_nonneg (by positivity)]; push_cast; ring_nf]
    exact (emod_mul_ediv _ (by decide) (by positivity)).trans (by push_cast; ring_nf)

variable {page major D A B C : Nat} {xr : Bool} {xq : Option (Bool × Nat × Bool × Nat)} {b n : Nat}

/-- The field of an immediate is its value modulo the bits it has room for. -/
theorem immUnsigned_immWords (v : Int) :
    ((Chain.mk page major D A B C xr xq (immWords b n v)).immUnsigned b (immBase b v) : Int) = v % (2 ^ (b + 10 * n) : Nat) := by
  rw [Chain.immUnsigned, Chain.xiValue, Nat.cast_add, Nat.cast_mul, foldl_immWords, immBase,
    Int.toNat_of_nonneg (Int.emod_nonneg _ (by positivity))]
  exact (emod_mul_ediv _ (by positivity) (by positivity)).trans (by push_cast; ring_nf)

theorem immUnsigned_of_fits {v : Nat} (h : fitsUnsigned b n v = true) :
    (Chain.mk page major D A B C xr xq (immWords b n v)).immUnsigned b (immBase b v) = v := by
  have hv : v < 2 ^ (b + 10 * n) := by simpa [fitsUnsigned] using h
  have hfield : (_ : Int) = _ := immUnsigned_immWords (page := page) (major := major) (D := D) (A := A) (B := B) (C := C) (xr := xr)
    (xq := xq) (b := b) (n := n) v
  rw [← Int.natCast_emod, Nat.mod_eq_of_lt hv] at hfield
  exact_mod_cast hfield

/-- A field of w + 1 bits read as two's complement. -/
theorem signedOf_emod {w x : Nat} {v : Int} (hlo : -(2 ^ w : Int) ≤ v) (hhi : v < 2 ^ w) (hx : (x : Int) = v % (2 ^ (w + 1) : Nat)) :
    signedOf (w + 1) x = v := by
  have hlt : x < 2 ^ (w + 1) := by
    have := Int.emod_lt_of_pos v (b := (2 ^ (w + 1) : Nat)) (by positivity)
    omega
  have hpow : 2 ^ (w + 1) = 2 * 2 ^ w := Nat.pow_succ'
  rw [signedOf, Nat.mod_eq_of_lt hlt, Nat.add_sub_cancel]
  rw [hpow] at hx hlt ⊢
  generalize hP : 2 ^ w = P at *
  have hPI : (2 ^ w : Int) = P := by exact_mod_cast hP
  rw [hPI] at hlo hhi
  rcases le_or_gt 0 v with hv | hv
  · rw [Int.emod_eq_of_lt hv (by omega)] at hx
    rw [if_pos (by omega), hx]
  · rw [← Int.add_emod_right, Int.emod_eq_of_lt (by omega) (by omega)] at hx
    rw [if_neg (by omega), hx]
    push_cast
    ring

theorem immSigned_of_fits {lo : Nat} {v : Int} (h : fitsSigned b lo n v = true) :
    (Chain.mk page major D A B C xr xq (immWords b n v)).immSigned b (immBase b v) = v := by
  simp only [fitsSigned, Bool.and_eq_true, decide_eq_true_eq, and_assoc] at h
  obtain ⟨-, hw, hlo, hhi⟩ := h
  rw [Chain.immSigned]
  simp only [immWords_length]
  obtain ⟨w, hw⟩ := Nat.exists_eq_add_one_of_ne_zero hw.ne'
  rw [hw, Nat.add_sub_cancel] at hlo hhi
  rw [hw]
  exact signedOf_emod hlo hhi (hw ▸ immUnsigned_immWords v)

/-- The assembler takes the fewest XI words that hold the immediate, so no more than there is room for (R74). -/
theorem signedXi_spec {lo room : Nat} {v : Int} (h : fitsSigned b lo room v = true) (hr : room ≤ 4) :
    signedXi b lo v ≤ room ∧ fitsSigned b lo (signedXi b lo v) v = true := by
  unfold signedXi
  interval_cases room <;> grind

/-- With no base bits the field of the immediate is its XI words alone. -/
theorem immSigned_zero_of_fits {lo : Nat} {v : Int} (h : fitsSigned 0 lo n v = true) :
    (Chain.mk page major D A B C xr xq (immWords 0 n v)).immSigned 0 0 = v := by
  simpa only [immBase_zero] using
    immSigned_of_fits (page := page) (major := major) (D := D) (A := A) (B := B) (C := C) (xr := xr) (xq := xq) h

theorem lo_le_of_fits {lo : Nat} {v : Int} (h : fitsSigned b lo n v = true) : lo ≤ n := by
  simp only [fitsSigned, Bool.and_eq_true, decide_eq_true_eq, and_assoc] at h
  obtain ⟨hlo, -⟩ := h
  exact hlo

/-- A shift amount takes at most one XI word. -/
theorem fitsUnsigned_shift {v : Nat} (h : v < 64) : fitsUnsigned 4 1 v = true := decide_eq_true (by omega)

theorem unsignedXi_spec {room : Nat} {v : Nat} (h : fitsUnsigned b room v = true) (hr : room ≤ 4) :
    unsignedXi b v ≤ room ∧ fitsUnsigned b (unsignedXi b v) v = true := by
  unfold unsignedXi
  interval_cases room <;> grind

end

end Sys2Proof

namespace Sys2Proof.Laws.Encoding

/-! ### The fields of canonical chains -/

/-- The chain of every instruction fits its words (R55 to R59); a unit's event has none. -/
theorem fits_toChain (i : Instr) : Statement i := by
  cases i with
  | add => exact add _ _ _ | sub => exact sub _ _ _ | and => exact and _ _ _ | or => exact or _ _ _ | xor => exact xor _ _ _
  | sll => exact sll _ _ _ | addi => exact addi _ _ _ | li => exact li _ _ | ldd => exact ldd _ _ _ | std => exact std _ _ _
  | beqz => exact beqz _ _ | bnez => exact bnez _ _ | jal => exact jal _ _ | mov => exact mov _ _ | jalr => exact jalr _ _
  | not => exact not _ _ | neg => exact neg _ _ | setvl => exact setvl _ _ _ | srl => exact srl _ _ _ | sra => exact sra _ _ _
  | slli => exact slli _ _ _ | srli => exact srli _ _ _ | srai => exact srai _ _ _ | mul => exact mul _ _ _ | mulh => exact mulh _ _ _
  | mulhn => exact mulhn _ _ _ | div => exact div _ _ _ | divn => exact divn _ _ _ | rem => exact rem _ _ _ | remn => exact remn _ _ _
  | slt => exact slt _ _ _ | sltn => exact sltn _ _ _ | andi => exact andi _ _ _ | ori => exact ori _ _ _ | xori => exact xori _ _ _
  | min => exact min _ _ _ | max => exact max _ _ _ | minn => exact minn _ _ _ | maxn => exact maxn _ _ _ | clz => exact clz _ _
  | ctz => exact ctz _ _ | popc => exact popc _ _ | sext => exact sext _ _ _ | zext => exact zext _ _ _ | lih => exact lih _ _ _
  | addpc => exact addpc _ _ | addsl => exact addsl _ _ _ _ | select => exact select _ _ _ _ | beq => exact beq _ _ _
  | bne => exact bne _ _ _ | blt => exact blt _ _ _ | bge => exact bge _ _ _ | bltn => exact bltn _ _ _ | bgen => exact bgen _ _ _
  | loopsm => exact loopsm _ _ _ _ | get => exact get _ _ | set => exact set _ _ | time => exact time _ | rdcnt => exact rdcnt _ _
  | waitc => exact waitc _ _ _ _ _ | vadd => exact vadd _ _ _ _ | vsub => exact vsub _ _ _ _ | vmul => exact vmul _ _ _ _
  | vmac => exact vmac _ _ _ _ | vmin => exact vmin _ _ _ _ | vmax => exact vmax _ _ _ _ | vminn => exact vminn _ _ _ _
  | vmaxn => exact vmaxn _ _ _ _ | vand => exact vand _ _ _ _ | vor => exact vor _ _ _ _ | vxor => exact vxor _ _ _ _
  | vsll => exact vsll _ _ _ _ | vsrl => exact vsrl _ _ _ _ | vsra => exact vsra _ _ _ _ | vdiv => exact vdiv _ _ _ _
  | vdivn => exact vdivn _ _ _ _ | vrem => exact vrem _ _ _ _ | vremn => exact vremn _ _ _ _ | vadds => exact vadds _ _ _ _
  | vsubs => exact vsubs _ _ _ _ | vmulhq => exact vmulhq _ _ _ _ | vabs => exact vabs _ _ _ | vneg => exact vneg _ _ _
  | vrcp => exact vrcp _ _ _ | vrsqrt => exact vrsqrt _ _ _ | vexp2 => exact vexp2 _ _ _ | vlog2 => exact vlog2 _ _ _
  | vsqrt => exact vsqrt _ _ _ | vclass => exact vclass _ _ _ | vscale => exact vscale _ _ _ _ | vceq => exact vceq _ _ _ _
  | vcne => exact vcne _ _ _ _ | vclt => exact vclt _ _ _ _ | vcle => exact vcle _ _ _ _ | vcltn => exact vcltn _ _ _ _
  | vclen => exact vclen _ _ _ _ | vceqi => exact vceqi _ _ _ _ | vclti => exact vclti _ _ _ _ | mand => exact mand _ _ _
  | mor => exact mor _ _ _ | mxor => exact mxor _ _ _ | mnot => exact mnot _ _ | mcnt => exact mcnt _ _ | many => exact many _ _
  | mfirst => exact mfirst _ _ | vmv => exact vmv _ _ _ | vsplat => exact vsplat _ _ _ | vext => exact vext _ _ _ _
  | vins => exact vins _ _ _ _ | vslideup => exact vslideup _ _ _ _ | vslidedn => exact vslidedn _ _ _ _ | vperm => exact vperm _ _ _ _
  | vcompress => exact vcompress _ _ _ | vexpand => exact vexpand _ _ _ | viota => exact viota _ _ | vid => exact vid _ _
  | vmerge => exact vmerge _ _ _ _ | vredsum => exact vredsum _ _ _ | vredmax => exact vredmax _ _ _ | vredmin => exact vredmin _ _ _
  | vcvt => exact vcvt _ _ _ _ | vqscale => exact vqscale _ _ _ _ _ | vquant => exact vquant _ _ _ _ _ | vdeq => exact vdeq _ _ _ _ _
  | vcblk => exact vcblk _ _ _ _ | vwidenlo => exact vwidenlo _ _ _ _ | vwidenhi => exact vwidenhi _ _ _ _
  | vnarrow => exact vnarrow _ _ _ _ _ | vcadd => exact vcadd _ _ _ _ | vcsub => exact vcsub _ _ _ _ | vcmul => exact vcmul _ _ _ _
  | vcmulj => exact vcmulj _ _ _ _ | vcmac => exact vcmac _ _ _ _ | vcmacj => exact vcmacj _ _ _ _ | vconj => exact vconj _ _ _
  | vcrot => exact vcrot _ _ _ _ | vcabs2 => exact vcabs2 _ _ _ | vcscale => exact vcscale _ _ _ _ | vcdot => exact vcdot _ _ _ _
  | vcreal => exact vcreal _ _ _ | vcswap => exact vcswap _ _ _ | vcmag => exact vcmag _ _ _ | vcmacs => exact vcmacs _ _ _ _
  | vbfly2 => exact vbfly2 _ _ _ _ _ | vbfly3 => exact vbfly3 _ _ _ _ _ | vbfly4 => exact vbfly4 _ _ _ _ _
  | vbfly5 => exact vbfly5 _ _ _ _ _ | vtwid => exact vtwid _ _ _ _ | vdrev => exact vdrev _ _ _ _ | vtrans => exact vtrans _ _ _ _
  | vmgmul => exact vmgmul _ _ _ _ | vmgmulh => exact vmgmulh _ _ _ _ | vmgmv => exact vmgmv _ _ _ _ | vhchol => exact vhchol _ _ _
  | vhinv => exact vhinv _ _ _ | vschur => exact vschur _ _ _ _ | vschurv => exact vschurv _ _ _ _ _ | vhsolve => exact vhsolve _ _ _ _
  | vmgtr => exact vmgtr _ _ _ | vhreg => exact vhreg _ _ _ _ | mxcfg => exact mxcfg _ _ | mma => exact mma _ _ _ | mmaz => exact mmaz _ _ _
  | mxzero => exact mxzero _ | mxst => exact mxst _ _ _ | mxld => exact mxld _ _ _ | mxldcb => exact mxldcb _ _
  | vmovz => exact vmovz _ _ _ _ | vmovtoz => exact vmovtoz _ _ _ _ | mxpark => exact mxpark _ | mxunpark => exact mxunpark _
  | mxscale => exact mxscale _ _ | mxshare => exact mxshare _ | mxstat => exact mxstat _ _ | gsend => exact gsend _ _ _
  | gsendc => exact gsendc _ _ _ | gld => exact gld _ _ _ | gsum => exact gsum _ _ | gsumx => exact gsumx _ _ | gdamp => exact gdamp _ _ _
  | gcfg => exact gcfg _ _ | gmarg => exact gmarg _ _ _ | gembed => exact gembed _ _ _ | gmean => exact gmean _ _ | gstat => exact gstat _ _
  | lb => exact lb _ _ _ | lbn => exact lbn _ _ _ | lh => exact lh _ _ _ | lhn => exact lhn _ _ _ | lw => exact lw _ _ _
  | lwn => exact lwn _ _ _ | sb => exact sb _ _ _ | sh => exact sh _ _ _ | sw => exact sw _ _ _ | ldx => exact ldx _ _ _
  | stx => exact stx _ _ _ | pref => exact pref _ _ _ | cflush => exact cflush _ | cinv => exact cinv _ | amoadd => exact amoadd _ _ _ _
  | amoand => exact amoand _ _ _ _ | amoor => exact amoor _ _ _ _ | amoxor => exact amoxor _ _ _ _ | amomin => exact amomin _ _ _ _
  | amomax => exact amomax _ _ _ _ | amominn => exact amominn _ _ _ _ | amomaxn => exact amomaxn _ _ _ _ | amoswp => exact amoswp _ _ _ _
  | amocas => exact amocas _ _ _ _ _ | ldaq => exact ldaq _ _ | strl => exact strl _ _ | fence => exact fence _ _ _ | vld => exact vld _ _ _
  | vst => exact vst _ _ _ | vlds => exact vlds _ _ _ _ | vsts => exact vsts _ _ _ _ | vldx => exact vldx _ _ _ _ _
  | vstx => exact vstx _ _ _ _ _ | vldb => exact vldb _ _ _ | vamoadd => exact vamoadd _ _ _ _ _ | vldff => exact vldff _ _ _
  | scopy => exact scopy _ _ _ _ _ | spat => exact spat _ _ | sstrm => exact sstrm _ _ _ | swaitm => exact swaitm _ _
  | stestm => exact stestm _ _ _ | sclrm => exact sclrm _ _ | flpop => exact flpop _ _ | flrel => exact flrel _ _
  | flpush => exact flpush _ _ | fldone => exact fldone _ _ | ecmd => exact ecmd _ _ | ecancel => exact ecancel _ _
  | estat => exact estat _ _ _ | spawn => exact spawn _ _ | jend => exact jend | jdead => exact jdead _ | jtight => exact jtight _ _
  | jwid => exact jwid _ _ _ | jself => exact jself _ | jabort => exact jabort _ _ | jinfo => exact jinfo _ _
  | msendrq => exact msendrq _ _ _ _ | msendrp => exact msendrp _ _ _ _ | mtag => exact mtag _ _ _ | men => exact men _
  | mdis => exact mdis _ | mpend => exact mpend _ | mclr => exact mclr _ _ | warm => exact warm _ _ _ _ | wpost => exact wpost _ _ _
  | wsig => exact wsig _ _ | wstat => exact wstat _ _ | binit => exact binit _ _ _ | barrive => exact barrive _ | bwait => exact bwait _ _ _
  | bsync => exact bsync _ _ | qopen => exact qopen _ _ _ | qclose => exact qclose _ _ | qstat => exact qstat _ _ _ | trap => exact trap _
  | tret => exact tret | tretSkip => exact tretSkip | svc => exact svc _ _ _ | gateinfo => exact gateinfo _ _ | enmtr => exact enmtr _ _ _
  | pgateGate => exact pgateGate _ _ | pgateUngate => exact pgateUngate _ _ | pgateQuery => exact pgateQuery _ _ | halt => exact halt _
  | ctxsave => exact ctxsave _ _ _ | ctxload => exact ctxload _ _ _ | tlbinv => exact tlbinv _ _ | idle => exact idle _ | brk => exact brk _
  | rsvadd => exact rsvadd _ _
  | _ => rintro c ⟨⟩

end Sys2Proof.Laws.Encoding

namespace Sys2Proof
open Laws.Encoding (Fits immBase_eight fmt_code_lt fits_toChain)

@[simp] theorem xqFits_none : XqFits none := nofun

@[simp] theorem xqFits_toXq (q : Qual) : XqFits q.toXq := by
  obtain ⟨_ | ⟨m, i⟩, _ | f⟩ := q <;> rintro me mr mi fo ⟨⟩
  · exact ⟨by decide, fmt_code_lt f⟩
  · exact ⟨m.isLt, by decide⟩
  · exact ⟨m.isLt, fmt_code_lt f⟩

@[simp] theorem xqFits_foXq (fo : Option Fmt) : XqFits (foXq fo) := by
  cases fo with
  | none => exact xqFits_none
  | some f => rintro me mr mi fo ⟨⟩; exact ⟨by decide, fmt_code_lt f⟩

@[simp] theorem xqFits_amoXq (w : Bool) : XqFits (amoXq w) := by
  cases w
  · exact xqFits_none
  · rintro me mr mi fo ⟨⟩; decide

theorem Chain.Canonical.of_xi_nil {c : Chain} (fits : Fits c) (low : c.xr = false → c.D < 16 ∧ c.A < 16 ∧ c.B < 16 ∧ c.C = 0)
    (qual : XqFits c.xq) (hxi : c.xi = []) : c.Canonical := ⟨fits, low, qual, by simp [hxi]⟩

theorem xqCount_eq (q : Qual) : q.xqCount = q.toXq.isSome.toNat := by obtain ⟨_ | _, _ | _⟩ := q <;> rfl

theorem waitWords_length_le (mx en : Fin 16) : (waitWords mx en).length ≤ 1 := by
  unfold waitWords
  split <;> simp

/-- Without an XR word no register field has its high bit, and C is zero (R56). -/
theorem low_toChain {i : Instr} {c : Chain} (hc : toChain i = some c) (hx : c.xr = false) :
    c.D < 16 ∧ c.A < 16 ∧ c.B < 16 ∧ c.C = 0 := by
  cases i with
  | addi _ _ v | andi _ _ v | ori _ _ v | xori _ _ v | beq _ _ v | bne _ _ v | blt _ _ v | bge _ _ v | bltn _ _ v | bgen _ _ v
  | slli _ _ v | srli _ _ v | srai _ _ v | lih _ _ v | vceqi _ _ v | vclti _ _ v | ldd _ _ v | std _ _ v | lb _ _ v | lbn _ _ v
  | lh _ _ v | lhn _ _ v | lw _ _ v | lwn _ _ v | sb _ _ v | sh _ _ v | sw _ _ v | pref _ _ v =>
    have hv := immBase_four_lt v
    cases hc
    simp only [Bool.or_eq_false_iff, decide_eq_false_iff_not, and_true] at hx ⊢
    omega
  | li _ v | beqz _ v | bnez _ v | jal _ v | addpc _ v | trap v =>
    have hv := immBase_eight v
    cases hc
    simp only [decide_eq_false_iff_not, and_true] at hx ⊢
    omega
  | get _ x | set _ x | brk x =>
    have hbyte := x.isLt
    cases hc
    simp only [decide_eq_false_iff_not, and_true] at hx ⊢
    omega
  | _ => cases hc <;> simp only [Bool.or_eq_false_iff, decide_eq_false_iff_not, fmt_code_lt, and_true, reduceCtorEq] at hx ⊢ <;> omega

/-- The chain of every well-formed instruction is canonical. -/
theorem canonical_toChain {i : Instr} (h : i.wellFormed = true) {c : Chain} (hc : toChain i = some c) : c.Canonical := by
  have hfits := fits_toChain i c hc
  have hlow := low_toChain hc
  cases i with
  | addi _ _ v | andi _ _ v | ori _ _ v | xori _ _ v | beq _ _ v | bne _ _ v | blt _ _ v | bge _ _ v | bltn _ _ v | bgen _ _ v
  | li _ v | beqz _ v | bnez _ v | jal _ v | addpc _ v =>
    obtain ⟨hle, -⟩ := signedXi_spec h (Nat.sub_le 4 _)
    cases hc
    exact ⟨hfits, hlow, xqFits_none, (immWords_length _ _ _).trans_le hle⟩
  | loopsm _ _ _ v =>
    obtain ⟨hfit, -⟩ := Bool.and_eq_true_iff.mp h
    obtain ⟨hle, -⟩ := signedXi_spec hfit (Nat.sub_le 4 _)
    cases hc
    exact ⟨hfits, hlow, xqFits_none, (immWords_length _ _ _).trans_le hle⟩
  | ldd _ _ v | std _ _ v | lb _ _ v | lbn _ _ v | lh _ _ v | lhn _ _ v | lw _ _ v | lwn _ _ v | sb _ _ v | sh _ _ v | sw _ _ v
  | pref _ _ v =>
    obtain ⟨hle, -⟩ := unsignedXi_spec h (Nat.sub_le 4 _)
    cases hc
    exact ⟨hfits, hlow, xqFits_none, (immWords_length _ _ _).trans_le hle⟩
  | vceqi _ _ v q | vclti _ _ v q =>
    obtain ⟨hle, -⟩ := signedXi_spec h ((Nat.min_le_right _ _).trans (Nat.sub_le 4 _))
    cases hc
    exact ⟨hfits, hlow, xqFits_toXq q,
      (immWords_length _ _ _).trans_le (xqCount_eq q ▸ hle.trans (Nat.min_le_right _ _))⟩
  | trap v =>
    obtain ⟨hle, -⟩ := unsignedXi_spec h (by decide)
    cases hc
    exact ⟨hfits, hlow, xqFits_none, (immWords_length _ _ _).trans_le (hle.trans (Nat.min_le_right _ _))⟩
  | slli d a v | srli d a v | srai d a v =>
    obtain ⟨hle, -⟩ := unsignedXi_spec (fitsUnsigned_shift (of_decide_eq_true h)) (by decide)
    have hroom : 1 ≤ 4 - (1 + (decide (16 ≤ d.val) || decide (16 ≤ a.val)).toNat + 0) := by
      have := (decide (16 ≤ d.val) || decide (16 ≤ a.val)).toNat_le
      omega
    cases hc
    exact ⟨hfits, hlow, xqFits_none, (immWords_length _ _ _).trans_le (hle.trans hroom)⟩
  | lih _ _ v =>
    obtain ⟨-, hroom⟩ := Bool.and_eq_true_iff.mp h
    cases hc
    exact ⟨hfits, hlow, xqFits_none, (immWords_length _ _ _).trans_le (of_decide_eq_true hroom)⟩
  | waitc _ _ _ mx en =>
    cases hc
    exact ⟨hfits, hlow, xqFits_none, (waitWords_length_le mx en).trans (show 1 ≤ 4 - (1 + 0 + 0) by decide)⟩
  | _ =>
    -- The other instructions have no immediate, so no XI word; a unit's event has no chain.
    cases hc <;> exact .of_xi_nil hfits hlow (by simp) rfl

/-! ### The decoder's reading of the fields -/

@[simp] theorem sreg_val (r : SReg) : sreg r.val = r := Fin.ofNat_val_eq_self r
@[simp] theorem vreg_val (r : VReg) : vreg r.val = r := Fin.ofNat_val_eq_self r
@[simp] theorem mreg_val (r : MReg) : mreg r.val = r := Fin.ofNat_val_eq_self r
@[simp] theorem zreg_val (r : ZReg) : zreg r.val = r := Fin.ofNat_val_eq_self r

@[simp] theorem Fmt.ofCode_code (f : Fmt) : Fmt.ofCode f.code = f := by cases f <;> rfl
@[simp] theorem Fmt.code_lt (f : Fmt) : f.code < 15 := by cases f <;> decide

section
variable (page major D A B C : Nat) (xr : Bool) (q : Qual) (xi : List Nat)

@[simp] theorem Chain.qualOk_toXq : (Chain.mk page major D A B C xr q.toXq xi).qualOk = true := by
  obtain ⟨_ | ⟨m, i⟩, _ | f⟩ := q <;> rfl

@[simp] theorem Chain.qual_toXq : (Chain.mk page major D A B C xr q.toXq xi).qual = q := by
  obtain ⟨_ | ⟨m, i⟩, _ | f⟩ := q <;> simp [Chain.qual, Qual.toXq]

@[simp] theorem Chain.qualMasked_toXq : (Chain.mk page major D A B C xr q.toXq xi).qualMasked = q.mask.isSome := by
  obtain ⟨_ | ⟨m, i⟩, _ | f⟩ := q <;> rfl

@[simp] theorem Chain.foOk_foXq (fo : Option Fmt) : (Chain.mk page major D A B C xr (foXq fo) xi).foOk = true := by
  cases fo <;> rfl

@[simp] theorem Chain.qual_fo_foXq (fo : Option Fmt) : (Chain.mk page major D A B C xr (foXq fo) xi).qual.fo = fo := by
  cases fo <;> simp [Chain.qual, foXq]

@[simp] theorem Chain.amoOk_amoXq (w : Bool) : (Chain.mk page major D A B C xr (amoXq w) xi).amoOk = true := by
  cases w <;> rfl

@[simp] theorem Chain.amoW32_amoXq (w : Bool) : (Chain.mk page major D A B C xr (amoXq w) xi).amoW32 = w := by
  cases w <;> rfl

variable (xq : Option (Bool × Nat × Bool × Nat)) (mx en : Fin 16)

@[simp] theorem Chain.waitXiOk_waitWords : (Chain.mk page major D A B C xr xq (waitWords mx en)).waitXiOk = true := by
  unfold waitWords
  split
  · rfl
  · exact decide_eq_true (by omega)

@[simp] theorem Chain.waitLimit_one_waitWords : (Chain.mk page major D A B C xr xq (waitWords mx en)).waitLimit 1 = mx := by
  unfold waitWords
  split
  · next h => exact Fin.ext h.1.symm
  · exact Fin.ext (by simp only [waitLimit, Fin.ofNat]; omega)

@[simp] theorem Chain.waitLimit_zero_waitWords : (Chain.mk page major D A B C xr xq (waitWords mx en)).waitLimit 0 = en := by
  unfold waitWords
  split
  · next h => exact Fin.ext h.2.symm
  · exact Fin.ext (by simp only [waitLimit, Fin.ofNat]; omega)

end

@[simp] theorem byte_fields (x : Byte) : BitVec.ofNat 8 (x.toNat / 16 * 16 + x.toNat % 16) = x := by
  rw [Nat.div_add_mod', BitVec.ofNat_toNat, BitVec.setWidth_eq]

section
variable {c : Chain}

theorem select_page00 (h : c.page = 0x00) : select c = selectPage00 c := by simp only [select, h]
theorem select_page01 (h : c.page = 0x01) : select c = selectPage01 c := by simp only [select, h]
theorem select_page02 (h : c.page = 0x02) : select c = selectPage02 c := by simp only [select, h]
theorem select_page03 (h : c.page = 0x03) : select c = selectPage03 c := by simp only [select, h]
theorem select_page10 (h : c.page = 0x10) : select c = selectPage10 c := by simp only [select, h]
theorem select_page11 (h : c.page = 0x11) : select c = selectPage11 c := by simp only [select, h]
theorem select_page12 (h : c.page = 0x12) : select c = selectPage12 c := by simp only [select, h]
theorem select_page13 (h : c.page = 0x13) : select c = selectPage13 c := by simp only [select, h]
theorem select_page14 (h : c.page = 0x14) : select c = selectPage14 c := by simp only [select, h]
theorem select_page30 (h : c.page = 0x30) : select c = selectPage30 c := by simp only [select, h]
theorem select_page31 (h : c.page = 0x31) : select c = selectPage31 c := by simp only [select, h]
theorem select_page32 (h : c.page = 0x32) : select c = selectPage32 c := by simp only [select, h]
theorem select_page40 (h : c.page = 0x40) : select c = selectPage40 c := by simp only [select, h]
theorem select_page48 (h : c.page = 0x48) : select c = selectPage48 c := by simp only [select, h]
theorem select_page50 (h : c.page = 0x50) : select c = selectPage50 c := by simp only [select, h]
theorem select_page51 (h : c.page = 0x51) : select c = selectPage51 c := by simp only [select, h]
theorem select_page52 (h : c.page = 0x52) : select c = selectPage52 c := by simp only [select, h]
theorem select_page60 (h : c.page = 0x60) : select c = selectPage60 c := by simp only [select, h]
theorem select_page68 (h : c.page = 0x68) : select c = selectPage68 c := by simp only [select, h]
theorem select_page70 (h : c.page = 0x70) : select c = selectPage70 c := by simp only [select, h]
theorem select_page71 (h : c.page = 0x71) : select c = selectPage71 c := by simp only [select, h]
theorem select_page78 (h : c.page = 0x78) : select c = selectPage78 c := by simp only [select, h]

end

/-- From the fields of its chain the decoder selects the instruction (R64, R66 to R69). -/
theorem select_toChain {i : Instr} (h : i.wellFormed = true) {c : Chain} (hc : toChain i = some c) : select c = some i := by
  cases i with
  | add | sub | and | or | xor | sll | mov | jalr | not | neg | setvl =>
    cases hc
    simp [select_page00, selectPage00]
  | srl | sra | mul | mulh | mulhn | div | divn | rem | remn | slt | sltn =>
    cases hc
    simp [select_page01, selectPage01]
  | min | max | minn | maxn | clz | ctz | popc | sext | zext | addsl | select =>
    cases hc
    simp [select_page02, selectPage02]
  | time | rdcnt =>
    cases hc
    simp [select_page03, selectPage03]
  | vadd | vsub | vmul | vmac | vmin | vmax | vminn | vmaxn | vand | vor | vxor | vsll | vsrl | vsra | vdiv =>
    cases hc
    simp [select_page10, selectPage10]
  | vdivn | vrem | vremn | vadds | vsubs | vmulhq | vabs | vneg | vrcp | vrsqrt | vexp2 | vlog2 | vsqrt | vclass | vscale =>
    cases hc
    simp [select_page11, selectPage11]
  | vceq | vcne | vclt | vcle | vcltn | vclen | mand | mor | mxor | mnot | mcnt | many | mfirst =>
    cases hc
    simp [select_page12, selectPage12]
  | vmv | vsplat | vext | vins | vslideup | vslidedn | vperm | vid | vredsum | vredmax | vredmin =>
    cases hc
    simp [select_page13, selectPage13]
  | vcvt | vqscale | vquant | vdeq | vcblk | vwidenlo | vwidenhi | vnarrow =>
    cases hc
    simp [select_page14, selectPage14, Fin.is_le]
  | vcadd | vcsub | vcmul | vcmulj | vcmac | vcmacj | vconj | vcrot | vcabs2 | vcscale | vcdot | vcreal | vcswap | vcmag | vcmacs =>
    cases hc
    simp [select_page30, selectPage30]
  | vbfly2 | vbfly3 | vbfly4 | vbfly5 | vtwid | vdrev | vtrans =>
    cases hc
    simp [select_page31, selectPage31]
  | vmgmul | vmgmulh | vmgmv | vhchol | vhinv | vschur | vschurv | vhsolve | vmgtr | vhreg =>
    cases hc
    simp [select_page32, selectPage32]
  | mxcfg | mma | mmaz | mxzero | mxst | mxld | mxldcb | vmovz | vmovtoz | mxpark | mxunpark | mxscale | mxshare | mxstat =>
    cases hc
    simp [select_page40, selectPage40, Fin.is_le]
  | gcfg =>
    cases hc
    simp [select_page48, selectPage48]
  | ldx | stx | cflush | cinv =>
    cases hc
    simp [select_page50, selectPage50]
  | amoadd | amoand | amoor | amoxor | amomin | amomax | amominn | amomaxn | amoswp | amocas | ldaq | strl | fence =>
    cases hc
    simp [select_page51, selectPage51]
  | vld | vst | vlds | vsts | vldx | vstx | vldb | vamoadd | vldff =>
    cases hc
    simp [select_page52, selectPage52]
  | scopy | spat | sstrm | swaitm | stestm | sclrm | flpop | flrel | flpush | fldone | ecmd | ecancel | estat =>
    cases hc
    simp [select_page60, selectPage60]
  | spawn | jend | jdead | jtight | jwid | jself | jabort | jinfo =>
    cases hc
    simp [select_page68, selectPage68]
  | mtag | men | mdis | mpend | mclr | warm | wpost | wsig | wstat | binit | barrive | bwait | bsync =>
    cases hc
    simp [select_page70, selectPage70, Fin.is_le]
  | qopen | qclose | qstat =>
    cases hc
    simp [select_page71, selectPage71]
  | tret | tretSkip | svc | gateinfo | enmtr | pgateGate | pgateUngate | pgateQuery | halt | ctxsave | ctxload | tlbinv | idle | rsvadd =>
    cases hc
    simp [select_page78, selectPage78]
  | vcompress _ _ q | vexpand _ _ q | viota _ q | vmerge _ _ _ q =>
    have hmask : q.mask.isSome = true := h
    cases hc
    simp [select_page13, selectPage13, hmask]
  | gsend _ vp _ | gld vp _ _ | gsum vp _ | gsumx vp _ =>
    have heven : vp.val % 2 = 0 := of_decide_eq_true h
    cases hc
    simp [select_page48, selectPage48, heven]
  | gdamp vp vq _ | gmarg vp vq _ | gembed vp vq _ | gmean vp vq =>
    obtain ⟨hp, hq⟩ := Bool.and_eq_true_iff.mp h
    cases hc
    simp [select_page48, selectPage48, of_decide_eq_true hp, of_decide_eq_true hq]
  | gsendc _ vp b =>
    obtain ⟨hp, hb⟩ := Bool.and_eq_true_iff.mp h
    cases hc
    simpa [select_page48, selectPage48, of_decide_eq_true hp] using hb
  | gstat _ sel =>
    have hsel : gstatSelOk sel = true := h
    cases hc
    simp [select_page48, selectPage48, hsel]
  | msendrq _ _ p n | msendrp _ _ p n =>
    have hp : payloadOk p n = true := h
    cases hc
    simp [select_page70, selectPage70, hp]
  | get _ x | set _ x | brk x =>
    have hx : x.toNat / 16 < 16 := by have := x.isLt; omega
    cases hc
    simp [select_page03, selectPage03, select_page78, selectPage78, hx, Nat.mod_lt]
  | addi _ _ v | andi _ _ v | ori _ _ v | xori _ _ v | beq _ _ v | bne _ _ v | blt _ _ v | bge _ _ v | bltn _ _ v | bgen _ _ v =>
    obtain ⟨-, hfit⟩ := signedXi_spec h (Nat.sub_le 4 _)
    cases hc
    simp [select_page00, selectPage00, select_page01, selectPage01, select_page02, selectPage02, select_page03, selectPage03,
      immSigned_of_fits hfit, immBase_four_lt]
  | li _ v | beqz _ v | bnez _ v | jal _ v | addpc _ v =>
    obtain ⟨-, hfit⟩ := signedXi_spec h (Nat.sub_le 4 _)
    cases hc
    simp [select_page00, selectPage00, select_page02, selectPage02, Nat.div_add_mod', immSigned_of_fits hfit, immBase_eight_div, Nat.mod_lt]
  | ldd _ _ v | std _ _ v | lb _ _ v | lbn _ _ v | lh _ _ v | lhn _ _ v | lw _ _ v | lwn _ _ v | sb _ _ v | sh _ _ v | sw _ _ v
  | pref _ _ v =>
    obtain ⟨-, hfit⟩ := unsignedXi_spec h (Nat.sub_le 4 _)
    cases hc
    simp [select_page00, selectPage00, select_page50, selectPage50, immUnsigned_of_fits hfit, immBase_four_lt]
  | vceqi _ _ v | vclti _ _ v =>
    obtain ⟨hle, hfit⟩ := signedXi_spec h ((Nat.min_le_right _ _).trans (Nat.sub_le 4 _))
    have htwo : signedXi 4 0 v ≤ 2 := hle.trans (Nat.min_le_left _ _)
    cases hc
    simp [select_page12, selectPage12, immSigned_of_fits hfit, immBase_four_lt, htwo]
  | loopsm _ _ _ v =>
    obtain ⟨hfits, hok⟩ := Bool.and_eq_true_iff.mp h
    obtain ⟨-, hfit⟩ := signedXi_spec hfits (Nat.sub_le 4 _)
    have hpos : 1 ≤ signedXi 0 1 v := lo_le_of_fits hfit
    cases hc
    simp [select_page03, selectPage03, immSigned_zero_of_fits hfit, hok, hpos]
  | slli _ _ v | srli _ _ v | srai _ _ v =>
    have hv : v < 64 := of_decide_eq_true h
    obtain ⟨-, hfit⟩ := unsignedXi_spec (fitsUnsigned_shift hv) (by decide)
    cases hc
    simp [select_page01, selectPage01, immUnsigned_of_fits hfit, immBase_four_lt, hv]
  | lih _ _ v =>
    obtain ⟨hlt, -⟩ := Bool.and_eq_true_iff.mp h
    have hv : v < 65536 := of_decide_eq_true hlt
    have hfit : fitsUnsigned 4 2 v = true := decide_eq_true (by omega)
    cases hc
    simp [select_page02, selectPage02, immUnsigned_of_fits hfit, immBase_four_lt, hv]
  | trap v =>
    obtain ⟨hle, hfit⟩ := unsignedXi_spec h (by decide)
    have hone : unsignedXi 8 v ≤ 1 := hle.trans (Nat.min_le_left _ _)
    cases hc
    simp [select_page78, selectPage78, Nat.div_add_mod', immUnsigned_of_fits hfit, immBase_eight_div, Nat.mod_lt, hone]
  | waitc =>
    cases hc
    simp [select_page03, selectPage03]
  | _ => cases hc

/-! ### The statements -/

/-- What is encoded is well formed, and its words are those of its chain. -/
theorem encode_eq_some {i : Instr} {ws : List Nat} (h : encode i = some ws) :
    i.wellFormed = true ∧ ∃ c, toChain i = some c ∧ c.words = ws := by
  unfold encode at h
  split at h
  · next hwf => exact ⟨hwf, Option.map_eq_some_iff.mp h⟩
  · cases h

/-- Settles O1: the words of a canonical chain are read back as the chain, and the chain selects its instruction. -/
theorem decodeEncodeRoundTrip : Obligations.DecodeEncodeRoundTrip := by
  unfold Obligations.DecodeEncodeRoundTrip
  intro i ws rest h
  obtain ⟨hwf, c, hc, rfl⟩ := encode_eq_some h
  exact decode_eq_ok_iff.mpr ⟨c, (canonical_toChain hwf hc).readChain_words rest, select_toChain hwf hc⟩

theorem encodedChainShape : Claims.EncodedChainShape := by
  intro i ws h
  obtain ⟨hwf, c, hc, rfl⟩ := encode_eq_some h
  have hcan := canonical_toChain hwf hc
  rw [Chain.words_eq]
  have hlen : (c.prefixWords ++ [c.baseWord]).length = c.prefixWords.length + 1 := List.length_append
  have hroom := hcan.prefixWords_length_le
  refine ⟨by omega, by omega, fun k hk => ?_⟩
  rw [List.getElem_append]
  split
  · next hlt =>
    obtain ⟨hw, hbits⟩ := hcan.prefix_bits (List.getElem_mem hlt)
    exact ⟨hw, by omega⟩
  · have hbase := hcan.baseWord_lt
    rw [List.getElem_singleton]
    exact ⟨by omega, by omega⟩

/-- Five prefixes in a row are refused; what decodes depends on its chain alone (R63). -/
theorem fifthPrefixWordRefused : Claims.FifthPrefixWordRefused := by
  refine ⟨fun a b c d e rest ha hb hc hd he => ?_, fun ws i n h => ?_⟩
  · have hread : readChain 4 true false {} 0 (a :: b :: c :: d :: e :: rest) = .error .prefixChain :=
      readChain_prefixChain 4 true false {} 0 [a, b, c, d, e] rest rfl (by simp [bitsOf_top, ha, hb, hc, hd, he])
    simp only [decode, hread]
  · obtain ⟨c, hread, hsel⟩ := decode_eq_ok_iff.mp h
    obtain ⟨k, hk, hpos, hroom, hlen, htake⟩ := readChain_ok hread
    obtain rfl : n = k := by omega
    exact ⟨hpos, hroom, hlen, fun rest => decode_eq_ok_iff.mpr ⟨c, htake rest, hsel⟩⟩

/-- Settles O2: the prefixes of an encoded chain and its base word are told apart by their top bits, which the decoder counts. -/
theorem encodedChains : Obligations.EncodedChains := by
  unfold Obligations.EncodedChains
  exact ⟨encodedChainShape, fifthPrefixWordRefused⟩

/-- Settles O3: each sample is the words the assembler gives the instruction, which the decoder reads back. -/
theorem sampleWordsDecode : Obligations.SampleWordsDecode := by
  unfold Obligations.SampleWordsDecode
  exact ⟨decodeEncodeRoundTrip _ [0x0000] [] (by decide), decodeEncodeRoundTrip _ [0xD000] [] (by decide),
    decodeEncodeRoundTrip _ [0x0123] [] (by decide), decodeEncodeRoundTrip _ [0x761F] [] (by decide),
    decodeEncodeRoundTrip _ [0xF840, 0x1123] [] (by decide)⟩

end Sys2Proof

/-! PROOFS. Every step has a next state, and what the turn of a step gives (R54, R63, R82, R430). No definition of the model builds a fault
or a refusal: every outcome is a tree of conditions, of waits and of traps whose leaves are next states. One lemma says so for each
shared operation, and each row of the table follows from its own; a turn's outcome then either stands, or waits for a home. -/

namespace Sys2Proof.Machine
open Sys2Proof

/-- The outcome is a next state. -/
def HasNext (o : Out) : Prop := ∃ t, o = .next t

namespace HasNext

theorem next (t : State) : HasNext (.next t) := ⟨t, rfl⟩

theorem ite {c : Prop} [Decidable c] {a b : Out} (ha : HasNext a) (hb : HasNext b) : HasNext (if c then a else b) := by
  split
  · exact ha
  · exact hb

end HasNext

/-! ### How an instruction issues, waits or traps -/

section
variable {s : State} {cause : Cause} {v : Word} {d a b c p : SReg} {reads writes : List SReg} {vl : Bool} {ins : Instr} {q : Qual}

theorem State.trapCur_hasNext : HasNext (s.trapCur cause v) := .ite (.next _) (.next _)

theorem State.trapWith_hasNext {f : State → State} : HasNext (s.trapWith f cause v) := .ite (.next _) State.trapCur_hasNext

theorem State.badTrap_hasNext {r : SReg} {x : BadReg} : HasNext (s.badTrap r x) := State.trapWith_hasNext

theorem State.freeIssue_hasNext {eff : State → Ctx → Out} (heff : ∀ c, HasNext (eff s c)) : HasNext (s.freeIssue reads writes vl eff) := by
  rcases s.freeIssue_cases reads writes vl eff with h | ⟨r, x, -, h⟩ | ⟨-, -, h⟩ <;> rw [h]
  · exact .next _
  · exact State.badTrap_hasNext
  · exact heff _

theorem State.heldOp_hasNext {eff : State → Out} (heff : HasNext (eff s)) : HasNext (s.heldOp reads writes eff) := by
  rcases s.heldOp_cases reads writes eff with h | ⟨r, x, -, h⟩ | ⟨-, -, h⟩ <;> rw [h]
  · exact .next _
  · exact State.badTrap_hasNext
  · exact heff

theorem State.supervisorOnly_hasNext {k : State → Out} (hk : HasNext (k s)) : HasNext (s.supervisorOnly k) := .ite hk State.trapCur_hasNext

theorem State.freeOp_hasNext {eff : Ctx → Ctx} : HasNext (s.freeOp reads writes vl eff) := State.freeIssue_hasNext fun _ => .next _

theorem State.regOp_hasNext {val : Ctx → Word} : HasNext (s.regOp reads d val) := State.freeOp_hasNext

theorem State.heldReg_hasNext {val : Ctx → Word} : HasNext (s.heldReg reads d val) := State.heldOp_hasNext (.next _)

theorem State.divOp_hasNext {f : Word → Word → Word × Flags} : HasNext (s.divOp d a b f) := State.heldOp_hasNext (.next _)

theorem State.branchOp_hasNext {off : Int} {t : BranchTest} : HasNext (s.branchOp reads off t) :=
  .ite (.next _) (State.freeIssue_hasNext fun _ => .next _)

/-! ### Entry into the vector queue and the matrix queue -/

theorem State.vEnter_hasNext {sa sb : Ctx → Word} {legal : Ctx → Bool} {check : Ctx → Option TrapInfo} :
    HasNext (s.vEnter ins reads writes sa sb legal check) := by
  refine .ite (.next _) (.ite State.trapCur_hasNext ?_)
  split
  · exact State.badTrap_hasNext
  · split
    · exact State.trapCur_hasNext
    · exact .next _

theorem State.vIssue_hasNext {sa sb : Ctx → Word} {legal : Ctx → Bool} : HasNext (s.vIssue ins reads writes sa sb legal) :=
  State.vEnter_hasNext

theorem State.vPlain_hasNext {ok : Fmt → Bool} : HasNext (s.vPlain ins q ok) := State.vIssue_hasNext

theorem State.vScalar_hasNext {ok : Fmt → Bool} : HasNext (s.vScalar ins q a ok) := State.vIssue_hasNext

theorem State.bflyEnter_hasNext : HasNext (s.bflyEnter ins b q) := State.vEnter_hasNext

theorem State.vMemEnter_hasNext {ok : Fmt → Bool} : HasNext (s.vMemEnter ins reads b q ok) := .ite (.next _) State.vIssue_hasNext

theorem State.gaussEnter_hasNext {checks : Ctx → List (Option TrapInfo)} : HasNext (s.gaussEnter ins reads a b writes checks) :=
  State.vEnter_hasNext

theorem State.gsendEnter_hasNext : HasNext (s.gsendEnter ins d b) := .ite (.next _) State.gaussEnter_hasNext

theorem State.mxGate_hasNext {raises : Bool} {k : MatrixUnit → Out} (hk : ∀ m, HasNext (k m)) : HasNext (s.mxGate raises k) := by
  unfold State.mxGate
  dsimp only
  split
  · exact State.trapCur_hasNext
  · exact .ite State.trapCur_hasNext (.ite State.trapWith_hasNext (hk _))

theorem State.mxIssue_hasNext {check : Ctx → Option TrapInfo} {op : Ctx → MxOp} : HasNext (s.mxIssue reads check op) := by
  refine State.heldOp_hasNext (State.mxGate_hasNext fun m => ?_)
  dsimp only
  split
  · exact State.trapCur_hasNext
  · exact .ite (.next _) (.next _)

theorem State.mxMove_hasNext : HasNext (s.mxMove ins b q) := State.mxGate_hasNext fun _ => State.vEnter_hasNext

/-! ### Loads, stores and atomics -/

theorem State.loadOp_hasNext {addr : Ctx → Word} {size : Nat} {signed : Bool} : HasNext (s.loadOp reads d addr size signed) := by
  refine .ite (.next _) (State.freeIssue_hasNext fun c => ?_)
  dsimp only
  split
  · exact State.trapCur_hasNext
  · exact .next _

theorem State.loadImm_hasNext {imm size : Nat} {signed : Bool} : HasNext (s.loadImm d a imm size signed) := State.loadOp_hasNext

theorem State.storeOp_hasNext {addr : Ctx → Word} {size : Nat} {release : Bool} : HasNext (s.storeOp reads d addr size release) := by
  refine .ite (.next _) (State.heldOp_hasNext ?_)
  dsimp only
  split
  · exact State.trapCur_hasNext
  · exact .next _

theorem State.storeImm_hasNext {imm size : Nat} : HasNext (s.storeImm d a imm size) := State.storeOp_hasNext

theorem State.lineOp_hasNext {k : AccessKind} {kind : StoreKind} : HasNext (s.lineOp a k kind) := by
  refine .ite (.next _) (State.heldOp_hasNext ?_)
  dsimp only
  split
  · exact State.trapCur_hasNext
  · exact .ite State.trapCur_hasNext (.ite (.next _) (.next _))

theorem State.amoOp_hasNext {op : AmoOp} {w32 : Bool} : HasNext (s.amoOp op d a b c w32) := by
  refine .ite (.next _) (State.heldOp_hasNext ?_)
  dsimp only
  split
  · exact .next _
  · refine .ite ?_ State.trapCur_hasNext
    split
    · exact State.trapCur_hasNext
    · exact .ite (.next _) (.ite State.trapCur_hasNext (.next _))

theorem execLdaq_hasNext : HasNext (execLdaq d a s) := by
  refine .ite (.next _) (State.heldOp_hasNext ?_)
  dsimp only
  split
  · exact State.trapCur_hasNext
  · exact .next _

/-- A class S load of words: a trap, a wait, or what its continuation gives. -/
theorem State.loadWords_hasNext {va : Word} {n : Nat} {k : State → List Nat → Out} (hk : ∀ t ws, HasNext (k t ws)) :
    HasNext (s.loadWords va n k) := by
  unfold State.loadWords
  dsimp only
  split
  · exact State.trapCur_hasNext
  · refine .ite (.next _) ?_
    split
    · exact State.trapCur_hasNext
    · exact hk _ _

/-! ### Scalar, matrix and belief-memory instructions of their own -/

theorem execJalr_hasNext : HasNext (execJalr d a s) := State.freeIssue_hasNext fun _ => .ite State.trapCur_hasNext (.next _)

theorem execGcfg_hasNext {n : Fin 16} : HasNext (execGcfg n a s) :=
  State.heldOp_hasNext (.ite State.trapCur_hasNext (.ite State.trapCur_hasNext (.next _)))

theorem execGstat_hasNext {sel : Fin 16} : HasNext (execGstat d sel s) := by
  refine State.heldOp_hasNext ?_
  dsimp only
  split
  case h_6 => exact .ite (.ite (.next _) (.next _)) (.next _)
  case h_7 => exact State.trapCur_hasNext
  all_goals exact .ite (.next _) (.next _)

theorem execMxstat_hasNext {sel : Fin 9} : HasNext (execMxstat d sel s) := by
  refine State.heldOp_hasNext ?_
  split
  · exact State.trapCur_hasNext
  · exact .ite (.next _) (.next _)

theorem execMxpark_hasNext : HasNext (execMxpark a s) := by
  refine State.heldOp_hasNext ?_
  dsimp only
  split
  · exact State.trapCur_hasNext
  · refine .ite State.trapCur_hasNext ?_
    split
    · exact State.trapCur_hasNext
    · exact .ite (.next _) (.next _)

theorem execMxunpark_hasNext : HasNext (execMxunpark a s) := by
  refine State.heldOp_hasNext ?_
  dsimp only
  split
  · exact State.trapCur_hasNext
  · refine .ite State.trapCur_hasNext ?_
    split
    · exact State.trapCur_hasNext
    · exact .ite (.next _) (.ite State.trapWith_hasNext (.next _))

theorem execGet_hasNext {idx : BitVec 8} : HasNext (execGet d idx s) := by
  refine .ite State.trapCur_hasNext ?_
  split
  · exact State.trapCur_hasNext
  · exact .ite (.next _) State.freeOp_hasNext

theorem execSet_hasNext {idx : BitVec 8} : HasNext (execSet a idx s) := by
  refine .ite State.trapCur_hasNext (.ite State.trapCur_hasNext (State.heldOp_hasNext ?_))
  refine .ite (.next _) (.ite State.trapCur_hasNext (.ite ?_ (.next _)))
  split
  · exact State.trapCur_hasNext
  · exact .next _

theorem execRdcnt_hasNext {sel : Fin 7} : HasNext (execRdcnt d sel s) := .ite (.next _) (State.freeIssue_hasNext fun _ => .next _)

theorem execWaitc_hasNext {ld st cp mx en : Fin 16} : HasNext (execWaitc ld st cp mx en s) := by
  refine .ite (.next _) ?_
  split
  · exact .ite State.trapWith_hasNext State.freeOp_hasNext
  · exact State.freeOp_hasNext

/-! ### Messages, weirs, barriers and launch groups -/

theorem State.outboxFull_hasNext {slot : Bool} : HasNext (s.outboxFull v slot) := .ite State.trapCur_hasNext (.next _)

theorem State.sendMsg_hasNext {reply : Bool} {n : Nat} : HasNext (s.sendMsg reply d a p n) := by
  refine State.heldOp_hasNext (.ite State.trapCur_hasNext (.ite State.trapCur_hasNext (.ite (.next _)
    (.ite State.outboxFull_hasNext (.ite State.outboxFull_hasNext ?_)))))
  split
  · exact .next _
  · exact .next _

theorem execMtag_hasNext {mx : Fin 2} : HasNext (execMtag d a mx s) := by
  refine .ite (.next _) (State.heldOp_hasNext (.ite State.trapCur_hasNext (.ite State.trapCur_hasNext ?_)))
  split
  · exact State.trapCur_hasNext
  · exact .ite (.next _) (.ite State.trapCur_hasNext (.ite State.trapCur_hasNext (.next _)))

theorem State.tagMask_hasNext {k : State → Nat → List Nat → Out} (hk : ∀ core ts, HasNext (k s core ts)) : HasNext (s.tagMask a writes k) :=
  State.heldOp_hasNext (.ite State.trapCur_hasNext (hk _ _))

theorem State.weirOp_hasNext {checks : Ctx → List (Option TrapInfo)} {k : State → Nat → Out} (hk : ∀ x, HasNext (k s x)) :
    HasNext (s.weirOp reads a writes checks k) := by
  refine State.heldOp_hasNext ?_
  dsimp only
  split
  · exact State.trapCur_hasNext
  · exact .ite State.trapCur_hasNext (.ite (.next _) (hk _))

theorem execWarm_hasNext : HasNext (execWarm d a b c s) := State.weirOp_hasNext fun _ => .ite (.next _) (.next _)

theorem execWpost_hasNext : HasNext (execWpost d a b s) :=
  State.weirOp_hasNext fun _ => .ite (.next _) (.ite State.trapCur_hasNext (.next _))

theorem execWsig_hasNext : HasNext (execWsig a b s) := by
  refine State.heldOp_hasNext ?_
  dsimp only
  split
  · exact State.trapCur_hasNext
  · exact .ite State.trapCur_hasNext (.next _)

theorem State.barrierOp_hasNext {checks : Ctx → List (Option TrapInfo)} {k : State → Nat → Nat → Out}
    (hk : ∀ core id, HasNext (k s core id)) : HasNext (s.barrierOp reads b d checks k) := by
  refine State.heldOp_hasNext ?_
  dsimp only
  split
  · exact State.trapCur_hasNext
  · exact .ite State.trapCur_hasNext (hk _ _)

theorem State.barrierWait_hasNext {core id g : Nat} : HasNext (s.barrierWait d core id g) :=
  .ite State.trapWith_hasNext (.ite (.next _) (.next _))

theorem execBinit_hasNext : HasNext (execBinit d a b s) := State.barrierOp_hasNext fun _ _ => .ite State.trapCur_hasNext (.next _)

theorem execBsync_hasNext : HasNext (execBsync d a s) := by
  refine State.barrierOp_hasNext fun core id => ?_
  dsimp only
  split
  · exact State.barrierWait_hasNext
  · exact .ite (.next _) State.barrierWait_hasNext

theorem execBarrive_hasNext : HasNext (execBarrive a s) := State.heldOp_hasNext (.ite State.trapCur_hasNext (.next _))

theorem execQopen_hasNext : HasNext (execQopen d a b s) :=
  State.heldOp_hasNext (.ite State.trapCur_hasNext (.ite State.trapCur_hasNext (.ite (.next _) (.next _))))

theorem execQclose_hasNext : HasNext (execQclose d a s) :=
  State.heldOp_hasNext (.ite State.trapCur_hasNext (.ite (.next _) (.next _)))

theorem execQstat_hasNext {sel : Fin 6} : HasNext (execQstat d a sel s) := by
  refine State.heldOp_hasNext ?_
  dsimp only
  split
  · exact State.trapCur_hasNext
  · exact .ite State.trapCur_hasNext (.next _)

/-! ### Chunk maps, flumes, strips and engines -/

theorem State.mapOp_hasNext {k : State → Nat → Nat → Word → Out} (hk : ∀ c m v, HasNext (k s c m v)) : HasNext (s.mapOp a b writes k) :=
  State.heldOp_hasNext (.ite State.trapCur_hasNext (.ite State.trapCur_hasNext (hk _ _ _)))

theorem State.flumeOp_hasNext {fenced push : Bool} {k : State → Nat → Nat → Out} (hk : ∀ c f, HasNext (k s c f)) :
    HasNext (s.flumeOp reads a writes fenced push k) := by
  refine .ite (.next _) (State.heldOp_hasNext ?_)
  dsimp only
  split
  · exact State.trapCur_hasNext
  · exact hk _ _

theorem State.flumeTake_hasNext {push : Bool} : HasNext (s.flumeTake d a push) :=
  State.flumeOp_hasNext fun _ _ => .ite State.trapCur_hasNext (.ite (.ite (.next _) (.next _)) (.next _))

theorem State.flumeGive_hasNext {push : Bool} : HasNext (s.flumeGive a b push) := by
  refine State.flumeOp_hasNext fun k f => ?_
  dsimp only
  split
  · exact State.trapCur_hasNext
  · exact .ite (.ite (.next _) (.next _)) (.next _)

theorem execScopy_hasNext {sn sd ss sc : SReg} {fo : Option Fmt} : HasNext (execScopy sn sd ss sc fo s) := by
  refine .ite (.next _) (.ite (State.heldOp_hasNext State.trapCur_hasNext) (State.heldOp_hasNext ?_))
  refine .ite State.trapCur_hasNext (.ite State.trapCur_hasNext (.ite State.trapCur_hasNext (.ite (.next _) (.ite (.next _)
    (.ite State.trapCur_hasNext (.ite State.trapCur_hasNext ?_))))))
  split
  · exact State.trapCur_hasNext
  · exact .next _
  · exact .next _

theorem execSstrm_hasNext {n : Fin 8} {sd ss : SReg} : HasNext (execSstrm n sd ss s) := by
  refine .ite (.next _) (State.heldOp_hasNext ?_)
  refine .ite State.trapCur_hasNext (.ite State.trapCur_hasNext (.ite State.trapCur_hasNext (.ite (.next _) ?_)))
  split
  · exact State.trapCur_hasNext
  · exact .next _
  · exact .next _

theorem execSpat_hasNext {n : Fin 8} : HasNext (execSpat n a s) :=
  State.heldOp_hasNext (State.loadWords_hasNext fun _ _ => .ite (.next _) State.trapCur_hasNext)

theorem execSwaitm_hasNext : HasNext (execSwaitm a b s) := State.mapOp_hasNext fun _ _ _ => .ite (.next _) (.next _)

theorem execEcmd_hasNext : HasNext (execEcmd d a s) := by
  refine State.heldOp_hasNext (.ite State.trapCur_hasNext (State.loadWords_hasNext fun _ _ => ?_))
  split
  · exact .ite State.trapCur_hasNext (.ite (.next _) (.next _))
  · exact .next _

theorem execEcancel_hasNext : HasNext (execEcancel d a s) := by
  refine State.heldOp_hasNext (.ite State.trapCur_hasNext ?_)
  split
  · exact .next _
  · exact .ite (.next _) (.next _)

theorem execEstat_hasNext {sel : Fin 7} : HasNext (execEstat d a sel s) := State.heldOp_hasNext (.ite State.trapCur_hasNext (.next _))

/-! ### Jobs -/

theorem execSpawn_hasNext : HasNext (execSpawn d a s) := by
  refine State.heldOp_hasNext (.ite State.trapCur_hasNext (State.loadWords_hasNext fun _ _ => ?_))
  split
  · exact .ite State.trapCur_hasNext (.ite (.next _) (.ite (.next _) (.next _)))
  · exact .next _

theorem execJend_hasNext : HasNext (execJend s) := by
  refine State.heldOp_hasNext (.ite State.trapCur_hasNext (.ite (.next _) ?_))
  split
  · exact .ite State.trapWith_hasNext (.next _)
  · exact .next _
  · exact .next _

theorem execJtight_hasNext : HasNext (execJtight d a s) := by
  refine State.heldOp_hasNext ?_
  dsimp only
  split
  · exact .next _
  · exact .next _

theorem execJself_hasNext : HasNext (execJself d s) := by
  refine State.heldOp_hasNext ?_
  split
  · exact .next _
  · exact .next _

theorem execJabort_hasNext : HasNext (execJabort d a s) := by
  refine State.heldOp_hasNext ?_
  dsimp only
  split
  · exact .next _
  · refine .ite (.next _) (.ite State.trapCur_hasNext ?_)
    split
    · exact .ite (.next _) (.next _)
    · exact .next _

theorem execJinfo_hasNext {sel : Fin 8} : HasNext (execJinfo d sel s) := by
  refine State.heldOp_hasNext ?_
  split
  · exact .next _
  · exact .next _

/-! ### System instructions -/

theorem State.returnTo_hasNext : HasNext (s.returnTo v) := by
  refine .ite State.trapCur_hasNext (.ite (.next _) ?_)
  split
  · exact State.badTrap_hasNext
  · refine .ite (.next _) (.ite (.next _) ?_)
    split
    · exact State.trapCur_hasNext
    · exact .next _

theorem State.trapReturn_hasNext {skip : Bool} : HasNext (s.trapReturn skip) := by
  refine State.heldOp_hasNext (.ite State.trapCur_hasNext (.ite State.trapCur_hasNext (.ite ?_ State.returnTo_hasNext)))
  split
  · exact State.returnTo_hasNext
  · exact State.trapCur_hasNext
  · exact State.trapCur_hasNext

theorem execSvc_hasNext : HasNext (execSvc d a b s) := by
  refine State.heldOp_hasNext (.ite State.trapCur_hasNext (.ite State.trapCur_hasNext ?_))
  split
  · exact State.trapCur_hasNext
  · split
    · exact State.trapCur_hasNext
    · refine .ite State.trapCur_hasNext (.ite (.next _) ?_)
      split
      · exact .next _
      · exact .next _

theorem execEnmtr_hasNext {kind : Fin 3} : HasNext (execEnmtr d a kind s) := by
  refine .ite State.trapCur_hasNext (State.heldOp_hasNext ?_)
  dsimp only
  split
  · exact .ite State.trapCur_hasNext (.next _)
  · split
    · exact State.trapCur_hasNext
    · exact .ite State.trapCur_hasNext (.next _)
  · exact .next _

theorem State.pgateOp_hasNext {k : State → GateUnit → Out} (hk : ∀ u, HasNext (k s u)) : HasNext (s.pgateOp d a k) := by
  refine State.supervisorOnly_hasNext (State.heldOp_hasNext ?_)
  split
  · exact State.trapCur_hasNext
  · exact hk _

theorem execPgateGate_hasNext : HasNext (execPgateGate d a s) := State.pgateOp_hasNext fun _ => .ite (.next _) (.ite (.next _) (.next _))

theorem execPgateUngate_hasNext : HasNext (execPgateUngate d a s) :=
  State.pgateOp_hasNext fun _ => .ite (.next _) (.ite (.next _) (.next _))

theorem execHalt_hasNext : HasNext (execHalt a s) := by
  refine State.supervisorOnly_hasNext (State.heldOp_hasNext ?_)
  dsimp only
  split
  · exact .next _
  · exact .next _

theorem State.ctxOp_hasNext {zeroOk : Bool} {k : State → Nat → Word → Out} (hk : ∀ cx sa, HasNext (k s cx sa)) :
    HasNext (s.ctxOp d a b zeroOk k) :=
  State.supervisorOnly_hasNext (State.heldOp_hasNext (.ite State.trapCur_hasNext (.ite State.trapCur_hasNext (hk _ _))))

theorem execCtxsave_hasNext : HasNext (execCtxsave d a b s) := by
  refine State.ctxOp_hasNext fun cx sa => .ite (.next _) (.ite (.next _) (.ite (.next _) ?_))
  split
  · exact State.trapWith_hasNext
  · exact .next _

theorem execCtxload_hasNext : HasNext (execCtxload d a b s) := by
  refine State.ctxOp_hasNext fun cx sa => .ite (.next _) (.ite (.next _) ?_)
  split
  · exact State.trapCur_hasNext
  · refine .ite (.next _) ?_
    split
    · exact State.trapCur_hasNext
    · exact .ite (.next _) (.next _)

theorem execTlbinv_hasNext : HasNext (execTlbinv a b s) :=
  State.supervisorOnly_hasNext (State.heldOp_hasNext (.ite State.trapCur_hasNext (.ite (.next _) (.next _))))

theorem execIdle_hasNext : HasNext (execIdle a s) := State.heldOp_hasNext (.ite (.next _) (.next _))

theorem execRsvadd_hasNext : HasNext (execRsvadd d a s) :=
  State.supervisorOnly_hasNext (State.heldOp_hasNext (.ite State.trapCur_hasNext (State.loadWords_hasNext fun _ _ => .next _)))

end

/-! ### Events of the contexts, the matrix units and the Governor -/

section
variable {s : State} {i k h cx core : Nat}

theorem execVectorStart_hasNext : HasNext (execVectorStart cx s) := by
  unfold execVectorStart
  dsimp only
  split
  · exact .next _
  · refine .ite (.next _) ?_
    split
    · exact .next _
    · exact .ite (.next _) (.next _)
    · exact .ite (.next _) (.next _)

theorem execVectorComplete_hasNext : HasNext (execVectorComplete cx s) := by
  unfold execVectorComplete
  dsimp only
  split
  · exact .next _
  · exact .ite (.next _) (.next _)

theorem execScalarLoadReturn_hasNext : HasNext (execScalarLoadReturn cx i s) := by
  unfold execScalarLoadReturn
  dsimp only
  split
  · exact .ite (.next _) (.next _)
  · exact .next _

theorem execStorePerformed_hasNext : HasNext (execStorePerformed cx i s) := by
  unfold execStorePerformed
  dsimp only
  split
  · exact .ite (.next _) (.next _)
  · exact .ite (.next _) (.next _)

theorem execMxCmdBegin_hasNext : HasNext (execMxCmdBegin core s) := by
  unfold execMxCmdBegin
  split
  · exact .next _
  · exact .ite (.ite (.next _) (.next _)) (.next _)

theorem execMxShareTimeout_hasNext : HasNext (execMxShareTimeout core s) := by
  unfold execMxShareTimeout
  split
  · exact .ite (.next _) (.next _)
  · exact .next _

theorem execWaitSatisfied_hasNext : HasNext (execWaitSatisfied cx s) := by
  unfold execWaitSatisfied
  dsimp only
  split
  · exact .ite (.next _) (.next _)
  · exact .next _

theorem execIdleExpire_hasNext : HasNext (execIdleExpire cx s) := by
  unfold execIdleExpire
  dsimp only
  split
  · exact .ite (.next _) (.next _)
  · exact .next _

theorem execDeadlineComparator_hasNext : HasNext (execDeadlineComparator cx s) := by
  refine .ite (.next _) ?_
  rcases s.clusterNow (clusterOf (coreOf cx)) with ⟨now, u⟩
  dsimp only
  split
  · exact .next _
  · exact .ite (.next _) (.next _)

theorem execAbandonAction_hasNext : HasNext (execAbandonAction h s) := by
  unfold execAbandonAction
  split
  · exact .next _
  · split
    · exact .ite (.next _) (.next _)
    · exact .ite (.next _) (.next _)
    · exact .next _

theorem execQueuedDeadlinePass_hasNext {q : QueuedRef} : HasNext (execQueuedDeadlinePass q s) := by
  unfold execQueuedDeadlinePass
  cases q with
  | job h =>
    dsimp only
    split
    · exact .next _
    · split
      · exact .ite (.next _) (.next _)
      · exact .ite (.next _) (.next _)
      · exact .next _
  | handler c i =>
    dsimp only
    split
    · exact .next _
    · exact .ite (.next _) (.next _)

theorem execReservationRelease_hasNext {r : Nat} : HasNext (execReservationRelease r s) := by
  unfold execReservationRelease
  split
  · exact .next _
  · exact .ite (.next _) (.ite (.next _) (.next _))

theorem execGovernorDispatch_hasNext : HasNext (execGovernorDispatch k s) := by
  refine .ite (.next _) (.ite (.next _) ?_)
  rcases (s.parkDisplaced k).clusterNow k with ⟨now, u⟩
  dsimp only
  split
  · exact .next _
  · exact .next _

theorem execLoadAveraging_hasNext : HasNext (execLoadAveraging k s) := .ite (.next _) (.ite (.next _) (.next _))

theorem execJobMoveArrive_hasNext : HasNext (execJobMoveArrive i s) := by
  unfold execJobMoveArrive
  split
  · exact .next _
  · exact .ite (.next _) (.next _)

/-! ### Events of the networks, the weirs, the barriers and the groups -/

theorem execAmArrival_hasNext {m : AmSource} : HasNext (execAmArrival m s) := by
  unfold execAmArrival
  cases m with
  | twin t => exact .ite (.next _) (.next _)
  | sent i =>
    dsimp only
    split
    · exact .next _
    · refine .ite (.next _) ?_
      split
      · exact .next _
      · exact .next _

theorem execAmAnswer_hasNext : HasNext (execAmAnswer i s) := by
  unfold execAmAnswer
  split
  · exact .next _
  · refine .ite (.next _) ?_
    dsimp only
    split
    · exact .next _
    · exact .next _

theorem execEmptyRelease_hasNext {r : ReleaseSource} : HasNext (execEmptyRelease r s) := by
  unfold execEmptyRelease
  cases r with
  | twin core owner => exact .ite (.next _) (.next _)
  | sent i =>
    dsimp only
    split
    · exact .next _
    · exact .ite (.next _) (.ite (.next _) (.next _))

theorem execEngDelivery_hasNext {m : EngIn} : HasNext (execEngDelivery m s) := by
  unfold execEngDelivery
  cases m with
  | twin t => exact .ite (.next _) (.next _)
  | sent i =>
    dsimp only
    split
    · exact .next _
    · exact .ite (.next _) (.next _)

theorem execGmsgMerge_hasNext {m : GmSource} : HasNext (execGmsgMerge m s) := by
  unfold execGmsgMerge
  cases m with
  | twin m => exact .ite (.next _) (.next _)
  | sent i =>
    dsimp only
    split
    · exact .next _
    · refine .ite (.next _) ?_
      split
      · exact .next _
      · exact .next _

theorem execWeirArrival_hasNext : HasNext (execWeirArrival i s) := by
  unfold execWeirArrival
  split
  · exact .next _
  · exact .ite (.next _) (.next _)

theorem execWeirPacketMake_hasNext : HasNext (execWeirPacketMake i s) := by
  unfold execWeirPacketMake
  split
  · exact .next _
  · dsimp only
    split
    · split
      · exact .next _
      · exact .ite (.next _) (.next _)
    · split
      · exact .next _
      · exact .next _
    · refine .ite (.next _) ?_
      split
      · exact .next _
      · exact .ite (.next _) (.next _)
    · exact .next _

theorem execBarrierArrival_hasNext : HasNext (execBarrierArrival i s) := by
  unfold execBarrierArrival
  split
  · exact .next _
  · exact .ite (.next _) (.ite (.next _) (.next _))

theorem execSweep_hasNext : HasNext (execSweep s) := .ite (.next _) (.ite (.next _) (.next _))

theorem execGroupCompletionSend_hasNext {g : Nat} : HasNext (execGroupCompletionSend g s) := by
  unfold execGroupCompletionSend
  split
  · exact .next _
  · exact .ite (.next _) (.next _)

/-! ### Events of the engines and the strips -/

theorem execEngineCmdArrive_hasNext : HasNext (execEngineCmdArrive i s) := by
  unfold execEngineCmdArrive
  split
  · exact .next _
  · dsimp only
    split
    · refine .ite (.next _) ?_
      split
      · exact .next _
      · exact .next _
    · exact .ite (.next _) (.next _)
    · exact .next _

theorem execEngineAnswer_hasNext : HasNext (execEngineAnswer i s) := by
  unfold execEngineAnswer
  split
  · exact .next _
  · exact .next _

theorem State.engineRun_hasNext {e opcode : Nat} : HasNext (s.engineRun e opcode) := by
  unfold State.engineRun
  split
  · exact .ite (.next _) (.next _)
  · exact .next _

theorem execEngineCompletion_hasNext {e : Nat} : HasNext (execEngineCompletion e s) := by
  unfold execEngineCompletion
  split
  · exact .next _
  · split
    · exact .next _
    · exact .next _
    · exact .next _

theorem execStreamChunkServe_hasNext : HasNext (execStreamChunkServe k i s) := by
  unfold execStreamChunkServe
  split
  · exact .next _
  · split
    · exact .next _
    · split
      · exact .next _
      · exact .next _

theorem execChunkDone_hasNext : HasNext (execChunkDone k i s) := by
  unfold execChunkDone
  dsimp only
  split
  · exact .next _
  · split
    · exact .next _
    · refine .ite ?_ (.next _)
      split
      · exact .next _
      · exact .next _

/-! ### Events of the headrace ports -/

theorem execEthFrameReceive_hasNext {port : Nat} {frame : EthFrame} : HasNext (execEthFrameReceive port frame s) := by
  refine .ite (.next _) (.ite (.next _) ?_)
  split
  · exact .next _
  · split
    · exact .next _
    · split
      · exact .next _
      · exact .ite (.next _) (.next _)

theorem execRowCloseTimeout_hasNext {port g : Nat} : HasNext (execRowCloseTimeout port g s) := by
  unfold execRowCloseTimeout
  split
  · exact .next _
  · exact .next _

theorem execRowSlotFill_hasNext {port g : Nat} : HasNext (execRowSlotFill port g s) := by
  unfold execRowSlotFill
  split
  · exact .next _
  · dsimp only
    split
    · exact .next _
    · refine .ite (.next _) ?_
      split
      · exact .next _
      · exact .ite (.next _) (.ite (.next _) (.next _))

theorem execOverrunRowFill_hasNext {port g : Nat} : HasNext (execOverrunRowFill port g s) := by
  unfold execOverrunRowFill
  split
  · exact .next _
  · dsimp only
    split
    · exact .next _
    · split
      · exact .next _
      · exact .ite (.next _) (.next _)

theorem execCplaneTransmit_hasNext {port : Nat} {put : Option EthFrame} : HasNext (execCplaneTransmit port put s) := by
  refine .ite (.next _) ?_
  cases put with
  | none => exact .next _
  | some f => exact .next _

/-! ### Windows, edges and loans -/

theorem execWindowStart_hasNext {u : TimeUnit} : HasNext (execWindowStart u s) := by
  unfold execWindowStart
  split
  · exact .next _
  · refine .ite (.next _) ?_
    cases u with
    | cluster k => exact .ite (.next _) (.ite (.next _) (.next _))
    | slice x => exact .ite (.next _) (.ite (.next _) (.next _))

theorem execEdgeSwapComplete_hasNext : HasNext (execEdgeSwapComplete core s) := by
  refine .ite (.next _) ?_
  split
  · exact .next _
  · exact .ite (.next _) (.next _)

theorem execCoreRepower_hasNext : HasNext (execCoreRepower core s) := by
  refine .ite (.next _) ?_
  dsimp only
  split
  · split
    · exact .ite (.next _) (.next _)
    · exact .next _
  · exact .next _

theorem execLoanStart_hasNext : HasNext (execLoanStart core s) := by
  refine .ite (.next _) ?_
  dsimp only
  split
  · refine .ite (.next _) ?_
    split
    · exact .next _
    · exact .next _
  · exact .next _

theorem execLoanEnd_hasNext : HasNext (execLoanEnd core s) := by
  refine .ite (.next _) ?_
  dsimp only
  split
  · exact .ite (.next _) (.next _)
  · exact .next _

theorem execTableEpoch_hasNext : HasNext (execTableEpoch s) := by
  unfold execTableEpoch
  split
  · exact .ite (.next _) (.next _)
  · exact .next _

/-! ### Service calls -/

variable {sl : Nat} {ok : Nat → Bool}

theorem execSvcCallArrive_hasNext : HasNext (execSvcCallArrive i s) := by
  unfold execSvcCallArrive
  split
  · exact .next _
  · refine .ite (.next _) ?_
    split
    · exact .next _
    · exact .next _

theorem execSvcAnswer_hasNext : HasNext (execSvcAnswer i s) := by
  unfold execSvcAnswer
  split
  · exact .next _
  · exact .next _

/-- A step of a call: it begins, is kept, ends, or takes its last step. -/
theorem State.svcLast_hasNext {k : SvcTurn → Nat → Call → List Nat → Out} (hk : ∀ t i c ws, HasNext (k t i c ws)) :
    HasNext (s.svcLast sl ok k) := by
  unfold State.svcLast
  split
  · exact .next _
  · split
    · exact .next _
    · split
      · exact .next _
      · split
        · exact .next _
        · exact .next _
        · split
          · exact .next _
          · exact .ite (hk _ _ _ _) (.next _)

theorem State.svcServeWhen_hasNext {who : Caller} {due : Call → Bool} {fn : State → Call → (Nat → Nat) → SvcResult} :
    HasNext (s.svcServeWhen sl ok who due fn) :=
  State.svcLast_hasNext fun _ _ _ _ => .ite (.next _) (.ite (.next _) (.next _))

theorem State.svcServe_hasNext {who : Caller} {fn : State → Call → (Nat → Nat) → SvcResult} : HasNext (s.svcServe sl ok who fn) :=
  State.svcServeWhen_hasNext

theorem State.svcServe0_hasNext {fn : State → Call → (Nat → Nat) → SvcResult} : HasNext (s.svcServe0 sl ok fn) :=
  State.svcServeWhen_hasNext

theorem State.withAsk_hasNext {t : SvcTurn} {c : Call} {w : List PageWrite} {pages : List Nat} {k : List Nat → Out}
    (hk : ∀ pages, HasNext (k pages)) : HasNext (s.withAsk sl t i c w pages k) :=
  .ite (hk _) (.ite (hk _) (.ite (.next _) (.next _)))

theorem State.svcServeAsk_hasNext {who : Caller}
    {plan : State → Call → (Nat → Nat) → Except (Nat × Nat) (List PageWrite × (State → SvcResult)) × State} :
    HasNext (s.svcServeAsk sl ok who plan) := by
  refine State.svcLast_hasNext fun _ _ _ _ => .ite (.next _) ?_
  split
  · exact .next _
  · exact State.withAsk_hasNext fun _ => .next _

theorem State.withObject_hasNext {t : SvcTurn} {c : Call} {ws : List Nat} {k : State → Nat → HostObj → Out}
    (hk : ∀ u id o, HasNext (k u id o)) : HasNext (s.withObject sl t i c ws k) := by
  refine .ite (.next _) ?_
  split
  · exact .next _
  · exact .ite (.next _) (.ite (.next _) (hk _ _ _))

theorem State.harvestRun_hasNext {t : SvcTurn} {c : Call} {ws : List Nat} {o : HostObj} {k : State → List Nat → Out}
    (hk : ∀ u pages, HasNext (k u pages)) : HasNext (s.harvestRun sl t i c ws o k) := by
  refine .ite (State.withAsk_hasNext fun _ => hk _ _) ?_
  split
  · exact .next _
  · exact State.withAsk_hasNext fun _ => State.withAsk_hasNext fun _ => hk _ _

theorem execInternalCall_hasNext {dst : Nat} {ws : List Word} : HasNext (execInternalCall sl dst ws s) :=
  .ite (.next _) (.ite (.next _) (.ite (.next _) (State.svcLast_hasNext fun _ _ _ _ => .ite (.next _) (.next _))))

theorem execNop_hasNext : HasNext (execNop sl s) := State.svcLast_hasNext fun _ _ _ _ => .ite (.next _) (.ite (.next _) (.next _))

theorem execUnmapObject_hasNext : HasNext (execUnmapObject sl s) :=
  State.svcLast_hasNext fun _ _ _ _ => State.withObject_hasNext fun _ _ _ =>
    .ite (.ite (.next _) (State.withAsk_hasNext fun _ => .next _))
      (State.harvestRun_hasNext fun _ _ => .ite (.next _) (State.withAsk_hasNext fun _ => .next _))

theorem execHarvest_hasNext : HasNext (execHarvest sl s) :=
  State.svcLast_hasNext fun _ _ _ _ => State.withObject_hasNext fun _ _ _ => State.harvestRun_hasNext fun _ _ => .next _

theorem execHarvestAuto_hasNext {t obj : Nat} : HasNext (execHarvestAuto t obj s) := by
  unfold execHarvestAuto
  dsimp only
  split
  · exact .next _
  · exact .ite (.next _) (.next _)

theorem execObjectFaultServe_hasNext : HasNext (execObjectFaultServe sl s) := by
  unfold execObjectFaultServe
  split
  · exact .next _
  · split
    · exact .next _
    · dsimp only
      split
      · exact .next _
      · split
        · exact .next _
        · split
          · exact .next _
          · refine .ite (.next _) (.ite (.next _) (.ite (.next _) ?_))
            split
            · exact .next _
            · exact .ite (.next _) (.ite (.next _) (.next _))

theorem execTableLoad_hasNext : HasNext (execTableLoad sl s) := by
  unfold execTableLoad
  split
  · exact .ite (.next _) (.next _)
  · exact State.svcLast_hasNext fun _ _ _ _ => .ite (.next _) (.ite (.next _) (.ite (.next _) (.ite (.next _) (.next _))))

theorem execDebugRead_hasNext : HasNext (execDebugRead sl s) := by
  refine State.svcLast_hasNext fun _ _ _ _ => .ite (.next _) (.ite (.next _) ?_)
  split
  · exact .next _
  · exact .ite (.next _) (State.withAsk_hasNext fun _ => .next _)

/-! ### The host, the twin, power, clocks and scrubbing -/

theorem execHostMemAccess_hasNext {acc : HostAccess} : HasNext (execHostMemAccess acc s) := by
  refine .ite (.next _) ?_
  cases acc with
  | read off len excl => exact .ite (.next _) (.next _)
  | write off bs => exact .ite (.next _) (.next _)

theorem execTwinMemoryAccess_hasNext {acc : TwinAccess} : HasNext (execTwinMemoryAccess acc s) := by
  unfold execTwinMemoryAccess
  dsimp only
  split
  · exact .ite (.next _) (.next _)
  · exact .ite (.next _) (.next _)
  · refine .ite (.next _) ?_
    split
    · exact .next _
    · exact .next _

theorem execBootImageVerify_hasNext {u : ImageUnit} {image : List Byte} {good : Bool} : HasNext (execBootImageVerify u image good s) := by
  refine .ite (.next _) ?_
  cases u with
  | service k => exact .ite (.next _) (.next _)
  | microKernel => exact .next _

theorem execPowerCapCheck_hasNext : HasNext (execPowerCapCheck s) :=
  .ite (.next _) (.ite (.ite (.next _) (.next _)) (.ite (.next _) (.next _)))

theorem execChannelWake_hasNext {c : Nat} : HasNext (execChannelWake c s) := by
  unfold execChannelWake
  split
  · exact .next _
  · exact .ite (.next _) (.next _)

end

/-! ### Every row of the table -/

/-- Every instruction and every event has a next state. -/
theorem exec_hasNext (i : Instr) (s : State) : HasNext (exec i s) := by
  unfold exec
  cases i with
  | add | sub | and | or | xor | sll | addi | li | mov | not | neg | srl | sra | slli | srli | srai | mul | mulh | mulhn | slt | sltn
  | andi | ori | xori | min | max | minn | maxn | clz | ctz | popc | sext | zext | lih | addpc | addsl | select =>
    exact State.regOp_hasNext
  | ldd | lb | lbn | lh | lhn | lw | lwn => exact State.loadImm_hasNext
  | std | sb | sh | sw => exact State.storeImm_hasNext
  | beqz | bnez | beq | bne | blt | bge | bltn | bgen => exact State.branchOp_hasNext
  | jal | setvl | loopsm | pref => exact State.freeOp_hasNext
  | time => exact State.freeIssue_hasNext fun _ => .next _
  | div | divn | rem | remn => exact State.divOp_hasNext
  | vadd | vsub | vmul | vmac | vmin | vmax | vminn | vmaxn | vand | vor | vxor | vsll | vsrl | vsra | vdiv | vdivn | vrem | vremn | vadds
  | vsubs | vmulhq | vabs | vneg | vrcp | vrsqrt | vexp2 | vlog2 | vsqrt | vclass | vscale | vceq | vcne | vclt | vcle | vcltn | vclen
  | vceqi | vclti | mand | mor | mxor | mnot | vmv | vperm | vcompress | vexpand | viota | vid | vmerge | vredsum | vredmax | vredmin
  | vcvt | vqscale | vquant | vdeq | vcblk | vwidenlo | vwidenhi | vnarrow | vcadd | vcsub | vcmul | vcmulj | vcmac | vcmacj | vconj
  | vcrot | vcabs2 | vcscale | vcdot | vcreal | vcswap | vcmag | vcmacs | vmgmul | vmgmulh | vmgmv | vhchol | vhinv | vhsolve | vmgtr =>
    exact State.vPlain_hasNext
  | mcnt | many | mfirst | vext | vins => exact State.vIssue_hasNext
  | vsplat | vslideup | vslidedn | vhreg => exact State.vScalar_hasNext
  | vbfly2 | vbfly3 | vbfly4 | vbfly5 => exact State.bflyEnter_hasNext
  | vtwid | vdrev | vtrans | vschur | vschurv => exact State.vEnter_hasNext
  | mxcfg | mma | mmaz | mxzero | mxst | mxld | mxldcb | mxscale | mxshare => exact State.mxIssue_hasNext
  | vmovz | vmovtoz => exact State.mxMove_hasNext
  | gsend | gsendc => exact State.gsendEnter_hasNext
  | gld | gsum | gsumx | gdamp | gmarg | gembed | gmean => exact State.gaussEnter_hasNext
  | ldx => exact State.loadOp_hasNext
  | stx | strl => exact State.storeOp_hasNext
  | cflush | cinv => exact State.lineOp_hasNext
  | amoadd | amoand | amoor | amoxor | amomin | amomax | amominn | amomaxn | amoswp | amocas => exact State.amoOp_hasNext
  | vld | vst | vlds | vsts | vldx | vstx | vldb | vamoadd | vldff => exact State.vMemEnter_hasNext
  | flpop | flpush => exact State.flumeTake_hasNext
  | flrel | fldone => exact State.flumeGive_hasNext
  | tret | tretSkip => exact State.trapReturn_hasNext
  | gateinfo => exact State.heldReg_hasNext
  | fence | jdead | jwid | mpend => exact State.heldOp_hasNext (.next _)
  | trap | brk => exact State.heldOp_hasNext State.trapCur_hasNext
  | illegalInstruction | prefixChain | fetchFault => exact State.trapCur_hasNext
  | msendrq | msendrp => exact State.sendMsg_hasNext
  | men | mdis | mclr => exact State.tagMask_hasNext fun _ _ => .next _
  | wstat => exact State.weirOp_hasNext fun _ => .next _
  | bwait => exact State.barrierOp_hasNext fun _ _ => State.barrierWait_hasNext
  | stestm | sclrm => exact State.mapOp_hasNext fun _ _ _ => .next _
  | pgateQuery => exact State.pgateOp_hasNext fun _ => .next _
  | jalr => exact execJalr_hasNext
  | get => exact execGet_hasNext
  | set => exact execSet_hasNext
  | rdcnt => exact execRdcnt_hasNext
  | waitc => exact execWaitc_hasNext
  | mxpark => exact execMxpark_hasNext
  | mxunpark => exact execMxunpark_hasNext
  | mxstat => exact execMxstat_hasNext
  | gcfg => exact execGcfg_hasNext
  | gstat => exact execGstat_hasNext
  | ldaq => exact execLdaq_hasNext
  | scopy => exact execScopy_hasNext
  | spat => exact execSpat_hasNext
  | sstrm => exact execSstrm_hasNext
  | swaitm => exact execSwaitm_hasNext
  | ecmd => exact execEcmd_hasNext
  | ecancel => exact execEcancel_hasNext
  | estat => exact execEstat_hasNext
  | spawn => exact execSpawn_hasNext
  | jend => exact execJend_hasNext
  | jtight => exact execJtight_hasNext
  | jself => exact execJself_hasNext
  | jabort => exact execJabort_hasNext
  | jinfo => exact execJinfo_hasNext
  | mtag => exact execMtag_hasNext
  | warm => exact execWarm_hasNext
  | wpost => exact execWpost_hasNext
  | wsig => exact execWsig_hasNext
  | binit => exact execBinit_hasNext
  | barrive => exact execBarrive_hasNext
  | bsync => exact execBsync_hasNext
  | qopen => exact execQopen_hasNext
  | qclose => exact execQclose_hasNext
  | qstat => exact execQstat_hasNext
  | svc => exact execSvc_hasNext
  | enmtr => exact execEnmtr_hasNext
  | pgateGate => exact execPgateGate_hasNext
  | pgateUngate => exact execPgateUngate_hasNext
  | halt => exact execHalt_hasNext
  | ctxsave => exact execCtxsave_hasNext
  | ctxload => exact execCtxload_hasNext
  | tlbinv => exact execTlbinv_hasNext
  | idle => exact execIdle_hasNext
  | rsvadd => exact execRsvadd_hasNext
  | mxRowReady | mxCmdComplete | budgetUpdate | registerWrite | hostsigw | spdmMeasurements | powerOn | deviceReset | ptpLockLoss
  | energyMeterUpdate | sramScrub | hostLinkUp => exact .next _
  | hlqdb | biasreq | hostSnoop | hostLinkDown | twinPair | twinLinkDown | channelTrained | clusterReady | headracePortReady | ptpFirstLock
  | ptpLockRegained | edgeGuard | hostsig | dvfsStepChange | ungateComplete | stillEnter | lpddrScrub | hdmWindowSet =>
    exact .ite (.next _) (.next _)
  | rsvAdd | rsvRemove | counter | mapObject | queueUnbind | quarClear | sweepSet | imageLoad | flumeSet | groupSet | poisonClear | biasSet
  | linkDump | twinExport => exact State.svcServe_hasNext
  | debugOpen | debugClose | debugWrite | debugResume => exact State.svcServe0_hasNext
  | logSet | queueBind => exact State.svcServeAsk_hasNext
  | ldpcDecode | ldpcEncode | polarDecode | polarEncode | rateDematch | rateMatch | crcCheck => exact State.engineRun_hasNext
  | vectorStart => exact execVectorStart_hasNext
  | vectorComplete => exact execVectorComplete_hasNext
  | scalarLoadReturn => exact execScalarLoadReturn_hasNext
  | storePerformed => exact execStorePerformed_hasNext
  | mxCmdBegin => exact execMxCmdBegin_hasNext
  | mxShareTimeout => exact execMxShareTimeout_hasNext
  | waitSatisfied => exact execWaitSatisfied_hasNext
  | idleExpire => exact execIdleExpire_hasNext
  | deadlineComparator => exact execDeadlineComparator_hasNext
  | abandonAction => exact execAbandonAction_hasNext
  | queuedDeadlinePass => exact execQueuedDeadlinePass_hasNext
  | reservationRelease => exact execReservationRelease_hasNext
  | governorDispatch => exact execGovernorDispatch_hasNext
  | loadAveraging => exact execLoadAveraging_hasNext
  | jobMoveArrive => exact execJobMoveArrive_hasNext
  | amArrival => exact execAmArrival_hasNext
  | amAnswer => exact execAmAnswer_hasNext
  | emptyRelease => exact execEmptyRelease_hasNext
  | engDelivery => exact execEngDelivery_hasNext
  | gmsgMerge => exact execGmsgMerge_hasNext
  | weirArrival => exact execWeirArrival_hasNext
  | weirPacketMake => exact execWeirPacketMake_hasNext
  | barrierArrival => exact execBarrierArrival_hasNext
  | sweep => exact execSweep_hasNext
  | groupCompletionSend => exact execGroupCompletionSend_hasNext
  | engineCmdArrive => exact execEngineCmdArrive_hasNext
  | engineAnswer => exact execEngineAnswer_hasNext
  | engineCompletion => exact execEngineCompletion_hasNext
  | streamChunkServe => exact execStreamChunkServe_hasNext
  | chunkDone => exact execChunkDone_hasNext
  | ethFrameReceive => exact execEthFrameReceive_hasNext
  | rowCloseTimeout => exact execRowCloseTimeout_hasNext
  | rowSlotFill => exact execRowSlotFill_hasNext
  | overrunRowFill => exact execOverrunRowFill_hasNext
  | cplaneTransmit => exact execCplaneTransmit_hasNext
  | windowStart => exact execWindowStart_hasNext
  | edgeSwapComplete => exact execEdgeSwapComplete_hasNext
  | coreRepower => exact execCoreRepower_hasNext
  | loanStart => exact execLoanStart_hasNext
  | loanEnd => exact execLoanEnd_hasNext
  | tableEpoch => exact execTableEpoch_hasNext
  | svcCallArrive => exact execSvcCallArrive_hasNext
  | svcAnswer => exact execSvcAnswer_hasNext
  | internalCall => exact execInternalCall_hasNext
  | nop => exact execNop_hasNext
  | unmapObject => exact execUnmapObject_hasNext
  | harvest => exact execHarvest_hasNext
  | harvestAuto => exact execHarvestAuto_hasNext
  | objectFaultServe => exact execObjectFaultServe_hasNext
  | tableLoad => exact execTableLoad_hasNext
  | debugRead => exact execDebugRead_hasNext
  | hostMemAccess => exact execHostMemAccess_hasNext
  | twinMemoryAccess => exact execTwinMemoryAccess_hasNext
  | bootImageVerify => exact execBootImageVerify_hasNext
  | powerCapCheck => exact execPowerCapCheck_hasNext
  | channelWake => exact execChannelWake_hasNext

/-! ### Turns -/

section
variable {s : State} {t : Turn} {rest : List Turn} {cx : Nat}

/-- What does not depend on the clusters' counters. -/
def Clockless {α : Type} (f : State → α) : Prop := ∀ (s : State) (k : Nat), f (s.clusterNow k).2 = f s

theorem State.windowDue_kept {α : Type} {f : State → α} (hf : Clockless f) (k : Nat) : f (s.windowDue k).2 = f s := by
  unfold State.windowDue
  split
  · exact hf s k
  · rfl

theorem State.comparatorLate_kept {α : Type} {f : State → α} (hf : Clockless f) : f (s.comparatorLate cx).2 = f s := by
  unfold State.comparatorLate
  split
  · rfl
  · split
    · rfl
    · exact hf s _

/-- What comes before a context's instruction only reads its cluster's counter. -/
theorem State.kept_before_issue {α : Type} {f : State → α} (hf : Clockless f) {a b : State} {x y : Bool} {k : Nat}
    (hwin : s.windowDue k = (x, a)) (hcmp : a.comparatorLate cx = (y, b)) : f b = f s := by
  have ha := State.windowDue_kept (s := s) hf k
  have hb := State.comparatorLate_kept (s := a) (cx := cx) hf
  rw [hwin] at ha
  rw [hcmp] at hb
  exact hb.trans ha

/-- The state in which the agenda's head has its turn: time has passed, and the head is taken. -/
def State.atHead (s : State) (rest : List Turn) : State := { s.tick with sched := { s.tick.sched with agenda := rest } }

@[simp] theorem State.atHead_supplies : (s.atHead rest).power.supplies = s.power.supplies := s.tick_supplies

theorem State.atHead_held : (s.atHead rest).sched.held = none := rfl

theorem State.takeTurn_tick (h : s.sched.agenda = t :: rest) : s.tick.takeTurn = (t, s.atHead rest) := State.takeTurn_agenda _ _ _ h

/-- With nothing due a step is the turn of the agenda's head, which stands unless it waits. -/
theorem step_eq_settle_act (h : s.sched.agenda = t :: rest) (hdue : s.tick.overdue t = []) :
    step s = (s.atHead rest).settle ((s.atHead rest).act t) .next := by
  have ht := State.takeTurn_tick h
  rw [step_turn s (by rw [ht]; exact hdue), State.turn, ht]

theorem turnGives_of_step {u : State} {o : Out} (h : step s = u.settle o .next) (ho : HasNext o) : Claims.TurnGives s u o := by
  obtain ⟨t, rfl⟩ := ho
  obtain ⟨hgo, hwait⟩ := u.settle_next t .next
  exact ⟨t, rfl, fun hn => h.trans (hgo hn), fun p hp => h.trans (hwait p hp)⟩

/-- A turn without an effect ends the step. -/
theorem step_eq_atHead (h : s.sched.agenda = t :: rest) (hdue : s.tick.overdue t = [])
    (hact : (s.atHead rest).act t = .next (s.atHead rest)) : step s = .next (s.atHead rest) := by
  rw [step_eq_settle_act h hdue, hact]
  exact (State.settle_next _ _ _).1 State.atHead_held

theorem State.act_run (h : s.power.supplies = true) : s.act (.run cx) = s.runTurn cx := if_pos h

theorem State.act_kernel (h : s.power.supplies = true) : s.act (.kernel cx) = s.kernelTurn cx := if_pos h

theorem State.act_event (h : s.power.supplies = true) (i : Instr) :
    s.act (.event i) = if isUnitEvent i then exec i s else .next s := if_pos h

theorem State.act_off (h : s.power.supplies = false) (ht : t ≠ .event .powerOn) : s.act t = .next s := by
  unfold State.act
  rw [if_neg (by simp [h])]
  split
  · exact absurd rfl ht
  · rfl

/-- POWER_ON acts with and without supplies (R430). -/
theorem State.act_powerOn : s.act (.event .powerOn) = .next { s with power := { s.power with supplies := true } } := by
  cases h : s.power.supplies
  · exact if_neg (by simp [h])
  · exact State.act_event h .powerOn

theorem State.kernelTurn_due (h : s.kernelDue cx = true) : s.kernelTurn cx = .next (s.kernelAct cx) := if_pos h

theorem State.kernelHere_of_kernelDue (h : s.kernelDue cx = true) : s.kernelHere cx = true := by
  simp only [State.kernelDue, Bool.and_eq_true] at h
  exact h.1.1

theorem State.mayIssue_of_kernelHere (h : s.kernelHere cx = true) : s.mayIssue cx = true := by
  simp only [State.kernelHere, Bool.and_eq_true] at h
  exact h.1.1.1.1.2

/-- At the first instruction of the handler a context's turn is the micro-kernel's. -/
theorem State.runTurn_kernel {a b : State} (hguess : (s.ctx cx).guess = none) (hdue : s.kernelDue cx = true)
    (hwin : s.windowDue (clusterOf (coreOf cx)) = (false, a)) (hcmp : a.comparatorLate cx = (false, b)) :
    s.runTurn cx = .next (b.kernelAct cx) := by
  have hb : b.kernelDue cx = true := (State.kept_before_issue (f := (·.kernelDue cx)) (fun _ _ => rfl) hwin hcmp).trans hdue
  have hmay := State.mayIssue_of_kernelHere (State.kernelHere_of_kernelDue hdue)
  simp only [State.runTurn, State.decideBranch, hguess, hmay, hwin, hcmp, State.goOn, State.kernelHere_of_kernelDue hb,
    State.kernelTurn_due hb, if_true]

/-- A chain that does not decode takes its trap (R54, R63). -/
theorem State.issue_undecoded {ws : List Nat} {u : State} {e : DecodeError} (h : s.fetchChain s.sched.cur s.curCtx.pc = (.chain ws, u))
    (hd : decode ws = .error e) : s.issue = exec (if e = .prefixChain then .prefixChain else .illegalInstruction) u := by
  cases e <;> simp [State.issue, h, hd]

/-- A context that has the turn and issues: the step is what comes of the chain it has fetched. -/
theorem step_of_fetches {s' : State} {ws : List Nat} (h : Claims.Fetches s cx rest ws s') {o : Out} (ho : HasNext o)
    (hissue : ∀ v : State, v.fetchChain v.sched.cur v.curCtx.pc = (.chain ws, s') → v.issue = o) :
    Claims.TurnGives s (s.atHead rest) o := by
  obtain ⟨a, b, (hwin : (s.atHead rest).windowDue _ = _), hcmp, hfetch⟩ := h.fetch
  have hctx : b.ctx cx = s.ctx cx := State.kept_before_issue (s := s.atHead rest) (f := (·.ctx cx)) (fun _ _ => rfl) hwin hcmp
  have hkernel : b.kernelHere cx = false :=
    (State.kept_before_issue (s := s.atHead rest) (f := (·.kernelHere cx)) (fun _ _ => rfl) hwin hcmp).trans h.kernel
  have hpc : (b.atTurn cx).curCtx.pc = (s.ctx cx).pc := congrArg Ctx.pc hctx
  refine turnGives_of_step ?_ ho
  rw [step_eq_settle_act h.agenda h.due, State.act_run (State.atHead_supplies.trans h.supplies),
    State.runTurn_issue (s.atHead rest) cx a b h.guess h.may hwin hcmp hkernel, hissue _ (by rw [hpc]; exact hfetch)]

end

theorem stepRunsDecodedInstruction : Claims.StepRunsDecodedInstruction := by
  rintro s s' cx rest ws h u rfl
  refine ⟨fun i n hd => ?_, fun e hd => ?_⟩
  · exact step_of_fetches h (exec_hasNext _ _) fun v hv => v.issue_decoded ws s' i n hv hd
  · exact step_of_fetches h (exec_hasNext _ _) fun v hv => State.issue_undecoded hv hd

theorem stepTakesTurns : Claims.StepTakesTurns := by
  rintro s rest t h u rfl
  refine ⟨fun i is hdue => ?_, fun hoff => s.tick.overdue_off t (s.tick_supplies.trans hoff), fun hdue => ?_⟩
  · obtain ⟨v, hv⟩ := exec_hasNext i s.tick
    obtain ⟨hgo, hwait⟩ := s.tick.settle_next v (State.serve State.turn is)
    have hstep := step_due s i is (by rw [State.takeTurn_tick h]; exact hdue)
    rw [hv] at hstep
    exact ⟨v, hv, fun hn => hstep.trans (hgo hn), fun p hp => hstep.trans (hwait p hp)⟩
  · have hturn {o : Out} (hact : (s.atHead rest).act t = o) (ho : HasNext o) : Claims.TurnGives s (s.atHead rest) o :=
      turnGives_of_step (hact ▸ step_eq_settle_act h hdue) ho
    have hpower (hs : s.power.supplies = true) : (s.atHead rest).power.supplies = true := State.atHead_supplies.trans hs
    refine ⟨?event, ?other, ?off, ?powerOn, ?kernel, ?run⟩
    case event =>
      rintro i rfl hs hi
      exact hturn ((State.act_event (hpower hs) i).trans (if_pos hi)) (exec_hasNext _ _)
    case other =>
      rintro i rfl hs hi
      exact step_eq_atHead h hdue ((State.act_event (hpower hs) i).trans (if_neg (by simp [hi])))
    case off =>
      intro ht hs
      exact step_eq_atHead h hdue (State.act_off (State.atHead_supplies.trans hs) ht)
    case powerOn =>
      rintro rfl
      exact hturn State.act_powerOn (.next _)
    case kernel =>
      rintro cx rfl hs hk
      exact hturn ((State.act_kernel (hpower hs)).trans (State.kernelTurn_due hk)) (.next _)
    case run =>
      rintro cx rfl hs hguess hk a b hwin hcmp
      exact hturn ((State.act_run (hpower hs)).trans (State.runTurn_kernel hguess hk hwin hcmp)) (.next _)

/-- Settles O56: every instruction and event has a next state, so that the turn of the agenda's head gives its own or waits. -/
theorem stepsTakeTurns : Obligations.StepsTakeTurns := ⟨stepRunsDecodedInstruction, stepTakesTurns⟩

end Sys2Proof.Machine

/-! PROOFS. The device after reset (R89, R91, R268, R336): every finite map is empty, so that whatever is read from it is its default. -/

namespace Sys2Proof.Machine
open Sys2Proof

theorem State.ctx_reset {cx : Nat} (h : cx < numCtx) : State.reset.ctx cx = Ctx.reset := if_pos h
theorem State.core_reset (c : Nat) : State.reset.core c = {} := rfl
theorem State.cluster_reset (k : Nat) : State.reset.cluster k = {} := rfl

theorem State.weir_reset (w : Nat) : State.reset.weir w = {} := rfl

theorem Ctx.reg_reset (r : SReg) : Ctx.reset.reg r = 0 := ite_self 0
theorem Ctx.vreg_reset (v : VReg) : Ctx.reset.vreg v = 0 := rfl
theorem Ctx.mreg_reset (m : MReg) : Ctx.reset.mreg m = 0 := rfl

/-- A context at reset has no job, no register but zero, no VL, no flags, no trap level, and starts at 0. -/
theorem Ctx.reset_fields : Ctx.reset.job = none ∧ (∀ r, Ctx.reset.reg r = 0) ∧ (∀ v, Ctx.reset.vreg v = 0) ∧
    (∀ m, Ctx.reset.mreg m = 0) ∧ Ctx.reset.vl = 0 ∧ Ctx.reset.fflags = 0 ∧ Ctx.reset.depth = 0 ∧ Ctx.reset.pc = 0 :=
  ⟨rfl, Ctx.reg_reset, Ctx.vreg_reset, Ctx.mreg_reset, rfl, rfl, rfl, rfl⟩

/-- Settles O59: the maps of contexts, cores and clusters are empty, and every field has the value written in its declaration. -/
theorem resetState : Obligations.ResetState := by
  unfold Obligations.ResetState
  refine ⟨rfl, rfl, rfl, rfl, rfl, rfl, rfl, fun cx hcx => ?contexts, fun c _ => ?cores, fun k _ => ?clusters⟩
  case contexts =>
    rw [State.ctx_reset hcx]
    exact Ctx.reset_fields
  case cores =>
    rw [State.core_reset]
    exact ⟨rfl, rfl⟩
  case clusters =>
    rw [State.cluster_reset]
    exact ⟨rfl, fun w _ => State.weir_reset w⟩

end Sys2Proof.Machine

/-! PROOFS. The scalar instructions (R41, R82 to R105). Issue changes of a context only its registers, its pc and the bookkeeping of the
front end, and an instruction reads none of that bookkeeping; so what a free or a held instruction leaves is one context, written back where
it stood, and each statement is about that context. -/

namespace Sys2Proof.Claims
open Sys2Proof Sys2Proof.Machine

/-! ### The scalar side of a context -/

theorem ScalarSide.refl (c : Ctx) : ScalarSide c c := ⟨rfl, rfl⟩

theorem ScalarSide.trans {c d e : Ctx} (h₁ : ScalarSide c d) (h₂ : ScalarSide d e) : ScalarSide c e :=
  ⟨h₂.1.trans (by rw [h₁.1]), h₂.2.trans h₁.2⟩

theorem scalarSide_logUndo (c : Ctx) (ws : List SReg) (vl : Bool) : ScalarSide c (c.logUndo ws vl) := by
  unfold Ctx.logUndo
  split <;> exact ⟨rfl, rfl⟩

theorem scalarSide_pc (c : Ctx) (p : Word) : ScalarSide c { c with pc := p } := ⟨rfl, rfl⟩

theorem scalarSide_setReg (c : Ctx) (r : SReg) (v : Word) : ScalarSide c (c.setReg r v) := by
  unfold Ctx.setReg
  split <;> exact ⟨rfl, rfl⟩

/-- Counting a retirement touches the last entry of the queue, not its instruction. -/
theorem scalarSide_count (c : Ctx) (n : Nat) : ScalarSide c (c.count n) := by
  unfold Ctx.count
  split
  · split
    next e he =>
      refine ⟨rfl, ?_⟩
      obtain ⟨es, hes⟩ := List.getLast?_eq_some_iff.mp he
      simp [hes]
    next => exact .refl c
  · exact ⟨rfl, rfl⟩

theorem scalarSide_retire (c : Ctx) : ScalarSide c c.retire := by
  have hord : ScalarSide c { c with ord := c.ord + 1 } := ⟨rfl, rfl⟩
  unfold Ctx.retire
  dsimp only
  split
  · exact hord
  · exact hord.trans (scalarSide_count _ 1)

/-- Context c with the registers, the pc and the bookkeeping of issue of context d. -/
def withScalars (c d : Ctx) : Ctx :=
  { c with sregs := d.sregs, badRegs := d.badRegs, pc := d.pc, ord := d.ord, instret := d.instret, vq := d.vq, undo := d.undo }

theorem ScalarSide.fflags_eq {c d : Ctx} (h : ScalarSide c d) : d.fflags = c.fflags := by rw [h.1]
theorem ScalarSide.vl_eq {c d : Ctx} (h : ScalarSide c d) : d.vl = c.vl := by rw [h.1]
theorem ScalarSide.vtype_eq {c d : Ctx} (h : ScalarSide c d) : d.vtype = c.vtype := by rw [h.1]
theorem ScalarSide.vlmaxOf_eq {c d : Ctx} (h : ScalarSide c d) (f : Fmt) : d.vlmaxOf f = c.vlmaxOf f := by rw [h.1]; rfl

/-- An update of other fields on both sides. -/
theorem ScalarSide.map {c d : Ctx} (h : ScalarSide c d) (g : Ctx → Ctx) (hg : ∀ c d, g (withScalars c d) = withScalars (g c) d) :
    ScalarSide (g c) (g d) := by
  obtain ⟨hfields, hins⟩ := h
  have hd : g d = withScalars (g c) d := (congrArg g hfields).trans (hg c d)
  have hvq := congrArg Ctx.vq (hg c c)
  have hc : (g c).vq = c.vq := hvq
  exact ⟨by rw [hd]; rfl, by rw [hd, hc]; exact hins⟩

/-- A register written, before or after the bookkeeping of issue. -/
theorem Writes.of_regs {c d : Ctx} {r : SReg} {v : Word} (h : ∀ q, d.reg q = (c.setReg r v).reg q) : Writes c d r v := by
  refine ⟨?_, fun q hq => (h q).trans (c.reg_setReg_ne v hq)⟩
  rw [h]
  split
  next h0 => subst h0; rfl
  next h0 => exact c.reg_setReg_same v (Fin.val_ne_zero_iff.mpr h0)

end Sys2Proof.Claims

namespace Sys2Proof.Machine
open Sys2Proof Sys2Proof.Claims

variable {s : State} {i : Instr} {reads writes : List SReg} {d a b : SReg} {vl : Bool}

/-! ### Issue and retirement -/

theorem Ctx.reg_setReg_congr {c c' : Ctx} (h : c'.reg = c.reg) (r q : SReg) (v : Word) : (c'.setReg r v).reg q = (c.setReg r v).reg q := by
  by_cases hq : q = r
  · subst hq
    by_cases h0 : q.val = 0
    · simp only [Ctx.setReg, h0, if_true, h]
    · rw [Ctx.reg_setReg_same _ _ h0, Ctx.reg_setReg_same _ _ h0]
  · rw [Ctx.reg_setReg_ne _ _ hq, Ctx.reg_setReg_ne _ _ hq, h]

@[simp] theorem Ctx.pc_setReg (c : Ctx) (r : SReg) (v : Word) : (c.setReg r v).pc = c.pc := by
  unfold Ctx.setReg
  split <;> rfl

theorem State.setCur_eq (h : s.sched.cur < numCtx) (c : Ctx) : s.setCur c = { s with ctxs := (s.setCur c).ctxs } := by
  simp [State.setCur, State.setCtx, h]

theorem State.setCur_others (h : s.sched.cur < numCtx) (c : Ctx) : OtherContexts s (s.setCur c) :=
  ⟨s.setCur_sched c, fun _ hx => s.ctx_setCtx_ne c h hx⟩

theorem State.scalarFrame_setCur (h : s.sched.cur < numCtx) {c : Ctx} (hc : ScalarSide s.curCtx c) : ScalarFrame s (s.setCur c) :=
  ⟨State.setCur_eq h c, State.setCur_others h c, by rwa [s.curCtx_setCur h]⟩

/-- The context in which a free instruction has its effect: what it will change is logged, and the pc stands past its chain. -/
def State.issueCtx (s : State) (writes : List SReg) (vl : Bool) : Ctx := { s.curCtx.logUndo writes vl with pc := s.nextPc }

@[simp] theorem State.reg_issueCtx (s : State) (writes : List SReg) (vl : Bool) : (s.issueCtx writes vl).reg = s.curCtx.reg :=
  funext fun r => s.curCtx.reg_logUndo writes vl r

@[simp] theorem State.pc_issueCtx (s : State) (writes : List SReg) (vl : Bool) : (s.issueCtx writes vl).pc = s.nextPc := rfl

theorem State.scalarSide_issueCtx (s : State) (writes : List SReg) (vl : Bool) : ScalarSide s.curCtx (s.issueCtx writes vl) :=
  (scalarSide_logUndo _ _ _).trans (scalarSide_pc _ _)

theorem freeIssue_of_ready (h : FreeReady s reads writes vl) (eff : State → Ctx → Out) :
    s.freeIssue reads writes vl eff = eff s (s.issueCtx writes vl) := s.freeIssue_ready reads writes vl eff h.issue h.good

theorem freeOp_of_ready (h : FreeReady s reads writes vl) (eff : Ctx → Ctx) :
    s.freeOp reads writes vl eff = .next (s.setCur (eff (s.issueCtx writes vl)).retire) := freeIssue_of_ready h _

/-- An instruction that ends in context e, in which register d holds v. -/
theorem retire_writes (h : s.sched.cur < numCtx) {e : Ctx} {v : Word} (hreg : ∀ q, e.reg q = (s.curCtx.setReg d v).reg q) :
    Writes s.curCtx (s.setCur e.retire).curCtx d v ∧ (s.setCur e.retire).curCtx.pc = e.pc := by
  rw [s.curCtx_setCur h]
  exact ⟨.of_regs fun q => by rw [Ctx.reg_retire, hreg], Ctx.pc_retire e⟩

/-- An instruction that ends in context e, of which the scalar side alone has changed. -/
theorem retire_result (h : s.sched.cur < numCtx) {e : Ctx} {v : Word} (hside : ScalarSide s.curCtx e)
    (hreg : ∀ q, e.reg q = (s.curCtx.setReg d v).reg q) :
    Writes s.curCtx (s.setCur e.retire).curCtx d v ∧ (s.setCur e.retire).curCtx.pc = e.pc ∧ ScalarFrame s (s.setCur e.retire) := by
  obtain ⟨hwrites, hpc⟩ := retire_writes h hreg
  exact ⟨hwrites, hpc, State.scalarFrame_setCur h (hside.trans (scalarSide_retire e))⟩

theorem State.reg_setReg_issueCtx (s : State) (ws : List SReg) (vl : Bool) (d q : SReg) (v : Word) :
    ((s.issueCtx ws vl).setReg d v).reg q = (s.curCtx.setReg d v).reg q := Ctx.reg_setReg_congr (s.reg_issueCtx ws vl) d q v

theorem State.scalarSide_setReg_issueCtx (s : State) (ws : List SReg) (vl : Bool) (d : SReg) (v : Word) :
    ScalarSide s.curCtx ((s.issueCtx ws vl).setReg d v) := (s.scalarSide_issueCtx ws vl).trans (scalarSide_setReg _ d v)

/-- A free instruction that writes v to d and goes on. -/
theorem setReg_result (h : s.sched.cur < numCtx) (ws : List SReg) (vl : Bool) (d : SReg) (v : Word) {t : State}
    (ht : s.setCur ((s.issueCtx ws vl).setReg d v).retire = t) :
    Writes s.curCtx t.curCtx d v ∧ t.curCtx.pc = s.nextPc ∧ ScalarFrame s t := by
  subst ht
  obtain ⟨hwrites, hpc, hframe⟩ := retire_result h (s.scalarSide_setReg_issueCtx ws vl d v) (s.reg_setReg_issueCtx ws vl d · v)
  exact ⟨hwrites, hpc.trans (Ctx.pc_setReg _ d v), hframe⟩

/-! ### What the model's formulas compute -/

theorem boolWord_decide (p : Prop) [Decidable p] : boolWord (decide p) = if p then 1 else 0 := by simp [boolWord]

theorem boolWord_slt (x y : Word) : boolWord (x.slt y) = if x.toInt < y.toInt then 1 else 0 := by
  rw [BitVec.slt_eq_decide, boolWord_decide]

theorem boolWord_ult (x y : Word) : boolWord (x.ult y) = if x.toNat < y.toNat then 1 else 0 := by
  rw [BitVec.ult_eq_decide, boolWord_decide]

theorem ite_slt_eq_min (x y : Word) : (if y.slt x then y else x) = BitVec.ofInt 64 (min x.toInt y.toInt) := by
  rw [BitVec.slt_eq_decide]
  by_cases h : y.toInt < x.toInt
  · simp [h, min_eq_right h.le]
  · simp [h, min_eq_left (not_lt.mp h)]

theorem ite_slt_eq_max (x y : Word) : (if x.slt y then y else x) = BitVec.ofInt 64 (max x.toInt y.toInt) := by
  rw [BitVec.slt_eq_decide]
  by_cases h : x.toInt < y.toInt
  · simp [h, max_eq_right h.le]
  · simp [h, max_eq_left (not_lt.mp h)]

theorem ite_ult_eq_min (x y : Word) : (if y.ult x then y else x) = BitVec.ofNat 64 (min x.toNat y.toNat) := by
  rw [BitVec.ult_eq_decide]
  by_cases h : y.toNat < x.toNat
  · simp [h, min_eq_right h.le]
  · simp [h, min_eq_left (not_lt.mp h)]

theorem ite_ult_eq_max (x y : Word) : (if x.ult y then y else x) = BitVec.ofNat 64 (max x.toNat y.toNat) := by
  rw [BitVec.ult_eq_decide]
  by_cases h : x.toNat < y.toNat
  · simp [h, max_eq_right h.le]
  · simp [h, max_eq_left (not_lt.mp h)]

/-- The upper half of the signed product. -/
theorem ofInt_mul_div_eq_extractLsb' (x y : Word) :
    BitVec.ofInt 64 (x.toInt * y.toInt / 2 ^ 64) = (x.signExtend 128 * y.signExtend 128).extractLsb' 64 64 := by
  have hprod : x.signExtend 128 * y.signExtend 128 = BitVec.ofInt 128 (x.toInt * y.toInt) := by
    simp [BitVec.signExtend, BitVec.ofInt_mul]
  rw [hprod]
  apply BitVec.eq_of_toNat_eq
  rw [BitVec.extractLsb'_toNat, BitVec.toNat_ofInt, BitVec.toNat_ofInt, Nat.shiftRight_eq_div_pow]
  omega

theorem ofNat_mul_div_eq_extractLsb' (x y : Word) :
    BitVec.ofNat 64 (x.toNat * y.toNat / 2 ^ 64) = (x.zeroExtend 128 * y.zeroExtend 128).extractLsb' 64 64 := by
  apply BitVec.eq_of_toNat_eq
  rw [BitVec.extractLsb'_toNat, BitVec.toNat_ofNat, BitVec.toNat_mul, BitVec.toNat_setWidth, BitVec.toNat_setWidth,
    Nat.shiftRight_eq_div_pow, ← Nat.mul_mod]
  omega

theorem ofNat_high_eq_append (h : BitVec 16) (x : Word) : BitVec.ofNat 64 (h.toNat * 2 ^ 48 + x.toNat % 2 ^ 48) = h ++ x.setWidth 48 := by
  apply BitVec.eq_of_toNat_eq
  rw [BitVec.toNat_append, BitVec.toNat_setWidth, ← Nat.shiftLeft_add_eq_or_of_lt (Nat.mod_lt _ (by decide)), Nat.shiftLeft_eq,
    BitVec.toNat_ofNat]
  omega

theorem signedOf_eq_toInt {w : Nat} (hw : 0 < w) (x : Word) : signedOf w x.toNat = (x.setWidth w).toInt := by
  obtain ⟨w, rfl⟩ := Nat.exists_eq_add_of_lt hw
  rw [BitVec.toInt_eq_toNat_cond, BitVec.toNat_setWidth, signedOf, Nat.zero_add, Nat.add_sub_cancel, Nat.pow_succ']
  simp only [Nat.mul_lt_mul_left (Nat.zero_lt_two)]

theorem sextW_extWidth (w : Fin 3) (x : Word) : sextW (extWidth w) x = (x.setWidth (8 * 2 ^ w.val)).signExtend 64 := by
  rw [sextW, signedOf_eq_toInt (by simp [extWidth]), BitVec.signExtend]
  rfl

theorem zextW_extWidth (w : Fin 3) (x : Word) : zextW (extWidth w) x = (x.setWidth (8 * 2 ^ w.val)).setWidth 64 := by
  apply BitVec.eq_of_toNat_eq
  simp [zextW, extWidth]

theorem ite_ne_zero_swap (x y z : Word) : (if z ≠ 0 then x else y) = if z = 0 then y else x := ite_not ..

theorem length_takeWhile_range {p : Nat → Bool} {n m : Nat} (hm : m ≤ n) (hlt : ∀ k < m, p k = true) (hstop : m < n → p m = false) :
    ((List.range n).takeWhile p).length = m := by
  obtain ⟨j, rfl⟩ := Nat.exists_eq_add_of_le hm
  rw [List.range_add, List.takeWhile_append_of_pos (by simpa using hlt)]
  cases j with
  | zero => simp
  | succ j => simp [List.range_succ_eq_map, hstop]

theorem clz64_eq (x : Word) : clz64 x = ((List.range 64).takeWhile fun k => !x.getMsbD k).length := by
  symm
  unfold clz64
  split
  next h => exact length_takeWhile_range le_rfl (by simp [h]) (by simp)
  next h =>
    have hne : x.toNat ≠ 0 := fun h0 => h (BitVec.eq_of_toNat_eq h0)
    have hlog : x.toNat.log2 < 64 := (Nat.log2_lt hne).mpr x.isLt
    refine length_takeWhile_range (by omega) (fun k hk => ?_) fun _ => ?_
    · have hlt : x.toNat < 2 ^ (64 - 1 - k) := (Nat.log2_lt hne).mp (by omega)
      simp [BitVec.getMsbD, BitVec.getLsbD, Nat.testBit_lt_two_pow hlt]
    · have hbit : 64 - 1 - (63 - x.toNat.log2) = x.toNat.log2 := by omega
      rw [BitVec.getMsbD, hbit, BitVec.getLsbD, Nat.testBit_log2 hne, decide_eq_true (by omega)]
      rfl

theorem ctzFrom_eq (x n : Nat) : ctzFrom x n = ((List.range n).takeWhile fun k => !x.testBit k).length := by
  induction n generalizing x with
  | zero => rfl
  | succ n ih =>
    have hshift : (fun k => !x.testBit k) ∘ Nat.succ = fun k => !(x / 2).testBit k := by
      funext k
      simp [Nat.testBit_succ]
    rw [ctzFrom, ih, List.range_succ_eq_map, List.takeWhile_cons, List.takeWhile_map, hshift, Nat.testBit_zero]
    by_cases h : x % 2 = 1
    · simp [h]
    · simp [h, Nat.add_comm]

theorem ctz64_eq (x : Word) : ctz64 x = ((List.range 64).takeWhile fun k => !x.getLsbD k).length := ctzFrom_eq _ 64

theorem popcount_eq (x n : Nat) : popcount x n = ((List.range n).filter fun k => x.testBit k).length := by
  induction n generalizing x with
  | zero => rfl
  | succ n ih =>
    have hshift : (fun k => x.testBit k) ∘ Nat.succ = fun k => (x / 2).testBit k := by
      funext k
      simp [Nat.testBit_succ]
    rw [popcount, ih, List.range_succ_eq_map, List.filter_cons, List.filter_map, hshift, Nat.testBit_zero]
    rcases Nat.mod_two_eq_zero_or_one x with h | h
    · simp [h]
    · simp [h, Nat.add_comm]

theorem popcount64_eq (x : Word) : popcount x.toNat 64 = ((List.range 64).filter fun k => x.getLsbD k).length := popcount_eq _ 64

/-- The one overflow of signed division (R41). -/
theorem overflows_iff (a b : Word) : (a.toInt = -(2 ^ (64 - 1) : Int) ∧ b.toInt = -1) ↔ a = BitVec.intMin 64 ∧ b = BitVec.allOnes 64 := by
  have ha : (BitVec.intMin 64).toInt = -(2 ^ (64 - 1) : Int) := by decide
  have hb : (BitVec.allOnes 64).toInt = -1 := by decide
  rw [← ha, ← hb, BitVec.toInt_inj, BitVec.toInt_inj]

theorem quotS_eq (a b : Word) : quotS a b = (if b = 0 then BitVec.allOnes 64 else a.sdiv b,
    if b = 0 then flIDZ else if a = BitVec.intMin 64 ∧ b = BitVec.allOnes 64 then flIOV else 0) := by
  simp only [quotS, overflows_iff]
  by_cases hb : b = 0
  · simp [hb]
  · by_cases ho : a = BitVec.intMin 64 ∧ b = BitVec.allOnes 64
    · obtain ⟨rfl, rfl⟩ := ho
      decide
    · have hq : (a.sdiv b).toInt = a.toInt.tdiv b.toInt :=
        BitVec.toInt_sdiv_of_ne_or_ne a b (not_and_or.mp ho)
      simp only [if_neg hb, if_neg ho, ← hq, BitVec.ofInt_toInt]

theorem remS_eq (a b : Word) : remS a b = (if b = 0 then a else a.srem b,
    if b = 0 then flIDZ else if a = BitVec.intMin 64 ∧ b = BitVec.allOnes 64 then flIOV else 0) := by
  simp only [remS, overflows_iff]
  by_cases hb : b = 0
  · simp [hb]
  · by_cases ho : a = BitVec.intMin 64 ∧ b = BitVec.allOnes 64
    · obtain ⟨rfl, rfl⟩ := ho
      decide
    · simp only [if_neg hb, if_neg ho, ← BitVec.toInt_srem, BitVec.ofInt_toInt]

theorem quotU_eq (a b : Word) : quotU a b = (if b = 0 then BitVec.allOnes 64 else a / b, if b = 0 then flIDZ else 0) := by
  unfold quotU
  split <;> simp [BitVec.udiv_def, *]

theorem remU_eq (a b : Word) : remU a b = (if b = 0 then a else a % b, if b = 0 then flIDZ else 0) := by
  unfold remU
  split <;> simp [BitVec.umod_def, *]
/-! ### Register results -/

theorem regOp_result (h : FreeReady s reads [d] false) (val : Ctx → Word) :
    ∃ t, s.regOp reads d val = .next t ∧ Writes s.curCtx t.curCtx d (val (s.issueCtx [d] false)) ∧ t.curCtx.pc = s.nextPc ∧ ScalarFrame s t :=
  ⟨_, freeOp_of_ready h _, setReg_result h.cur _ _ _ _ rfl⟩

/-- An instruction that is a register operation writes what its value reads as before issue, where it depends on registers alone. -/
theorem regResult {v : Ctx → Word} (hi : ∀ s, exec i s = s.regOp reads d v) (hv : ∀ c c' : Ctx, c'.reg = c.reg → v c' = v c) :
    RegResult i reads d v := by
  intro s h
  rw [hi, ← hv s.curCtx (s.issueCtx [d] false) (s.reg_issueCtx _ _)]
  exact regOp_result h v

/-- The model's formulas are put for the statement's; each instruction is then a register operation of its operands. -/
theorem scalarArithmeticResults : ScalarArithmeticResults := by
  intro d a b
  simp only [← ofInt_mul_div_eq_extractLsb', ← ofNat_mul_div_eq_extractLsb']
  refine ⟨?_, ?_, ?_, ?_, ?_, ?_, ?_, ?_, ?_, ?_, ?_, fun k => ?_⟩
  all_goals exact regResult (fun _ => rfl) fun c c' h => by simp only [h]

theorem scalarImmediateResults : ScalarImmediateResults := by
  intro d a
  simp only [← ofNat_high_eq_append]
  refine ⟨fun imm => ⟨?_, ?_, ?_, ?_, ?_, ?addpc⟩, fun n _ => ⟨?_, ?_, ?_⟩, fun h => ?_⟩
  case addpc => exact fun s hs => regOp_result hs fun _ => s.target imm
  all_goals exact regResult (fun _ => rfl) fun c c' h => by simp only [h]

theorem scalarCompareAndBitResults : ScalarCompareAndBitResults := by
  intro d a b
  simp only [← boolWord_slt, ← boolWord_ult, ← ite_slt_eq_min, ← ite_slt_eq_max, ← ite_ult_eq_min, ← ite_ult_eq_max, ← zero_sub, ← clz64_eq,
    ← ctz64_eq, ← popcount64_eq, ← sextW_extWidth, ← zextW_extWidth, ← ite_ne_zero_swap]
  refine ⟨?_, ?_, ?_, ?_, ?_, ?_, ?_, ?_, ?_, ?_, ?_, ?_, fun w => ⟨?_, ?_⟩, fun x => ?_⟩
  all_goals exact regResult (fun _ => rfl) fun c c' h => by simp only [h]

/-! ### Divisions -/

theorem heldOp_of_ready (h : HeldReady s reads writes) (eff : State → Out) : s.heldOp reads writes eff = eff s :=
  s.heldOp_ready reads writes eff h.issue h.good

/-- The context in which a held instruction ends: the pc stands past its chain. -/
def State.endCtx (s : State) : Ctx := { s.curCtx with pc := s.nextPc, status := .running }

@[simp] theorem State.reg_endCtx (s : State) : s.endCtx.reg = s.curCtx.reg := rfl

theorem State.curCtx_complete (h : s.sched.cur < numCtx) (f : Ctx → Ctx) : (s.complete f).curCtx = (f s.endCtx).retire :=
  s.curCtx_setCur h

theorem State.complete_eq (h : s.sched.cur < numCtx) (f : Ctx → Ctx) : s.complete f = { s with ctxs := (s.complete f).ctxs } :=
  State.setCur_eq h _

theorem State.complete_others (h : s.sched.cur < numCtx) (f : Ctx → Ctx) : OtherContexts s (s.complete f) := State.setCur_others h _

/-- The context that a division leaves (R32, R96). -/
def State.divCtx (s : State) (d : SReg) (r : Word × Flags) : Ctx :=
  ({ s.endCtx.setReg d r.1 with fflags := s.curCtx.fflags ||| r.2 } : Ctx).retire

theorem divOp_of_ready (h : HeldReady s [a, b] [d]) (f : Word → Word → Word × Flags) :
    s.divOp d a b f = .next (s.setCur (s.divCtx d (f (s.curCtx.reg a) (s.curCtx.reg b)))) :=
  heldOp_of_ready h _

theorem State.scalarSide_divCtx (s : State) (d : SReg) (r : Word × Flags) :
    ScalarSide { s.endCtx with fflags := s.curCtx.fflags ||| r.2 } (s.divCtx d r) :=
  ((scalarSide_setReg s.endCtx d r.1).map (fun c => { c with fflags := s.curCtx.fflags ||| r.2 }) fun _ _ => rfl).trans (scalarSide_retire _)

theorem divResult {f : Word → Word → Word × Flags} {v : Ctx → Word} {fl : Ctx → Flags} (hi : ∀ s, exec i s = s.divOp d a b f)
    (hf : ∀ c : Ctx, f (c.reg a) (c.reg b) = (v c, fl c)) : DivResult i [a, b] d v fl := by
  intro s h
  have hexec := (hi s).trans (divOp_of_ready h f)
  rw [hf] at hexec
  obtain ⟨hwrites, hpc⟩ := retire_writes h.cur (e := { s.endCtx.setReg d (v s.curCtx) with fflags := s.curCtx.fflags ||| fl s.curCtx })
    fun q => Ctx.reg_setReg_congr s.reg_endCtx d q (v s.curCtx)
  have hside := s.scalarSide_divCtx d (v s.curCtx, fl s.curCtx)
  have hcur := s.curCtx_setCur (c := s.divCtx d (v s.curCtx, fl s.curCtx)) h.cur
  refine ⟨_, hexec, hwrites, (congrArg Ctx.fflags hcur).trans hside.fflags_eq, hpc.trans (Ctx.pc_setReg _ _ _),
    State.setCur_eq h.cur _, State.setCur_others h.cur _, ?_⟩
  rw [hcur, hside.fflags_eq]
  exact hside.map (fun c => { c with status := s.curCtx.status }) fun _ _ => rfl

theorem scalarDivisionResults : ScalarDivisionResults := by
  intro d a b
  exact ⟨divResult (f := quotS) (fun _ => rfl) fun c => quotS_eq _ _, divResult (f := remS) (fun _ => rfl) fun c => remS_eq _ _,
    divResult (f := quotU) (fun _ => rfl) fun c => quotU_eq _ _, divResult (f := remU) (fun _ => rfl) fun c => remU_eq _ _⟩

/-- Settles O4: a register operation writes its value of the registers as they stood before issue, and the model's value is the rules'. -/
theorem scalarRegisterResults : Obligations.ScalarRegisterResults := by
  unfold Obligations.ScalarRegisterResults
  exact ⟨scalarArithmeticResults, scalarImmediateResults, scalarCompareAndBitResults, scalarDivisionResults⟩

/-! ### Branches and jumps -/

theorem not_mayGuess_of_ready (h : FreeReady s reads [] false) : s.curCtx.mayGuess reads = false := by
  have hbusy := h.issue
  simp only [Ctx.canIssue, List.append_nil, Bool.and_eq_true, Bool.not_eq_true'] at hbusy
  simp [Ctx.mayGuess, hbusy.1.1.1]

theorem BranchTest.on_congr {c c' : Ctx} (h : c'.reg = c.reg) (t : BranchTest) (reads : List SReg) : t.on c' reads = t.on c reads := by
  simp only [BranchTest.on, h]

/-- Where a branch whose test is known goes (R98). -/
def State.branchPc (s : State) (reads : List SReg) (off : Int) (t : BranchTest) : Word :=
  if t.on s.curCtx reads then s.curCtx.pc + BitVec.ofInt 64 (2 * off) else s.nextPc

/-- The context that a branch leaves whose test is known. -/
def State.branchCtx (s : State) (reads : List SReg) (off : Int) (t : BranchTest) : Ctx :=
  ({ s.issueCtx [] false with pc := s.branchPc reads off t } : Ctx).retire

theorem State.scalarSide_branchCtx (s : State) (reads : List SReg) (off : Int) (t : BranchTest) :
    ScalarSide s.curCtx (s.branchCtx reads off t) :=
  ((s.scalarSide_issueCtx [] false).trans (scalarSide_pc _ _)).trans (scalarSide_retire _)

theorem State.reg_branchCtx (s : State) (reads : List SReg) (off : Int) (t : BranchTest) (r : SReg) :
    (s.branchCtx reads off t).reg r = s.curCtx.reg r := (Ctx.reg_retire _ r).trans (s.curCtx.reg_logUndo [] false r)

theorem State.pc_branchCtx (s : State) (reads : List SReg) (off : Int) (t : BranchTest) :
    (s.branchCtx reads off t).pc = s.branchPc reads off t := Ctx.pc_retire _

theorem branchOp_of_ready (h : FreeReady s reads [] false) (off : Int) (t : BranchTest) : s.branchOp reads off t =
    .next ((s.setCur (s.branchCtx reads off t)).learnBranch s.curCtx.pc s.sched.cur (t.on s.curCtx reads)) := by
  have hon := BranchTest.on_congr (s.reg_issueCtx [] false) t reads
  rw [State.branchOp, if_neg (by simp [not_mayGuess_of_ready h]), freeIssue_of_ready h]
  simp only [hon, State.setCur_sched]
  rfl

theorem State.core_setCur (s : State) (c : Ctx) (k : Nat) : (s.setCur c).core k = s.core k := by
  rw [State.core, State.setCur, State.setCtx_cores]
  rfl

/-- A direction counter learns: a core's counters alone change. -/
theorem State.core_learnBranch (s : State) (pc : Word) (cx : Nat) (taken : Bool) (k : Nat) :
    (s.learnBranch pc cx taken).core k = { s.core k with branches := ((s.learnBranch pc cx taken).core k).branches } := by
  unfold State.learnBranch State.modCore
  by_cases hk : k = coreOf cx
  · subst hk
    rw [State.core_setCore_same]
  · rw [State.core_setCore_ne _ _ hk]

theorem bne_eq_decide_ne (x y : Word) : (x != y) = decide (x ≠ y) := by simp [bne, beq_eq_decide]

theorem not_slt_eq_decide (x y : Word) : (!x.slt y) = decide (y.toInt ≤ x.toInt) := by
  rw [BitVec.slt_eq_decide, ← decide_not, decide_eq_decide, not_lt]

theorem not_ult_eq_decide (x y : Word) : (!x.ult y) = decide (y.toNat ≤ x.toNat) := by
  rw [BitVec.ult_eq_decide, ← decide_not, decide_eq_decide, not_lt]

theorem branchResult {t : BranchTest} {off : Int} {taken : Ctx → Bool} (hi : ∀ s, exec i s = s.branchOp reads off t)
    (ht : ∀ c, t.on c reads = taken c) : BranchResult i reads off taken := by
  intro s h
  have hside := s.scalarSide_branchCtx reads off t
  obtain ⟨heq, hothers, -⟩ := State.scalarFrame_setCur h.cur hside
  obtain ⟨u, hu⟩ : ∃ u, (s.setCur (s.branchCtx reads off t)).learnBranch s.curCtx.pc s.sched.cur (t.on s.curCtx reads) = u := ⟨_, rfl⟩
  have hcur : u.curCtx = s.branchCtx reads off t := by
    subst hu
    exact s.curCtx_setCur h.cur
  refine ⟨u, hu ▸ (hi s).trans (branchOp_of_ready h off t), ?_⟩
  rw [hcur, State.pc_branchCtx, State.branchPc, ht]
  refine ⟨rfl, s.reg_branchCtx reads off t, hu ▸ hothers, hside, ?_, fun k => ?_⟩
  · subst hu
    exact congrArg (fun v : State => { v with
      cores := ((s.setCur (s.branchCtx reads off t)).learnBranch s.curCtx.pc s.sched.cur (t.on s.curCtx reads)).cores }) heq
  · rw [← hu, State.core_learnBranch, State.core_setCur]

/-- A jump to p that links its next address in d. -/
theorem jump_result (h : s.sched.cur < numCtx) (d : SReg) (p : Word) {t : State}
    (ht : s.setCur ({ (s.issueCtx [d] false).setReg d s.nextPc with pc := p } : Ctx).retire = t) :
    Writes s.curCtx t.curCtx d s.nextPc ∧ t.curCtx.pc = p ∧ ScalarFrame s t := by
  subst ht
  exact retire_result h ((s.scalarSide_setReg_issueCtx [d] false d s.nextPc).trans (scalarSide_pc _ p))
    (s.reg_setReg_issueCtx [d] false d · s.nextPc)

theorem execJal_ready (off : Int) (h : FreeReady s [] [d] false) :
    execJal d off s = .next (s.setCur ({ (s.issueCtx [d] false).setReg d s.nextPc with pc := s.target off } : Ctx).retire) :=
  freeOp_of_ready h _

theorem execJalr_ready (h : FreeReady s [a] [d] false) : execJalr d a s =
    if (s.curCtx.reg a).getLsbD 0 then s.trapCur .misaligned (s.curCtx.reg a)
    else .next (s.setCur ({ (s.issueCtx [d] false).setReg d s.nextPc with pc := s.curCtx.reg a } : Ctx).retire) := by
  rw [execJalr, freeIssue_of_ready h, State.reg_issueCtx]
  rfl

/-- Settles O5: a branch that can issue is not guessed, so its test is known; a jump's link is the address that issue has put in the pc. -/
theorem branchAndJumpResults : Obligations.BranchAndJumpResults := by
  unfold Obligations.BranchAndJumpResults
  intro d a off
  refine ⟨?eqz, ?nez, ?eq, ?ne, ?lt, ?ge, ?ltn, ?gen, fun s h => ?jal, fun s h heven => ?jalr, fun s h htrap hodd => ?jalrOdd⟩
  case eqz => exact branchResult (t := .eqz) (fun _ => rfl) fun c => rfl
  case nez => exact branchResult (t := .nez) (fun _ => rfl) fun c => bne_eq_decide_ne _ _
  case eq => exact branchResult (t := .eq) (fun _ => rfl) fun c => rfl
  case ne => exact branchResult (t := .ne) (fun _ => rfl) fun c => bne_eq_decide_ne _ _
  case lt => exact branchResult (t := .lt) (fun _ => rfl) fun c => BitVec.slt_eq_decide
  case ge => exact branchResult (t := .ge) (fun _ => rfl) fun c => not_slt_eq_decide _ _
  case ltn => exact branchResult (t := .ltn) (fun _ => rfl) fun c => BitVec.ult_eq_decide
  case gen => exact branchResult (t := .gen) (fun _ => rfl) fun c => not_ult_eq_decide _ _
  case jal => exact ⟨_, execJal_ready off h, jump_result h.cur d _ rfl⟩
  case jalr =>
    refine ⟨_, (execJalr_ready h).trans (if_neg (Bool.eq_false_iff.mp heven)), jump_result h.cur d _ rfl⟩
  case jalrOdd =>
    exact (execJalr_ready h).trans ((if_pos hodd).trans (s.trapCur_takes _ _ htrap))

/-! ### SETVL and LOOPSM -/

/-- Format code 0xF has no SETVL (R99). -/
theorem decode_setvl_format15 (d a : Fin 16) : decode [0xE00F + 256 * d.val + 16 * a.val] = .error .illegal := by
  obtain ⟨w, hw⟩ : ∃ w, 0xE00F + 256 * d.val + 16 * a.val = w := ⟨_, rfl⟩
  have htop : bitsOf w 15 12 = 14 := by simp only [bitsOf]; omega
  have hfmt : bitsOf w 3 0 = 15 := by simp only [bitsOf]; omega
  have hsel : select (Chain.close {} w) = none := by
    rw [select_page00 rfl]
    simp [selectPage00, Chain.close, htop, hfmt]
  rw [hw, decode, readChain_base 4 0 false {} (by omega) []]
  simp only [hsel]

/-- The context that SETVL leaves, with a VL of n (R99). -/
def State.setvlCtx (s : State) (d : SReg) (f : Fmt) (n : Nat) : Ctx :=
  ({ (s.issueCtx [d] true).setReg d (BitVec.ofNat 64 n) with vtype := f, vl := n } : Ctx).retire

theorem execSetvl_ready (f : Fmt) (h : FreeReady s [a] [d] true) :
    execSetvl d a f s = .next (s.setCur (s.setvlCtx d f (min (s.curCtx.reg a).toNat (s.curCtx.vlmaxOf f)))) := by
  rw [execSetvl, freeOp_of_ready h]
  simp only [State.reg_issueCtx, (s.scalarSide_issueCtx [d] true).vlmaxOf_eq, State.setvlCtx]

theorem State.scalarSide_setvlCtx (s : State) (d : SReg) (f : Fmt) (n : Nat) :
    ScalarSide { s.curCtx with vl := n, vtype := f } (s.setvlCtx d f n) :=
  ((s.scalarSide_setReg_issueCtx [d] true d _).map (fun c => { c with vtype := f, vl := n }) fun _ _ => rfl).trans (scalarSide_retire _)

theorem setvlCtx_writes (h : s.sched.cur < numCtx) (d : SReg) (f : Fmt) (n : Nat) :
    Writes s.curCtx (s.setCur (s.setvlCtx d f n)).curCtx d (BitVec.ofNat 64 n) ∧ (s.setCur (s.setvlCtx d f n)).curCtx.pc = s.nextPc := by
  obtain ⟨hwrites, hpc⟩ := retire_writes h
    (e := { (s.issueCtx [d] true).setReg d (BitVec.ofNat 64 n) with vtype := f, vl := n }) (s.reg_setReg_issueCtx [d] true d · _)
  exact ⟨hwrites, hpc.trans (Ctx.pc_setReg _ d _)⟩

/-- The pointers ps step on (R100). -/
def Ctx.advance (c : Ctx) (step : Word) (ps : List SReg) : Ctx := ps.foldl (fun c r => c.setReg r (c.reg r + step)) c

theorem Ctx.reg_advance (c : Ctx) (step : Word) {ps : List SReg} (h0 : ∀ r ∈ ps, r.val ≠ 0) (hnd : ps.Nodup) (q : SReg) :
    (c.advance step ps).reg q = if q ∈ ps then c.reg q + step else c.reg q := by
  induction ps generalizing c with
  | nil => simp [Ctx.advance]
  | cons r ps ih =>
    obtain ⟨hr, hps⟩ := List.nodup_cons.mp hnd
    have ih' := ih (c.setReg r (c.reg r + step)) (fun x hx => h0 x (by simp [hx])) hps
    refine ih'.trans ?_
    by_cases hq : q = r
    · subst hq
      simp [hr, Ctx.reg_setReg_same _ _ (h0 q (by simp))]
    · simp [hq, Ctx.reg_setReg_ne _ _ hq]

@[simp] theorem Ctx.pc_advance (c : Ctx) (step : Word) (ps : List SReg) : (c.advance step ps).pc = c.pc := by
  induction ps generalizing c with
  | nil => rfl
  | cons r ps ih => exact (ih _).trans (Ctx.pc_setReg _ _ _)

theorem scalarSide_advance (c : Ctx) (step : Word) (ps : List SReg) : ScalarSide c (c.advance step ps) := by
  induction ps generalizing c with
  | nil => exact .refl c
  | cons r ps ih => exact (scalarSide_setReg c r _).trans (ih _)

theorem mem_loopPointers {rc p : SReg} {np : Fin 4} (h : loopsmOk rc p np = true) {r : SReg} :
    r ∈ loopPointers p np ↔ p.val ≤ r.val ∧ r.val ≤ p.val + np.val := by
  simp only [loopsmOk, Bool.and_eq_true, decide_eq_true_eq] at h
  simp only [loopPointers, List.mem_map, List.mem_range, Fin.ext_iff, Fin.val_ofNat]
  constructor
  · rintro ⟨i, hi, hr⟩
    omega
  · rintro ⟨hlo, hhi⟩
    exact ⟨r.val - p.val, by omega, by omega⟩

theorem nodup_loopPointers (p : SReg) (np : Fin 4) : (loopPointers p np).Nodup := by
  refine List.Nodup.map_on (fun i hi j hj hij => ?_) List.nodup_range
  simp only [List.mem_range] at hi hj
  simp only [Fin.ext_iff, Fin.val_ofNat] at hij
  omega

/-- The registers LOOPSM names are told apart, and no pointer is s0. -/
theorem loopPointers_ne_zero {rc p : SReg} {np : Fin 4} (h : loopsmOk rc p np = true) {r : SReg} (hr : r ∈ loopPointers p np) : r.val ≠ 0 := by
  rw [mem_loopPointers h] at hr
  simp only [loopsmOk, Bool.and_eq_true, decide_eq_true_eq] at h
  omega

theorem counter_not_mem_loopPointers {rc p : SReg} {np : Fin 4} (h : loopsmOk rc p np = true) : rc ∉ loopPointers p np := by
  rw [mem_loopPointers h]
  simp only [loopsmOk, Bool.and_eq_true, Bool.not_eq_true', Bool.and_eq_false_iff, decide_eq_false_iff_not] at h
  omega

/-- What is left of the loop's count (R100). -/
def Ctx.loopLeft (c : Ctx) (rc : SReg) : Word := c.reg rc - BitVec.ofNat 64 c.vl

/-- The bytes of VL elements (R100). -/
def Ctx.loopBytes (c : Ctx) : Word := BitVec.ofNat 64 ((c.vl * Fmt.bits c.vtype + 7) / 8)

/-- The VL of the loop's next turn (R100). -/
def Ctx.loopVl (c : Ctx) (rc : SReg) : Nat :=
  if (c.loopLeft rc).toInt ≤ 0 then 0 else min (c.loopLeft rc).toNat (c.vlmaxOf c.vtype)

/-- The counter and the pointers after a turn of the loop (R100). -/
def Ctx.loopRegs (c : Ctx) (rc : SReg) (ps : List SReg) : Ctx := (c.setReg rc (c.loopLeft rc)).advance c.loopBytes ps

theorem scalarSide_loopRegs (c : Ctx) (rc : SReg) (ps : List SReg) : ScalarSide c (c.loopRegs rc ps) :=
  (scalarSide_setReg c rc _).trans (scalarSide_advance _ _ ps)

@[simp] theorem Ctx.pc_loopRegs (c : Ctx) (rc : SReg) (ps : List SReg) : (c.loopRegs rc ps).pc = c.pc :=
  (Ctx.pc_advance _ _ ps).trans (Ctx.pc_setReg _ _ _)

theorem Ctx.reg_loopRegs (c : Ctx) {rc p : SReg} {np : Fin 4} (h : loopsmOk rc p np = true) (q : SReg) :
    (c.loopRegs rc (loopPointers p np)).reg q = if q = rc then (if rc = 0 then 0 else c.loopLeft rc)
      else if p.val ≤ q.val ∧ q.val ≤ p.val + np.val then c.reg q + c.loopBytes else c.reg q := by
  rw [Ctx.loopRegs, Ctx.reg_advance _ _ (fun r => loopPointers_ne_zero h) (nodup_loopPointers p np)]
  have hw : Writes c (c.setReg rc (c.loopLeft rc)) rc (c.loopLeft rc) := .of_regs fun _ => rfl
  by_cases hq : q = rc
  · subst hq
    rw [if_neg (counter_not_mem_loopPointers h), if_pos rfl, hw.1]
  · rw [if_neg hq, hw.2 q hq]
    simp only [mem_loopPointers h]

/-- The context after LOOPSM, but for its retirement (R100). -/
def Ctx.loopStep (c : Ctx) (rc : SReg) (ps : List SReg) (target : Word) : Ctx :=
  { c.loopRegs rc ps with vl := c.loopVl rc, pc := if (c.loopLeft rc).toInt ≤ 0 then c.pc else target }

theorem Ctx.loopStep_eq (c : Ctx) (rc : SReg) (ps : List SReg) (target : Word) :
    (if (c.loopLeft rc).toInt ≤ 0 then { c.loopRegs rc ps with vl := 0 }
      else { c.loopRegs rc ps with
        vl := min (c.loopLeft rc).toNat ((c.loopRegs rc ps).vlmaxOf (c.loopRegs rc ps).vtype), pc := target }) = c.loopStep rc ps target := by
  rw [(scalarSide_loopRegs c rc ps).vtype_eq, (scalarSide_loopRegs c rc ps).vlmaxOf_eq, Ctx.loopStep, Ctx.loopVl]
  split
  · rw [← Ctx.pc_loopRegs c rc ps]
  · rfl

theorem scalarSide_loopStep (c : Ctx) (rc : SReg) (ps : List SReg) (target : Word) :
    ScalarSide { c with vl := c.loopVl rc } (c.loopStep rc ps target) :=
  ((scalarSide_loopRegs c rc ps).map (fun c' => { c' with vl := c.loopVl rc }) fun _ _ => rfl).trans (scalarSide_pc _ _)

/-- What LOOPSM reads of the context does not change as it issues. -/
theorem State.loopLeft_issueCtx (s : State) (ws : List SReg) (vl : Bool) (rc : SReg) :
    (s.issueCtx ws vl).loopLeft rc = s.curCtx.loopLeft rc := by
  rw [Ctx.loopLeft, State.reg_issueCtx, (s.scalarSide_issueCtx ws vl).vl_eq]
  rfl

theorem State.loopVl_issueCtx (s : State) (ws : List SReg) (vl : Bool) (rc : SReg) : (s.issueCtx ws vl).loopVl rc = s.curCtx.loopVl rc := by
  rw [Ctx.loopVl, State.loopLeft_issueCtx, (s.scalarSide_issueCtx ws vl).vlmaxOf_eq, (s.scalarSide_issueCtx ws vl).vtype_eq]
  rfl

theorem State.loopBytes_issueCtx (s : State) (ws : List SReg) (vl : Bool) : (s.issueCtx ws vl).loopBytes = s.curCtx.loopBytes := by
  rw [Ctx.loopBytes, (s.scalarSide_issueCtx ws vl).vl_eq, (s.scalarSide_issueCtx ws vl).vtype_eq]
  rfl

/-- The context that LOOPSM leaves (R100). -/
def State.loopCtx (s : State) (rc : SReg) (ps : List SReg) (off : Int) : Ctx :=
  ((s.issueCtx (rc :: ps) true).loopStep rc ps (s.target off)).retire

theorem execLoopsm_ready {rc p : SReg} {np : Fin 4} (off : Int) (h : FreeReady s (rc :: loopPointers p np) (rc :: loopPointers p np) true) :
    execLoopsm rc p np off s = .next (s.setCur (s.loopCtx rc (loopPointers p np) off)) :=
  (freeOp_of_ready h _).trans (congrArg (fun e : Ctx => (.next (s.setCur e.retire) : Out)) (Ctx.loopStep_eq _ _ _ _))

theorem State.reg_loopCtx (s : State) {rc p : SReg} {np : Fin 4} (h : loopsmOk rc p np = true) (off : Int) (q : SReg) :
    (s.loopCtx rc (loopPointers p np) off).reg q = if q = rc then (if rc = 0 then 0 else s.curCtx.loopLeft rc)
      else if p.val ≤ q.val ∧ q.val ≤ p.val + np.val then s.curCtx.reg q + s.curCtx.loopBytes else s.curCtx.reg q := by
  rw [State.loopCtx, Ctx.reg_retire]
  refine (Ctx.reg_loopRegs _ h q).trans ?_
  rw [State.loopLeft_issueCtx, State.loopBytes_issueCtx, State.reg_issueCtx]

theorem State.pc_loopCtx (s : State) (rc : SReg) (ps : List SReg) (off : Int) :
    (s.loopCtx rc ps off).pc = if (s.curCtx.loopLeft rc).toInt ≤ 0 then s.nextPc else s.target off := by
  rw [State.loopCtx, Ctx.pc_retire, Ctx.loopStep, State.loopLeft_issueCtx, State.pc_issueCtx]

theorem State.scalarSide_loopCtx (s : State) (rc : SReg) (ps : List SReg) (off : Int) :
    ScalarSide { s.curCtx with vl := s.curCtx.loopVl rc } (s.loopCtx rc ps off) := by
  have hstep := scalarSide_loopStep (s.issueCtx (rc :: ps) true) rc ps (s.target off)
  rw [State.loopVl_issueCtx] at hstep
  have hissue := (s.scalarSide_issueCtx (rc :: ps) true).map (fun c => { c with vl := s.curCtx.loopVl rc }) fun _ _ => rfl
  exact (hissue.trans hstep).trans (scalarSide_retire _)

/-- Settles O6: what issue leaves alone is all that SETVL and LOOPSM read of the context, and the registers of LOOPSM are distinct. -/
theorem vectorLengthInstructions : Obligations.VectorLengthInstructions := by
  unfold Obligations.VectorLengthInstructions
  refine ⟨decode_setvl_format15, fun d a f s h => ?setvl, fun rc p np off s hok h => ?loopsm⟩
  case setvl =>
    obtain ⟨hwrites, hpc⟩ := setvlCtx_writes h.cur d f (min (s.curCtx.reg a).toNat (s.curCtx.vlmaxOf f))
    have hside := s.scalarSide_setvlCtx d f (min (s.curCtx.reg a).toNat (s.curCtx.vlmaxOf f))
    refine ⟨_, _, execSetvl_ready f h, rfl, hwrites, ?_, ?_, hpc, State.setCur_eq h.cur _, State.setCur_others h.cur _, ?_⟩
    all_goals rw [s.curCtx_setCur h.cur]
    · exact hside.vl_eq
    · exact hside.vtype_eq
    · exact hside
  case loopsm =>
    have hside := s.scalarSide_loopCtx rc (loopPointers p np) off
    refine ⟨_, s.curCtx.loopLeft rc, s.curCtx.loopBytes, execLoopsm_ready off h, rfl, rfl, ?_, fun r hr => ?_, ?_, ?_,
      State.setCur_eq h.cur _, State.setCur_others h.cur _, ?_⟩
    all_goals rw [s.curCtx_setCur h.cur]
    · rw [s.reg_loopCtx hok, if_pos rfl]
    · rw [s.reg_loopCtx hok, if_neg hr]
    · exact hside.vl_eq
    · exact s.pc_loopCtx rc _ off
    · rw [hside.vl_eq]
      exact hside

/-! ### TIME, RDCNT and WAITC -/

theorem State.counterNow_near (s : State) (old : Nat) : s.counterNow old ≤ s.time.ref + 8 ∨ s.counterNow old = old := by
  simp only [State.counterNow]
  omega

theorem execTime_ready (h : FreeReady s [] [d] false) : execTime d s =
    .next ((s.clusterNow (clusterOf (coreOf s.sched.cur))).2.setCur
      ((s.issueCtx [d] false).setReg d (BitVec.ofNat 64 (s.clusterNow (clusterOf (coreOf s.sched.cur))).1)).retire) :=
  freeIssue_of_ready h _

/-- What a free instruction of a context may log: its undo entries, with the pc past its chain. -/
theorem State.issueCtx_eq (s : State) (ws : List SReg) (vl : Bool) :
    s.issueCtx ws vl = { s.curCtx with undo := (s.issueCtx ws vl).undo, pc := s.nextPc } := by
  unfold State.issueCtx Ctx.logUndo
  split <;> rfl

/-- A counter that RDCNT reads (R103). -/
def State.counterWord (s : State) (c : Ctx) (sel : Fin 7) : Word :=
  match sel.val with
  | 0 => BitVec.ofNat 64 c.cntLd
  | 1 => BitVec.ofNat 64 c.cntSt
  | 2 => BitVec.ofNat 64 c.cntCp
  | 3 => BitVec.ofNat 64 (s.cntMx s.sched.cur c)
  | 4 => BitVec.ofNat 64 c.cntEn
  | 5 => BitVec.ofNat 64 (s.coreCycles (coreOf s.sched.cur))
  | _ => c.instret

theorem State.counterWord_issueCtx (s : State) (ws : List SReg) (vl : Bool) (sel : Fin 7) :
    s.counterWord (s.issueCtx ws vl) sel = s.counterWord s.curCtx sel := by
  rw [State.issueCtx_eq]
  rfl

theorem execRdcnt_ready (sel : Fin 7) (h : FreeReady s [] [d] false) (hg : s.curCtx.guess = none) :
    execRdcnt d sel s = .next (s.setCur ((s.issueCtx [d] false).setReg d (s.counterWord s.curCtx sel)).retire) := by
  rw [execRdcnt, if_neg (by simp [hg]), freeIssue_of_ready h, ← s.counterWord_issueCtx [d] false]
  rfl

/-- WAITC within its limits, with no fault of a matrix command to raise, goes on (R105). -/
theorem execWaitc_ready {ld st cp mx en : Fin 16} (h : FreeReady s [] [] false)
    (hover : s.waitOver s.sched.cur s.curCtx (.counters ld.val st.val cp.val mx.val en.val) = true)
    (hfault : ∀ m, s.mxOf s.sched.cur s.curCtx = some m → m.fpend = false) :
    execWaitc ld st cp mx en s = .next (s.setCur (s.issueCtx [] false).retire) := by
  simp only [execWaitc, hover]
  split
  · next hn => contradiction
  · split
    · next m hm =>
      simp only [hfault m hm]
      exact freeOp_of_ready h id
    · exact freeOp_of_ready h id

theorem timeAndCounterReads : TimeAndCounterReads := by
  refine ⟨fun d s h => ?time, fun d k s h hg => ?rdcnt, fun ld st cp mx en s h hld hst hcp hmx hen hfault => ?waitc⟩
  case time =>
    obtain ⟨hwrites, hpc, -⟩ := setReg_result (s := (s.clusterNow (clusterOf (coreOf s.sched.cur))).2) h.cur [d] false d
      (BitVec.ofNat 64 (s.clusterNow (clusterOf (coreOf s.sched.cur))).1) rfl
    obtain ⟨hold, href⟩ := s.counterNow_ge (s.time.cluster.get 0 (clusterOf (coreOf s.sched.cur)))
    refine ⟨_, _, execTime_ready h, hwrites, hpc, hold, href, s.counterNow_near _, ?_, State.setCtx_mem _ _ _,
      State.setCtx_jobs _ _ h.cur, State.setCtx_cores _ _ _⟩
    rw [State.setCur, State.setCtx_time]
    exact FMap.get_set_same 0 s.time.cluster _ _
  case rdcnt =>
    obtain ⟨hwrites, hpc, hframe⟩ := setReg_result h.cur [d] false d (s.counterWord s.curCtx k) rfl
    exact ⟨_, execRdcnt_ready k h hg, hpc, hframe, hwrites⟩
  case waitc =>
    have hover : s.waitOver s.sched.cur s.curCtx (.counters ld.val st.val cp.val mx.val en.val) = true := by
      simp [State.waitOver, hld, hst, hcp, hmx, hen]
    have hside : ScalarSide s.curCtx (s.issueCtx [] false).retire := (s.scalarSide_issueCtx [] false).trans (scalarSide_retire _)
    refine ⟨_, execWaitc_ready h hover hfault, fun r => ?_, ?_, State.scalarFrame_setCur h.cur hside⟩
    all_goals rw [s.curCtx_setCur h.cur]
    · rw [Ctx.reg_retire, State.reg_issueCtx]
    · rw [Ctx.pc_retire, State.pc_issueCtx]

/-! ### GET and SET -/

/-- Below 0x80, or in supervisor mode, an index is not privileged (R90). -/
theorem not_privileged {c : Ctx} {n : Nat} (h : n < 0x80 ∨ c.mode = .supervisor) : (c.mode == .user && decide (0x80 ≤ n)) = false := by
  rcases h with h | h
  · simp [h]
  · simp [h]

theorem privileged {c : Ctx} {n : Nat} (h : 0x80 ≤ n) (hu : c.mode = .user) : (c.mode == .user && decide (0x80 ≤ n)) = true := by
  simp [h, hu]

theorem execGet_ready {idx : BitVec 8} {v : Word} (h : FreeReady s [] [d] false) (hp : idx.toNat < 0x80 ∨ s.curCtx.mode = .supervisor)
    (hv : s.stateReg s.sched.cur s.curCtx idx.toNat = some v) (hw : s.curCtx.regWaits idx.toNat = false) :
    execGet d idx s = .next (s.setCur ((s.issueCtx [d] false).setReg d v).retire) := by
  simp only [execGet, not_privileged hp, hv, hw, Bool.false_and, Bool.false_eq_true, if_false]
  exact freeOp_of_ready h _

/-- A state register written is written whatever the pc and the status are. -/
theorem Ctx.writeReg_endCtx (c : Ctx) (mask : Word) (idx : Nat) (v p : Word) (st : CtxStatus) :
    ({ c with pc := p, status := st } : Ctx).writeReg mask idx v = { c.writeReg mask idx v with pc := p, status := st } := by
  unfold Ctx.writeReg
  dsimp only
  split <;> rfl

theorem Ctx.reg_writeReg (c : Ctx) (mask : Word) (idx : Nat) (v : Word) : (c.writeReg mask idx v).reg = c.reg := by
  unfold Ctx.writeReg
  dsimp only
  split <;> rfl

theorem Ctx.writeReg_status (c : Ctx) (mask : Word) (idx : Nat) (v : Word) : (c.writeReg mask idx v).status = c.status := by
  unfold Ctx.writeReg
  dsimp only
  split <;> rfl

theorem execSet_ready {idx : BitVec 8} (h : HeldReady s [a] []) (hp : idx.toNat < 0x80 ∨ s.curCtx.mode = .supervisor)
    (hw : writableReg idx.toNat = true) (hv : stateValueOk idx.toNat (s.curCtx.reg a) = true) (hr : s.curCtx.regWaits idx.toNat = false)
    (hg : idx.toNat ≠ 0x21) :
    execSet a idx s = .next (s.complete fun c => c.writeReg (s.delegMask (s.tenantOf s.curCtx)) idx.toNat (s.curCtx.reg a)) := by
  simp only [execSet, not_privileged hp, hw, heldOp_of_ready h, hr, hv, hg, Bool.not_true, Bool.false_eq_true, if_false]

/-- The context that a SET leaves but for the status is the written one with the bookkeeping of issue. -/
theorem scalarSide_complete_writeReg (h : s.sched.cur < numCtx) (mask : Word) (idx : Nat) (v : Word) :
    ScalarSide (s.curCtx.writeReg mask idx v) { (s.complete fun c => c.writeReg mask idx v).curCtx with status := s.curCtx.status } := by
  have hend : s.endCtx.writeReg mask idx v = { s.curCtx.writeReg mask idx v with pc := s.nextPc, status := .running } :=
    s.curCtx.writeReg_endCtx mask idx v _ _
  rw [State.curCtx_complete h, hend]
  have hside := ((scalarSide_pc { s.curCtx.writeReg mask idx v with status := .running } s.nextPc).trans (scalarSide_retire _)).map
    (fun c => { c with status := s.curCtx.status }) fun _ _ => rfl
  have hstatus : ({ s.curCtx.writeReg mask idx v with status := s.curCtx.status } : Ctx) = s.curCtx.writeReg mask idx v := by
    rw [← s.curCtx.writeReg_status mask idx v]
  rwa [hstatus] at hside

theorem complete_writeReg_regs (h : s.sched.cur < numCtx) (mask : Word) (idx : Nat) (v : Word) (r : SReg) :
    (s.complete fun c => c.writeReg mask idx v).curCtx.reg r = s.curCtx.reg r := by
  rw [State.curCtx_complete h, Ctx.reg_retire, Ctx.reg_writeReg, State.reg_endCtx]

theorem complete_writeReg_pc (h : s.sched.cur < numCtx) (mask : Word) (idx : Nat) (v : Word) :
    (s.complete fun c => c.writeReg mask idx v).curCtx.pc = s.nextPc := by
  rw [State.curCtx_complete h, Ctx.pc_retire]
  exact congrArg Ctx.pc (s.curCtx.writeReg_endCtx mask idx v _ _)

theorem getAndSetStateRegisters : GetAndSetStateRegisters := by
  refine ⟨fun d idx v s h hp hv hw => ?get, fun a idx s h hp hw hv hr hg => ?set, fun a d idx s _ htrap hp hu => ⟨?getPriv, ?setPriv⟩⟩
  case get => exact ⟨_, execGet_ready h hp hv hw, setReg_result h.cur [d] false d v rfl⟩
  case set =>
    have hside := scalarSide_complete_writeReg h.cur (s.delegMask (s.tenantOf s.curCtx)) idx.toNat (s.curCtx.reg a)
    have hfields := hside.1
    refine ⟨_, execSet_ready h hp hw hv hr hg, complete_writeReg_regs h.cur _ _ _, complete_writeReg_pc h.cur _ _ _,
      State.complete_eq h.cur _, State.complete_others h.cur _, hside, fun hi => ?_, fun hi => ?_, fun hi => ?_, fun hi => ?_,
      fun hi => ?_, fun hi => ?_, fun hi => ?_⟩
    all_goals rw [hi] at hfields ⊢
    · exact congrArg Ctx.rmode hfields
    · exact congrArg Ctx.fflags hfields
    · exact congrArg Ctx.utvec hfields
    · exact congrArg Ctx.tvec hfields
    · exact congrArg Ctx.tepc hfields
    · exact congrArg Ctx.deleg hfields
    · exact congrArg Ctx.ptbase hfields
  case getPriv => exact (if_pos (privileged hp hu)).trans (s.trapCur_takes _ _ htrap)
  case setPriv => exact (if_pos (privileged hp hu)).trans (s.trapCur_takes _ _ htrap)

/-- Settles O7: the cluster's counter is the larger of what it showed and a time near the reference; the counters and state registers do
not depend on the bookkeeping of issue, and SET is one write of the context. -/
theorem stateRegisterAccess : Obligations.StateRegisterAccess := by
  unfold Obligations.StateRegisterAccess
  exact ⟨timeAndCounterReads, getAndSetStateRegisters⟩

end Sys2Proof.Machine

/-! PROOFS. Scalar loads and stores (R97, R200 to R215). An access check changes no context; with nothing else in flight a load then waits for
memory alone and a store is performed at once, so each statement is about memory after the check. -/

namespace Sys2Proof.Machine
open Sys2Proof Sys2Proof.Claims

/-- What an access may change (R204, R205, R385, R420): memory, the TLBs of cores and clusters, the lines the host holds, the note of a home
that is not ready, and the count of draws. -/
structure AccessEffect (s t : State) : Prop where
  fields : t = { s with mem := t.mem, cores := t.cores, clusters := t.clusters, host := { s.host with snoop := t.host.snoop }
                        sched := { s.sched with draws := t.sched.draws, held := t.sched.held } }
  core : ∀ c, t.core c = { s.core c with tlb := (t.core c).tlb }
  cluster : ∀ c, t.cluster c = { s.cluster c with tlb := (t.cluster c).tlb }

namespace AccessEffect
variable {s t u : State}

theorem refl (s : State) : AccessEffect s s := ⟨rfl, fun _ => rfl, fun _ => rfl⟩

theorem trans (h₁ : AccessEffect s t) (h₂ : AccessEffect t u) : AccessEffect s u where
  fields := h₂.fields.trans (by rw [h₁.fields])
  core c := (h₂.core c).trans (by rw [h₁.core c])
  cluster c := (h₂.cluster c).trans (by rw [h₁.cluster c])

/-- Fields outside the cores and clusters. -/
theorem of_fields (h : t = { s with mem := t.mem, host := { s.host with snoop := t.host.snoop }
                                    sched := { s.sched with draws := t.sched.draws, held := t.sched.held } }) : AccessEffect s t :=
  ⟨by rw [h], fun c => by rw [h]; rfl, fun c => by rw [h]; rfl⟩

theorem foldl {α : Type} (f : State → α → State) (hf : ∀ s a, AccessEffect s (f s a)) (xs : List α) (s : State) :
    AccessEffect s (xs.foldl f s) := by
  induction xs generalizing s with
  | nil => exact refl s
  | cons x xs ih => exact (hf s x).trans (ih (f s x))

theorem of_snd {α : Type} {r : α × State} {x : α} (h : r = (x, t)) (hr : AccessEffect s r.2) : AccessEffect s t := by subst h; exact hr

end AccessEffect

section
variable (s : State)

theorem State.touch_effect (p n : Nat) : AccessEffect s (s.touch p n) := by
  rcases s.touch_cases p n with h | ⟨q, h⟩ <;> rw [h]
  · exact .refl s
  · exact .of_fields rfl

theorem State.snoopRead_effect (p n : Nat) : AccessEffect s (s.snoopRead p n) := by
  unfold State.snoopRead
  dsimp only
  split
  · exact s.touch_effect p n
  · exact (s.touch_effect p n).trans (.of_fields rfl)

theorem State.snoopWrite_effect (p n : Nat) : AccessEffect s (s.snoopWrite p n) := by
  unfold State.snoopWrite
  dsimp only
  split
  · exact s.touch_effect p n
  · exact (s.touch_effect p n).trans (.of_fields rfl)

theorem State.snoopWalk_effect (root va : Nat) : AccessEffect s (s.snoopWalk root va) :=
  .foldl _ (fun s p => s.snoopRead_effect p 8) _ s

theorem State.drawBit_effect : AccessEffect s s.drawBit.2 := .of_fields rfl

theorem State.setCore_effect (c : Nat) (k : Core) (h : k = { s.core c with tlb := k.tlb }) : AccessEffect s (s.setCore c k) where
  fields := rfl
  core i := by
    by_cases hi : i = c
    · subst hi
      rwa [State.core_setCore_same]
    · rw [s.core_setCore_ne k hi]
  cluster _ := rfl

theorem State.setCluster_effect (c : Nat) (k : Cluster) (h : k = { s.cluster c with tlb := k.tlb }) : AccessEffect s (s.setCluster c k) where
  fields := rfl
  core _ := rfl
  cluster i := by
    by_cases hi : i = c
    · subst hi
      rwa [State.cluster_setCluster_same]
    · rw [s.cluster_setCluster_ne k hi]

theorem State.tlbFill_effect (a : Agent) (core cluster : Option Nat) (e : TlbEntry) : AccessEffect s (s.tlbFill a core cluster e) := by
  unfold State.tlbFill
  dsimp only
  have hdraw (t : State) (ht : AccessEffect s t) : AccessEffect s { t with sched := s.drawNat.2.sched } :=
    ⟨by rw [ht.fields]; rfl, ht.core, ht.cluster⟩
  have hcluster (t : State) (ht : AccessEffect s t) (c n : Nat) (f : Cluster → Cluster) (hf : ∀ k, f k = { k with tlb := (f k).tlb }) :
      AccessEffect s (if n = 0 then t else t.modCluster c f) := by
    split
    · exact ht
    · exact ht.trans (t.setCluster_effect c _ (hf _))
  have hcore (c : Nat) (f : Core → Core) (hf : ∀ k, f k = { k with tlb := (f k).tlb }) : AccessEffect s (s.modCore c f) :=
    s.setCore_effect c _ (hf _)
  refine hdraw _ ?_
  cases core with
  | none =>
    cases cluster with
    | none => exact .refl s
    | some k => exact hcluster s (.refl s) k _ _ fun _ => rfl
  | some c =>
    cases cluster with
    | none => exact hcore c _ fun _ => rfl
    | some k => exact hcluster _ (hcore c _ fun _ => rfl) k _ _ fun _ => rfl

theorem State.setAD_effect (l : Leaf) (d : Bool) : AccessEffect s (s.setAD l d) := by
  unfold State.setAD
  dsimp only
  split
  · exact .of_fields rfl
  · exact (s.snoopWrite_effect l.at_ 8).trans (.of_fields rfl)

theorem State.markLeaf_effect (a : Agent) (va : Nat) (d : Bool) : AccessEffect s (s.markLeaf a va d) := by
  unfold State.markLeaf
  split
  · exact .refl s
  · exact s.setAD_effect _ d

theorem State.walkFor_effect (a : Agent) (va : Nat) (k : AccessKind) (d : Bool) : AccessEffect s (s.walkFor a va k d).2 := by
  unfold State.walkFor
  have hwalk := s.snoopWalk_effect (ptePpn a.root.toNat) va
  dsimp only
  split
  · exact hwalk
  · split
    · dsimp only
      split
      · exact ((hwalk.trans (State.drawBit_effect _)).trans (State.setAD_effect _ _ d)).trans (State.tlbFill_effect _ _ _ _ _)
      · exact (hwalk.trans (State.setAD_effect _ _ d)).trans (State.tlbFill_effect _ _ _ _ _)
    · exact hwalk

theorem State.tlbHit_effect (e : Option TlbEntry) : AccessEffect s (s.tlbHit e).2 := by
  cases e with
  | none => exact .refl s
  | some e => exact s.drawBit_effect

theorem State.pageOf_effect (a : Agent) (va : Nat) (k : AccessKind) (d : Bool) : AccessEffect s (s.pageOf a va k d).2 := by
  have hits (t : State) (e : TlbEntry) (ht : AccessEffect s t) : AccessEffect s (if d && !e.d then t.walkFor a va k d
      else if e.grants k a.user && t.paExists (e.pa + (va - e.va)) then
        (some e, if e.size = 65536 then t.markLeaf a va d else t)
      else (none, t)).2 := by
    split
    · exact ht.trans (t.walkFor_effect a va k d)
    · split
      · dsimp only
        split
        · exact ht.trans (t.markLeaf_effect a va d)
        · exact ht
      · exact ht
  unfold State.pageOf
  dsimp only
  split
  on_goal 1 => refine hits _ _ ?_
  on_goal 2 => refine AccessEffect.trans ?_ (State.walkFor_effect _ a va k d)
  all_goals
    split
    · split
      · dsimp only
        exact s.tlbFill_effect _ _ _ _
      · exact .refl s
    · split
      · next heq => exact .of_snd heq (s.tlbHit_effect _)
      · next heq =>
        have h1 : AccessEffect s _ := .of_snd heq (s.tlbHit_effect _)
        split
        · next heq =>
          dsimp only
          exact (h1.trans (.of_snd heq (State.tlbHit_effect _ _))).trans (State.tlbFill_effect _ _ _ _ _)
        · next heq => exact h1.trans (.of_snd heq (State.tlbHit_effect _ _))

theorem State.xlate_effect (a : Agent) (va : Word) (k : AccessKind) (d : Bool) : AccessEffect s (s.xlate a va k d).2 := by
  have h := s.pageOf_effect a va.toNat k d
  unfold State.xlate
  dsimp only
  split
  · exact .refl s
  · split
    · exact .refl s
    · split <;> next heq => exact .of_snd heq h

theorem State.reach_effect (a : Agent) (va : Word) (n : Nat) (k : AccessKind) (d : Bool) : AccessEffect s (s.reach a va n k d).2 := by
  unfold State.reach
  split
  · next heq =>
    have h : AccessEffect s _ := .of_snd heq (s.xlate_effect a va k d)
    split
    · dsimp only
      split
      · exact s.xlate_effect a va k false
      · exact h
    · exact h
  · exact s.xlate_effect a va k d

theorem State.access_effect (a : Agent) (va : Word) (n : Nat) (k : AccessKind) (d : Bool) : AccessEffect s (s.access a va n k d).2 := by
  unfold State.access
  split
  · exact .refl s
  · exact s.reach_effect a va n k d

theorem State.not_poisoned_of_barred_eq_none {a : Agent} {n : Nat} {k : AccessKind} {x : Xlat} (h : s.barred a n k x = none) :
    s.poisoned x.place = false := by
  unfold State.barred at h
  split at h
  · cases h
  · split at h
    · cases h
    · next hp => simpa using hp

/-- What an access reaches is not poisoned (R389). -/
theorem State.not_poisoned_of_access {a : Agent} {va : Word} {n : Nat} {k : AccessKind} {d : Bool} {x : Xlat}
    (h : (s.access a va n k d).1 = .ok x) : s.poisoned x.place = false := by
  unfold State.access State.reach at h
  split at h
  · cases h
  · split at h
    · split at h
      · cases h
      · next hb =>
        cases h
        exact s.not_poisoned_of_barred_eq_none hb
    · next hno =>
      exact (hno x _ (Prod.ext h rfl)).elim

end
end Sys2Proof.Machine

namespace Sys2Proof.Machine
open Sys2Proof Sys2Proof.Claims

/-! ### Bytes put at a place: in the caches or at home (R201, R202, R214) -/

section
variable {s t : State}

/-- The two states hold the same contexts and jobs, and the same context issues. -/
structure SameContexts (s t : State) : Prop where
  ctxs : t.ctxs = s.ctxs
  jobs : t.jobs = s.jobs
  cur : t.sched.cur = s.sched.cur

namespace SameContexts
variable {u : State}

theorem refl (s : State) : SameContexts s s := ⟨rfl, rfl, rfl⟩

theorem trans (h₁ : SameContexts s t) (h₂ : SameContexts t u) : SameContexts s u :=
  ⟨h₂.ctxs.trans h₁.ctxs, h₂.jobs.trans h₁.jobs, h₂.cur.trans h₁.cur⟩

theorem foldl {α : Type} (f : State → α → State) (hf : ∀ s a, SameContexts s (f s a)) (xs : List α) (s : State) :
    SameContexts s (xs.foldl f s) := by
  induction xs generalizing s with
  | nil => exact refl s
  | cons x xs ih => exact (hf s x).trans (ih (f s x))

theorem ctx_eq (h : SameContexts s t) (cx : Nat) : t.ctx cx = s.ctx cx := by
  rw [State.ctx, h.ctxs, State.job?, h.jobs]
  rfl

theorem curCtx_eq (h : SameContexts s t) : t.curCtx = s.curCtx := by rw [State.curCtx, h.cur, h.ctx_eq]; rfl

end SameContexts

theorem AccessEffect.sameContexts (h : AccessEffect s t) : SameContexts s t where
  ctxs := by rw [h.fields]
  jobs := by rw [h.fields]
  cur := by rw [h.fields]

theorem AccessEffect.stale_eq (h : AccessEffect s t) : t.stale = s.stale := by rw [h.fields]
theorem AccessEffect.ecc_eq (h : AccessEffect s t) : t.ecc = s.ecc := by rw [h.fields]
theorem AccessEffect.poisoned_eq (h : AccessEffect s t) (p : Nat) : t.poisoned p = s.poisoned p := by rw [h.fields]; rfl
theorem AccessEffect.nextPc_eq (h : AccessEffect s t) : t.nextPc = s.nextPc := by
  have hlen : t.sched.ilen = s.sched.ilen := by rw [h.fields]
  rw [State.nextPc, hlen, h.sameContexts.curCtx_eq]
  rfl

/-- The matrix unit that a context of a core holds is not touched by an access. -/
theorem AccessEffect.mxOf_eq (h : AccessEffect s t) {cx : Nat} (hcx : cx < numCtx) (c : Ctx) : t.mxOf cx c = s.mxOf cx c := by
  have hmx : (t.core (coreOf cx)).mx = (s.core (coreOf cx)).mx := by rw [h.core (coreOf cx)]
  simp only [State.mxOf, if_pos hcx, hmx]

theorem SameContexts.clearEcc (s : State) (p n : Nat) : SameContexts s (s.clearEcc p n) := ⟨rfl, rfl, rfl⟩

theorem State.dirty_sameContexts (s : State) (p o : Nat) : SameContexts s (s.dirty p o) := by
  unfold State.dirty
  dsimp only
  split <;> exact ⟨rfl, rfl, rfl⟩

theorem State.storeBytes_sameContexts (s : State) (p : Nat) (o : Option Nat) (bs : List Byte) : SameContexts s (s.storeBytes p o bs) := by
  have hwrite (u : State) : SameContexts u { (u.snoopWrite p bs.length).clearEcc p bs.length with
      mem := ((u.snoopWrite p bs.length).clearEcc p bs.length).mem.writeBytes p bs } :=
    (u.snoopWrite_effect p bs.length).sameContexts.trans ⟨rfl, rfl, rfl⟩
  cases o with
  | none => exact hwrite s
  | some o => exact (s.dirty_sameContexts p o).trans (hwrite _)

theorem State.retain_sameContexts (s : State) (l : Nat) : SameContexts s (s.retain l) := by
  unfold State.retain
  split
  · exact .refl s
  · dsimp only
    split
    · exact .refl s
    · split <;> exact ⟨rfl, rfl, rfl⟩

theorem State.putHome_sameContexts (s : State) (p : Nat) (b : Byte) : SameContexts s (s.putHome p b) := by
  unfold State.putHome
  split <;> exact ⟨rfl, rfl, rfl⟩

theorem State.putBytes_sameContexts (s : State) (p : Nat) (o : Option Nat) (bs : List Byte) : SameContexts s (s.putBytes p o bs) := by
  unfold State.putBytes
  split
  · exact s.storeBytes_sameContexts p o bs
  · have hretain := SameContexts.foldl _ State.retain_sameContexts (linesAt p bs.length) s
    dsimp only
    split
    · have hclear := (State.snoopWrite_effect ((linesAt p bs.length).foldl State.retain s) p bs.length).sameContexts.trans
        (SameContexts.clearEcc _ p bs.length)
      exact (hretain.trans hclear).trans (.foldl _ (fun s (b : Byte × Nat) => s.putHome_sameContexts (p + b.2) b.1) _ _)
    · exact hretain.trans (State.storeBytes_sameContexts _ p none bs)

/-- A byte at home is what the line's home holds, or memory. -/
theorem State.homeByte_congr {q : Nat} (hs : t.stale.find? (lineOf q) = s.stale.find? (lineOf q)) (hm : t.mem.read q = s.mem.read q) :
    t.homeByte q = s.homeByte q := by
  rw [State.homeByte, hs, hm]
  rfl

theorem State.homeByte_of_clean {q : Nat} (h : s.stale.find? (lineOf q) = none) : s.homeByte q = s.mem.read q := by
  rw [State.homeByte, h]

theorem Memory.getD_readBytes_line (m : Memory) (q : Nat) : (m.readBytes (64 * lineOf q) 64).getD (q % 64) 0 = m.read q := by
  have hq : 64 * lineOf q + q % 64 = q := Nat.div_add_mod q 64
  rw [Memory.readBytes, List.getD_eq_getElem?_getD, List.getElem?_map, List.getElem?_range (Nat.mod_lt q (by omega))]
  simp [hq]

/-- A copy of a line that differed from nothing holds what the home holds. -/
theorem State.homeByte_insert_line {l q owner : Nat} {dirty : Bool} (h : s.stale.find? l = none) (hm : t.mem = s.mem)
    (ht : t.stale = s.stale.insert l { owner := owner, dirty := dirty, home := s.mem.readBytes (64 * l) 64 }) :
    t.homeByte q = s.homeByte q := by
  by_cases hq : lineOf q = l
  · subst hq
    rw [State.homeByte_of_clean h, State.homeByte, ht, FMap.find?_insert_same]
    exact s.mem.getD_readBytes_line q
  · exact State.homeByte_congr (by rw [ht, FMap.find?_insert_ne _ _ hq]) (by rw [hm])

@[simp] theorem State.homeByte_dirty (s : State) (p o q : Nat) : (s.dirty p o).homeByte q = s.homeByte q := by
  unfold State.dirty
  dsimp only
  split
  · next d hd =>
    by_cases hq : lineOf q = lineOf p
    · simp only [State.homeByte, hq, hd, FMap.find?_insert_same]
    · exact State.homeByte_congr (FMap.find?_insert_ne _ _ hq) rfl
  · next hd => exact State.homeByte_insert_line hd rfl rfl

@[simp] theorem State.homeByte_retain (s : State) (l q : Nat) : (s.retain l).homeByte q = s.homeByte q := by
  unfold State.retain
  split
  · rfl
  · next hl =>
    have hclean : s.stale.find? l = none := by simp_all
    dsimp only
    split
    · rfl
    · split
      · exact State.homeByte_insert_line hclean rfl rfl
      · rfl

theorem State.homeByte_retains (ls : List Nat) (s : State) (q : Nat) : (ls.foldl State.retain s).homeByte q = s.homeByte q := by
  induction ls generalizing s with
  | nil => rfl
  | cons l ls ih => exact (ih _).trans (s.homeByte_retain l q)

/-- The cached copies over n bytes are whole lines. -/
def State.FullLines (s : State) (p n : Nat) : Prop :=
  ∀ q, p ≤ q → q < p + n → ∀ d, s.stale.find? (lineOf q) = some d → d.home.length = 64

theorem State.fullLines_of_clean {p n : Nat} (h : ∀ i < n, s.stale.find? ((p + i) / 64) = none) : s.FullLines p n := by
  intro q hp hq d hd
  have hnone := h (q - p) (by omega)
  rw [Nat.add_sub_cancel' hp] at hnone
  exact absurd (hnone.symm.trans hd) (by simp)

theorem State.FullLines.of_stale_eq {p n : Nat} (h : s.FullLines p n) (ht : t.stale = s.stale) : t.FullLines p n := by
  unfold State.FullLines
  rwa [ht]

/-- One line put in keeps whole lines if it is one. -/
theorem State.FullLines.insert {p n l : Nat} {d : CachedLine} (h : s.FullLines p n) (ht : t.stale = s.stale.insert l d)
    (hd : ∀ q, p ≤ q → q < p + n → lineOf q = l → d.home.length = 64) : t.FullLines p n := by
  intro q hp hq e he
  rw [ht] at he
  by_cases hl : lineOf q = l
  · rw [hl, FMap.find?_insert_same] at he
    cases he
    exact hd q hp hq hl
  · rw [FMap.find?_insert_ne _ _ hl] at he
    exact h q hp hq e he

theorem State.FullLines.retain {p n : Nat} (h : s.FullLines p n) (l : Nat) : (s.retain l).FullLines p n := by
  unfold State.retain
  split
  · exact h
  · dsimp only
    split
    · exact h
    · split
      · exact h.insert rfl fun _ _ _ _ => by simp [Memory.readBytes]
      · exact h

theorem State.FullLines.retains {p n : Nat} (h : s.FullLines p n) (ls : List Nat) : (ls.foldl State.retain s).FullLines p n := by
  induction ls generalizing s with
  | nil => exact h
  | cons l ls ih => exact ih (h.retain l)

theorem State.FullLines.putHome {p n q : Nat} (h : s.FullLines p n) (b : Byte) : (s.putHome q b).FullLines p n := by
  unfold State.putHome
  split
  · next d hd =>
    refine h.insert rfl fun r hp hr hl => ?_
    rw [List.length_set]
    exact h r hp hr d (hl ▸ hd)
  · exact h

theorem State.homeByte_putHome_same {p : Nat} (h : ∀ d, s.stale.find? (lineOf p) = some d → d.home.length = 64) (b : Byte) :
    (s.putHome p b).homeByte p = b := by
  unfold State.putHome
  split
  · next d hd =>
    have hlt : p % 64 < d.home.length := by rw [h d hd]; exact Nat.mod_lt p (by omega)
    simp only [State.homeByte, FMap.find?_insert_same, List.getD_eq_getElem?_getD, List.getElem?_set_self hlt, Option.getD_some]
  · next hd =>
    rw [State.homeByte_of_clean (by exact hd)]
    exact Memory.read_write_same _ _ _

theorem State.homeByte_putHome_ne {p q : Nat} (hq : q ≠ p) (b : Byte) : (s.putHome p b).homeByte q = s.homeByte q := by
  unfold State.putHome
  split
  · next d hd =>
    by_cases hl : lineOf q = lineOf p
    · have hmod : p % 64 ≠ q % 64 := by
        unfold lineOf at hl
        omega
      simp only [State.homeByte, hl, hd, FMap.find?_insert_same, List.getD_eq_getElem?_getD, List.getElem?_set_ne hmod]
    · exact State.homeByte_congr (FMap.find?_insert_ne _ _ hl) rfl
  · exact State.homeByte_congr rfl (Memory.read_write_ne _ _ hq)

theorem State.read_putHome_ne {p q : Nat} (hq : q ≠ p) (b : Byte) : (s.putHome p b).mem.read q = s.mem.read q := by
  unfold State.putHome
  split
  · rfl
  · exact Memory.read_write_ne _ _ hq

/-- Bytes written at their homes, one after the other. -/
def State.putHomes (s : State) : Nat → List Byte → State
  | _, [] => s
  | p, b :: bs => (s.putHome p b).putHomes (p + 1) bs

theorem State.foldl_zipIdx_putHome (s : State) (p k : Nat) (bs : List Byte) :
    (bs.zipIdx k).foldl (fun s b => s.putHome (p + b.2) b.1) s = s.putHomes (p + k) bs := by
  induction bs generalizing s k with
  | nil => rfl
  | cons b bs ih => exact ih (s.putHome (p + k) b) (k + 1)

theorem State.putHomes_outside {p q : Nat} {bs : List Byte} (h : q < p ∨ p + bs.length ≤ q) :
    (s.putHomes p bs).mem.read q = s.mem.read q ∧ (s.putHomes p bs).homeByte q = s.homeByte q := by
  induction bs generalizing s p with
  | nil => exact ⟨rfl, rfl⟩
  | cons b bs ih =>
    rw [List.length_cons] at h
    have hq : q ≠ p := by omega
    obtain ⟨hread, hhome⟩ := ih (s := s.putHome p b) (p := p + 1) (by omega)
    exact ⟨hread.trans (State.read_putHome_ne hq b), hhome.trans (State.homeByte_putHome_ne hq b)⟩

theorem State.homeByte_putHomes {p i : Nat} {bs : List Byte} (h : s.FullLines p bs.length) (hi : i < bs.length) :
    bs[i]? = some ((s.putHomes p bs).homeByte (p + i)) := by
  induction bs generalizing s p i with
  | nil => simp at hi
  | cons b bs ih =>
    cases i with
    | zero =>
      have hsame : (s.putHome p b).homeByte p = b := State.homeByte_putHome_same (h p (Nat.le_refl p) (by simp)) b
      rw [Nat.add_zero, State.putHomes, (State.putHomes_outside (by omega)).2, hsame]
      rfl
    | succ i =>
      have hfull : (s.putHome p b).FullLines (p + 1) bs.length := fun q hp hq =>
        h.putHome b q (by omega) (by rw [List.length_cons]; omega)
      rw [State.putHomes, List.getElem?_cons_succ, ih hfull (by simpa using hi)]
      congr 2
      omega

theorem Memory.read_writeBytes_inside (m : Memory) (p : Nat) {i : Nat} {bs : List Byte} (hi : i < bs.length) :
    bs[i]? = some ((m.writeBytes p bs).read (p + i)) := by
  induction bs generalizing m p i with
  | nil => simp at hi
  | cons b bs ih =>
    cases i with
    | zero => rw [Memory.writeBytes, Memory.read_writeBytes_outside _ _ _ _ (by omega), Nat.add_zero, Memory.read_write_same]; rfl
    | succ i =>
      rw [Memory.writeBytes, List.getElem?_cons_succ, ih _ _ (by simpa using hi)]
      congr 2
      omega

/-- Bytes stand at a place, where its accesses are performed, and no other byte has changed. -/
structure BytesPut (s u : State) (cached : Option Nat) (p : Nat) (bs : List Byte) : Prop where
  inside : ∀ i < bs.length, bs[i]? = some (u.byteAt cached (p + i))
  outside : ∀ q, q < p ∨ p + bs.length ≤ q → u.mem.read q = s.mem.read q ∧ u.homeByte q = s.homeByte q

theorem State.not_underLine {p n : Nat} (h : s.underLine p n = false) {q : Nat} (hp : p ≤ q) (hq : q < p + n) :
    s.stale.find? (lineOf q) = none := by
  have hline := List.any_eq_false.1 h (q / 64 - p / 64) (List.mem_range.2 (by omega))
  rw [Nat.add_sub_cancel' (Nat.div_le_div_right hp)] at hline
  simpa [lineOf] using hline

theorem State.storeBytes_none_put {p : Nat} {bs : List Byte} (h : s.underLine p bs.length = false) :
    BytesPut s (s.storeBytes p none bs) none p bs := by
  have hstale : (s.storeBytes p none bs).stale = s.stale := (s.snoopWrite_effect p bs.length).stale_eq
  have hmem := s.storeBytes_mem p none bs
  refine ⟨fun i hi => ?_, fun q hq => ?_⟩
  · have hclean : (s.storeBytes p none bs).stale.find? (lineOf (p + i)) = none := by
      rw [hstale]
      exact State.not_underLine h (by omega) (by omega)
    show _ = some ((s.storeBytes p none bs).homeByte (p + i))
    rw [State.homeByte_of_clean hclean, hmem]
    exact Memory.read_writeBytes_inside _ _ hi
  · have hread := s.storeBytes_outside p q none bs hq
    exact ⟨hread, State.homeByte_congr (by rw [hstale]) hread⟩

theorem State.storeBytes_some_put (s : State) (o p : Nat) (bs : List Byte) : BytesPut s (s.storeBytes p (some o) bs) (some o) p bs := by
  have hstale : (s.storeBytes p (some o) bs).stale = (s.dirty p o).stale := ((s.dirty p o).snoopWrite_effect p bs.length).stale_eq
  refine ⟨fun i hi => ?_, fun q hq => ?_⟩
  · show _ = some ((s.storeBytes p (some o) bs).mem.read (p + i))
    rw [s.storeBytes_mem]
    exact Memory.read_writeBytes_inside _ _ hi
  · have hread := s.storeBytes_outside p q (some o) bs hq
    exact ⟨hread, (State.homeByte_congr (by rw [hstale]) (by rw [hread, s.dirty_mem])).trans (s.homeByte_dirty p o q)⟩

theorem State.putHomes_put {p : Nat} {bs : List Byte} (h : s.FullLines p bs.length) : BytesPut s (s.putHomes p bs) none p bs :=
  ⟨fun _ hi => State.homeByte_putHomes h hi, fun _ hq => State.putHomes_outside hq⟩

/-- What came before and left every byte and its home is no matter. -/
theorem BytesPut.of_kept {u : State} {o : Option Nat} {p : Nat} {bs : List Byte} (h : BytesPut t u o p bs) (hm : t.mem = s.mem)
    (hh : ∀ q, t.homeByte q = s.homeByte q) : BytesPut s u o p bs :=
  ⟨h.inside, fun q hq => by rw [(h.outside q hq).1, (h.outside q hq).2, hm, hh]; exact ⟨rfl, rfl⟩⟩

theorem State.stale_opened (s : State) (p n : Nat) : ((s.snoopWrite p n).clearEcc p n).stale = s.stale := (s.snoopWrite_effect p n).stale_eq

theorem State.homeByte_opened (s : State) (p n q : Nat) : ((s.snoopWrite p n).clearEcc p n).homeByte q = s.homeByte q :=
  State.homeByte_congr (congrArg (FMap.find? · (lineOf q)) (s.stale_opened p n)) (by simp)

/-- Bytes put past the caches: home by home under a copy, else as a store. -/
theorem State.putBytes_none (s : State) (p : Nat) (bs : List Byte) : s.putBytes p none bs =
    if ((linesAt p bs.length).foldl State.retain s).underLine p bs.length then
      ((((linesAt p bs.length).foldl State.retain s).snoopWrite p bs.length).clearEcc p bs.length).putHomes p bs
    else ((linesAt p bs.length).foldl State.retain s).storeBytes p none bs := by
  rw [← Nat.add_zero p, ← State.foldl_zipIdx_putHome, Nat.add_zero]
  rfl

/-- Bytes put where no copy that differs from its home lies over them unless a bank may hold it: they alone change (R201, R202). -/
theorem State.putBytes_put {o : Option Nat} {p : Nat} {bs : List Byte}
    (h : o = none → ∀ i < bs.length, s.stale.find? ((p + i) / 64) = none) : BytesPut s (s.putBytes p o bs) o p bs := by
  cases o with
  | some o =>
    rw [s.putBytes_cached]
    exact s.storeBytes_some_put o p bs
  | none =>
    have hmem : ((linesAt p bs.length).foldl State.retain s).mem = s.mem := State.retains_mem _ s
    have hfull : ((linesAt p bs.length).foldl State.retain s).FullLines p bs.length := (State.fullLines_of_clean (h rfl)).retains _
    rw [State.putBytes_none]
    split
    · exact (State.putHomes_put (hfull.of_stale_eq (State.stale_opened _ _ _))).of_kept (by simp [hmem])
        fun q => (State.homeByte_opened _ _ _ q).trans (State.homeByte_retains _ s q)
    · next hu => exact (State.storeBytes_none_put (by simpa using hu)).of_kept hmem (State.homeByte_retains _ s)

/-- The number that the low bytes of v stand for (R209). -/
theorem State.bytesAt_bytesOf {o : Option Nat} {p n v : Nat} (h : ∀ i < n, (bytesOf v n)[i]? = some (s.byteAt o (p + i))) :
    s.bytesAt o p n = v % 256 ^ n := by
  induction n generalizing p v with
  | zero => simp [State.bytesAt, Nat.mod_one]
  | succ n ih =>
    have hfirst : s.byteAt o p = BitVec.ofNat 8 v := (Option.some.inj (h 0 (by omega))).symm
    have hrest : s.bytesAt o (p + 1) n = v / 256 % 256 ^ n := ih fun i hi => by
      rw [Nat.add_right_comm]
      exact h (i + 1) (by omega)
    rw [State.bytesAt, hfirst, hrest, Nat.pow_succ', Nat.mod_mul]
    simp

theorem length_bytesOf (v n : Nat) : (bytesOf v n).length = n := by
  induction n generalizing v with
  | zero => rfl
  | succ n ih => exact congrArg (· + 1) (ih (v / 256))

end
end Sys2Proof.Machine

namespace Sys2Proof.Machine
open Sys2Proof Sys2Proof.Claims

/-! ### Contexts with nothing in flight -/

section
variable {s : State} {reads writes : List SReg} {vl : Bool}

theorem canIssue_of_quiet (h : Quiet s) (reads writes : List SReg) (vl : Bool) : s.curCtx.canIssue reads writes vl = true := by
  have hbusy (r : SReg) : s.curCtx.busy r = false := by simp [Ctx.busy, h.loads, h.queue, h.ops]
  simp [Ctx.canIssue, hbusy, Ctx.vlPending, Ctx.unstarted, h.queue, h.guess]

theorem canIssueHeld_of_quiet (h : Quiet s) (reads writes : List SReg) : s.curCtx.canIssueHeld reads writes = true := by
  have hbusy (r : SReg) : s.curCtx.busy r = false := by simp [Ctx.busy, h.loads, h.queue, h.ops]
  simp [Ctx.canIssueHeld, hbusy, Ctx.unstarted, h.queue, h.guess]

theorem badRead_of_quiet (h : Quiet s) (reads : List SReg) : s.curCtx.badRead reads = none := by
  simp [Ctx.badRead, h.errors]

theorem freeReady_of_quiet (h : Quiet s) (reads writes : List SReg) (vl : Bool) : FreeReady s reads writes vl :=
  ⟨h.cur, canIssue_of_quiet h reads writes vl, badRead_of_quiet h reads⟩

theorem heldReady_of_quiet (h : Quiet s) (reads writes : List SReg) : HeldReady s reads writes :=
  ⟨h.cur, canIssueHeld_of_quiet h reads writes, badRead_of_quiet h reads⟩

theorem pendM_of_quiet (h : Quiet s) (o : Nat) : s.pendM s.sched.cur s.curCtx o = false := by
  unfold State.pendM
  split
  · next m hm => simp [h.matrix m hm]
  · rfl

theorem pendClasses_of_quiet (h : Quiet s) (set o : Nat) : s.pendClasses s.sched.cur s.curCtx set o = false := by
  simp [State.pendClasses, Ctx.pendS, Ctx.pendV, Ctx.pendE, pendM_of_quiet h, h.loads, h.stores, h.queue, h.ops]

theorem trapHeld_of_quiet (h : Quiet s) : s.trapHeld s.sched.cur s.curCtx = false := by
  simp [State.trapHeld, Ctx.unstarted, Ctx.busy, pendClasses_of_quiet h, h.queue, h.guess, h.loads, h.ops]

theorem curFenced_of_quiet (h : Quiet s) (cls : Nat) : s.curFenced cls = false := by
  simp [State.curFenced, State.fenced, h.fences]

theorem cntLd_of_quiet (h : Quiet s) : s.curCtx.cntLd = 0 := by simp [Ctx.cntLd, h.loads, h.queue]
theorem cntSt_of_quiet (h : Quiet s) : s.curCtx.cntSt = 0 := by simp [Ctx.cntSt, h.stores, h.queue, distinctOrds]

theorem unstarted_of_quiet (h : Quiet s) : s.curCtx.unstarted = false := by simp [Ctx.unstarted, h.queue]

theorem issueCtx_of_quiet (h : Quiet s) (writes : List SReg) (vl : Bool) : s.issueCtx writes vl = { s.curCtx with pc := s.nextPc } := by
  rw [State.issueCtx, Ctx.logUndo_started _ _ _ (unstarted_of_quiet h) h.guess]


/-! ### Loads -/

/-- The context that a load leaves as it issues with nothing else in flight: the load is pending, and the pc stands past its chain. -/
def State.loadingCtx (s : State) (l : PendLoad) (st : CtxStatus) : Ctx :=
  { s.curCtx with status := st, pc := s.nextPc, ord := s.curCtx.ord + 1, instret := s.curCtx.instret + 1, loads := [l] }

@[simp] theorem State.loads_loadingCtx (s : State) (l : PendLoad) (st : CtxStatus) : (s.loadingCtx l st).loads = [l] := rfl
@[simp] theorem State.stores_loadingCtx (s : State) (l : PendLoad) (st : CtxStatus) : (s.loadingCtx l st).stores = s.curCtx.stores := rfl
@[simp] theorem State.vq_loadingCtx (s : State) (l : PendLoad) (st : CtxStatus) : (s.loadingCtx l st).vq = s.curCtx.vq := rfl

/-- A load's record as it issues. -/
def State.pendLoad (s : State) (x : Xlat) (d : SReg) (va : Word) (size : Nat) (signed : Bool) (k : LoadKind) : PendLoad :=
  { ord := s.curCtx.ord, dst := d, place := x.place, size := size, signed := signed, va := va, cached := x.cached, kind := k }

/-- The agent of a scalar access of the issuing context. -/
def State.curAgent (s : State) : Agent := s.agentOf s.sched.cur s.curCtx

/-- With nothing in flight a load is its access and what follows from the answer. -/
theorem loadOp_of_quiet (h : Quiet s) {addr : Ctx → Word} (haddr : ∀ c c' : Ctx, c'.reg = c.reg → addr c' = addr c) (d : SReg) (size : Nat)
    (signed : Bool) (t : State) :
    (∀ e, s.access s.curAgent (addr s.curCtx) size .read false = (.error e, t) →
      s.loadOp reads d addr size signed = t.trapCur e.cause e.value) ∧
    ∀ x, s.access s.curAgent (addr s.curCtx) size .read false = (.ok x, t) → s.loadOp reads d addr size signed =
      .next (t.setCur (s.loadingCtx (s.pendLoad x d (addr s.curCtx) size signed .plain) s.curCtx.status)) := by
  have hva : addr { s.curCtx with pc := s.nextPc } = addr s.curCtx := haddr _ _ rfl
  have hagent : s.agentOf s.sched.cur { s.curCtx with pc := s.nextPc } = s.curAgent := rfl
  unfold State.loadOp
  rw [if_neg (by simp [curFenced_of_quiet h, cntLd_of_quiet h]), freeIssue_of_ready (freeReady_of_quiet h reads [d] false), issueCtx_of_quiet h]
  dsimp only
  rw [hva, hagent]
  refine ⟨fun e he => by rw [he], fun x hx => ?_⟩
  rw [hx]
  dsimp only
  rw [if_neg (by simp [Ctx.unstarted, h.queue]), h.loads, Ctx.retire_started]
  · rfl
  · exact unstarted_of_quiet h
  · exact h.guess

theorem AccessEffect.complete_eq {s t : State} (h : AccessEffect s t) (f : Ctx → Ctx) : t.complete f = t.setCur (f s.endCtx).retire := by
  rw [State.complete, h.sameContexts.curCtx_eq, h.nextPc_eq]
  rfl

/-- With nothing in flight LDAQ is its access and what follows from the answer. -/
theorem execLdaq_of_quiet (h : Quiet s) (d a : SReg) (t : State) :
    (∀ e, s.access s.curAgent (s.curCtx.reg a) 8 .read false = (.error e, t) → execLdaq d a s = t.trapCur e.cause e.value) ∧
    ∀ x, s.access s.curAgent (s.curCtx.reg a) 8 .read false = (.ok x, t) →
      execLdaq d a s = .next (t.setCur (s.loadingCtx (s.pendLoad x d (s.curCtx.reg a) 8 false .acquire) .running)) := by
  have hagent : s.agentOf s.sched.cur s.curCtx = s.curAgent := rfl
  unfold execLdaq
  rw [if_neg (by simp [curFenced_of_quiet h, cntLd_of_quiet h]), heldOp_of_ready (heldReady_of_quiet h [a] [d])]
  dsimp only
  rw [hagent]
  refine ⟨fun e he => by rw [he], fun x hx => ?_⟩
  have heffect : AccessEffect s t := .of_snd hx (s.access_effect _ _ _ _ _)
  have hloads : s.endCtx.loads = [] := h.loads
  rw [hx]
  dsimp only
  rw [heffect.complete_eq, hloads, Ctx.retire_started _ (by exact unstarted_of_quiet h) (by exact h.guess)]
  rfl

/-! ### A load returns -/

/-- Without pending stores a context reads what the accesses to memory read. -/
theorem State.ownBytes_eq_bytesAt {c : Ctx} (h : c.stores = []) (o : Nat) (cached : Option Nat) (p n : Nat) :
    s.ownBytes c o cached p n = s.bytesAt cached p n := by
  induction n generalizing p with
  | zero => rfl
  | succ n ih => simp [State.ownBytes, State.bytesAt, State.ownByte, h, ih]

/-- Where no bank may hold a place and no copy lies over it, and where a bank may, accesses read memory. -/
theorem State.bytesAt_eq_readN {cached : Option Nat} {p n : Nat}
    (h : cached = none → ∀ i < n, s.stale.find? ((p + i) / 64) = none) : s.bytesAt cached p n = s.mem.readN p n := by
  induction n generalizing p with
  | zero => rfl
  | succ n ih =>
    have hbyte : s.byteAt cached p = s.mem.read p := by
      cases cached with
      | some o => rfl
      | none => exact State.homeByte_of_clean (h rfl 0 (by omega))
    have hrest : s.bytesAt cached (p + 1) n = s.mem.readN (p + 1) n := ih fun hc i hi => by
      rw [Nat.add_right_comm]
      exact h hc (i + 1) (by omega)
    rw [State.bytesAt, Memory.readN, hbyte, hrest]

theorem State.ownEcc_of_clean (h : s.ecc = []) (c : Ctx) (o p n : Nat) : s.ownEcc c o p n = false := by
  simp [State.ownEcc, h]

/-- The value of a load of n bytes (R209). -/
theorem extend_eq {n : Nat} (hn : 0 < n) (hn8 : n ≤ 8) (signed : Bool) (v : Nat) :
    extend signed n v = if signed then (BitVec.ofNat (8 * n) v).signExtend 64 else BitVec.ofNat 64 v := by
  cases signed with
  | false => rfl
  | true =>
    have hlow : (BitVec.ofNat 64 v).setWidth (8 * n) = BitVec.ofNat (8 * n) v := BitVec.setWidth_ofNat_of_le (by omega) v
    rw [extend, if_pos rfl, if_pos rfl, sextW, signedOf_eq_toInt (by omega), hlow]
    rfl

/-- Without queued matrix commands none holds an access back (R172). -/
theorem State.not_mxBlocks {cx : Nat} {c : Ctx} (h : ∀ m, s.mxOf cx c = some m → m.queue = []) (o p n : Nat) :
    s.mxBlocks cx c o p n = false := by
  unfold State.mxBlocks
  split
  · rfl
  · next m hm => simp [h m hm]

/-- Nothing is queued for the matrix unit once the issuing context alone has changed, but not its job. -/
theorem matrix_setCur_of_quiet {t : State} (h : Quiet s) (ht : AccessEffect s t) {c : Ctx} (hjob : c.job = s.curCtx.job) (m : MatrixUnit)
    (hm : (t.setCur c).mxOf s.sched.cur c = some m) : m.queue = [] := by
  refine h.matrix m ((ht.mxOf_eq h.cur s.curCtx).symm.trans ?_)
  rw [← hm]
  simp only [State.mxOf, hjob, State.core_setCur, if_pos h.cur]

section
variable {t : State} {l : PendLoad} {st : CtxStatus}

theorem loadDue_of_quiet (h : Quiet s) (ht : AccessEffect s t) :
    (t.setCur (s.loadingCtx l st)).loadDue s.sched.cur (s.loadingCtx l st) l = true := by
  have hmx := State.not_mxBlocks (matrix_setCur_of_quiet h ht (c := s.loadingCtx l st) rfl) l.ord l.place l.size
  simp [State.loadDue, hmx, Ctx.olderLoad, Ctx.olderVec, Ctx.olderAcquire, h.queue, h.stores]

/-- The context once its load has returned. -/
def State.loadedCtx (s : State) (l : PendLoad) (st : CtxStatus) (v : Word) : Ctx := { s.loadingCtx l st with loads := [] }.setReg l.dst v

/-- A load alone in flight returns the bytes of memory at its place (R85, R209). -/
theorem execScalarLoadReturn_of_quiet (h : Quiet s) (ht : AccessEffect s t) (hk : l.kind = .plain ∨ l.kind = .acquire) (hecc : s.ecc = [])
    (hp : s.poisoned l.place = false) (hline : l.cached = none → ∀ i < l.size, s.stale.find? ((l.place + i) / 64) = none) :
    execScalarLoadReturn s.sched.cur 0 (t.setCur (s.loadingCtx l st)) =
      .next (((t.setCur (s.loadingCtx l st)).snoopRead l.place l.size).setCtx s.sched.cur
        (s.loadedCtx l st (extend l.signed l.size (t.mem.readN l.place l.size)))) := by
  have hcur : t.sched.cur = s.sched.cur := ht.sameContexts.cur
  have hctx : (t.setCur (s.loadingCtx l st)).ctx s.sched.cur = s.loadingCtx l st := by
    rw [State.setCur, hcur, State.ctx_setCtx_same _ _ h.cur]
  have hset := State.setCur_eq (s := t) (hcur ▸ h.cur) (s.loadingCtx l st)
  have herror : (t.setCur (s.loadingCtx l st)).loadError (s.loadingCtx l st) l = none := by
    have hpois : (t.setCur (s.loadingCtx l st)).poisoned l.place = false := by
      rw [← hp, ← ht.poisoned_eq, hset]
      rfl
    have hclean : (t.setCur (s.loadingCtx l st)).ecc = [] := by rw [hset, ← hecc, ← ht.ecc_eq]
    rw [State.loadError, hpois, State.ownEcc_of_clean hclean]
    rfl
  have hvalue : (t.setCur (s.loadingCtx l st)).ownBytes (s.loadingCtx l st) l.ord l.cached l.place l.size = t.mem.readN l.place l.size := by
    rw [State.ownBytes_eq_bytesAt (by exact h.stores), State.bytesAt_eq_readN, State.setCur_mem]
    rw [hset, ← ht.stale_eq] at *
    exact hline
  have hreturn : (t.setCur (s.loadingCtx l st)).loadReturn s.sched.cur (s.loadingCtx l st) 0 l =
      ((t.setCur (s.loadingCtx l st)).snoopRead l.place l.size).setCtx s.sched.cur
        (s.loadedCtx l st (extend l.signed l.size (t.mem.readN l.place l.size))) := by
    unfold State.loadReturn
    rw [herror, hvalue]
    rcases hk with hk | hk <;> rw [hk] <;> rfl
  unfold execScalarLoadReturn
  simp only [hctx, State.loads_loadingCtx, List.getElem?_cons_zero]
  rw [if_pos (loadDue_of_quiet h ht), hreturn]

end

end
end Sys2Proof.Machine

namespace Sys2Proof.Machine
open Sys2Proof Sys2Proof.Claims

section
variable {s t u : State} {i : Instr} {d : SReg} {addr : Ctx → Word} {size : Nat} {signed : Bool}

/-- Among contexts and jobs, the issuing context alone differs. -/
structure CurrentAlone (s t : State) : Prop where
  cur : t.sched.cur = s.sched.cur
  jobs : t.jobs = s.jobs
  others : ∀ cx, cx ≠ s.sched.cur → t.ctx cx = s.ctx cx

theorem SameContexts.currentAlone (h : SameContexts s t) : CurrentAlone s t := ⟨h.cur, h.jobs, fun cx _ => h.ctx_eq cx⟩

namespace CurrentAlone

theorem trans (h₁ : CurrentAlone s t) (h₂ : CurrentAlone t u) : CurrentAlone s u :=
  ⟨h₂.cur.trans h₁.cur, h₂.jobs.trans h₁.jobs, fun cx hcx => (h₂.others cx (h₁.cur ▸ hcx)).trans (h₁.others cx hcx)⟩

theorem setCtx (h : CurrentAlone s t) (hcur : s.sched.cur < numCtx) (c : Ctx) : CurrentAlone s (t.setCtx s.sched.cur c) where
  cur := by rw [State.setCtx_sched, h.cur]
  jobs := by rw [State.setCtx_jobs _ _ hcur, h.jobs]
  others cx hcx := by rw [State.ctx_setCtx_ne _ _ hcur hcx, h.others cx hcx]

theorem setCur (h : CurrentAlone s t) (hcur : s.sched.cur < numCtx) (c : Ctx) : CurrentAlone s (t.setCur c) := by
  rw [State.setCur, h.cur]
  exact h.setCtx hcur c

theorem curCtx_setCtx (h : CurrentAlone s t) (hcur : s.sched.cur < numCtx) (c : Ctx) : (t.setCtx s.sched.cur c).curCtx = c := by
  rw [State.curCtx, State.setCtx_sched, h.cur, State.ctx_setCtx_same _ _ hcur]

end CurrentAlone

theorem Ctx.setReg_eq (c : Ctx) (r : SReg) (v : Word) : c.setReg r v =
    { c with sregs := (c.setReg r v).sregs, badRegs := (c.setReg r v).badRegs } := by
  unfold Ctx.setReg
  split <;> rfl

/-- A load changes its register, the pc and the bookkeeping of issue. -/
theorem State.loadedCtx_eq (s : State) (l : PendLoad) (st : CtxStatus) (v : Word) : s.loadedCtx l st v =
    { s.curCtx with status := st, pc := s.nextPc, ord := s.curCtx.ord + 1, instret := s.curCtx.instret + 1, loads := []
                    sregs := (s.loadedCtx l st v).sregs, badRegs := (s.loadedCtx l st v).badRegs } :=
  Ctx.setReg_eq _ _ _

theorem State.loadedCtx_writes (s : State) (l : PendLoad) (st : CtxStatus) (v : Word) :
    Writes s.curCtx (s.loadedCtx l st v) l.dst v :=
  .of_regs fun q => Ctx.reg_setReg_congr (c := s.curCtx) (c' := { s.loadingCtx l st with loads := [] }) rfl l.dst q v

theorem loadFrame_loadedCtx (h : Quiet s) (ht : CurrentAlone s t) {m : Memory} (hm : t.mem = m) (l : PendLoad) (st : CtxStatus)
    (v : Word) : LoadFrame s (t.setCtx s.sched.cur (s.loadedCtx l st v)) l.dst v m := by
  have hctx := s.loadedCtx_eq l st v
  have halone := ht.setCtx h.cur (s.loadedCtx l st v)
  unfold LoadFrame
  rw [ht.curCtx_setCtx h.cur]
  refine ⟨s.loadedCtx_writes l st v, (State.setCtx_mem t _ _).trans hm, ?_, ?_, ?_, ?_, ?_, halone.jobs, halone.others⟩ <;> rw [hctx]

theorem accessOf_eq_ok {x : Xlat} {m : Memory} {va : Word} {k : AccessKind} {setD : Bool} (h : accessOf s va size k setD = (.ok x, m)) :
    ∃ t, s.access s.curAgent va size k setD = (.ok x, t) ∧ t.mem = m := by
  obtain ⟨hx, hm⟩ := Prod.mk.inj h
  exact ⟨_, Prod.ext hx rfl, hm⟩

theorem PlaceReady.clean {x : Xlat} (h : PlaceReady s x) (hsize : size ≤ 8) (hc : x.cached = none) :
    ∀ i < size, s.stale.find? ((x.place + i) / 64) = none := fun i hi => h.line hc i (Nat.lt_of_lt_of_le hi hsize)

/-- An instruction that issues a load as the model's loads do returns what the rules say. -/
theorem loads_of_issue (hpos : 0 < size) (hsize : size ≤ 8)
    (hi : ∀ s t x, Quiet s → s.access s.curAgent (addr s.curCtx) size .read false = (.ok x, t) → ∃ k st, (k = .plain ∨ k = .acquire) ∧
      exec i s = .next (t.setCur (s.loadingCtx (s.pendLoad x d (addr s.curCtx) size signed k) st))) :
    Loads i d addr size signed := by
  intro s x m hok hready
  obtain ⟨t, haccess, rfl⟩ := accessOf_eq_ok hok
  have ht : AccessEffect s t := .of_snd haccess (s.access_effect _ _ _ _ _)
  have hpois : s.poisoned x.place = false := s.not_poisoned_of_access (congrArg Prod.fst haccess)
  obtain ⟨k, st, hk, hexec⟩ := hi s t x hready.quiet haccess
  have hissued := ht.sameContexts.currentAlone.setCur hready.quiet.cur (s.loadingCtx (s.pendLoad x d (addr s.curCtx) size signed k) st)
  refine ⟨_, _, hexec, execScalarLoadReturn_of_quiet hready.quiet ht hk hready.ecc hpois (PlaceReady.clean hready hsize), ?_⟩
  rw [← extend_eq hpos hsize]
  exact loadFrame_loadedCtx hready.quiet (hissued.trans (State.snoopRead_effect _ x.place size).sameContexts.currentAlone) (by simp)
    (s.pendLoad x d (addr s.curCtx) size signed k) st _

/-! ### Stores -/

/-- The context that a store leaves as it issues with nothing else in flight. -/
def State.storingCtx (s : State) (p : PendStore) : Ctx :=
  { s.curCtx with status := .running, pc := s.nextPc, ord := s.curCtx.ord + 1, instret := s.curCtx.instret + 1, stores := [p] }

@[simp] theorem State.loads_storingCtx (s : State) (p : PendStore) : (s.storingCtx p).loads = s.curCtx.loads := rfl
@[simp] theorem State.stores_storingCtx (s : State) (p : PendStore) : (s.storingCtx p).stores = [p] := rfl
@[simp] theorem State.vq_storingCtx (s : State) (p : PendStore) : (s.storingCtx p).vq = s.curCtx.vq := rfl
@[simp] theorem State.ops_storingCtx (s : State) (p : PendStore) : (s.storingCtx p).ops = s.curCtx.ops := rfl

/-- A store's record as it issues. -/
def State.pendStore (s : State) (x : Xlat) (d : SReg) (size : Nat) (release : Bool) : PendStore :=
  { ord := s.curCtx.ord, place := x.place, size := size, kind := .data (bytesOf (s.curCtx.reg d).toNat size), cached := x.cached
    release := release, vec := false }

/-- With nothing in flight a store is its access and what follows from the answer. -/
theorem storeOp_of_quiet {reads : List SReg} (h : Quiet s) (d : SReg) (addr : Ctx → Word) (size : Nat) (release : Bool) (t : State) :
    (∀ e, s.access s.curAgent (addr s.curCtx) size .write true = (.error e, t) →
      s.storeOp reads d addr size release = t.trapCur e.cause e.value) ∧
    ∀ x, s.access s.curAgent (addr s.curCtx) size .write true = (.ok x, t) →
      s.storeOp reads d addr size release = .next (t.setCur (s.storingCtx (s.pendStore x d size release))) := by
  have hagent : s.agentOf s.sched.cur s.curCtx = s.curAgent := rfl
  unfold State.storeOp
  rw [if_neg (by simp [curFenced_of_quiet h, cntSt_of_quiet h]), heldOp_of_ready (heldReady_of_quiet h (d :: reads) [])]
  dsimp only
  rw [hagent]
  refine ⟨fun e he => by rw [he], fun x hx => ?_⟩
  have heffect : AccessEffect s t := .of_snd hx (s.access_effect _ _ _ _ _)
  have hstores : s.endCtx.stores = [] := h.stores
  rw [hx]
  dsimp only
  rw [State.queueStore, heffect.complete_eq, hstores, Ctx.retire_started _ (by exact unstarted_of_quiet h) (by exact h.guess)]
  rfl

theorem storeDue_of_quiet (h : Quiet s) (ht : AccessEffect s t) (p : PendStore) :
    (t.setCur (s.storingCtx p)).storeDue s.sched.cur (s.storingCtx p) p = true := by
  have hmatrix := matrix_setCur_of_quiet h ht (c := s.storingCtx p) rfl
  have hmx := State.not_mxBlocks hmatrix p.ord p.place p.size
  have hpendM : (t.setCur (s.storingCtx p)).pendM s.sched.cur (s.storingCtx p) p.ord = false := by
    unfold State.pendM
    split
    · next m hm => simp [hmatrix m hm]
    · rfl
  simp [State.storeDue, hmx, State.pendClasses, hpendM, Ctx.pendS, Ctx.pendV, Ctx.pendE, Ctx.olderLoad, Ctx.olderStore, Ctx.olderVec,
    Ctx.olderAcquire, h.queue, h.loads, h.ops]

/-- The context once its store has been performed. -/
def State.storedCtx (s : State) : Ctx :=
  { s.curCtx with status := .running, pc := s.nextPc, ord := s.curCtx.ord + 1, instret := s.curCtx.instret + 1, stores := [] }

/-- The state in which a store's bytes are put: of the state of its access check, the issuing context alone is another. -/
def State.storing (s t : State) (p : PendStore) : State := (t.setCur (s.storingCtx p)).setCtx s.sched.cur s.storedCtx

theorem State.storing_alone (h : Quiet s) (ht : AccessEffect s t) (p : PendStore) :
    CurrentAlone s (s.storing t p) ∧ (s.storing t p).curCtx = s.storedCtx :=
  have halone := ht.sameContexts.currentAlone.setCur h.cur (s.storingCtx p)
  ⟨halone.setCtx h.cur s.storedCtx, halone.curCtx_setCtx h.cur s.storedCtx⟩

@[simp] theorem State.storing_mem (s t : State) (p : PendStore) : (s.storing t p).mem = t.mem := by
  rw [State.storing, State.setCtx_mem, State.setCur_mem]

@[simp] theorem State.storing_stale (s t : State) (p : PendStore) : (s.storing t p).stale = t.stale := by
  rw [State.storing, State.setCtx_stale, State.setCur, State.setCtx_stale]

/-- A store alone in flight is performed: its bytes are put at its place. -/
theorem execStorePerformed_of_quiet (h : Quiet s) (ht : AccessEffect s t) {p : PendStore} {bs : List Byte} (hk : p.kind = .data bs) :
    ∃ ecc, execStorePerformed s.sched.cur 0 (t.setCur (s.storingCtx p)) =
      .next { (s.storing t p).putBytes p.place p.cached bs with ecc := ecc } := by
  have hctx : (t.setCur (s.storingCtx p)).ctx s.sched.cur = s.storingCtx p := by
    rw [State.setCur, ht.sameContexts.cur, State.ctx_setCtx_same _ _ h.cur]
  have helement : (s.storingCtx p).elementDue 0 p = true := by simp [Ctx.elementDue]
  unfold execStorePerformed
  simp only [hctx, State.stores_storingCtx, List.getElem?_cons_zero]
  rw [if_pos (by rw [storeDue_of_quiet h ht, helement]; rfl), State.performOne, State.performStore, hk]
  exact ⟨_, rfl⟩

/-- What a store leaves once it is performed: its bytes at its place, and the context past it. -/
theorem storePerformed_result (h : Quiet s) (ht : AccessEffect s t) {p : PendStore} {bs : List Byte} (hk : p.kind = .data bs)
    (hclean : p.cached = none → ∀ i < bs.length, s.stale.find? ((p.place + i) / 64) = none) :
    ∃ u, execStorePerformed s.sched.cur 0 (t.setCur (s.storingCtx p)) = .next u ∧ CurrentAlone s u ∧ u.curCtx = s.storedCtx ∧
      BytesPut t u p.cached p.place bs := by
  obtain ⟨ecc, hexec⟩ := execStorePerformed_of_quiet h ht hk
  obtain ⟨halone, hctx⟩ := State.storing_alone h ht p
  have hsame : SameContexts (s.storing t p) { (s.storing t p).putBytes p.place p.cached bs with ecc := ecc } :=
    (State.putBytes_sameContexts _ p.place p.cached bs).trans ⟨rfl, rfl, rfl⟩
  have hput : BytesPut (s.storing t p) ((s.storing t p).putBytes p.place p.cached bs) p.cached p.place bs :=
    State.putBytes_put (by rwa [State.storing_stale, ht.stale_eq])
  have hkept : BytesPut t ((s.storing t p).putBytes p.place p.cached bs) p.cached p.place bs :=
    hput.of_kept (s.storing_mem t p) fun q => State.homeByte_congr (by rw [State.storing_stale]) (by rw [State.storing_mem])
  exact ⟨_, hexec, halone.trans hsame.currentAlone, hsame.curCtx_eq.trans hctx, ⟨hkept.inside, hkept.outside⟩⟩

/-- An instruction that issues a store as the model's stores do puts its bytes where the rules say. -/
theorem stores_of_issue {release : Bool} (hsize : size ≤ 8)
    (hi : ∀ s t x, Quiet s → s.access s.curAgent (addr s.curCtx) size .write true = (.ok x, t) →
      exec i s = .next (t.setCur (s.storingCtx (s.pendStore x d size release)))) : Stores i d addr size := by
  intro s x m hok hready
  obtain ⟨t, haccess, rfl⟩ := accessOf_eq_ok hok
  have ht : AccessEffect s t := .of_snd haccess (s.access_effect _ _ _ _ _)
  have hlen := length_bytesOf (s.curCtx.reg d).toNat size
  obtain ⟨u, hexec, halone, hctx, hinside, houtside⟩ := storePerformed_result hready.quiet ht (p := s.pendStore x d size release) rfl
    (by rw [hlen]; exact PlaceReady.clean hready hsize)
  rw [hlen] at hinside houtside
  refine ⟨_, u, hi s t x hready.quiet haccess, hexec, ?_, fun q hq => ?_, ?_⟩
  · rw [pow_mul]
    exact State.bytesAt_bytesOf hinside
  · obtain ⟨hread, hhome⟩ := houtside q hq
    exact ⟨hread, hhome.trans (State.homeByte_congr (by rw [ht.stale_eq]) rfl)⟩
  · rw [hctx]
    exact ⟨rfl, rfl, rfl, rfl, rfl, halone.jobs, halone.others⟩

/-! ### Traps -/

theorem trapHeld_of_access (h : Quiet s) (ht : AccessEffect s t) : t.trapHeld t.sched.cur t.curCtx = false := by
  have hpendM (o : Nat) : t.pendM s.sched.cur s.curCtx o = s.pendM s.sched.cur s.curCtx o := by
    unfold State.pendM
    rw [ht.mxOf_eq h.cur]
  rw [ht.sameContexts.cur, ht.sameContexts.curCtx_eq, ← trapHeld_of_quiet h]
  simp only [State.trapHeld, State.pendClasses, hpendM]

/-- An instruction that hands the answer of its access check on as a trap takes it at the instruction. -/
theorem accessTraps_of_issue {k : AccessKind} {setD : Bool}
    (hi : ∀ s t e, Quiet s → s.access s.curAgent (addr s.curCtx) size k setD = (.error e, t) → exec i s = t.trapCur e.cause e.value) :
    AccessTraps i addr size k setD := by
  intro s e h he
  have ht := s.access_effect s.curAgent (addr s.curCtx) size k setD
  rw [hi s _ e h (Prod.ext he rfl), State.trapCur_takes _ _ _ (trapHeld_of_access h ht), ht.sameContexts.cur, ht.sameContexts.curCtx_eq]
  rfl

/-! ### The instructions -/

section
variable {a : SReg} {imm off : Nat} {reads : List SReg} {release : Bool}

theorem loadOp_loads (hi : ∀ s, exec i s = s.loadOp reads d addr size signed) (haddr : ∀ c c' : Ctx, c'.reg = c.reg → addr c' = addr c)
    (hpos : 0 < size) (hsize : size ≤ 8) : Loads i d addr size signed :=
  loads_of_issue hpos hsize fun s t x h hx => ⟨.plain, _, .inl rfl, (hi s).trans ((loadOp_of_quiet h haddr d size signed t).2 x hx)⟩

theorem loadOp_traps (hi : ∀ s, exec i s = s.loadOp reads d addr size signed) (haddr : ∀ c c' : Ctx, c'.reg = c.reg → addr c' = addr c) :
    AccessTraps i addr size .read false :=
  accessTraps_of_issue fun s t e h he => (hi s).trans ((loadOp_of_quiet h haddr d size signed t).1 e he)

theorem storeOp_stores (hi : ∀ s, exec i s = s.storeOp reads d addr size release) (hsize : size ≤ 8) : Stores i d addr size :=
  stores_of_issue hsize fun s t x h hx => (hi s).trans ((storeOp_of_quiet h d addr size release t).2 x hx)

theorem storeOp_traps (hi : ∀ s, exec i s = s.storeOp reads d addr size release) : AccessTraps i addr size .write true :=
  accessTraps_of_issue fun s t e h he => (hi s).trans ((storeOp_of_quiet h d addr size release t).1 e he)

theorem addr_imm_congr (a : SReg) (off : Nat) (c c' : Ctx) (h : c'.reg = c.reg) :
    c'.reg a + BitVec.ofNat 64 off = c.reg a + BitVec.ofNat 64 off := by rw [h]

theorem addr_index_congr (a b : SReg) (c c' : Ctx) (h : c'.reg = c.reg) : c'.reg a + c'.reg b = c.reg a + c.reg b := by rw [h]

theorem loadImm_loads (hoff : imm * size = off) (hi : ∀ s, exec i s = s.loadImm d a imm size signed) (hpos : 0 < size) (hsize : size ≤ 8) :
    Loads i d (fun c => c.reg a + BitVec.ofNat 64 off) size signed := by
  subst hoff
  exact loadOp_loads hi (addr_imm_congr a _) hpos hsize

theorem loadImm_traps (hoff : imm * size = off) (hi : ∀ s, exec i s = s.loadImm d a imm size signed) :
    AccessTraps i (fun c => c.reg a + BitVec.ofNat 64 off) size .read false := by
  subst hoff
  exact loadOp_traps hi (addr_imm_congr a _)

theorem storeImm_stores (hoff : imm * size = off) (hi : ∀ s, exec i s = s.storeImm d a imm size) (hsize : size ≤ 8) :
    Stores i d (fun c => c.reg a + BitVec.ofNat 64 off) size := by
  subst hoff
  exact storeOp_stores hi hsize

theorem storeImm_traps (hoff : imm * size = off) (hi : ∀ s, exec i s = s.storeImm d a imm size) :
    AccessTraps i (fun c => c.reg a + BitVec.ofNat 64 off) size .write true := by
  subst hoff
  exact storeOp_traps hi

end

theorem ldaq_loads (d a : SReg) : Loads (.ldaq d a) d (fun c => c.reg a) 8 false :=
  loads_of_issue (by omega) (by omega) fun _ t x h hx => ⟨.acquire, _, .inr rfl, (execLdaq_of_quiet h d a t).2 x hx⟩

theorem ldaq_traps (d a : SReg) : AccessTraps (.ldaq d a) (fun c => c.reg a) 8 .read false :=
  accessTraps_of_issue fun _ t e h he => (execLdaq_of_quiet h d a t).1 e he

end

theorem scalarLoadResults : ScalarLoadResults := fun d a b imm =>
  ⟨loadImm_loads (Nat.mul_comm imm 8) (fun _ => rfl) (by omega) (by omega), loadImm_loads (Nat.mul_one imm) (fun _ => rfl) (by omega) (by omega),
    loadImm_loads (Nat.mul_one imm) (fun _ => rfl) (by omega) (by omega), loadImm_loads (Nat.mul_comm imm 2) (fun _ => rfl) (by omega) (by omega),
    loadImm_loads (Nat.mul_comm imm 2) (fun _ => rfl) (by omega) (by omega), loadImm_loads (Nat.mul_comm imm 4) (fun _ => rfl) (by omega) (by omega),
    loadImm_loads (Nat.mul_comm imm 4) (fun _ => rfl) (by omega) (by omega),
    loadOp_loads (fun _ => rfl) (addr_index_congr a b) (by omega) (by omega), ldaq_loads d a⟩

theorem scalarStoreResults : ScalarStoreResults := fun d a b imm =>
  ⟨storeImm_stores (Nat.mul_comm imm 8) (fun _ => rfl) (by omega), storeImm_stores (Nat.mul_one imm) (fun _ => rfl) (by omega),
    storeImm_stores (Nat.mul_comm imm 2) (fun _ => rfl) (by omega), storeImm_stores (Nat.mul_comm imm 4) (fun _ => rfl) (by omega),
    storeOp_stores (fun _ => rfl) (by omega), storeOp_stores (fun _ => rfl) (by omega)⟩

theorem scalarAccessTraps : ScalarAccessTraps := fun d a b imm =>
  ⟨loadImm_traps (Nat.mul_comm imm 8) fun _ => rfl, loadImm_traps (Nat.mul_one imm) fun _ => rfl, loadImm_traps (Nat.mul_one imm) fun _ => rfl,
    loadImm_traps (Nat.mul_comm imm 2) fun _ => rfl, loadImm_traps (Nat.mul_comm imm 2) fun _ => rfl,
    loadImm_traps (Nat.mul_comm imm 4) fun _ => rfl, loadImm_traps (Nat.mul_comm imm 4) fun _ => rfl,
    loadOp_traps (fun _ => rfl) (addr_index_congr a b), ldaq_traps d a,
    storeImm_traps (Nat.mul_comm imm 8) fun _ => rfl, storeImm_traps (Nat.mul_one imm) fun _ => rfl,
    storeImm_traps (Nat.mul_comm imm 2) fun _ => rfl, storeImm_traps (Nat.mul_comm imm 4) fun _ => rfl,
    storeOp_traps fun _ => rfl, storeOp_traps fun _ => rfl⟩

/-- Settles O18: with nothing else in flight an access check changes no context, a pending load reads memory and a pending store puts its
bytes, and a failed check is the trap of the instruction. -/
theorem scalarAccessResults : Obligations.ScalarAccessResults :=
  ⟨scalarLoadResults, scalarStoreResults, scalarAccessTraps⟩

end Sys2Proof.Machine

/-! PROOFS. The matrix unit's commands (R155 to R170). A command's instruction passes the checks of the unit, then puts it at the end of the
queue; a step of the unit acts on the first command of the queue that is not over. Both write one unit back into one core. -/

namespace Sys2Proof.Claims
open Sys2Proof Sys2Proof.Machine

theorem ScalarSide.job_eq {c d : Ctx} (h : ScalarSide c d) : d.job = c.job := by rw [h.1]

end Sys2Proof.Claims

namespace Sys2Proof.Machine
open Sys2Proof Sys2Proof.Claims

/-! ### The unit of a core, and of the context that holds it (R155) -/

section
variable {s : State} {cx core : Nat} {c : Ctx} {m m' : MatrixUnit}

/-- The state with m as the unit of a core. -/
def State.putUnit (s : State) (core : Nat) (m : MatrixUnit) : State := s.modCore core fun k => { k with mx := m }

theorem State.core_putUnit (s : State) (core : Nat) (m : MatrixUnit) (k : Nat) :
    (s.putUnit core m).core k = { s.core k with mx := if k = core then m else (s.core k).mx } := by
  unfold State.putUnit State.modCore
  by_cases hk : k = core
  · subst hk
    rw [State.core_setCore_same, if_pos rfl]
  · rw [State.core_setCore_ne _ _ hk, if_neg hk]

@[simp] theorem State.mx_putUnit (s : State) (core : Nat) (m : MatrixUnit) : ((s.putUnit core m).core core).mx = m := by
  rw [State.core_putUnit, if_pos rfl]

@[simp] theorem State.mem_putUnit (s : State) (core : Nat) (m : MatrixUnit) : (s.putUnit core m).mem = s.mem := rfl
@[simp] theorem State.ctx_putUnit (s : State) (core : Nat) (m : MatrixUnit) (cx : Nat) : (s.putUnit core m).ctx cx = s.ctx cx := rfl
@[simp] theorem State.curCtx_putUnit (s : State) (core : Nat) (m : MatrixUnit) : (s.putUnit core m).curCtx = s.curCtx := rfl

theorem State.setMx_eq (h : cx < numCtx) (s : State) (m : MatrixUnit) : s.setMx cx m = s.putUnit (coreOf cx) m := if_pos h

/-- A context of a core holds the core's unit where its job does. -/
theorem State.mxOf_eq_some_iff (h : cx < numCtx) :
    s.mxOf cx c = some m ↔ (s.core (coreOf cx)).mx = m ∧ m.job = c.job ∧ c.job.isSome := by
  unfold State.mxOf
  cases hj : c.job with
  | none => simp
  | some j =>
    simp only [if_pos h, Option.ite_none_right_eq_some, Option.some.injEq, Option.isSome_some, and_true]
    constructor
    · rintro ⟨hjob, rfl⟩
      exact ⟨rfl, hjob⟩
    · rintro ⟨rfl, hjob⟩
      exact ⟨hjob, rfl⟩

/-- A unit written back to its core is the one that the context holds, as long as the job is the same. -/
theorem State.mxOf_putUnit (h : cx < numCtx) (hm : s.mxOf cx c = some m) (hjob : m'.job = m.job) :
    (s.putUnit (coreOf cx) m').mxOf cx c = some m' := by
  obtain ⟨-, hc, hsome⟩ := (State.mxOf_eq_some_iff h).1 hm
  exact (State.mxOf_eq_some_iff h).2 ⟨State.mx_putUnit _ _ _, hjob.trans hc, hsome⟩

/-- Which unit a context holds depends on its job and its core alone. -/
theorem State.mxOf_congr {t : State} {d : Ctx} (h : cx < numCtx) (hcore : (t.core (coreOf cx)).mx = (s.core (coreOf cx)).mx)
    (hjob : d.job = c.job) : t.mxOf cx d = s.mxOf cx c := by
  simp only [State.mxOf, if_pos h, hcore, hjob]

/-- Putting a unit back leaves everything outside the core as it was. -/
theorem State.matrixFrame_putUnit {t : State} (h : s.sched.cur < numCtx) {d : Ctx} (hd : ScalarSide s.endCtx d)
    (ht : (s.putUnit (coreOf s.sched.cur) m).setCur d = t) : t.curCtx = d ∧ MatrixFrame s t := by
  have hcur : t.curCtx = d := by
    rw [← ht]
    exact State.curCtx_setCur _ h
  have hcores : t.cores = (s.putUnit (coreOf s.sched.cur) m).cores := by
    rw [← ht]
    exact State.setCtx_cores _ _ _
  refine ⟨hcur, ?_, ?_, ?_, fun k => ?_⟩
  · rw [← ht, State.setCur_eq (s := s.putUnit (coreOf s.sched.cur) m) h d]
    rfl
  · rw [← ht]
    exact State.setCur_others (s := s.putUnit (coreOf s.sched.cur) m) h d
  · rw [hcur]
    exact (scalarSide_pc s.curCtx s.nextPc).trans (hd.map (fun c => { c with status := s.curCtx.status }) fun _ _ => rfl)
  · have hk : t.core k = (s.putUnit (coreOf s.sched.cur) m).core k := by
      rw [State.core, hcores]
      rfl
    rw [hk, State.core_putUnit]
    by_cases hcore : k = coreOf s.sched.cur <;> simp [hcore]

/-- A held instruction that writes the issuing context's unit back and ends. -/
theorem complete_setMx_result (h : s.sched.cur < numCtx) (hm : s.mxOf s.sched.cur s.curCtx = some m) (m' : MatrixUnit)
    (hjob : m'.job = m.job) {f : Ctx → Ctx} (hf : ScalarSide s.endCtx (f s.endCtx)) {t : State} (ht : (s.setMx s.sched.cur m').complete f = t) :
    t.curCtx = (f s.endCtx).retire ∧ MatrixFrame s t ∧ t.mxOf s.sched.cur t.curCtx = some m' := by
  have hside : ScalarSide s.endCtx (f s.endCtx).retire := hf.trans (scalarSide_retire _)
  rw [State.setMx_eq h] at ht
  obtain ⟨hcur, hframe⟩ := State.matrixFrame_putUnit (m := m') h hside ht
  refine ⟨hcur, hframe, ?_⟩
  have hcore : (t.core (coreOf s.sched.cur)).mx = m' := by
    rw [← ht, State.complete, State.core_setCur, State.mx_putUnit]
  rw [hcur, ← State.mxOf_putUnit h hm hjob]
  exact State.mxOf_congr h (hcore.trans (State.mx_putUnit _ _ _).symm) hside.job_eq

end

/-! ### A matrix instruction issues (R160, R161, R168, R170) -/

section
variable {s : State} {m : MatrixUnit} {i : Instr} {reads : List SReg} {op : Ctx → MxOp} {check : Ctx → Option TrapInfo}

theorem State.mxGate_of_hasUnit (h : HasUnit s m) (raises : Bool) (k : MatrixUnit → Out) : s.mxGate raises k = k m := by
  simp [State.mxGate, h.unit, h.depth.not_gt, h.good]

theorem State.mxGate_none (h : s.mxOf s.sched.cur s.curCtx = none) (raises : Bool) (k : MatrixUnit → Out) :
    s.mxGate raises k = s.trapCur .noMatrix 0 := by
  simp [State.mxGate, h]

theorem State.mxGate_parked (h : s.mxOf s.sched.cur s.curCtx = some m) (hd : m.pdepth < s.curCtx.depth) (raises : Bool)
    (k : MatrixUnit → Out) : s.mxGate raises k = s.trapCur .mxBusy 0 := by
  simp [State.mxGate, h, hd]

theorem State.mxGate_pending (h : s.mxOf s.sched.cur s.curCtx = some m) (hd : s.curCtx.depth ≤ m.pdepth) (hf : m.fpend = true)
    (k : MatrixUnit → Out) :
    s.mxGate true k = s.trapWith (·.setMx s.sched.cur { m with fpend := false }) .mxFault m.faddr := by
  simp [State.mxGate, h, hd.not_gt, hf]

/-- Taking a pending fault leaves the queue, and so what a trap waits for. -/
theorem State.trapHeld_setMx (h : s.sched.cur < numCtx) (hm : s.mxOf s.sched.cur s.curCtx = some m) {m' : MatrixUnit}
    (hjob : m'.job = m.job) (hq : m'.queue = m.queue) :
    (s.setMx s.sched.cur m').trapHeld s.sched.cur s.curCtx = s.trapHeld s.sched.cur s.curCtx := by
  have hpend (o : Nat) : (s.setMx s.sched.cur m').pendM s.sched.cur s.curCtx o = s.pendM s.sched.cur s.curCtx o := by
    simp only [State.pendM, State.setMx_eq h, State.mxOf_putUnit h hm hjob, hm, hq]
  simp only [State.trapHeld, State.pendClasses, hpend]

theorem trapWith_setMx_takes (h : HeldClear s reads []) (hm : s.mxOf s.sched.cur s.curCtx = some m) (m' : MatrixUnit)
    (hjob : m'.job = m.job) (hq : m'.queue = m.queue) (cause : Cause) (v : Word) :
    s.trapWith (·.setMx s.sched.cur m') cause v =
      .next ((s.setMx s.sched.cur m').takeTrap s.sched.cur { cause := cause, value := v } s.curCtx.pc) := by
  have hheld := (State.trapHeld_setMx h.cur hm hjob hq).trans h.clear
  rw [State.trapWith, if_neg (by simp [h.clear])]
  rw [State.setMx_eq h.cur] at hheld ⊢
  exact State.trapCur_takes _ _ _ hheld

/-- A command as it enters the queue (R160, R161). -/
def queuedCmd (o : Nat) (op : MxOp) : MxCmd := { ord := o, op := op, begun := false, left := 0, rows := 0, ready := 0, sharing := false }

/-- A command's instruction that issues as the model's do, and checks its operands alone. -/
theorem mxIssue_queuesCommand {ok : Ctx → Bool} {bad : Ctx → Word} (hi : ∀ s, exec i s = s.mxIssue reads check op)
    (hcheck : ∀ c, check c = illegalUnless (ok c) (bad c)) : QueuesCommand i reads ok bad op := by
  refine ⟨fun s m h hu hok hroom hfence => ?queued, fun s m h hu hbad => ?illegal, fun s h hnone => ?noMatrix,
    fun s m h hm hdepth => ?parked, fun s m h hm hdepth hpend => ?pending⟩
  case queued =>
    rw [hi, State.mxIssue, heldOp_of_ready h, State.mxGate_of_hasUnit hu]
    dsimp only
    rw [hcheck, hok]
    refine ⟨_, if_neg (by simp [hfence, hroom]), ?_⟩
    obtain ⟨hcur, hframe, hunit⟩ := complete_setMx_result (f := id) h.cur hu.unit
      { m with queue := m.queue ++ [queuedCmd s.curCtx.ord (op s.curCtx)] } rfl (.refl _) rfl
    exact ⟨(congrArg Ctx.pc hcur).trans (Ctx.pc_retire _), fun r => (congrArg (·.reg r) hcur).trans (Ctx.reg_retire _ r), hframe, hunit⟩
  case illegal =>
    rw [hi, State.mxIssue, heldOp_of_ready h.toHeldReady, State.mxGate_of_hasUnit hu]
    dsimp only
    rw [hcheck, hbad]
    exact s.trapCur_takes _ _ h.clear
  case noMatrix => rw [hi, State.mxIssue, heldOp_of_ready h.toHeldReady, State.mxGate_none hnone, s.trapCur_takes _ _ h.clear]
  case parked => rw [hi, State.mxIssue, heldOp_of_ready h.toHeldReady, State.mxGate_parked hm hdepth, s.trapCur_takes _ _ h.clear]
  case pending =>
    rw [hi, State.mxIssue, heldOp_of_ready h.toHeldReady, State.mxGate_pending hm hdepth hpend,
      trapWith_setMx_takes h hm { m with fpend := false } rfl rfl]

end

/-- R167: the operand check of MXSHARE. -/
theorem mxshareCheck_eq (v : Word) : illegalUnless (v.toNat / 65536 == 0 && bitsOf v.toNat 14 12 == 0) v =
    illegalUnless (decide (v.toNat < 65536) && decide (v.toNat / 4096 % 8 = 0)) v := by
  have hlow : (v.toNat / 65536 == 0) = decide (v.toNat < 65536) := by
    rw [beq_eq_decide, decide_eq_decide, Nat.div_eq_zero_iff]
    omega
  rw [hlow, beq_eq_decide]
  rfl

theorem matrixCommandsQueue : MatrixCommandsQueue := by
  intro n z cb a b
  refine ⟨?_, ?_, ?_, ?_, ?_, ?_, ?_, ?_, ?share⟩
  case share => exact mxIssue_queuesCommand (fun _ => rfl) fun c => mxshareCheck_eq (c.reg a)
  all_goals exact mxIssue_queuesCommand (fun _ => rfl) fun _ => rfl

/-! ### The command whose turn it is (R161, R174) -/

section
variable {s : State} {core cx : Nat} {m : MatrixUnit} {cmd : MxCmd}

/-- The next command stands behind commands that have no segment left, and is the one that a change of the next command changes. -/
theorem MatrixUnit.next_split (h : m.next = some cmd) : ∃ before after, m.queue = before ++ cmd :: after ∧
    (∀ x ∈ before, x.begun = true ∧ x.left = 0) ∧ ∀ f, updateNext f m.queue = before ++ ((f cmd).toList ++ after) := by
  obtain ⟨hcmd, before, after, hq, hbefore⟩ := List.find?_eq_some_iff_append.1 h
  have hover : ∀ x ∈ before, x.begun = true ∧ x.left = 0 := fun x hx => by simpa using hbefore x hx
  refine ⟨before, after, hq, hover, fun f => ?_⟩
  rw [hq]
  clear hq hbefore
  induction before with
  | nil =>
    have hturn : (cmd.begun && cmd.left == 0) = false := by
      cases hb : cmd.begun
      · rfl
      · simpa [hb, Nat.pos_iff_ne_zero] using hcmd
    simp [updateNext, hturn]
  | cons x xs ih =>
    obtain ⟨hx, hxs⟩ := List.forall_mem_cons.1 hover
    simp [updateNext, hx, ih hxs]

theorem State.next_of_mxReady (h : s.mxReady core = some (cx, cmd)) : (s.core core).mx.next = some cmd := by
  unfold State.mxReady at h
  split at h
  · next hnext =>
    split at h
    · cases h
      exact hnext
    · cases h
  · cases h

/-- MX_CMD_BEGIN lets the next command begin alone, where no other core shares or a fault is pending. -/
theorem execMxCmdBegin_alone (h : s.mxReady core = some (cx, cmd)) (ha : s.shareGroupOf core = [] ∨ (s.core core).mx.fpend = true) :
    execMxCmdBegin core s = .next (s.mxBegin core cx (s.core core).mx cmd) := by
  have hshare : (cmd.op.shares && !cmd.begun && !(s.shareGroupOf core).isEmpty && !(s.core core).mx.fpend) = false := by
    rcases ha with ha | ha <;> simp [ha]
  simp [execMxCmdBegin, State.mxBeginOn, h, hshare]

/-- R161, R168: behind a pending fault a command that has not begun is dropped and counted. -/
theorem State.mxBegin_behind_fault (hb : cmd.begun = false) (hf : m.fpend = true) : s.mxBegin core cx m cmd =
    s.putUnit core { m with queue := updateNext (fun _ => none) m.queue, fdisc := min 255 (m.fdisc + 1) } := by
  simp only [State.mxBegin, hb, hf]
  rfl

/-- R159, R168: a failing range is recorded, and the command goes. -/
theorem State.mxBegin_out_of_range {f : MxFault} (hb : cmd.begun = false) (hg : m.fpend = false)
    (hc : s.mxCheck (s.agentOf cx (s.ctx cx)) m cmd.op = some f) : s.mxBegin core cx m cmd =
    s.putUnit core (MatrixUnit.record { m with queue := updateNext (fun _ => none) m.queue } cmd.op f) := by
  simp only [State.mxBegin, hb, hg, hc]
  rfl

theorem filter_begun_drop {before after : List MxCmd} (hb : cmd.begun = false) :
    (before ++ ((none : Option MxCmd).toList ++ after)).filter (·.begun) = (before ++ cmd :: after).filter (·.begun) := by
  simp [hb]

/-- The commands that have not begun are one fewer without the next. -/
theorem length_filter_not_begun_drop {before after : List MxCmd} (hb : cmd.begun = false) :
    ((before ++ ((none : Option MxCmd).toList ++ after)).filter fun c => !c.begun).length =
      ((before ++ cmd :: after).filter fun c => !c.begun).length - 1 := by
  simp [hb]

theorem erase_next {before after : List MxCmd} (hb : cmd.begun = false) (h : ∀ x ∈ before, x.begun = true ∧ x.left = 0) :
    (before ++ cmd :: after).erase cmd = before ++ after := by
  have hmem : cmd ∉ before := fun hc => by simp [(h cmd hc).1] at hb
  rw [List.erase_append_right _ hmem, List.erase_cons_head]

theorem rowReady_head {z : Nat} {c : MxCmd} {cs : List MxCmd} (hb : c.begun = true) (hl : c.left = 0) (ht : c.op.tile = some z)
    (hr : c.ready < c.rows) : rowReady z c.ready (c :: cs) = { c with ready := c.ready + 1 } :: cs := by
  simp [rowReady, hb, hl, ht, hr]

theorem MxCmd.over_iff {c : MxCmd} : c.over = true ↔ c.begun = true ∧ c.left = 0 ∧ c.ready = c.rows ∧ c.out = [] := by
  simp [MxCmd.over, and_assoc]

theorem MxCmd.not_over {c : MxCmd} (h : c.begun = false ∨ c.left ≠ 0 ∨ c.ready ≠ c.rows ∨ c.out ≠ []) : ¬ c.over = true := by
  rw [MxCmd.over_iff]
  rintro ⟨hb, hl, hr, ho⟩
  simp [hb, hl, hr, ho] at h

end

theorem matrixCommandProgress : MatrixCommandProgress := by
  rintro s core m rfl
  refine ⟨fun cx cmd f hready hb hgroup hgood hcheck => ?range, fun cx cmd hready hb hpend => ?behind,
    fun z c cs hq hb hl ht hr => ?row, fun before c after hq hb hl hr ho hbefore => ?leaves, fun hnone => ?stays⟩
  case range =>
    obtain ⟨before, after, hq, -, hupdate⟩ := MatrixUnit.next_split (State.next_of_mxReady hready)
    refine (execMxCmdBegin_alone hready (.inl hgroup)).trans ?_
    rw [State.mxBegin_out_of_range hb hgood hcheck]
    simp only [MatrixUnit.record, hupdate]
    rw [hq, filter_begun_drop hb, length_filter_not_begun_drop hb]
    rfl
  case behind =>
    obtain ⟨before, after, hq, hbefore, hupdate⟩ := MatrixUnit.next_split (State.next_of_mxReady hready)
    refine (execMxCmdBegin_alone hready (.inr hpend)).trans ?_
    rw [State.mxBegin_behind_fault hb hpend, hupdate, hq, erase_next hb hbefore]
    rfl
  case row =>
    refine congrArg (fun q => Host.Outcome.next (s.putUnit core { (s.core core).mx with queue := q })) ?_
    rw [hq]
    exact rowReady_head hb hl ht hr
  case leaves =>
    refine congrArg (fun q => Host.Outcome.next (s.putUnit core { (s.core core).mx with queue := q })) ?_
    rw [hq, List.eraseP_append_right _ fun x hx => MxCmd.not_over (hbefore x hx),
      List.eraseP_cons_of_pos (MxCmd.over_iff.2 ⟨hb, hl, hr, ho⟩)]
  case stays =>
    refine congrArg (fun q => Host.Outcome.next (s.putUnit core { (s.core core).mx with queue := q })) ?_
    exact List.eraseP_of_forall_not fun x hx => MxCmd.not_over (hnone x hx)

/-! ### MXSTAT (R169) -/

theorem execMxstat_of_empty {s : State} {d : SReg} {m : MatrixUnit} (sel : Fin 9) (h : HeldReady s [] [d])
    (hm : s.mxOf s.sched.cur s.curCtx = some m) (hq : m.queue = []) : execMxstat d sel s =
    .next ((s.setMx s.sched.cur (if sel.val = 8 then { m with mof := false, mnv := false, fkind := 0, fmaj := 0, fz := 0, fdisc := 0 } else m)).complete
      fun c => c.setReg d (m.item sel.val)) := by
  rw [execMxstat, heldOp_of_ready h]
  simp [hm, hq]

theorem matrixStatusReads : MatrixStatusReads := by
  intro d sel s m h hm hq
  refine ⟨_, execMxstat_of_empty sel h hm hq, ?_⟩
  obtain ⟨hcur, hframe, hunit⟩ := complete_setMx_result (f := fun c => c.setReg d (m.item sel.val)) h.cur hm
    (if sel.val = 8 then { m with mof := false, mnv := false, fkind := 0, fmaj := 0, fz := 0, fdisc := 0 } else m)
    (by split <;> rfl) (scalarSide_setReg _ d _) rfl
  refine ⟨?_, hframe, ?_, hunit⟩
  all_goals rw [hcur]
  · exact (Ctx.pc_retire _).trans (Ctx.pc_setReg _ d _)
  · exact .of_regs fun q => (Ctx.reg_retire _ q).trans (Ctx.reg_setReg_congr s.reg_endCtx d q _)

/-- Settles O13: an instruction that passes the unit's checks puts its command at the end of the queue, the next command is the first that is
not over, and MXSTAT reads a unit whose queue is empty. -/
theorem matrixCommandsAndStatus : Obligations.MatrixCommandsAndStatus :=
  ⟨matrixCommandsQueue, matrixCommandProgress, matrixStatusReads⟩

end Sys2Proof.Machine

/-! PROOFS. What a matrix command does as it begins (R157 to R164, R174). A command of one segment leaves one unit in its core, and itself in
the queue with the rows that it has still to write; so each statement is about what the segment makes of the unit. -/

namespace Sys2Proof.Machine
open Sys2Proof Sys2Proof.Claims

/-! ### Maps written and read key by key -/

section
variable {α β : Type} {d : α}

/-- A filter on the keys alone. -/
theorem FMap.get_filter (p : Nat → Bool) (m : FMap α) (k : Nat) :
    FMap.get d (m.filter fun x => p x.1) k = if p k then m.get d k else d := by
  induction m with
  | nil => simp
  | cons x m ih =>
    obtain ⟨j, v⟩ := x
    by_cases hj : j = k
    · subst hj
      by_cases hp : p j
      · simp [FMap.get, hp]
      · simp [hp, ih]
    · by_cases hp : p j
      · simp [FMap.get, hp, hj, ih]
      · simp [FMap.get, hp, hj, ih]

variable [DecidableEq α] {key : β → Nat} {val : β → α}

theorem FMap.get_foldl_set_of_ne {xs : List β} {i : Nat} (h : ∀ x ∈ xs, key x ≠ i) (m : FMap α) :
    FMap.get d (xs.foldl (fun t x => t.set d (key x) (val x)) m) i = m.get d i := by
  induction xs generalizing m with
  | nil => rfl
  | cons x xs ih =>
    obtain ⟨hx, hxs⟩ := List.forall_mem_cons.1 h
    rw [List.foldl_cons, ih hxs, FMap.get_set_ne _ _ _ hx.symm]

/-- Where all that is written under a key is one value, the key holds it. -/
theorem FMap.get_foldl_set {xs : List β} {x : β} {i : Nat} {v : α} (hx : x ∈ xs) (hi : key x = i) (h : ∀ y ∈ xs, key y = i → val y = v)
    (m : FMap α) : FMap.get d (xs.foldl (fun t x => t.set d (key x) (val x)) m) i = v := by
  induction xs generalizing m x with
  | nil => simp at hx
  | cons y ys ih =>
    obtain ⟨hy, hys⟩ := List.forall_mem_cons.1 h
    by_cases hmem : ∃ z ∈ ys, key z = i
    · obtain ⟨z, hz, hkey⟩ := hmem
      exact ih hz hkey hys _
    · have hne : ∀ z ∈ ys, key z ≠ i := fun z hz hkey => hmem ⟨z, hz, hkey⟩
      have hyi : key y = i := by
        rcases List.mem_cons.1 hx with rfl | hx
        · exact hi
        · exact absurd hi (hne x hx)
      rw [List.foldl_cons, FMap.get_foldl_set_of_ne hne, ← hyi, FMap.get_set_same, hy hyi]

end

/-! ### Tiles (R154, R163) -/

section
variable {m : MatrixUnit} {z y e v : Nat} {xs : List (Nat × Nat)}

theorem MatrixUnit.elem_putElems_of_ne (h : ∀ x ∈ xs, 4096 * z + x.1 ≠ 4096 * y + e) : (m.putElems z xs).elem y e = m.elem y e :=
  FMap.get_foldl_set_of_ne h _

theorem MatrixUnit.elem_putElems {x : Nat × Nat} (hx : x ∈ xs) (h : ∀ y ∈ xs, y.1 = x.1 → y.2 = x.2) :
    (m.putElems z xs).elem z x.1 = x.2 :=
  FMap.get_foldl_set (key := fun x : Nat × Nat => 4096 * z + x.1) (val := fun x => x.2) hx rfl
    (fun y hy hyx => h y hy (Nat.add_left_cancel hyx)) _

theorem mem_region {M N : Nat} {x : Nat × Nat} : x ∈ region M N ↔ x.1 < M ∧ x.2 < N := by
  obtain ⟨i, j⟩ := x
  simp [region]

/-- The elements of the M × N region with the values that g gives by row and column. -/
def regionElems (M N : Nat) (g : Nat → Nat → Nat) : List (Nat × Nat) := (region M N).map fun x => (64 * x.1 + x.2, g x.1 x.2)

theorem mem_regionElems {M N : Nat} {g : Nat → Nat → Nat} {x : Nat × Nat} :
    x ∈ regionElems M N g ↔ ∃ r c, r < M ∧ c < N ∧ x = (64 * r + c, g r c) := by
  simp only [regionElems, List.mem_map, mem_region, Prod.exists, and_assoc, eq_comm]

theorem geomN_le (v : Word) : geomN v ≤ 64 := Nat.min_le_left _ _

/-- A row of a tile holds 64 elements, so that no two places of the region are one. -/
theorem MatrixUnit.elem_putRegion {M N r c : Nat} (hN : N ≤ 64) (hr : r < M) (hc : c < N) (g : Nat → Nat → Nat) :
    (m.putElems z (regionElems M N g)).elem z (64 * r + c) = g r c := by
  refine MatrixUnit.elem_putElems (x := (64 * r + c, g r c)) (mem_regionElems.2 ⟨r, c, hr, hc, rfl⟩) fun x hx hxe => ?_
  obtain ⟨r', c', -, hc', rfl⟩ := mem_regionElems.1 hx
  dsimp only at hxe ⊢
  obtain ⟨rfl, rfl⟩ : r' = r ∧ c' = c := by omega
  rfl

theorem MatrixUnit.elem_putRegion_outside {M N : Nat} {g : Nat → Nat → Nat}
    (h : ¬∃ r c, r < M ∧ c < N ∧ 4096 * y + e = 4096 * z + 64 * r + c) : (m.putElems z (regionElems M N g)).elem y e = m.elem y e := by
  refine MatrixUnit.elem_putElems_of_ne fun x hx hxe => h ?_
  obtain ⟨r, c, hr, hc, rfl⟩ := mem_regionElems.1 hx
  exact ⟨r, c, hr, hc, by omega⟩

/-- Without errors in the tiles there are none after a write. -/
theorem MatrixUnit.putElems_of_clean (h : m.ecc = []) (z : Nat) (xs : List (Nat × Nat)) :
    m.putElems z xs = { m with tiles := (m.putElems z xs).tiles } := by
  simp [MatrixUnit.putElems, h]

/-- Every element of a tile, with zero. -/
def zeroElems : List (Nat × Nat) := (List.range 4096).map fun e => (e, 0)

/-- Of the unit only the elements and their errors change. -/
theorem MatrixUnit.putElems_eq (m : MatrixUnit) (z : Nat) (xs : List (Nat × Nat)) :
    m.putElems z xs = { m with tiles := (m.putElems z xs).tiles, ecc := (m.putElems z xs).ecc } := rfl

@[simp] theorem MatrixUnit.queue_putElems (m : MatrixUnit) (z : Nat) (xs : List (Nat × Nat)) : (m.putElems z xs).queue = m.queue := rfl

theorem State.mxEffect_zero (s : State) (a : Agent) (m : MatrixUnit) (z : Nat) :
    s.mxEffect a m (.zero z) none 0 = { unit := m.putElems z zeroElems } := by
  unfold State.mxEffect zeroElems
  generalize List.range 4096 = es
  rfl

theorem mem_zeroElems {x : Nat × Nat} : x ∈ zeroElems ↔ x.1 < 4096 ∧ x.2 = 0 := by
  obtain ⟨i, j⟩ := x
  simp [zeroElems, eq_comm]

theorem MatrixUnit.elem_zeroTile (m : MatrixUnit) (z y e : Nat) : (m.putElems z zeroElems).elem y e =
    if 4096 * z ≤ 4096 * y + e ∧ 4096 * y + e < 4096 * z + 4096 then 0 else m.elem y e := by
  split
  next h =>
    have hput := MatrixUnit.elem_putElems (m := m) (z := z) (x := (4096 * y + e - 4096 * z, 0)) (mem_zeroElems.2 ⟨by dsimp only; omega, rfl⟩)
      fun x hx _ => (mem_zeroElems.1 hx).2
    have hplace : 4096 * z + (4096 * y + e - 4096 * z) = 4096 * y + e := by omega
    unfold MatrixUnit.elem at hput ⊢
    rw [← hplace]
    exact hput
  next h =>
    refine MatrixUnit.elem_putElems_of_ne fun x hx hxe => h ?_
    have := (mem_zeroElems.1 hx).1
    omega

theorem any_zeroElems {z k : Nat} : (zeroElems.any fun x => 4096 * z + x.1 == k) = decide (4096 * z ≤ k ∧ k < 4096 * z + 4096) := by
  rw [Bool.eq_iff_iff, List.any_eq_true, decide_eq_true_eq]
  constructor
  · rintro ⟨x, hx, hk⟩
    have := (mem_zeroElems.1 hx).1
    rw [beq_iff_eq] at hk
    omega
  · rintro h
    exact ⟨(k - 4096 * z, 0), mem_zeroElems.2 ⟨by dsimp only; omega, rfl⟩, by rw [beq_iff_eq]; dsimp only; omega⟩

/-- Both elements of each word of a zeroed tile are written, so that the word is whole again (R428). -/
theorem MatrixUnit.ecc_zeroTile (m : MatrixUnit) (z w : Nat) : (m.putElems z zeroElems).ecc.get false w =
    if 2048 * z ≤ w ∧ w < 2048 * z + 2048 then false else m.ecc.get false w := by
  refine (FMap.get_filter (fun w => !((zeroElems.any fun x => 4096 * z + x.1 == 2 * w) && zeroElems.any fun x => 4096 * z + x.1 == 2 * w + 1))
    m.ecc w).trans ?_
  simp only [any_zeroElems]
  by_cases h : 2048 * z ≤ w ∧ w < 2048 * z + 2048
  · rw [if_pos h, if_neg]
    simp
    omega
  · rw [if_neg h, if_pos]
    simp
    omega

end

/-! ### A command begins (R161, R174) -/

section
variable {s : State} {i : Instr} {core cx : Nat} {m u : MatrixUnit} {cmd : MxCmd} {out : List MxOut}

/-- A command whose one segment has run, with the rows that it has still to write. -/
def MxCmd.begunWith (c : MxCmd) (m : MatrixUnit) (out : List MxOut) : MxCmd :=
  { c with
    begun := true, left := 0, sharing := false, rows := c.op.rowsOf m
    ready := if c.op.rowsOf m == 0 || geomK m.geom == 0 then c.op.rowsOf m else 0
    ranges := c.op.ranges m, out := out }

/-- A command of one segment, whose ranges pass behind no fault, leaves what the segment makes of the unit. -/
theorem State.mxBegin_one_segment (hb : cmd.begun = false) (hs : cmd.shared = none) (hg : m.fpend = false)
    (hc : s.mxCheck (s.agentOf cx (s.ctx cx)) m cmd.op = none) (hseg : cmd.op.segments m = 1)
    (hu : s.mxEffect (s.agentOf cx (s.ctx cx)) m cmd.op none 0 = { unit := u, out := out }) : ∃ f : MxCmd → Option MxCmd,
    f cmd = some (cmd.begunWith m out) ∧ s.mxBegin core cx m cmd =
      (s.mxReads (s.agentOf cx (s.ctx cx)) m cmd 0).putUnit core { u with queue := updateNext f u.queue } := by
  simp only [State.mxBegin, hb, hs, hg, hc, hseg, Bool.false_eq_true, Bool.false_and, if_false, hu]
  exact ⟨_, rfl, rfl⟩

theorem exec_of_begins (h : Begins i s core cx m cmd) : exec i s = .next (s.mxBegin core cx m cmd) := by
  rw [← h.unit]
  rcases h.how with ⟨rfl, hgroup⟩ | ⟨rfl, hsharing⟩
  · exact execMxCmdBegin_alone h.ready (.inl hgroup)
  · show execMxShareTimeout core s = _
    simp [execMxShareTimeout, State.mxBeginOn, h.ready, hsharing]

/-- What a command of one segment leaves as it begins: the unit that its segment makes, with the command in its place in the queue. -/
theorem exec_begins_one_segment (h : Begins i s core cx m cmd) (hseg : cmd.op.segments m = 1)
    (hu : s.mxEffect (s.agentOf cx (s.ctx cx)) m cmd.op none 0 = { unit := u, out := out }) (hq : u.queue = m.queue) :
    ∃ before after, m.queue = before ++ cmd :: after ∧ exec i s = .next ((s.mxReads (s.agentOf cx (s.ctx cx)) m cmd 0).putUnit core
      { u with queue := before ++ cmd.begunWith m out :: after }) := by
  obtain ⟨hb, hs⟩ := h.fresh
  obtain ⟨f, hf, hbegin⟩ := State.mxBegin_one_segment (core := core) hb hs h.good h.ranges hseg hu
  have hnext := State.next_of_mxReady h.ready
  rw [h.unit] at hnext
  obtain ⟨before, after, hsplit, -, hupdate⟩ := MatrixUnit.next_split hnext
  refine ⟨before, after, hsplit, ?_⟩
  rw [exec_of_begins h, hbegin, hq, hupdate, hf]
  rfl

theorem begunAs_of_split (hm : (s.core core).mx = m) {before after : List MxCmd} (hq : m.queue = before ++ cmd :: after) :
    BegunAs s ((s.mxReads (s.agentOf cx (s.ctx cx)) m cmd 0).putUnit core { u with queue := before ++ cmd.begunWith m out :: after })
      core cx cmd u out := by
  subst hm
  refine ⟨_, cmd.begunWith (s.core core).mx out, rfl, ?_, by simp, rfl, rfl, rfl, rfl, rfl, rfl, fun x hx => ?_⟩
  · rw [hq]
    simp [MxCmd.begunWith]
  · rw [hq]
    simp only [List.mem_append, List.mem_cons] at hx ⊢
    tauto

/-- A command of one segment begins. -/
theorem begins_one_segment (h : Begins i s core cx m cmd) (hseg : cmd.op.segments m = 1)
    (hu : s.mxEffect (s.agentOf cx (s.ctx cx)) m cmd.op none 0 = { unit := u, out := out }) (hq : u.queue = m.queue) :
    ∃ t, exec i s = .next t ∧ BegunAs s t core cx cmd u out := by
  obtain ⟨before, after, hsplit, hexec⟩ := exec_begins_one_segment h hseg hu hq
  exact ⟨_, hexec, begunAs_of_split h.unit hsplit⟩

/-! ### Configuration, MXZERO and MXLDCB (R157, R164) -/

theorem State.mxEcc_of_clean (h : s.ecc = []) (a : Agent) (m : MatrixUnit) (op : MxOp) (k0 k1 : Nat) :
    s.mxEcc a m op none k0 k1 = none := by
  have hnone (ws : List Nat) : ws.find? (fun w => s.ecc.get false w) = none := List.find?_eq_none.2 (by simp [h])
  refine List.findSome?_eq_none_iff.2 fun r _ => ?_
  dsimp only
  split
  · rfl
  · rw [hnone]

theorem MatrixUnit.not_regionPoisoned (h : m.ecc = []) (z : Nat) : m.regionPoisoned z = false := by
  simp [MatrixUnit.regionPoisoned, MatrixUnit.poisoned, h]

theorem MatrixUnit.badRow_of_clean (h : m.ecc = []) (z : Nat) : m.badRow z = none := by
  simp [MatrixUnit.badRow, MatrixUnit.poisoned, h]

/-- What MXLDCB loads: the codebook of R25 for address 0, else sixteen halfwords. -/
def State.codebookAt (s : State) (a : Agent) (v : Word) : List Nat :=
  if v = 0 then resetCodebook else (List.range 16).map fun e => s.mem.readN ((s.mxPlace a v).getD 0 + 2 * e) 2

theorem State.mxEffect_ldcb (h : s.ecc = []) (a : Agent) (m : MatrixUnit) (cb : Nat) (v : Word) :
    s.mxEffect a m (.ldcb cb v) none 0 = { unit := { m with
      cba := if cb = 0 then s.codebookAt a v else m.cba, cbb := if cb = 0 then m.cbb else s.codebookAt a v } } := by
  simp only [State.mxEffect, State.mxEcc_of_clean h]
  by_cases hcb : cb = 0 <;> simp only [hcb, if_true, if_false] <;> rfl

theorem MatrixUnit.configure_cfg {n : Nat} (h : n ≤ 2) (m : MatrixUnit) (v : Word) : m.configure (.cfg n v) = { m with
    geom := if n = 0 then v else m.geom, stride := if n = 1 then v else m.stride, sstride := if n = 2 then v else m.sstride } := by
  obtain rfl | rfl | rfl : n = 0 ∨ n = 1 ∨ n = 2 := by omega
  all_goals rfl

theorem matrixConfigureAndZero : MatrixConfigureAndZero := by
  intro i s core cx m cmd h
  refine ⟨fun z hop => ?zero, fun n v hn hop => ?cfg, fun v w hop => ?scale, fun v hop => ?share, fun cb v es hop hclean hes => ?ldcb⟩
  case zero =>
    obtain ⟨t, ht, hbegun⟩ := begins_one_segment h (u := m.putElems z.val zeroElems) (out := []) (by rw [hop]; rfl)
      (by rw [hop, State.mxEffect_zero]) (m.queue_putElems _ _)
    exact ⟨t, _, ht, hbegun, m.putElems_eq _ _, m.elem_zeroTile z.val, m.ecc_zeroTile z.val⟩
  case cfg =>
    rw [← m.configure_cfg hn v]
    refine begins_one_segment h (by rw [hop]; rfl) (by rw [hop]; rfl) ?_
    rw [m.configure_cfg hn v]
  case scale => exact begins_one_segment h (by rw [hop]; rfl) (by rw [hop]; rfl) rfl
  case share => exact begins_one_segment h (by rw [hop]; rfl) (by rw [hop]; rfl) rfl
  case ldcb =>
    subst hes
    exact begins_one_segment h (by rw [hop]; rfl) (by rw [hop]; exact State.mxEffect_ldcb hclean.1 _ m cb v) rfl

end

end Sys2Proof.Machine

/-! PROOFS. MXST writes its rows one after the other, and MXLD reads them (R164, R228). -/

namespace Sys2Proof.Machine
open Sys2Proof Sys2Proof.Claims

/-! ### Words and rows in memory -/

section
variable {mem : Memory} {n p q v : Nat} {ws : List Nat} {rows : List MxOut}

@[simp] theorem length_wordsBytes (n : Nat) (ws : List Nat) : (wordsBytes n ws).length = n * ws.length := by
  simp [wordsBytes, List.length_flatMap, length_bytesOf, Nat.mul_comm]

theorem wordsBytes_cons (n w : Nat) (ws : List Nat) : wordsBytes n (w :: ws) = bytesOf w n ++ wordsBytes n ws := rfl

/-- Byte i of word j. -/
theorem getElem?_wordsBytes {i j w : Nat} (hj : ws[j]? = some w) (hi : i < n) : (wordsBytes n ws)[n * j + i]? = (bytesOf w n)[i]? := by
  induction ws generalizing j with
  | nil => simp at hj
  | cons x ws ih =>
    rw [wordsBytes_cons]
    cases j with
    | zero =>
      obtain rfl : x = w := by simpa using hj
      rw [Nat.mul_zero, Nat.zero_add, List.getElem?_append_left (by rwa [length_bytesOf])]
    | succ j =>
      have hplace : n * (j + 1) + i - (bytesOf x n).length = n * j + i := by rw [length_bytesOf, Nat.mul_succ]; omega
      rw [List.getElem?_append_right (by rw [length_bytesOf, Nat.mul_succ]; omega), hplace]
      exact ih (by simpa using hj)

theorem Memory.readN_of_bytes (h : ∀ i < n, (bytesOf v n)[i]? = some (mem.read (p + i))) : mem.readN p n = v % 256 ^ n := by
  induction n generalizing p v with
  | zero => simp [Memory.readN, Nat.mod_one]
  | succ n ih =>
    have hfirst : mem.read p = BitVec.ofNat 8 v := (Option.some.inj (h 0 (by omega))).symm
    have hrest : mem.readN (p + 1) n = v / 256 % 256 ^ n := ih fun i hi => by
      rw [Nat.add_right_comm]
      exact h (i + 1) (by omega)
    rw [Memory.readN, hfirst, hrest, Nat.pow_succ', Nat.mod_mul]
    simp

/-- Where a row of words stands, each word can be read. -/
theorem Memory.readN_wordsBytes (h : ∀ k < n * ws.length, (wordsBytes n ws)[k]? = some (mem.read (p + k))) {j w : Nat} (hj : ws[j]? = some w) :
    mem.readN (p + n * j) n = w % 256 ^ n := by
  obtain ⟨hlt, -⟩ := List.getElem?_eq_some_iff.1 hj
  refine Memory.readN_of_bytes fun i hi => ?_
  have hroom : n * j + i < n * ws.length := by
    have := Nat.mul_le_mul_left n (Nat.succ_le_of_lt hlt)
    rw [Nat.mul_succ] at this
    omega
  rw [← getElem?_wordsBytes hj hi, h _ hroom, Nat.add_assoc]

/-- Memory after rows are written one after the other. -/
def Memory.writeRows (mem : Memory) (rows : List MxOut) : Memory := rows.foldl (fun m r => m.writeBytes r.place r.bytes) mem

theorem Memory.writeRows_cons (mem : Memory) (r : MxOut) (rows : List MxOut) :
    mem.writeRows (r :: rows) = (mem.writeBytes r.place r.bytes).writeRows rows := rfl

theorem Memory.read_writeRows_outside (h : ∀ r ∈ rows, q < r.place ∨ r.place + r.bytes.length ≤ q) :
    (mem.writeRows rows).read q = mem.read q := by
  induction rows generalizing mem with
  | nil => rfl
  | cons r rows ih =>
    obtain ⟨hr, hrows⟩ := List.forall_mem_cons.1 h
    rw [Memory.writeRows_cons, ih hrows, Memory.read_writeBytes_outside _ _ _ _ hr]

/-- Of rows in ascending places, that share no byte, each stands in memory. -/
theorem Memory.read_writeRows_inside (hrows : rows.Pairwise fun a b => a.place + a.bytes.length ≤ b.place) {r : MxOut} (hr : r ∈ rows)
    {k : Nat} (hk : k < r.bytes.length) : r.bytes[k]? = some ((mem.writeRows rows).read (r.place + k)) := by
  induction rows generalizing mem with
  | nil => simp at hr
  | cons x rows ih =>
    obtain ⟨hx, hpair⟩ := List.pairwise_cons.1 hrows
    rw [Memory.writeRows_cons]
    rcases List.mem_cons.1 hr with rfl | hr
    · rw [Memory.read_writeRows_outside fun y hy => Or.inl (by have := hx y hy; omega)]
      exact Memory.read_writeBytes_inside _ _ hk
    · exact ih hpair hr

/-- A row of an MXST: its elements, at its place. -/
def MatrixUnit.outRow (m : MatrixUnit) (z p t i : Nat) : MxOut :=
  { place := p + i * t, bytes := wordsBytes 4 ((List.range (geomN m.geom)).map fun j => m.elem z (64 * i + j)) }

variable {m : MatrixUnit} {z t M : Nat}

theorem mem_outRows {r : MxOut} : r ∈ m.outRows z p t M ↔ ∃ i < M, m.outRow z p t i = r := by simp [MatrixUnit.outRows, MatrixUnit.outRow]

@[simp] theorem length_outRow (i : Nat) : (m.outRow z p t i).bytes.length = 4 * geomN m.geom := by simp [MatrixUnit.outRow]

/-- At a stride of a row or more, no two rows share a byte. -/
theorem pairwise_outRows (ht : 4 * geomN m.geom ≤ t) (M : Nat) :
    (m.outRows z p t M).Pairwise fun a b => a.place + a.bytes.length ≤ b.place := by
  refine List.pairwise_map.2 (List.pairwise_lt_range.imp fun {i j} hij => ?_)
  have hstep := Nat.mul_le_mul_right t (Nat.succ_le_of_lt hij)
  rw [Nat.succ_mul] at hstep
  have hlen := length_outRow (m := m) (z := z) (p := p) (t := t) i
  show p + i * t + (m.outRow z p t i).bytes.length ≤ p + j * t
  omega

theorem Memory.readN_writeRows_outRows (ht : 4 * geomN m.geom ≤ t) {r c : Nat} (hr : r < M) (hc : c < geomN m.geom) :
    (mem.writeRows (m.outRows z p t M)).readN (p + r * t + 4 * c) 4 = m.elem z (64 * r + c) % 2 ^ 32 := by
  refine Memory.readN_wordsBytes (ws := (List.range (geomN m.geom)).map fun j => m.elem z (64 * r + j)) (fun k hk => ?_) (by simp [hc])
  exact Memory.read_writeRows_inside (pairwise_outRows ht M) (mem_outRows.2 ⟨r, hr, rfl⟩) (by simpa using hk)

theorem Memory.read_writeRows_outRows (h : ∀ r < M, ¬(p + r * t ≤ q ∧ q < p + r * t + 4 * geomN m.geom)) :
    (mem.writeRows (m.outRows z p t M)).read q = mem.read q := by
  refine Memory.read_writeRows_outside fun r hr => ?_
  obtain ⟨i, hi, rfl⟩ := mem_outRows.1 hr
  have houtside := h i hi
  rw [length_outRow]
  show q < p + i * t ∨ p + i * t + _ ≤ q
  omega

end

/-! ### The rows of a command are written -/

section
variable {s : State} {cx core : Nat} {m : MatrixUnit} {c : MxCmd} {before after : List MxCmd}

theorem State.core_mx_storeBytes (s : State) (p : Nat) (bs : List Byte) (k : Nat) : ((s.storeBytes p none bs).core k).mx = (s.core k).mx := by
  show ((s.snoopWrite p bs.length).core k).mx = (s.core k).mx
  rw [(s.snoopWrite_effect p bs.length).core k]

theorem State.ctx_storeBytes (s : State) (p : Nat) (bs : List Byte) (cx : Nat) : (s.storeBytes p none bs).ctx cx = s.ctx cx :=
  (s.storeBytes_sameContexts p none bs).ctx_eq cx

/-- Beyond the stores of the context, the first row of a matrix command is written. -/
theorem execStorePerformed_row (cx : Nat) (s : State) :
    execStorePerformed cx ((s.ctx cx).stores.length + (s.ctx cx).toHand.length) s = .next (s.mxWrite cx (s.ctx cx) 0) := by
  simp [execStorePerformed]

theorem State.mxOuts_head {r : MxOut} {rows : List MxOut} (hm : s.mxOf cx (s.ctx cx) = some { m with
    queue := before ++ { c with out := r :: rows } :: after }) (hbefore : ∀ x ∈ before, x.out = []) :
    (s.mxOuts cx (s.ctx cx))[0]? = some (c.ord, r) := by
  have hnone : (before.flatMap fun q => (nextOuts q.out).map fun o => (q.ord, o)) = [] :=
    List.flatMap_eq_nil_iff.2 fun x hx => by simp [hbefore x hx, nextOuts]
  simp [State.mxOuts, hm, hnone, nextOuts]

theorem State.mxWrite_head (hcx : cx < numCtx) {r : MxOut} {rows : List MxOut} (hm : s.mxOf cx (s.ctx cx) = some { m with
    queue := before ++ { c with out := r :: rows } :: after }) (hbefore : ∀ x ∈ before, x.out = []) (hafter : ∀ x ∈ after, x.out = []) :
    s.mxWrite cx (s.ctx cx) 0 = (s.putUnit (coreOf cx) { m with queue := before ++ { c with out := rows } :: after }).storeBytes
      r.place none r.bytes := by
  have hkeep {xs : List MxCmd} (hxs : ∀ x ∈ xs, x.out = []) :
      xs.map (fun q => if q.ord = c.ord then { q with out := q.out.erase r } else q) = xs := by
    refine (List.map_congr_left fun q hq => ?_).trans (List.map_id xs)
    split
    · rw [hxs q hq, List.erase_nil, ← hxs q hq]
      rfl
    · rfl
  rw [State.mxWrite, State.mxOuts_head hm hbefore, hm]
  simp only [State.setMx_eq hcx, List.map_append, List.map_cons, hkeep hbefore, hkeep hafter, if_true, List.erase_cons_head]

/-- A command whose rows alone are left to be written has written them all. -/
theorem writesRows_of_rows (hcx : cx < numCtx) (hbefore : ∀ x ∈ before, x.out = []) (hafter : ∀ x ∈ after, x.out = []) {rows : List MxOut}
    (hm : s.mxOf cx (s.ctx cx) = some { m with queue := before ++ { c with out := rows } :: after }) :
    ∃ u, WritesRows cx rows.length s u ∧ u.mxOf cx (u.ctx cx) = some { m with queue := before ++ { c with out := [] } :: after } ∧
      u.mem = s.mem.writeRows rows := by
  induction rows generalizing s with
  | nil => exact ⟨s, rfl, hm, rfl⟩
  | cons r rows ih =>
    have hwrite := State.mxWrite_head hcx hm hbefore hafter
    have hnext : (s.mxWrite cx (s.ctx cx) 0).mxOf cx ((s.mxWrite cx (s.ctx cx) 0).ctx cx) =
        some { m with queue := before ++ { c with out := rows } :: after } := by
      rw [hwrite, State.ctx_storeBytes, State.mxOf_congr hcx (State.core_mx_storeBytes _ _ _ _) rfl]
      exact State.mxOf_putUnit hcx hm rfl
    obtain ⟨u, hu, hmu, hmem⟩ := ih hnext
    refine ⟨u, ⟨_, execStorePerformed_row cx s, hu⟩, hmu, ?_⟩
    rw [hmem, hwrite, State.storeBytes_mem]
    rfl

/-! ### MXST and MXLD -/

theorem State.mxEffect_st (h : m.ecc = []) (hM : 1 ≤ geomM m.geom) (hN : 1 ≤ geomN m.geom) {a : Agent} {x t : Word} {p : Nat}
    (hp : s.mxPlace a x = some p) (z : Nat) :
    s.mxEffect a m (.st z x t) none 0 = { unit := m, out := m.outRows z p t.toNat (geomM m.geom) } := by
  have hranges : ¬(geomM m.geom = 0 ∨ geomN m.geom = 0) := by omega
  simp [State.mxEffect, MxOp.ranges, hranges, MatrixUnit.badRow_of_clean h, hp]

theorem State.mxEffect_ld (h : NoEcc s m) {a : Agent} {x : Word} {p : Nat} (hp : s.mxPlace a x = some p) (z : Nat) (t : Word) :
    s.mxEffect a m (.ld z x t) none 0 = { unit := m.putElems z (regionElems (geomM m.geom) (geomN m.geom) fun r c =>
      s.mem.readN (p + r * t.toNat + 4 * c) 4) } := by
  simp only [State.mxEffect, State.mxEcc_of_clean h.1, MatrixUnit.not_regionPoisoned h.2, hp]
  rfl

theorem matrixStoreAndLoad : MatrixStoreAndLoad := by
  intro i s core cx m cmd z M N p T x t h hclean hz hM hN hM1 hN1 hp ht
  subst hM hN ht
  refine ⟨fun hop hT hout hcx hcore hm => ?st, fun hop => ?ld⟩
  case st =>
    subst hcore
    obtain ⟨before, after, hsplit, hexec⟩ := exec_begins_one_segment h (u := m) (by rw [hop]; rfl)
      (by rw [hop]; exact State.mxEffect_st hclean.2 hM1 hN1 hp z) rfl
    have hothers : ∀ x ∈ before ++ after, x.out = [] := fun x hx => hout x (by
      rw [hsplit]
      simp only [List.mem_append, List.mem_cons] at hx ⊢
      tauto)
    obtain ⟨hbefore, hafter⟩ := List.forall_mem_append.1 hothers
    have hreads : s.mxReads (s.agentOf cx (s.ctx cx)) m cmd 0 = s := by rw [State.mxReads, hop]; rfl
    obtain ⟨u, hwrites, hunit, hmem⟩ := writesRows_of_rows (s := s.putUnit (coreOf cx) { m with
        queue := before ++ cmd.begunWith m (m.outRows z p t.toNat (geomM m.geom)) :: after })
      (c := cmd.begunWith m (m.outRows z p t.toNat (geomM m.geom))) hcx hbefore hafter (State.mxOf_putUnit hcx hm rfl)
    obtain ⟨hmx, -⟩ := (State.mxOf_eq_some_iff hcx).1 hunit
    have hbegun := begunAs_of_split (cx := cx) (out := m.outRows z p t.toNat (geomM m.geom)) (u := m) h.unit hsplit
    have hlen : (m.outRows z p t.toNat (geomM m.geom)).length = geomM m.geom := by simp [MatrixUnit.outRows]
    rw [hreads] at hexec hbegun
    rw [hlen] at hwrites
    refine ⟨_, u, _, hexec, hbegun, hlen, hwrites, ?_, ?_, fun r c hr hc => ?_, fun q hq => ?_⟩
    · rw [hmx]
    · rw [hmx]
      intro c hc
      rcases List.mem_append.1 hc with hc | hc
      · exact hbefore c hc
      · rcases List.mem_cons.1 hc with rfl | hc
        · rfl
        · exact hafter c hc
    · rw [hmem]
      exact Memory.readN_writeRows_outRows hT hr hc
    · rw [hmem]
      exact Memory.read_writeRows_outRows hq
  case ld =>
    obtain ⟨v, hv, hbegun⟩ := begins_one_segment h (by rw [hop]; rfl) (by rw [hop]; exact State.mxEffect_ld hclean hp z t)
      (m.queue_putElems _ _)
    refine ⟨v, _, hv, hbegun, m.putElems_of_clean hclean.2 _ _, fun r c hr hc => ?_, fun y e hye => ?_⟩
    · exact MatrixUnit.elem_putRegion (geomN_le _) hr hc _
    · exact MatrixUnit.elem_putRegion_outside hye

end

/-- Settles O11: a command of one segment leaves what the segment makes of the unit; the rows of an MXST share no byte. -/
theorem matrixCommandEffects : Obligations.MatrixCommandEffects := ⟨matrixConfigureAndZero, matrixStoreAndLoad⟩

end Sys2Proof.Machine

/-! PROOFS. A matrix product on bf16 with one group of products (R45, R162, R163): each element is one exact sum, rounded once; the rounded
element is encoded again as it goes into the tile, which does not change it. -/

namespace Sys2Proof.Machine
open Sys2Proof Sys2Proof.Claims

/-! ### A rounded value is its own encoding -/

section
variable {f : FFmt} {m : RMode}

/-- The magnitudes of a format ascend with their encodings. -/
theorem FFmt.magnitude_strictMono : StrictMono f.magnitude := by
  intro j k hjk
  have hj := f.binade_mul_add_significand j
  have hk := f.binade_mul_add_significand k
  have hle : f.binade j ≤ f.binade k := Nat.sub_le_sub_right (Nat.div_le_div_right hjk.le) 1
  have hq := FFmt.quantum_pos (f := f) (f.binade k)
  rcases hle.eq_or_lt with heq | hlt
  · have hsig : (f.significand j : Rat) < f.significand k := by
      rw [heq] at hj
      exact_mod_cast (by omega : f.significand j < f.significand k)
    rw [magnitude, magnitude, heq]
    exact mul_lt_mul_of_pos_right hsig hq
  · have hsig : ((2 ^ f.fracBits : Nat) : Rat) ≤ f.significand k := by
      exact_mod_cast (f.significand_bounds k).2.resolve_left (by omega)
    calc f.magnitude j < 2 ^ f.fracBits * f.quantum (f.binade k) := magnitude_lt_of_binade_lt hlt
      _ ≤ f.magnitude k := mul_le_mul_of_nonneg_right (by exact_mod_cast hsig) hq.le

@[simp] theorem FFmt.magnitude_zero : f.magnitude 0 = 0 := by simp [FFmt.magnitude, FFmt.significand]

/-- A finite encoding decodes to a value that rounds to it. -/
theorem encodeF_decodeF_sign_add (hm : m.rm = .rne) {k : Nat} (hk : k ≤ f.maxEnc) (neg : Bool) :
    (encodeF f m (decodeF f ((if neg then f.signBit else 0) + k))).1 = (if neg then f.signBit else 0) + k := by
  rw [decodeF_sign_add hk]
  rcases Nat.eq_zero_or_pos k with rfl | hpos
  · simp [encodeF, rnd]
  · have hmag : 0 < f.magnitude k := by simpa using FFmt.magnitude_strictMono (f := f) hpos
    generalize hx : (if neg then -f.magnitude k else f.magnitude k) = x
    have hsign : decide (x < 0) = neg := by
      rw [← hx]
      cases neg <;> simp [hmag, hmag.le]
    have habs : |x| = f.magnitude k := by
      rw [← hx]
      cases neg <;> simp [abs_of_pos hmag]
    obtain ⟨j, -, henc, hnear⟩ := rnd_rne_in_range hm (abs_pos.1 (habs ▸ hmag)) hk habs.le neg
    have hjk : f.magnitude k = f.magnitude j := by
      have hle := hnear k
      rw [habs, sub_self, abs_zero] at hle
      exact sub_eq_zero.1 (abs_eq_zero.1 (le_antisymm hle (abs_nonneg _)))
    obtain rfl := FFmt.magnitude_strictMono.injective hjk
    rw [encodeF, henc, hsign]

/-- Rounding gives the sign over a finite magnitude's encoding, or what an overflow delivers. -/
theorem roundCuts_cases (f : FFmt) (m : RMode) (neg : Bool) (e : Int) (cut : Int → Cut) :
    (∃ k ≤ f.maxEnc, (roundCuts f m neg e cut).1 = (if neg then f.signBit else 0) + k) ∨
      (roundCuts f m neg e cut).1 = overflowBits f m neg := by
  unfold roundCuts
  dsimp only
  generalize (if e < f.emin then f.emin else e) = q
  split
  · exact .inr rfl
  · next h => exact .inl ⟨_, not_lt.1 h, rfl⟩

/-- An f32 encoding is a NaN, an infinity, or a sign over a finite magnitude. -/
theorem encodeF_f32_cases (v : FV) : (encodeF .f32 rneMode v).1 = FFmt.f32.nanEnc ∨ ∃ neg : Bool,
    (encodeF .f32 rneMode v).1 = (if neg then FFmt.f32.signBit else 0) + FFmt.f32.maxEnc + 1 ∨
      ∃ k ≤ FFmt.f32.maxEnc, (encodeF .f32 rneMode v).1 = (if neg then FFmt.f32.signBit else 0) + k := by
  cases v with
  | nan q => exact .inl rfl
  | inf neg => exact .inr ⟨neg, .inl rfl⟩
  | fin z x =>
    right
    by_cases hx : x = 0
    · exact ⟨z, .inr ⟨0, Nat.zero_le _, by simp [encodeF, rnd, hx]⟩⟩
    · have hrnd : (encodeF .f32 rneMode (.fin z x)).1 = (roundCuts .f32 rneMode (decide (x < 0)) (floorLog2 (ratAbs x)) (cutRat (ratAbs x))).1 := by
        rw [encodeF, rnd, if_neg hx]
      rw [hrnd]
      exact ⟨decide (x < 0), (roundCuts_cases .f32 rneMode _ _ _).symm.imp_left fun h => h⟩

/-- Encoding again changes nothing. -/
theorem encodeF_decodeF_encodeF (v : FV) :
    (encodeF .f32 rneMode (decodeF .f32 (encodeF .f32 rneMode v).1)).1 = (encodeF .f32 rneMode v).1 := by
  rcases encodeF_f32_cases v with h | ⟨neg, h | ⟨k, hk, h⟩⟩ <;> rw [h]
  · rfl
  · cases neg <;> rfl
  · exact encodeF_decodeF_sign_add rfl hk neg

end

/-! ### A group of products whose scales are one (R45) -/

/-- A product already has its value's sign, so that a scale of one leaves it. -/
theorem mulV_mulV_one (a b : FV) : (mulV (mulV a b).1 (.fin false 1)).1 = (mulV a b).1 := by
  have hone : (FV.fin false 1).neg = false := by simp [FV.neg]
  cases a with
  | nan => rfl
  | inf n =>
    cases b with
    | nan => rfl
    | inf => simp [mulV, hone]
    | fin z v => by_cases hv : v = 0 <;> simp [mulV, hv, hone]
  | fin z v =>
    cases b with
    | nan => rfl
    | inf => by_cases hv : v = 0 <;> simp [mulV, hv, hone]
    | fin y w =>
      have hsign : (FV.fin ((FV.fin z v).neg != (FV.fin y w).neg) (v * w)).neg = ((FV.fin z v).neg != (FV.fin y w).neg) := by
        by_cases hv : v = 0
        · simp [FV.neg, hv]
        by_cases hw : w = 0
        · simp [FV.neg, hw]
        rcases lt_or_gt_of_ne hv with hv' | hv' <;> rcases lt_or_gt_of_ne hw with hw' | hw' <;>
          simp [FV.neg, hv, hw, hv', hw', hv'.not_gt, hw'.not_gt, mul_neg_iff]
      simp [mulV, hone, hsign]

/-- One group of the products of K elements of A and B on an accumulator, with scales of one. -/
def productGroup (K : Nat) (A B : Nat → FV) (Z : FV) : Accum :=
  accumGroup { z := Z, mof := false, mnv := false } ((List.range K).map fun k => (A k, B k)) (.fin false 1) (.fin false 1)

section
variable {K : Nat} {A B : Nat → FV} {Z : FV}

theorem z_productGroup (K : Nat) (A B : Nat → FV) (Z : FV) : (productGroup K A B Z).z =
    decodeF .f32 (encodeF .f32 rneMode (sumV false (Z :: (List.range K).map fun k => (mulV (A k) (B k)).1)).1).1 := by
  simp [productGroup, accumGroup, mulV_mulV_one, Function.comp_def]

/-- The accumulator, the scales and the operands of such a group. -/
def groupInputs (K : Nat) (A B : Nat → FV) (Z : FV) : List FV :=
  Z :: .fin false 1 :: .fin false 1 :: ((List.range K).map fun k => (A k, B k)).flatMap fun p => [p.1, p.2]

theorem not_any_groupInputs {P : FV → Bool} (hone : P (.fin false 1) = false) :
    (!(groupInputs K A B Z).any P) = true ↔ P Z = false ∧ ∀ k < K, P (A k) = false ∧ P (B k) = false := by
  simp [groupInputs, hone]

def FV.isInf (v : FV) : Bool := v == .inf false || v == .inf true

theorem FV.isInf_iff {v : FV} : v.isInf = true ↔ ∃ g, v = .inf g := by simp [FV.isInf]

theorem FV.not_isInf_iff {v : FV} : v.isInf = false ↔ ∀ g, v ≠ .inf g := by simp [FV.isInf]

/-- MOF rises where the sum is infinite without an infinite operand (R162). -/
theorem mof_productGroup : (productGroup K A B Z).mof = true ↔ ∃ g, (productGroup K A B Z).z = .inf g ∧
    ∀ h, Z ≠ .inf h ∧ ∀ k < K, A k ≠ .inf h ∧ B k ≠ .inf h := by
  have hmof : (productGroup K A B Z).mof = ((productGroup K A B Z).z.isInf && !(groupInputs K A B Z).any FV.isInf) := rfl
  rw [hmof, Bool.and_eq_true, FV.isInf_iff, not_any_groupInputs rfl]
  simp only [FV.not_isInf_iff]
  constructor
  · rintro ⟨⟨g, hg⟩, hZ, hAB⟩
    exact ⟨g, hg, fun h => ⟨hZ h, fun k hk => ⟨(hAB k hk).1 h, (hAB k hk).2 h⟩⟩⟩
  · rintro ⟨g, hg, hall⟩
    exact ⟨⟨g, hg⟩, fun h => (hall h).1, fun k hk => ⟨fun h => ((hall h).2 k hk).1, fun h => ((hall h).2 k hk).2⟩⟩

/-- MNV rises where the sum is a NaN without a NaN operand (R162). -/
theorem mnv_productGroup : (productGroup K A B Z).mnv = true ↔ (productGroup K A B Z).z.isNaN = true ∧
    Z.isNaN = false ∧ ∀ k < K, (A k).isNaN = false ∧ (B k).isNaN = false := by
  have hmnv : (productGroup K A B Z).mnv = ((productGroup K A B Z).z.isNaN && !(groupInputs K A B Z).any FV.isNaN) := rfl
  rw [hmnv, Bool.and_eq_true, not_any_groupInputs rfl]

/-- With K up to 4 there is one group. -/
theorem accumulate_of_le_four (h1 : 1 ≤ K) (h4 : K ≤ 4) : accumulate 0 K A B (fun _ => .fin false 1) (fun _ => .fin false 1) Z =
    productGroup K A B Z := by
  obtain rfl | rfl | rfl | rfl : K = 1 ∨ K = 2 ∨ K = 3 ∨ K = 4 := by omega
  all_goals rfl

end

/-! ### The product of two bf16 matrices (R158, R162, R163) -/

section
variable {s : State} {m : MatrixUnit} {z : Nat} {clear : Bool} {A B Z : Nat → Nat → FV}

/-- The unit after a product of one group: each element is its rounded sum, and the sticky bits are those of all elements together. -/
def MatrixUnit.product (m : MatrixUnit) (z : Nat) (A B Z : Nat → Nat → FV) : MatrixUnit :=
  let group (r c : Nat) : Accum := productGroup (geomK m.geom) (A r) (B c) (Z r c)
  { m.putElems z (regionElems (geomM m.geom) (geomN m.geom) fun r c => (encodeF .f32 rneMode (group r c).z).1) with
    mof := m.mof || (region (geomM m.geom) (geomN m.geom)).any fun x => (group x.1 x.2).mof
    mnv := m.mnv || (region (geomM m.geom) (geomN m.geom)).any fun x => (group x.1 x.2).mnv }

/-- Element k of row r of a bf16 operand. -/
def bf16At (rd : Nat → Nat → Nat) (p ld r k : Nat) : FV := decodeF .bf16 (rd 2 (p + r * ld + 2 * k))

/-- What an element of the tile starts from: zero for MMAZ. -/
def MatrixUnit.startAt (m : MatrixUnit) (z : Nat) (clear : Bool) (r c : Nat) : FV :=
  if clear then .fin false 0 else decodeF .f32 (m.elem z (64 * r + c))

theorem operandAt_bf16 (rd : Nat → Nat → Nat) (cb : List Nat) (p ld r k : Nat) : operandAt rd cb 5 (p + r * ld) k = bf16At rd p ld r k := rfl

theorem MatrixUnit.multiply_eq_product {rd rdB : Nat → Nat → Nat} {pa pb psa psb : Nat} (h1 : 1 ≤ geomK m.geom) (h4 : geomK m.geom ≤ 4)
    (hFA : geomFA m.geom = 5) (hFB : geomFB m.geom = 5) : m.multiply rd rdB z pa pb psa psb clear 0 (geomK m.geom) =
      m.product z (bf16At rd pa (strideA m.stride)) (bf16At rdB pb (strideB m.stride)) (m.startAt z clear) := by
  have hK : geomK m.geom ≠ 0 := by omega
  simp [MatrixUnit.multiply, MatrixUnit.product, hK, hFA, hFB, operandAt_bf16, MatrixUnit.startAt, accumulate_of_le_four h1 h4, regionElems,
    List.any_map, Function.comp_def]

/-- Of the unit only the elements and the two sticky bits change. -/
theorem MatrixUnit.product_of_clean (h : m.ecc = []) (z : Nat) (A B Z : Nat → Nat → FV) : m.product z A B Z =
    { m with tiles := (m.product z A B Z).tiles, mof := (m.product z A B Z).mof, mnv := (m.product z A B Z).mnv } := by
  have heq : m.product z A B Z = { m with
      tiles := (m.product z A B Z).tiles, ecc := (m.product z A B Z).ecc, mof := (m.product z A B Z).mof, mnv := (m.product z A B Z).mnv } := rfl
  have hecc : (m.product z A B Z).ecc = m.ecc := by
    show (m.putElems z _).ecc = m.ecc
    rw [MatrixUnit.putElems_of_clean h]
  rwa [hecc] at heq

theorem MatrixUnit.elem_product {r c : Nat} (hr : r < geomM m.geom) (hc : c < geomN m.geom) :
    (m.product z A B Z).elem z (64 * r + c) = (encodeF .f32 rneMode
      (sumV false (Z r c :: (List.range (geomK m.geom)).map fun k => (mulV (A r k) (B c k)).1)).1).1 := by
  refine (MatrixUnit.elem_putRegion (geomN_le _) hr hc _).trans ?_
  rw [z_productGroup, encodeF_decodeF_encodeF]

theorem MatrixUnit.mof_product : (m.product z A B Z).mof = true ↔
    m.mof = true ∨ ∃ r c, r < geomM m.geom ∧ c < geomN m.geom ∧ (productGroup (geomK m.geom) (A r) (B c) (Z r c)).mof = true := by
  simp [MatrixUnit.product, mem_region, and_assoc]

theorem MatrixUnit.mnv_product : (m.product z A B Z).mnv = true ↔
    m.mnv = true ∨ ∃ r c, r < geomM m.geom ∧ c < geomN m.geom ∧ (productGroup (geomK m.geom) (A r) (B c) (Z r c)).mnv = true := by
  simp [MatrixUnit.product, mem_region, and_assoc]

theorem State.mxEffect_mma (h : NoEcc s m) {a : Agent} {x y : Word} {p q : Nat} (hp : s.mxPlace a x = some p) (hq : s.mxPlace a y = some q)
    (h1 : 1 ≤ geomK m.geom) (h4 : geomK m.geom ≤ 4) (hFA : geomFA m.geom = 5) (hFB : geomFB m.geom = 5)
    (hA : A = bf16At (fun n p => s.mem.readN p n) p (strideA m.stride)) (hB : B = bf16At (fun n p => s.mem.readN p n) q (strideB m.stride)) :
    s.mxEffect a m (.mma z x y clear) none 0 = { unit := m.product z A B (m.startAt z clear) } := by
  have hsteps : min (geomK m.geom) 64 = geomK m.geom := by omega
  simp [State.mxEffect, hA, hB, State.mxEcc_of_clean h.1, MatrixUnit.not_regionPoisoned h.2, hp, hq, hsteps,
    MatrixUnit.multiply_eq_product h1 h4 hFA hFB]

end

/-- Settles O12: the products of one group and the accumulator are summed exactly and rounded once, and the element's encoding is its own
rounding. -/
theorem matrixProductElements : Obligations.MatrixProductElements := by
  unfold Obligations.MatrixProductElements
  intro i s core cx m cmd z M N K p q x y clear A B Z R h hclean hz hop hM hN hK hM1 hN1 hK1 hK4 hFA hFB hp hq hA hB hZ hR
  subst hM hN hK
  obtain rfl : Z = m.startAt z clear := hZ
  have hseg : cmd.op.segments m = 1 := by
    rw [hop]
    simp only [MxOp.segments]
    omega
  obtain ⟨t, ht, hbegun⟩ := begins_one_segment (u := m.product z A B (m.startAt z clear)) h hseg
    (by rw [hop]; exact State.mxEffect_mma hclean hp hq hK1 hK4 hFA hFB hA hB) rfl
  have hgroup (r c : Nat) : (productGroup (geomK m.geom) (A r) (B c) (m.startAt z clear r c)).z = decodeF .f32 (R r c) := by rw [z_productGroup, hR]
  refine ⟨t, _, ht, hbegun, MatrixUnit.product_of_clean hclean.2 _ _ _ _, fun r c hr hc => ?_, fun w e hwe => ?_, ?_, ?_⟩
  · rw [MatrixUnit.elem_product hr hc, hR]
  · exact MatrixUnit.elem_putRegion_outside hwe
  · simp only [MatrixUnit.mof_product, mof_productGroup, hgroup, exists_and_left]
  · simp only [MatrixUnit.mnv_product, mnv_productGroup, hgroup]

end Sys2Proof.Machine

/-! PROOFS. VMOVZ and VMOVTOZ through the vector queue (R155, R165, R166): with nothing else in flight such a move enters the queue, starts
and completes, one after the other. -/

namespace Sys2Proof.Machine
open Sys2Proof Sys2Proof.Claims

/-! ### States that differ in the issuing context alone -/

/-- The issuing context is c, and nothing else has changed. -/
structure CurrentSet (s t : State) (c : Ctx) : Prop where
  fields : t = { s with ctxs := t.ctxs }
  others : OtherContexts s t
  ctx : t.curCtx = c

namespace CurrentSet
variable {s t : State} {c : Ctx}

theorem refl (s : State) : CurrentSet s s s.curCtx := ⟨rfl, ⟨rfl, fun _ _ => rfl⟩, rfl⟩

theorem cur (h : CurrentSet s t c) : t.sched.cur = s.sched.cur := by rw [h.others.1]

theorem ctx_cur (h : CurrentSet s t c) : t.ctx s.sched.cur = c := by
  rw [← h.cur]
  exact h.ctx

theorem core (h : CurrentSet s t c) (k : Nat) : t.core k = s.core k := by
  have hcores : t.cores = s.cores := by rw [h.fields]
  rw [State.core, hcores]
  rfl

theorem setCtx (h : CurrentSet s t c) (hcur : s.sched.cur < numCtx) (d : Ctx) : CurrentSet s (t.setCtx s.sched.cur d) d := by
  obtain ⟨hsched, hothers⟩ := h.others
  rw [← h.cur] at hcur ⊢
  obtain ⟨hsched', hothers'⟩ := State.setCur_others (s := t) hcur d
  refine ⟨?_, ⟨hsched'.trans hsched, fun cx hcx => (hothers' cx (h.cur.symm ▸ hcx)).trans (hothers cx hcx)⟩, State.curCtx_setCur t hcur⟩
  refine (State.setCur_eq hcur d).trans ?_
  rw [h.fields]
  rfl

theorem mxOf (h : CurrentSet s t c) (hcur : s.sched.cur < numCtx) (hjob : c.job = s.curCtx.job) :
    t.mxOf s.sched.cur c = s.mxOf s.sched.cur s.curCtx :=
  State.mxOf_congr hcur (by rw [h.core]) hjob

end CurrentSet

/-! ### A move between a tile and a vector register -/

/-- The two moves between a register and a tile. -/
def IsMove (v : VReg) (z : ZReg) (b : SReg) (q : Qual) (i : Instr) : Prop := i = .vmovz v z b q ∨ i = .vmovtoz z v b q

/-- What the queue holds of a move that has started. -/
def State.moveEntry (s : State) (i : Instr) (b : SReg) : VEntry := entryOf i s.curCtx (s.curCtx.reg b) 0

section
variable {s t : State} {m : MatrixUnit} {i : Instr} {v : VReg} {z : ZReg} {b : SReg} {q : Qual}

theorem IsMove.vmemOf (hi : IsMove v z b q i) : vmemOf i = none := by rcases hi with rfl | rfl <;> rfl

theorem IsMove.exec (hi : IsMove v z b q i) (s : State) : exec i s = s.mxMove i b q := by rcases hi with rfl | rfl <;> rfl

theorem formatIn_fmtF {c : Ctx} (h : formatIn q fmtF c = true) : accMove (Qual.fmt q c.vtype) = true := by
  unfold formatIn at h
  unfold accMove Qual.fmt
  revert h
  generalize q.fo.getD c.vtype = f
  cases f <;> decide

/-- The move enters the queue. -/
theorem State.mxMove_of_quiet (h : Quiet s) (hm : s.mxOf s.sched.cur s.curCtx = some m) (hd : s.curCtx.depth ≤ m.pdepth)
    (hf : formatIn q fmtF s.curCtx = true) (hb : (s.curCtx.reg b).toNat ≤ 4095) (i : Instr) : s.mxMove i b q =
      .next (s.setCur { s.curCtx with
        vq := [{ s.moveEntry i b with started := false }], ord := s.curCtx.ord + 1, pc := s.nextPc }) := by
  have hbusy : s.curCtx.busy b = false := by simp [Ctx.busy, h.loads, h.queue, h.ops]
  simp [State.mxMove, State.mxGate, hm, hd.not_gt, State.vEnter, hbusy, Ctx.vlPending, h.queue, h.guess, formatIn_fmtF hf, badRead_of_quiet h,
    illegalUnless, hb, State.moveEntry, entryOf]

variable {c : Ctx} {e : VEntry}

/-- With no older entry and no command of the matrix unit nothing holds a move back, and it passes its probe. -/
theorem State.move_starts (hi : IsMove v z b q i) (he : e.ins = i) (hvq : c.vq = [e]) (hecc : c.vecEcc = [])
    {cx : Nat} (hm : t.mxOf cx c = some m) (hq : m.queue = []) (hm' : m.ecc = []) :
    t.vHeld cx c e = false ∧ t.probe cx c e = (.pass [] none false, t) := by
  subst he
  have hprobe : t.probe cx c e = t.probeOwn cx c e := by simp [State.probe, VEntry.sourceError, hecc]
  have hclean (q : Qual) : m.moveError z.val q e c = none :=
    List.find?_eq_none.2 fun i _ => by simp [MatrixUnit.poisoned, hm']
  rw [hprobe]
  rcases hi with hi | hi
  · constructor
    · simp [State.vHeld, hi, onSchur, startsAtHead, hecc, Ctx.startWaits, hvq, isClassV, isVecLoad, isVecStore, hm, MatrixUnit.moveDue, hq,
        Ctx.tileMoving]
    · simp [State.probeOwn, hi, hm, hclean]
  · constructor
    · simp [State.vHeld, hi, onSchur, startsAtHead, hecc, Ctx.startWaits, hvq, isClassV, isVecLoad, isVecStore, hm, MatrixUnit.moveDue, hq]
    · simp [State.probeOwn, hi, vmemOf, VEntry.pivotFail, schurResults, gaussRegs]

/-- An entry that has started leaves nothing to undo. -/
theorem Ctx.freeUndo_of_started (hvq : ∀ e ∈ c.vq, e.started = true) (hundo : c.undo = []) (hahead : c.ahead = []) : c.freeUndo = c := by
  have hnone : c.vq.find? (fun e => !e.started) = none := List.find?_eq_none.2 (by simpa using hvq)
  have heq : c.freeUndo = { c with undo := [], ahead := [] } := by simp [Ctx.freeUndo, hnone, hundo]
  rw [heq, ← hundo]
  conv_lhs => rw [← hahead]

/-- The move starts. -/
theorem execVectorStart_move {cx : Nat} (hi : IsMove v z b q i) (he : e.ins = i)
    (hentry : e = { e with started := true, accesses := [], cut := none, sends := false, after := 0 })
    (hc : t.ctx cx = { c with vq := [{ e with started := false }] }) (hundo : c.undo = []) (hahead : c.ahead = []) (hecc : c.vecEcc = [])
    (hm : t.mxOf cx (t.ctx cx) = some m) (hq : m.queue = []) (hm' : m.ecc = []) :
    execVectorStart cx t = .next (t.setCtx cx { c with vq := [e], instret := c.instret + 1 }) := by
  obtain ⟨hheld, hprobe⟩ := State.move_starts (e := { e with started := false }) hi he (by rw [hc]) (by rw [hc]; exact hecc) hm hq hm'
  have hfirst : (t.ctx cx).vq.find? (fun e => !e.started) = some { e with started := false } := by rw [hc]; simp
  have hstart : { e with started := true, accesses := [], cut := none, sends := false, after := 0 } = e := hentry.symm
  have hafter : e.after = 0 := by rw [hentry]
  simp only [execVectorStart, hfirst, hheld, hprobe]
  simp [State.modCtx, hc, Ctx.aheadHit, hahead, Ctx.setEntry, hstart, hafter]
  exact congrArg (t.setCtx cx) (Ctx.freeUndo_of_started (by rw [hentry]; simp) (by exact hundo) rfl)

/-- With no beat in error none is cleared, and a move poisons none. -/
theorem Ctx.beats_move (hi : IsMove v z b q i) (he : e.ins = i) (hecc : c.vecEcc = [])
    (ws : List (VReg × Nat × Nat)) : (c.clearBeats ws).poisonBeats e = c := by
  simp [Ctx.clearBeats, Ctx.poisonBeats, hecc, he, hi.vmemOf]

/-- The rows of a tile that no command is to write are ready. -/
theorem State.completeDue_move {cx : Nat} (hi : IsMove v z b q i) (he : e.ins = i) (hm : t.mxOf cx c = some m) (hq : m.queue = []) :
    t.completeDue cx c e = true := by
  have hrows (o z first last : Nat) : m.rowsReady o z first last = true := by simp [MatrixUnit.rowsReady, hq]
  subst he
  rcases hi with hi | hi
  all_goals
    rw [State.completeDue, hi]
    simp only [hm]
    cases moveElems q e c with
    | nil => rfl
    | cons i is => exact hrows _ _ _ _

/-- The move completes: its effect, and the queue is empty. -/
theorem execVectorComplete_move {cx : Nat} (hi : IsMove v z b q i) (he : e.ins = i) (hstarted : e.started = true)
    (hacc : e.accesses = []) (hvq : (t.ctx cx).vq = [e]) (hm : t.mxOf cx (t.ctx cx) = some m) (hq : m.queue = [])
    (hecc : ((t.vEffect cx (t.ctx cx) e).ctx cx).vecEcc = []) :
    execVectorComplete cx t = .next ((t.vEffect cx (t.ctx cx) e).modCtx cx fun x => { x with vq := x.vq.tail }) := by
  have hlose : e.lose (t.ctx cx) [] = e := by simp [VEntry.lose, he, hi.vmemOf]
  have hreads : e.reads = false := by rcases hi with hi | hi <;> simp [VEntry.reads, he, hi, isVecLoad]
  simp [execVectorComplete, hvq, hstarted, State.completeDue_move hi he hm hq, hreads, hacc, hlose, State.modCtx, Ctx.beats_move hi he hecc]

end

/-- Where only the issuing context has changed, and of it what a vector instruction may change. -/
theorem vectorFrame_of_currentSet {s v : State} {d : Ctx} (h : Quiet s) (hv : CurrentSet s v d) (hpc : d.pc = s.nextPc) (hvq : d.vq = [])
    (hinstret : d.instret = s.curCtx.instret + 1) (hd : d = { s.curCtx with
      vregs := d.vregs, mregs := d.mregs, sregs := d.sregs, vl := d.vl, vtype := d.vtype
      fflags := d.fflags, sgmask := d.sgmask, pc := d.pc, ord := d.ord, instret := d.instret, vq := d.vq }) : VectorFrame s v := by
  obtain ⟨hfields, hothers, rfl⟩ := hv
  rw [hvq, ← h.queue] at hd
  exact ⟨hfields, hothers, hpc, hvq, hinstret, hd⟩

section
variable {s : State} {m : MatrixUnit} {i : Instr} {v : VReg} {z : ZReg} {b : SReg} {q : Qual}

/-- The issuing context while a move of it runs. -/
def State.movingCtx (s : State) (e : VEntry) : Ctx :=
  { s.curCtx with vq := [e], ord := s.curCtx.ord + 1, pc := s.nextPc, instret := s.curCtx.instret + 1 }

/-- A move enters, starts and completes. -/
theorem runs_move (h : Quiet s) (hm : s.mxOf s.sched.cur s.curCtx = some m) (hd : s.curCtx.depth ≤ m.pdepth)
    (hf : formatIn q fmtF s.curCtx = true) (hb : (s.curCtx.reg b).toNat ≤ 4095) (hecc : m.ecc = [])
    (hi : IsMove v z b q i) : ∃ u, CurrentSet s u (s.movingCtx (s.moveEntry i b)) ∧
      ∀ w d, u.vEffect s.sched.cur (s.movingCtx (s.moveEntry i b)) (s.moveEntry i b) = w → w.ctx s.sched.cur = d → d.vecEcc = [] →
        Runs i s (w.setCtx s.sched.cur { d with vq := d.vq.tail }) := by
  have hq := h.matrix m hm
  have hentered := (CurrentSet.refl s).setCtx h.cur { s.curCtx with
    vq := [{ s.moveEntry i b with started := false }], ord := s.curCtx.ord + 1, pc := s.nextPc }
  have hstarted := hentered.setCtx h.cur (s.movingCtx (s.moveEntry i b))
  have hstart := execVectorStart_move (e := s.moveEntry i b) (c := { s.curCtx with ord := s.curCtx.ord + 1, pc := s.nextPc }) hi rfl rfl
    hentered.ctx_cur h.undo h.ahead h.beats (by rw [hentered.ctx_cur, hentered.mxOf h.cur rfl, hm]) hq hecc
  refine ⟨_, hstarted, fun w d hw hctx hbeats => ⟨_, _, (hi.exec s).trans (State.mxMove_of_quiet h hm hd hf hb i), hstart, ?_⟩⟩
  have hcomplete := execVectorComplete_move (e := s.moveEntry i b) hi rfl rfl rfl (by rw [hstarted.ctx_cur]; rfl)
    (by rw [hstarted.ctx_cur, hstarted.mxOf h.cur rfl, hm]) hq (by rw [hstarted.ctx_cur, hw, hctx, hbeats])
  rw [hstarted.ctx_cur, hw, State.modCtx, hctx] at hcomplete
  exact hcomplete

theorem State.vEffect_vmovz {u : State} {cx : Nat} {c : Ctx} {e : VEntry} (he : e.ins = .vmovz v z b q) (hm : u.mxOf cx c = some m) :
    u.vEffect cx c e = u.setCtx cx (vmovzEffect m v z.val q e c) := by
  simp only [State.vEffect, he, hm]

theorem State.vEffect_vmovtoz {u : State} {cx : Nat} {c : Ctx} {e : VEntry} (he : e.ins = .vmovtoz z v b q) (hm : u.mxOf cx c = some m) :
    u.vEffect cx c e = (u.setCtx cx (c.addFlags (vmovtozEffect m z.val v q e c).2)).setMx cx (vmovtozEffect m z.val v q e c).1 := by
  simp only [State.vEffect, he, hm]

/-- The issuing context and its unit written: memory, the jobs and the other cores stay. -/
theorem CurrentSet.putUnit_setCtx {w : State} {c : Ctx} (hw : CurrentSet s w c) (hcur : s.sched.cur < numCtx) (m : MatrixUnit) (d : Ctx)
    {x : State} (hx : (w.putUnit (coreOf s.sched.cur) m).setCtx s.sched.cur d = x) : x.curCtx = d ∧ x.mem = s.mem ∧ x.jobs = s.jobs ∧
      ∀ k, x.core k = { s.core k with mx := if k = coreOf s.sched.cur then m else (s.core k).mx } := by
  have hunit : (w.putUnit (coreOf s.sched.cur) m).sched.cur = s.sched.cur := hw.cur
  have hset : (w.putUnit (coreOf s.sched.cur) m).setCtx s.sched.cur d = (w.putUnit (coreOf s.sched.cur) m).setCur d := by
    rw [State.setCur, hunit]
  rw [← hunit] at hcur
  rw [hset] at hx
  subst hx
  refine ⟨State.curCtx_setCur _ hcur, ?_, ?_, fun k => ?_⟩
  · rw [State.setCur_mem, State.mem_putUnit, hw.fields]
  · rw [State.setCur, State.setCtx_jobs _ _ hcur, hw.fields]
    rfl
  · rw [State.core_setCur, State.core_putUnit, hw.core]

theorem runs_vmovz (h : Quiet s) (hm : s.mxOf s.sched.cur s.curCtx = some m) (hd : s.curCtx.depth ≤ m.pdepth)
    (hf : formatIn q fmtF s.curCtx = true) (hb : (s.curCtx.reg b).toNat ≤ 4095) (hecc : m.ecc = []) :
    ∃ t, Runs (.vmovz v z b q) s t ∧ VectorFrame s t ∧
      SameFile (vmovzEffect m v z.val q (s.moveEntry (.vmovz v z b q) b) s.curCtx) t.curCtx := by
  obtain ⟨u, hu, hruns⟩ := runs_move (v := v) (z := z) h hm hd hf hb hecc (.inl rfl)
  have heffect : u.vEffect s.sched.cur (s.movingCtx (s.moveEntry (.vmovz v z b q) b)) (s.moveEntry (.vmovz v z b q) b) =
      u.setCtx s.sched.cur (vmovzEffect m v z.val q (s.moveEntry (.vmovz v z b q) b) (s.movingCtx (s.moveEntry (.vmovz v z b q) b))) :=
    State.vEffect_vmovz rfl ((hu.mxOf h.cur rfl).trans hm)
  have hset := hu.setCtx h.cur (vmovzEffect m v z.val q (s.moveEntry (.vmovz v z b q) b) (s.movingCtx (s.moveEntry (.vmovz v z b q) b)))
  have hlast := hset.setCtx h.cur { vmovzEffect m v z.val q (s.moveEntry (.vmovz v z b q) b)
    (s.movingCtx (s.moveEntry (.vmovz v z b q) b)) with vq := [] }
  refine ⟨_, hruns _ _ heffect hset.ctx_cur h.beats, vectorFrame_of_currentSet h hlast rfl rfl rfl rfl, ?_⟩
  exact hlast.ctx.symm ▸ ⟨rfl, rfl, rfl, rfl, rfl, rfl, rfl⟩

theorem runs_vmovtoz (h : Quiet s) (hm : s.mxOf s.sched.cur s.curCtx = some m) (hd : s.curCtx.depth ≤ m.pdepth)
    (hf : formatIn q fmtF s.curCtx = true) (hb : (s.curCtx.reg b).toNat ≤ 4095) (hecc : m.ecc = []) :
    ∃ t, Runs (.vmovtoz z v b q) s t ∧ t.curCtx.pc = s.nextPc ∧ t.mem = s.mem ∧ t.jobs = s.jobs ∧
      (∀ k, k ≠ coreOf s.sched.cur → t.core k = s.core k) ∧ t.curCtx.vregs = s.curCtx.vregs ∧ t.curCtx.sregs = s.curCtx.sregs ∧
      t.curCtx.fflags = s.curCtx.fflags ||| (vmovtozEffect m z.val v q (s.moveEntry (.vmovtoz z v b q) b) s.curCtx).2 ∧
      t.mxOf s.sched.cur t.curCtx = some (vmovtozEffect m z.val v q (s.moveEntry (.vmovtoz z v b q) b) s.curCtx).1 := by
  obtain ⟨u, hu, hruns⟩ := runs_move (v := v) (z := z) h hm hd hf hb hecc (.inr rfl)
  have heffect := State.vEffect_vmovtoz (e := s.moveEntry (.vmovtoz z v b q) b) rfl ((hu.mxOf h.cur rfl).trans hm)
  have hset := hu.setCtx h.cur ((s.movingCtx (s.moveEntry (.vmovtoz z v b q) b)).addFlags
    (vmovtozEffect m z.val v q (s.moveEntry (.vmovtoz z v b q) b) (s.movingCtx (s.moveEntry (.vmovtoz z v b q) b))).2)
  rw [State.setMx_eq h.cur] at heffect
  obtain ⟨hctx, hmem, hjobs, hcore⟩ := hset.putUnit_setCtx h.cur _ _ rfl
  obtain ⟨-, hjob, hsome⟩ := (State.mxOf_eq_some_iff h.cur).1 hm
  refine ⟨_, hruns _ _ heffect hset.ctx_cur h.beats, ?_⟩
  rw [hctx]
  refine ⟨rfl, hmem, hjobs, fun k hk => ?_, rfl, rfl, rfl, ?_⟩
  · rw [hcore, if_neg hk]
  · rw [State.mxOf_eq_some_iff h.cur, hcore, if_pos rfl]
    exact ⟨rfl, hjob, hsome⟩

end

theorem tileMoves : TileMoves := fun _ _ _ _ _ _ h hm hd hf hb hecc =>
  ⟨runs_vmovz h hm hd hf hb hecc, runs_vmovtoz h hm hd hf hb hecc⟩

end Sys2Proof.Machine

/-! PROOFS. The save area of the matrix unit (R170, R171): what MXPARK writes is what MXUNPARK reads, part by part. -/

namespace Sys2Proof.Machine
open Sys2Proof Sys2Proof.Claims

/-! ### Canonical maps -/

section
variable {α : Type} {d : α} {m n : FMap α}

theorem FMap.get_of_not_key {k : Nat} (h : ∀ e ∈ m, e.1 ≠ k) : m.get d k = d := by
  induction m with
  | nil => rfl
  | cons x m ih =>
    obtain ⟨hx, hm⟩ := List.forall_mem_cons.1 h
    rw [FMap.get, if_neg hx, ih hm]

theorem FMap.get_of_above {lo k : Nat} (h : m.above lo = true) (hk : k ≤ lo) : m.get d k = d := by
  induction m with
  | nil => rfl
  | cons x m ih =>
    simp only [FMap.above, Bool.and_eq_true, decide_eq_true_eq] at h
    obtain ⟨hx, hm⟩ := h
    rw [FMap.get, if_neg (by omega), ih hm]

/-- What holds of the default and of every listed value holds of every value. -/
theorem FMap.get_of_forall {P : α → Prop} (hd : P d) (h : ∀ e ∈ m, P e.2) (k : Nat) : P (m.get d k) := by
  induction m with
  | nil => exact hd
  | cons x m ih =>
    obtain ⟨hx, hm⟩ := List.forall_mem_cons.1 h
    rw [FMap.get]
    split
    · exact hx
    · exact ih hm

variable [DecidableEq α]

/-- Maps in the canonical form are equal where they hold the same. -/
theorem FMap.ext_of_wf (hm : m.wf d = true) (hn : n.wf d = true) (h : ∀ k, m.get d k = n.get d k) : m = n := by
  induction m generalizing n with
  | nil =>
    cases n with
    | nil => rfl
    | cons y n =>
      simp only [FMap.wf, Bool.and_eq_true, decide_eq_true_eq] at hn
      exact absurd (by simpa [FMap.get] using (h y.1).symm) hn.1.1
  | cons x m ih =>
    simp only [FMap.wf, Bool.and_eq_true, decide_eq_true_eq] at hm
    obtain ⟨⟨hx, habove⟩, hwf⟩ := hm
    cases n with
    | nil => exact absurd (by simpa [FMap.get] using h x.1) hx
    | cons y n =>
      simp only [FMap.wf, Bool.and_eq_true, decide_eq_true_eq] at hn
      obtain ⟨⟨hy, habove'⟩, hwf'⟩ := hn
      obtain ⟨i, v⟩ := x
      obtain ⟨j, w⟩ := y
      dsimp only at hx hy habove habove'
      rcases lt_trichotomy i j with hij | rfl | hij
      · have hi := h i
        rw [FMap.get, if_pos rfl, FMap.get, if_neg hij.ne', FMap.get_of_above habove' hij.le] at hi
        exact absurd hi hx
      · have hi := h i
        rw [FMap.get, if_pos rfl, FMap.get, if_pos rfl] at hi
        rw [hi, ih hwf hwf' fun k => ?_]
        by_cases hk : i = k
        · subst hk
          rw [FMap.get_of_above habove le_rfl, FMap.get_of_above habove' le_rfl]
        · have hrest := h k
          rwa [FMap.get, if_neg hk, FMap.get, if_neg hk] at hrest
      · have hj := h j
        rw [FMap.get, if_neg hij.ne', FMap.get, if_pos rfl, FMap.get_of_above habove hij.le] at hj
        exact absurd hj.symm hy

theorem FMap.wf_foldl_set (ks : List Nat) (g : Nat → α) (hm : m.wf d = true) :
    (ks.foldl (fun t k => t.set d k (g k)) m).wf d = true := by
  induction ks generalizing m with
  | nil => exact hm
  | cons k ks ih => exact ih (FMap.wf_set _ _ _ _ hm)

/-- A canonical map is what its values below a bound on its keys make. -/
theorem FMap.foldl_set_range {bound : Nat} (hm : m.wf d = true) (hkeys : ∀ e ∈ m, e.1 < bound) :
    (List.range bound).foldl (fun t k => FMap.set d t k (m.get d k)) [] = m := by
  refine FMap.ext_of_wf (FMap.wf_foldl_set _ _ rfl) hm fun k => ?_
  by_cases hk : k < bound
  · exact FMap.get_foldl_set (key := fun k : Nat => k) (val := fun k => m.get d k) (List.mem_range.2 hk) rfl (by rintro _ - rfl; rfl) _
  · rw [FMap.get_of_not_key fun e he (hek : e.1 = k) => hk (hek ▸ hkeys e he)]
    exact FMap.get_foldl_set_of_ne (key := fun k : Nat => k) (val := fun k => m.get d k)
      (fun x hx (hxk : x = k) => hk (hxk ▸ List.mem_range.1 hx)) _

end

/-! ### Bytes that memory holds -/

/-- The bytes stand in memory from a place on. -/
def Memory.Holds (mem : Memory) (p : Nat) (bs : List Byte) : Prop := ∀ k < bs.length, bs[k]? = some (mem.read (p + k))

section
variable {mem : Memory} {p n : Nat} {as bs : List Byte} {ws : List Nat}

theorem Memory.holds_writeBytes (mem : Memory) (p : Nat) (bs : List Byte) : (mem.writeBytes p bs).Holds p bs :=
  fun _ hk => Memory.read_writeBytes_inside _ _ hk

theorem Memory.Holds.append (h : mem.Holds p (as ++ bs)) : mem.Holds p as ∧ mem.Holds (p + as.length) bs := by
  refine ⟨fun k hk => ?_, fun k hk => ?_⟩
  · rw [← h k (by rw [List.length_append]; omega), List.getElem?_append_left hk]
  · rw [Nat.add_assoc, ← h (as.length + k) (by rw [List.length_append]; omega), List.getElem?_append_right (by omega), Nat.add_sub_cancel_left]

/-- A word of the ones that memory holds. -/
theorem Memory.Holds.readN (h : mem.Holds p (wordsBytes n ws)) {j w : Nat} (hj : ws[j]? = some w) (hw : w < 256 ^ n) :
    mem.readN (p + n * j) n = w := by
  rw [Memory.readN_wordsBytes (fun k hk => h k (by rwa [length_wordsBytes])) hj, Nat.mod_eq_of_lt hw]

/-- All of the words. -/
theorem Memory.Holds.words (h : mem.Holds p (wordsBytes n ws)) (hws : ∀ w ∈ ws, w < 256 ^ n) :
    ((List.range ws.length).map fun j => mem.readN (p + n * j) n) = ws := by
  refine List.ext_getElem (by simp) fun j hj hj' => ?_
  rw [List.getElem_map, List.getElem_range]
  exact h.readN (List.getElem?_eq_getElem hj') (hws _ (List.getElem_mem hj'))

end

/-! ### STATUS (R169) -/

theorem bit_eq_of_toNat {x i : Nat} {b : Bool} (h : x / 2 ^ i % 2 = b.toNat) : bit x i = b := by
  unfold bit
  rw [h]
  cases b <;> rfl

/-- The fields of STATUS are read back from its word. -/
theorem MatrixUnit.loadStatus_status (x : MatrixUnit) {m : MatrixUnit} (hdisc : m.fdisc < 256) (hmaj : m.fmaj < 16) (hz : m.fz < 4)
    (hkind : m.fkind < 16) (hdepth : m.pdepth < 4) : x.loadStatus m.status.toNat = { x with
      fkind := m.fkind, mof := m.mof, mnv := m.mnv, fpend := m.fpend, fz := m.fz, fmaj := m.fmaj, pdepth := m.pdepth, fdisc := m.fdisc } := by
  have hmof := m.mof.toNat_le
  have hmnv := m.mnv.toNat_le
  have hfpend := m.fpend.toNat_le
  have hword : m.status.toNat = m.fkind + 16 * m.mof.toNat + 32 * m.mnv.toNat + 128 * m.fpend.toNat + 1024 * m.fz + 4096 * m.fmaj +
      2 ^ 22 * m.pdepth + 2 ^ 24 * m.fdisc := by
    rw [MatrixUnit.status, BitVec.toNat_ofNat, Nat.mod_eq_of_lt (by omega)]
  generalize m.status.toNat = v at hword
  have h1 : bitsOf v 3 0 = m.fkind := by simp only [bitsOf]; omega
  have h2 : bit v 4 = m.mof := bit_eq_of_toNat (by omega)
  have h3 : bit v 5 = m.mnv := bit_eq_of_toNat (by omega)
  have h4 : bit v 7 = m.fpend := bit_eq_of_toNat (by omega)
  have h5 : bitsOf v 11 10 = m.fz := by simp only [bitsOf]; omega
  have h6 : bitsOf v 15 12 = m.fmaj := by simp only [bitsOf]; omega
  have h7 : bitsOf v 23 22 = m.pdepth := by simp only [bitsOf]; omega
  have h8 : bitsOf v 31 24 = m.fdisc := by simp only [bitsOf]; omega
  rw [MatrixUnit.loadStatus, h1, h2, h3, h4, h5, h6, h7, h8]

/-! ### The save area (R171) -/

section
variable {m : MatrixUnit} {mem : Memory} {p : Nat}

theorem length_parkBytes (ha : m.cba.length = 16) (hb : m.cbb.length = 16) : m.parkBytes.length = parkSize := by
  simp only [MatrixUnit.parkBytes, List.length_append, length_wordsBytes, List.length_map, List.length_range, ha, hb]
  rfl

/-- The configuration words of a unit, as its save area holds them. -/
def MatrixUnit.configWords (m : MatrixUnit) : List Word := [m.geom, m.stride, m.sstride, m.sa, m.sb, m.share, m.status, m.faddr]

/-- The parts of a save area: the tiles, the codebooks and the configuration. -/
theorem Memory.Holds.parkBytes (h : mem.Holds p m.parkBytes) (ha : m.cba.length = 16) (hb : m.cbb.length = 16) :
    mem.Holds p (wordsBytes 4 ((List.range 16384).map fun e => m.tiles.get 0 e)) ∧ mem.Holds (p + 0x10000) (wordsBytes 2 m.cba) ∧
      mem.Holds (p + 0x10020) (wordsBytes 2 m.cbb) ∧ mem.Holds (p + 0x10040) (wordsBytes 8 (m.configWords.map (·.toNat))) := by
  obtain ⟨habc, hconfig⟩ := Memory.Holds.append h
  obtain ⟨hab, hbookB⟩ := habc.append
  obtain ⟨htiles, hbookA⟩ := hab.append
  simp only [List.length_append, length_wordsBytes, List.length_map, List.length_range, ha, hb] at hbookA hbookB hconfig
  exact ⟨htiles, hbookA, hbookB, hconfig⟩

theorem Memory.Holds.configWord (h : mem.Holds (p + 0x10040) (wordsBytes 8 (m.configWords.map (·.toNat)))) {i : Nat} {w : Word}
    (hi : m.configWords[i]? = some w) : BitVec.ofNat 64 (mem.readN (p + (0x10040 + 8 * i)) 8) = w := by
  rw [← Nat.add_assoc, h.readN (j := i) (w := w.toNat) (by simp [hi]) w.isLt, BitVec.ofNat_toNat, BitVec.setWidth_eq]

/-- Element e of the tiles. -/
theorem Memory.Holds.tileElem (h : mem.Holds p (wordsBytes 4 ((List.range 16384).map fun e => m.tiles.get 0 e)))
    (hval : ∀ e ∈ m.tiles, e.2 < 2 ^ 32) {e : Nat} (he : e < 16384) : mem.readN (p + 4 * e) 4 = m.tiles.get 0 e :=
  h.readN (by simp [he]) (FMap.get_of_forall (P := (· < 256 ^ 4)) (by decide) hval e)

/-- A unit's save area gives the unit, with the zero fields of its words zero (R2, R171). -/
theorem MatrixUnit.unpark_of_holds (h : mem.Holds p m.parkBytes) (hwf : m.tiles.wf 0 = true) (hval : ∀ e ∈ m.tiles, e.1 < 16384 ∧ e.2 < 2 ^ 32)
    (ha : m.cba.length = 16) (hb : m.cbb.length = 16) (hvalA : ∀ e ∈ m.cba, e < 65536) (hvalB : ∀ e ∈ m.cbb, e < 65536)
    (hdisc : m.fdisc < 256) (hmaj : m.fmaj < 16) (hz : m.fz < 4) (hkind : m.fkind < 16) (hdepth : m.pdepth < 4) (hecc : m.ecc = [])
    (hq : m.queue = []) :
    ({ job := m.job, pdepth := m.pdepth + 1 } : MatrixUnit).unpark (fun n o => mem.readN (p + o) n) = m.zeroed := by
  obtain ⟨htiles, hbookA, hbookB, hconfig⟩ := Memory.Holds.parkBytes h ha hb
  have hmap : (List.range 16384).foldl (fun t e => FMap.set 0 t e (mem.readN (p + 4 * e) 4)) [] = m.tiles := by
    refine (List.foldl_ext _ _ _ fun t e he => ?_).trans (FMap.foldl_set_range hwf fun e he => (hval e he).1)
    rw [htiles.tileElem (fun e he => (hval e he).2) (List.mem_range.1 he)]
  have hA : ((List.range 16).map fun e => mem.readN (p + (0x10000 + 2 * e)) 2) = m.cba := by
    simpa only [ha, Nat.add_assoc] using hbookA.words hvalA
  have hB : ((List.range 16).map fun e => mem.readN (p + (0x10020 + 2 * e)) 2) = m.cbb := by
    simpa only [hb, Nat.add_assoc] using hbookB.words hvalB
  have hgeom : BitVec.ofNat 64 (mem.readN (p + (0x10040 + 8 * 0)) 8) = m.geom := hconfig.configWord rfl
  have hstride : BitVec.ofNat 64 (mem.readN (p + (0x10040 + 8 * 1)) 8) = m.stride := hconfig.configWord rfl
  have hsstride : BitVec.ofNat 64 (mem.readN (p + (0x10040 + 8 * 2)) 8) = m.sstride := hconfig.configWord rfl
  have hsa : BitVec.ofNat 64 (mem.readN (p + (0x10040 + 8 * 3)) 8) = m.sa := hconfig.configWord rfl
  have hsb : BitVec.ofNat 64 (mem.readN (p + (0x10040 + 8 * 4)) 8) = m.sb := hconfig.configWord rfl
  have hshare : BitVec.ofNat 64 (mem.readN (p + (0x10040 + 8 * 5)) 8) = m.share := hconfig.configWord rfl
  have hstatus : BitVec.ofNat 64 (mem.readN (p + (0x10040 + 8 * 6)) 8) = m.status := hconfig.configWord rfl
  have hfaddr : BitVec.ofNat 64 (mem.readN (p + (0x10040 + 8 * 7)) 8) = m.faddr := hconfig.configWord rfl
  simp only [MatrixUnit.unpark, hmap, hA, hB, hgeom, hstride, hsstride, hsa, hsb, hshare, hstatus, hfaddr,
    MatrixUnit.loadStatus_status _ hdisc hmaj hz hkind hdepth]
  simp only [MatrixUnit.zeroed, hecc, hq, Nat.add_sub_cancel]

end

end Sys2Proof.Machine

/-! PROOFS. MXPARK and MXUNPARK (R170, R171): with nothing else in flight the one writes the save area and the other reads it back. -/

namespace Sys2Proof.Machine
open Sys2Proof Sys2Proof.Claims

/-! ### A held instruction that leaves another unit in its core -/

section
variable {s w t : State} {m m' : MatrixUnit} {p : Nat}

/-- The issuing context has ended an instruction with m as the unit it holds; the other contexts, the jobs and the ownership stay. -/
structure UnitLeft (s t : State) (m : MatrixUnit) : Prop where
  alone : CurrentAlone s t
  ctx : t.curCtx = s.endCtx.retire
  unit : t.mxOf s.sched.cur t.curCtx = some m
  sluice : t.sluice = s.sluice

theorem job_retire_endCtx (s : State) : s.endCtx.retire.job = s.curCtx.job := (scalarSide_retire s.endCtx).job_eq

theorem unitLeft_complete (h : s.sched.cur < numCtx) (hm : s.mxOf s.sched.cur s.curCtx = some m) (hw : SameContexts s w)
    (hpc : w.nextPc = s.nextPc) (hsluice : w.sluice = s.sluice) (hmx : (w.core (coreOf s.sched.cur)).mx = m') (hjob : m'.job = m.job) :
    UnitLeft s (w.complete id) m' := by
  have hend : w.complete id = w.setCur s.endCtx.retire := by
    rw [State.complete, hw.curCtx_eq, hpc]
    rfl
  have hctx : (w.setCur s.endCtx.retire).curCtx = s.endCtx.retire := State.curCtx_setCur _ (hw.cur ▸ h)
  obtain ⟨-, hc, hsome⟩ := (State.mxOf_eq_some_iff h).1 hm
  rw [hend]
  refine ⟨hw.currentAlone.setCur h _, hctx, ?_, (State.setCtx_sluice _ _ _).trans hsluice⟩
  rw [hctx, State.mxOf_eq_some_iff h, State.core_setCur, hmx, job_retire_endCtx, hjob]
  exact ⟨rfl, hc, hsome⟩

namespace UnitLeft

theorem reg (h : UnitLeft s t m) (r : SReg) : t.curCtx.reg r = s.curCtx.reg r := by
  rw [h.ctx, Ctx.reg_retire, State.reg_endCtx]

theorem pc (h : UnitLeft s t m) : t.curCtx.pc = s.nextPc := by
  rw [h.ctx, Ctx.pc_retire]
  rfl

/-- With an empty queue of the unit there is still nothing in flight. -/
theorem quiet (h : UnitLeft s t m) (hs : Quiet s) (hq : m.queue = []) : Quiet t := by
  have hctx : t.curCtx = { s.curCtx with
      pc := s.nextPc, status := .running, ord := s.curCtx.ord + 1, instret := s.curCtx.instret + 1 } := by
    rw [h.ctx, Ctx.retire_started _ (by exact unstarted_of_quiet hs) (by exact hs.guess)]
    rfl
  have hschur : t.schurTaken t.sched.cur = s.schurTaken s.sched.cur := by
    rw [h.alone.cur]
    unfold State.schurTaken
    congr 1
    funext i
    by_cases hi : coreOf s.sched.cur * 4 + i = s.sched.cur
    · simp [hi]
    · rw [h.alone.others _ hi]
  refine ⟨h.alone.cur ▸ hs.cur, ?_, ?_, ?_, ?_, ?_, ?_, ?_, ?_, ?_, ?_, fun x hx => ?_, hschur.trans hs.schur⟩
  · rw [hctx]; exact hs.queue
  · rw [hctx]; exact hs.undo
  · rw [hctx]; exact hs.ahead
  · rw [hctx]; exact hs.loads
  · rw [hctx]; exact hs.stores
  · rw [hctx]; exact hs.fences
  · rw [hctx]; exact hs.ops
  · rw [hctx]; exact hs.guess
  · rw [hctx]; exact hs.errors
  · rw [hctx]; exact hs.beats
  · rw [h.alone.cur, h.unit] at hx
    exact Option.some.inj hx ▸ hq

theorem depth (h : UnitLeft s t m) (hs : Quiet s) : t.curCtx.depth = s.curCtx.depth := by
  rw [h.ctx, Ctx.retire_started _ (by exact unstarted_of_quiet hs) (by exact hs.guess)]
  rfl

/-- The save area stands where it stood. -/
theorem parkPlace (h : UnitLeft s t m) (va : Word) : t.parkPlace va = s.parkPlace va := by
  have htenant : t.tenantOf t.curCtx = s.tenantOf s.curCtx := by
    have hjobs : t.job? = s.job? := funext fun k => by rw [State.job?, State.job?, h.alone.jobs]
    rw [h.ctx, State.tenantOf, State.tenantOf, State.jobOf, State.jobOf, job_retire_endCtx, hjobs]
  have hregion (c o : Nat) : t.coreRegion c o = s.coreRegion c o := by rw [State.coreRegion, State.coreRegion, h.sluice]
  simp only [State.parkPlace, h.alone.cur, htenant, hregion]

end UnitLeft

/-! ### What a store leaves alone -/

theorem State.nextPc_storeBytes (s : State) (p : Nat) (bs : List Byte) : (s.storeBytes p none bs).nextPc = s.nextPc :=
  (s.snoopWrite_effect p bs.length).nextPc_eq

theorem State.sluice_storeBytes (s : State) (p : Nat) (bs : List Byte) : (s.storeBytes p none bs).sluice = s.sluice := by
  show (s.snoopWrite p bs.length).sluice = s.sluice
  rw [(s.snoopWrite_effect p bs.length).fields]

@[simp] theorem State.nextPc_putUnit (s : State) (core : Nat) (m : MatrixUnit) : (s.putUnit core m).nextPc = s.nextPc := rfl
@[simp] theorem State.sluice_putUnit (s : State) (core : Nat) (m : MatrixUnit) : (s.putUnit core m).sluice = s.sluice := rfl

theorem State.putUnit_sameContexts (s : State) (core : Nat) (m : MatrixUnit) : SameContexts s (s.putUnit core m) := ⟨rfl, rfl, rfl⟩

/-! ### The save area's place -/

theorem State.coreRegion_aligned (s : State) (core owner : Nat) : (s.coreRegion core owner).1 % 4096 = 0 := by
  unfold State.coreRegion
  split
  · exact Nat.mul_mod_left _ _
  · rfl

/-- A save area is aligned to 256 bytes, and so to the words of the array. -/
theorem State.parkPlace_aligned {va : Word} (h : s.parkPlace va = .ok p) : p % 8 = 0 := by
  have hbase := s.coreRegion_aligned (coreOf s.sched.cur) (s.tenantOf s.curCtx)
  unfold State.parkPlace at h
  dsimp only at h
  split at h
  · cases h
  split at h
  · cases h
  split at h
  · cases h
  · obtain rfl := Except.ok.inj h
    unfold corePlace
    omega

/-! ### MXPARK and MXUNPARK with nothing else in flight -/

theorem parkHeld_of_quiet (h : Quiet s) (hq : m.queue = []) (p : Nat) : s.parkHeld m p = false := by
  simp [State.parkHeld, State.ownClear, Ctx.olderLoad, Ctx.olderStore, Ctx.olderVec, Ctx.olderAcquire, curFenced_of_quiet h, h.queue, h.loads,
    h.stores, hq]

theorem State.parkEcc_of_clean (h : m.ecc = []) (p : Nat) : s.parkEcc p m = s := by simp [State.parkEcc, h]

theorem execMxpark_of_quiet (h : Quiet s) (hm : s.mxOf s.sched.cur s.curCtx = some m) {a : SReg} (hp : s.parkPlace (s.curCtx.reg a) = .ok p)
    (hd : m.pdepth + 1 = s.curCtx.depth) (hecc : m.ecc = []) : execMxpark a s =
      .next (((s.storeBytes p none m.parkBytes).putUnit (coreOf s.sched.cur) { job := m.job, pdepth := m.pdepth + 1 }).complete id) := by
  have hd' : ¬(s.curCtx.depth = 0 ∨ m.pdepth + 1 ≠ s.curCtx.depth) := by omega
  rw [execMxpark, heldOp_of_ready (heldReady_of_quiet h [a] [])]
  simp only [hm, if_neg hd', hp, parkHeld_of_quiet h (h.matrix m hm), State.parkEcc_of_clean hecc, Bool.false_eq_true, if_false]
  rw [(s.storeBytes_sameContexts p none m.parkBytes).cur, State.setMx_eq h.cur]

theorem execMxunpark_of_quiet (h : Quiet s) (hm : s.mxOf s.sched.cur s.curCtx = some m) {a : SReg} (hp : s.parkPlace (s.curCtx.reg a) = .ok p)
    (hpos : 0 < m.pdepth) (hd : m.pdepth = s.curCtx.depth) (hgood : m.fpend = false) : execMxunpark a s =
      .next (((s.putUnit (coreOf s.sched.cur) { m.unpark (fun n o => s.mem.readN (p + o) n) with ecc := s.unparkEcc p }).snoopRead
        p parkSize).complete id) := by
  have hd' : ¬(s.curCtx.depth = 0 ∨ m.pdepth ≠ s.curCtx.depth) := by omega
  rw [execMxunpark, heldOp_of_ready (heldReady_of_quiet h [a] [])]
  simp only [hm, if_neg hd', hp, parkHeld_of_quiet h (h.matrix m hm), hgood, Bool.false_eq_true, if_false]
  rw [State.setMx_eq h.cur]

/-- The words that a store covers hold no error after it (R428). -/
theorem State.unparkEcc_storeBytes (hp : p % 8 = 0) {bs : List Byte} (hlen : bs.length = parkSize) (ht : t.ecc = (s.storeBytes p none bs).ecc) :
    t.unparkEcc p = [] := by
  have hclear (w : Nat) (hw : w < 8192) : t.ecc.get false (p / 8 + w) = false := by
    have hcovered : (!(decide (p ≤ 8 * (p / 8 + w)) && decide (8 * (p / 8 + w) + 8 ≤ p + bs.length))) = false := by
      rw [hlen, parkSize]
      simp
      omega
    rw [ht]
    refine (FMap.get_filter (fun k => !(decide (p ≤ 8 * k) && decide (8 * k + 8 ≤ p + bs.length))) _ _).trans ?_
    rw [hcovered]
    rfl
  have hnone : tileWords.filter (fun w => t.ecc.get false (p / 8 + w)) = [] :=
    List.filter_eq_nil_iff.2 fun w hw => by simp [hclear w (List.mem_range.1 hw)]
  rw [State.unparkEcc, hnone]
  rfl

/-- MXPARK leaves the unit as at reset, one level deeper, and its contents in the save area, whose words hold no error. -/
theorem mxpark_result (h : Quiet s) (hm : s.mxOf s.sched.cur s.curCtx = some m) {a : SReg} (hp : s.parkPlace (s.curCtx.reg a) = .ok p)
    (hd : m.pdepth + 1 = s.curCtx.depth) (hecc : m.ecc = []) (hlen : m.parkBytes.length = parkSize) : ∃ t, execMxpark a s = .next t ∧
      UnitLeft s t { job := m.job, pdepth := m.pdepth + 1 } ∧ t.mem = s.mem.writeBytes p m.parkBytes ∧ t.unparkEcc p = [] := by
  have hpark := execMxpark_of_quiet h hm hp hd hecc
  generalize m.parkBytes = bs at hpark hlen ⊢
  refine ⟨_, hpark, ?_, ?_, ?_⟩
  · exact unitLeft_complete h.cur hm ((s.storeBytes_sameContexts p none bs).trans (State.putUnit_sameContexts _ _ _))
      (by rw [State.nextPc_putUnit, State.nextPc_storeBytes]) (by rw [State.sluice_putUnit, State.sluice_storeBytes])
      (State.mx_putUnit _ _ _) rfl
  · rw [State.complete, State.setCur_mem, State.mem_putUnit, State.storeBytes_mem]
  · exact State.unparkEcc_storeBytes (State.parkPlace_aligned hp) hlen (State.setCtx_ecc (s := (s.storeBytes p none bs).putUnit _ _) _ _)

/-- MXUNPARK leaves the unit that the save area gives, and memory as it was. -/
theorem mxunpark_result (h : Quiet s) (hm : s.mxOf s.sched.cur s.curCtx = some m) {a : SReg} (hp : s.parkPlace (s.curCtx.reg a) = .ok p)
    (hpos : 0 < m.pdepth) (hd : m.pdepth = s.curCtx.depth) (hgood : m.fpend = false) (hecc : s.unparkEcc p = [])
    (hread : m.unpark (fun n o => s.mem.readN (p + o) n) = m') (hclean : m'.ecc = []) (hjob : m'.job = m.job) :
    ∃ u, execMxunpark a s = .next u ∧ UnitLeft s u m' ∧ u.mem = s.mem := by
  have hunpark := execMxunpark_of_quiet h hm hp hpos hd hgood
  have hsame : { m' with ecc := s.unparkEcc p } = m' := by rw [hecc, ← hclean]
  rw [hread, hsame] at hunpark
  have hsnoop := (s.putUnit (coreOf s.sched.cur) m').snoopRead_effect p parkSize
  refine ⟨_, hunpark, unitLeft_complete h.cur hm ((s.putUnit_sameContexts _ _).trans hsnoop.sameContexts) hsnoop.nextPc_eq ?_ ?_ hjob, ?_⟩
  · rw [hsnoop.fields]
    rfl
  · rw [hsnoop.core]
    exact State.mx_putUnit _ _ _
  · rw [State.complete, State.setCur_mem, State.snoopRead_mem, State.mem_putUnit]

theorem matrixParkAndUnpark : MatrixParkAndUnpark := by
  rintro a s m p h hm hp hd hd3 ⟨hwf, hval⟩ ⟨ha, hb, hvalA, hvalB⟩ ⟨hdisc, hmaj, hz, hkind, hecc⟩
  have hq := h.matrix m hm
  have hlen := length_parkBytes ha hb
  obtain ⟨t, hpark, hleft, hmem, hclean⟩ := mxpark_result h hm hp hd hecc hlen
  have hholds : t.mem.Holds p m.parkBytes := hmem ▸ Memory.holds_writeBytes _ _ _
  have hread := MatrixUnit.unpark_of_holds hholds hwf hval ha hb hvalA hvalB hdisc hmaj hz hkind (by omega) hecc hq
  obtain ⟨u, hunpark, hback, hsame⟩ := mxunpark_result (hleft.quiet h rfl) (hleft.alone.cur.symm ▸ hleft.unit)
    (by rw [hleft.parkPlace, hleft.reg, hp]) (Nat.succ_pos _) (by rw [hleft.depth h]; exact hd) rfl hclean hread hecc rfl
  refine ⟨t, u, hpark, hleft.pc, hleft.reg, hleft.unit, fun e he => ?_, fun q hq => ?_, hunpark, hleft.alone.cur ▸ hback.unit, hsame,
    fun r => ?_⟩
  · exact (Memory.Holds.parkBytes hholds ha hb).1.tileElem (fun e he => (hval e he).2) he
  · rw [hmem, Memory.read_writeBytes_outside _ _ _ _ (by rw [hlen]; exact hq)]
  · rw [hback.reg, hleft.reg]

end

/-- Settles O14: a move that runs alone meets nothing that holds it back, and the parts of a save area are read as they were written. -/
theorem matrixMovesAndParking : Obligations.MatrixMovesAndParking := ⟨tileMoves, matrixParkAndUnpark⟩

end Sys2Proof.Machine

/-! PROOFS. The mailbox table and its counts (R192, R193): held instructions that write one core's table, or read the counts of one tenant. -/

namespace Sys2Proof.Machine
open Sys2Proof Sys2Proof.Claims

section
variable {s w t : State} {d a : SReg}

/-- A held instruction that ends in a state of which at most the cores have changed. -/
theorem complete_cores_result (h : s.sched.cur < numCtx) (hw : w = { s with cores := w.cores }) (f : Ctx → Ctx) (ht : w.complete f = t) :
    t.curCtx = (f s.endCtx).retire ∧ t = { s with ctxs := t.ctxs, cores := t.cores } ∧ ∀ k, t.core k = w.core k := by
  have hcur : w.sched.cur < numCtx := by rwa [hw]
  have hend : w.endCtx = s.endCtx := by
    rw [hw]
    rfl
  subst ht
  refine ⟨by rw [State.curCtx_complete hcur, hend], ?_, fun k => State.core_setCur _ _ k⟩
  rw [State.complete_eq hcur, hw]

/-- GCFG places the table of the context's tenant in its core (R192). -/
theorem execGcfg_of_ready (h : HeldReady s [a] []) (hv : (s.curCtx.reg a).toNat < 2 ^ 48) (hzero : bitsOf (s.curCtx.reg a).toNat 15 11 = 0)
    (hcount : mbCount (s.curCtx.reg a) ≤ 1024) (hbase : mbBase (s.curCtx.reg a) % 64 = 0)
    (hroom : mbBase (s.curCtx.reg a) + 192 * mbCount (s.curCtx.reg a) ≤ (s.coreRegion (coreOf s.sched.cur) (s.tenantOf s.curCtx)).2) :
    execGcfg 0 a s = .next ((s.modCore (coreOf s.sched.cur) fun k =>
      { k with mbtab := k.mbtab.set 0 (s.tenantOf s.curCtx) (s.curCtx.reg a) }).complete id) := by
  have hhigh : (s.curCtx.reg a).toNat / 2 ^ 48 = 0 := Nat.div_eq_of_lt hv
  rw [execGcfg, heldOp_of_ready h]
  simp only [hhigh, hzero, hbase, hcount.not_gt, hroom.not_gt, ne_eq, not_true_eq_false, or_self, if_false, Fin.val_zero]

/-- The items that GSTAT reads (R193). -/
def State.mailItem (s : State) (sel : Nat) : Word :=
  let k := s.core (coreOf s.sched.cur)
  let o := s.tenantOf s.curCtx
  match sel with
  | 0 => k.mbtab.get 0 o
  | 2 => k.merges.get 0 o
  | 3 => s.curCtx.sent
  | 4 => s.curCtx.skipped
  | _ => BitVec.ofNat 64 (k.drops.get 0 o)

/-- What GSTAT leaves of the cores: item 8 clears DROPS (R193). -/
def State.statRead (s : State) (sel : Nat) : State :=
  if sel = 8 then s.modCore (coreOf s.sched.cur) fun k => { k with drops := k.drops.set 0 (s.tenantOf s.curCtx) 0 } else s

theorem execGstat_of_ready (h : HeldReady s [] [d]) (hq : s.curCtx.vq = []) {sel : Fin 16} (hsel : sel.val ∈ [0, 1, 2, 3, 4, 8]) :
    execGstat d sel s = .next ((s.statRead sel.val).complete fun c => c.setReg d (s.mailItem sel.val)) := by
  have hempty : s.curCtx.vq.isEmpty = true := by rw [hq]; rfl
  rw [execGstat, heldOp_of_ready h]
  simp only [List.mem_cons, List.not_mem_nil, or_false] at hsel
  rcases hsel with hsel | hsel | hsel | hsel | hsel | hsel
  all_goals
    rw [hsel]
    simp only [hempty, if_true]
    rfl

theorem State.statRead_cores (s : State) (sel : Nat) : s.statRead sel = { s with cores := (s.statRead sel).cores } := by
  unfold State.statRead
  split <;> rfl

theorem State.drops_statRead (s : State) (sel : Nat) : ((s.statRead sel).core (coreOf s.sched.cur)).drops.get 0 (s.tenantOf s.curCtx) =
    if sel = 8 then 0 else (s.core (coreOf s.sched.cur)).drops.get 0 (s.tenantOf s.curCtx) := by
  unfold State.statRead
  split
  · rw [State.modCore, State.core_setCore_same, FMap.get_set_same]
  · rfl

end

theorem mailboxTables : MailboxTables := by
  rintro d a s core owner rfl rfl
  refine ⟨fun h hv hzero hcount hbase hroom => ?gcfg, fun h hq sel hsel => ?gstat⟩
  case gcfg =>
    obtain ⟨hctx, hfields, hcore⟩ := complete_cores_result (w := s.modCore (coreOf s.sched.cur) fun k =>
      { k with mbtab := k.mbtab.set 0 (s.tenantOf s.curCtx) (s.curCtx.reg a) }) h.cur rfl id rfl
    refine ⟨_, execGcfg_of_ready h hv hzero hcount hbase hroom, ?_, fun o ho => ?_, ?_, fun r => ?_, hfields⟩
    · rw [hcore, State.modCore, State.core_setCore_same, FMap.get_set_same]
    · rw [hcore, State.modCore, State.core_setCore_same, FMap.get_set_ne _ _ _ ho]
    · rw [hctx, Ctx.pc_retire]
      rfl
    · rw [hctx, Ctx.reg_retire]
      rfl
  case gstat =>
    obtain ⟨hctx, hfields, hcore⟩ := complete_cores_result h.cur (s.statRead_cores sel.val) (·.setReg d (s.mailItem sel.val)) rfl
    refine ⟨_, execGstat_of_ready h hq hsel, ?_, hfields, ?_, by rw [hcore, State.drops_statRead]⟩
    · rw [hctx, Ctx.pc_retire, Ctx.pc_setReg]
      rfl
    · have hwrites : Writes s.curCtx (s.endCtx.setReg d (s.mailItem sel.val)).retire d (s.mailItem sel.val) :=
        .of_regs fun q => by rw [Ctx.reg_retire, Ctx.reg_setReg_congr s.reg_endCtx]
      rw [hctx]
      exact hwrites

end Sys2Proof.Machine

/-! PROOFS. What a mailbox entry holds (R51, R181): its fields stand in 192 bytes, and a message written into it is read back. -/

namespace Sys2Proof.Machine
open Sys2Proof Sys2Proof.Claims

/-! ### Numbers read out of memory -/

section
variable {m m' : Memory} {p q n k v : Nat} {bs : List Byte}

theorem Memory.readN_congr (h : ∀ q, p ≤ q → q < p + n → m'.read q = m.read q) : m'.readN p n = m.readN p n := by
  induction n generalizing p with
  | zero => rfl
  | succ n ih => rw [Memory.readN, Memory.readN, h p le_rfl (by omega), ih fun q hp hq => h q (by omega) (by omega)]

theorem Memory.readN_writeBytes_outside (h : q + n ≤ p ∨ p + bs.length ≤ q) : (m.writeBytes p bs).readN q n = m.readN q n :=
  Memory.readN_congr fun _ hq hn => Memory.read_writeBytes_outside _ _ _ _ (by omega)

theorem Memory.readN_writeBytes_same (m : Memory) (p v n : Nat) : (m.writeBytes p (bytesOf v n)).readN p n = v % 256 ^ n :=
  Memory.readN_of_bytes fun _ hi => Memory.read_writeBytes_inside _ _ (by rwa [length_bytesOf])

theorem Memory.readN_div (m : Memory) (p k : Nat) : m.readN p (k + 1) / 256 = m.readN (p + 1) k := by
  rw [Memory.readN]
  have := (m.read p).isLt
  omega

/-- The low bytes of a number that memory holds. -/
theorem Memory.readN_mod (h : n ≤ k) : m.readN p k % 256 ^ n = m.readN p n := by
  induction n generalizing p k with
  | zero => simp [Memory.readN, Nat.mod_one]
  | succ n ih =>
    obtain ⟨k, rfl⟩ : ∃ j, k = j + 1 := ⟨k - 1, by omega⟩
    have hfirst : m.readN p (k + 1) % 256 = (m.read p).toNat := by
      rw [Memory.readN]
      have := (m.read p).isLt
      omega
    rw [Nat.pow_succ', Nat.mod_mul, hfirst, m.readN_div, ih (by omega)]
    rfl

/-- Some of the bytes of a number that memory holds. -/
theorem Memory.readN_slice {o : Nat} (h : o + n ≤ k) : m.readN p k / 256 ^ o % 256 ^ n = m.readN (p + o) n := by
  induction o generalizing p k with
  | zero => simpa using Memory.readN_mod (m := m) (p := p) (by omega : n ≤ k)
  | succ o ih =>
    obtain ⟨k, rfl⟩ : ∃ j, k = j + 1 := ⟨k - 1, by omega⟩
    rw [Nat.pow_succ', ← Nat.div_div_eq_div_mul, m.readN_div, ih (by omega), Nat.add_assoc, Nat.add_comm 1 o]

end

/-! ### An entry's fields (R51) -/

/-- An entry is what its 192 bytes make it. -/
theorem Mail.of_congr {rd rd' : Nat → Nat → Nat} (h : ∀ o n, o + n ≤ 192 → rd' o n = rd o n) : Mail.of rd' = Mail.of rd := by
  have hlam : ((List.range 16).map fun i => rd' (0x20 + 8 * i) 8) = (List.range 16).map fun i => rd (0x20 + 8 * i) 8 :=
    List.map_congr_left fun i hi => h _ _ (by rw [List.mem_range] at hi; omega)
  have heta : ((List.range 4).map fun i => rd' (0xA0 + 8 * i) 8) = (List.range 4).map fun i => rd (0xA0 + 8 * i) 8 :=
    List.map_congr_left fun i hi => h _ _ (by rw [List.mem_range] at hi; omega)
  rw [Mail.of, Mail.of, hlam, heta, h 4 4 (by omega), h 8 1 (by omega), h 9 1 (by omega), h 10 2 (by omega), h 12 4 (by omega)]

theorem Mail.ofBytes_readN (s : State) (p : Nat) : Mail.ofBytes (s.mem.readN p 192) = mailAt s p :=
  Mail.of_congr fun _ _ h => Memory.readN_slice h

theorem wordsBytes_append (n : Nat) (as bs : List Nat) : wordsBytes n (as ++ bs) = wordsBytes n as ++ wordsBytes n bs := List.flatMap_append

/-- The slots of an entry for a list of elements, +0 beyond them. -/
def mailSlots (n : Nat) (l : List Nat) : List Nat := (List.range n).map fun i => l.getD i 0

@[simp] theorem length_mailSlots (n : Nat) (l : List Nat) : (mailSlots n l).length = n := by simp [mailSlots]

theorem getD_lt {l : List Nat} {b : Nat} (hb : 0 < b) (h : ∀ x ∈ l, x < b) (i : Nat) : l.getD i 0 < b := by
  rw [List.getD_eq_getElem?_getD]
  cases hi : l[i]? with
  | none => exact hb
  | some x => exact h x (List.mem_of_getElem? hi)

theorem mailSlots_lt {n b : Nat} {l : List Nat} (hb : 0 < b) (h : ∀ x ∈ l, x < b) : ∀ x ∈ mailSlots n l, x < b := by
  intro x hx
  obtain ⟨i, -, rfl⟩ := List.mem_map.1 hx
  exact getD_lt hb h i

theorem take_mailSlots {n : Nat} {l : List Nat} (h : l.length ≤ n) : (mailSlots n l).take l.length = l := by
  refine List.ext_getElem (by simpa using h) fun i hi hi' => ?_
  simp [mailSlots, hi']

/-- The message of an entry whose slots were filled with it. -/
theorem Mail.message_of_slots {m : Mail} {k : Nat} {lam eta : List Nat} (hk : k ≤ 4) (hvalid : m.valid = true) (horder : m.order = k)
    (hlam : m.lam = mailSlots 16 lam) (heta : m.eta = mailSlots 4 eta) (hl : lam.length = k * k) (he : eta.length = k) :
    m.message k = (lam, eta) := by
  have hkk : k * k ≤ 4 * 4 := Nat.mul_le_mul hk hk
  have htake : m.lam.take (k * k) = lam := by rw [hlam, ← hl, take_mailSlots (by omega)]
  have htake' : m.eta.take k = eta := by rw [heta, ← he, take_mailSlots (by omega)]
  simp [Mail.message, hvalid, horder, htake, htake']

/-! ### Elements of a message fit their slots -/

theorem pairOf_lt (re im : Nat) : pairOf 32 re im < 2 ^ 64 := by
  unfold pairOf
  omega

section
variable {k d : Nat} {l old inc : List Nat}

theorem hermBits_lt (h : ∀ x ∈ l, x < 2 ^ 64) : ∀ x ∈ hermBits k l, x < 2 ^ 64 := by
  intro x hx
  obtain ⟨n, -, rfl⟩ := List.mem_map.1 hx
  dsimp only
  split
  · unfold realBits
    omega
  · split
    · exact getD_lt (by omega) h n
    · exact pairOf_lt _ _

theorem hermResult_lt (h : ∀ x ∈ l, x < 2 ^ 64) : ∀ x ∈ hermResult k l, x < 2 ^ 64 := by
  intro x hx
  obtain ⟨n, -, rfl⟩ := List.mem_map.1 hx
  dsimp only
  split
  · unfold realBits
    omega
  · split
    · exact getD_lt (by omega) h n
    · exact pairOf_lt _ _

theorem dampAll_lt : ∀ x ∈ dampAll d old inc, x < 2 ^ 64 := by
  intro x hx
  obtain ⟨i, hi, rfl⟩ := List.mem_iff_getElem.1 hx
  simp only [dampAll, List.getElem_zipWith]
  exact pairOf_lt _ _

theorem elems64_lt (c : Ctx) (v : VReg) (n : Nat) : ∀ x ∈ c.elems64 v n, x < 2 ^ 64 := by
  intro x hx
  obtain ⟨i, -, rfl⟩ := List.mem_map.1 hx
  exact Nat.mod_lt _ (by omega)

@[simp] theorem length_hermBits (k : Nat) (l : List Nat) : (hermBits k l).length = k * k := by simp [hermBits]
@[simp] theorem length_hermResult (k : Nat) (l : List Nat) : (hermResult k l).length = k * k := by simp [hermResult]

end

/-! ### A message written into an entry (R181, R184) -/

/-- What a store to memory may change beside memory: errors in the words it covers, lines of the host, and the note of a home that is not
ready (R385, R420, R428). -/
structure StoreEffect (s t : State) : Prop where
  fields : t = { s with mem := t.mem, ecc := t.ecc, host := t.host, sched := { s.sched with held := t.sched.held } }

namespace StoreEffect
variable {s t u : State}

theorem trans (h₁ : StoreEffect s t) (h₂ : StoreEffect t u) : StoreEffect s u := ⟨h₂.fields.trans (by rw [h₁.fields])⟩

theorem gmsg_eq (h : StoreEffect s t) : t.gmsg = s.gmsg := by rw [h.fields]
theorem sameContexts (h : StoreEffect s t) : SameContexts s t := ⟨by rw [h.fields], by rw [h.fields], by rw [h.fields]⟩
theorem core_eq (h : StoreEffect s t) (k : Nat) : t.core k = s.core k := by
  rw [h.fields]
  rfl

end StoreEffect

section
variable (s : State) (p v k : Nat) (lam eta : List Nat)

theorem State.snoopWrite_storeEffect (n : Nat) : StoreEffect s (s.snoopWrite p n) := by
  unfold State.snoopWrite
  dsimp only
  rcases s.touch_cases p n with h | ⟨q, h⟩ <;> rw [h] <;> split <;> exact ⟨rfl⟩

theorem State.storeBytes_storeEffect (bs : List Byte) : StoreEffect s (s.storeBytes p none bs) :=
  (s.snoopWrite_storeEffect p bs.length).trans ⟨rfl⟩

theorem State.putMail_storeEffect : StoreEffect s (s.putMail p v k lam eta) :=
  (((s.storeBytes_storeEffect _ _).trans (State.storeBytes_storeEffect _ _ _)).trans (State.storeBytes_storeEffect _ _ _)).trans
    (State.storeBytes_storeEffect _ _ _)

/-- The bytes that a message puts in memory. -/
theorem State.putMail_mem : (s.putMail p v k lam eta).mem = (((s.mem.writeBytes (p + 4) (bytesOf v 4)).writeBytes (p + 9)
    (bytesOf k 1)).writeBytes (p + 12) (bytesOf 1 4)).writeBytes (p + 0x20) (wordsBytes 8 (mailSlots 16 lam ++ mailSlots 4 eta)) := by
  have hpad (n : Nat) (l : List Nat) : ((List.range n).map fun i => bytesOf (l.getD i 0) 8).flatten = wordsBytes 8 (mailSlots n l) := by
    rw [wordsBytes, mailSlots, List.flatMap_def, List.map_map]
    rfl
  simp only [State.putMail, State.storeBytes_mem, hpad, wordsBytes_append]

/-- Bytes outside the entry stay. -/
theorem State.read_putMail_outside {q : Nat} (h : q < p ∨ p + 192 ≤ q) : (s.putMail p v k lam eta).mem.read q = s.mem.read q := by
  rw [State.putMail_mem]
  iterate 4 rw [Memory.read_writeBytes_outside _ _ _ _ (by simp only [length_bytesOf, length_wordsBytes, List.length_append, length_mailSlots]; omega)]

/-- The entry after a message is written into it: its damping and its tag stay. -/
theorem mailAt_putMail (hv : v < 2 ^ 32) (hk : k < 256) (hlam : ∀ x ∈ lam, x < 2 ^ 64) (heta : ∀ x ∈ eta, x < 2 ^ 64) :
    mailAt (s.putMail p v k lam eta) p =
      { mailAt s p with version := v, order := k, valid := true, lam := mailSlots 16 lam, eta := mailSlots 4 eta } := by
  have hmem := s.putMail_mem p v k lam eta
  generalize hW : wordsBytes 8 (mailSlots 16 lam ++ mailSlots 4 eta) = W at hmem
  have hlen : W.length = 160 := by simp [← hW]
  have hlenV := length_bytesOf v 4
  have hlenK := length_bytesOf k 1
  have hlen1 := length_bytesOf 1 4
  generalize s.putMail p v k lam eta = t at hmem ⊢
  have hholds : t.mem.Holds (p + 0x20) (wordsBytes 8 (mailSlots 16 lam) ++ wordsBytes 8 (mailSlots 4 eta)) := by
    rw [hmem, ← wordsBytes_append, hW]
    exact Memory.holds_writeBytes _ _ _
  obtain ⟨hL, hE⟩ := hholds.append
  have hlam' := Memory.Holds.words hL (mailSlots_lt (by omega) hlam)
  have heta' := Memory.Holds.words hE (mailSlots_lt (by omega) heta)
  simp only [length_mailSlots, length_wordsBytes, Nat.add_assoc p] at hlam' heta'
  have hversion : t.mem.readN (p + 4) 4 = v := by
    rw [hmem]
    iterate 3 rw [Memory.readN_writeBytes_outside (by omega)]
    rw [Memory.readN_writeBytes_same, Nat.mod_eq_of_lt (by omega)]
  have horder : t.mem.readN (p + 9) 1 = k := by
    rw [hmem]
    iterate 2 rw [Memory.readN_writeBytes_outside (by omega)]
    rw [Memory.readN_writeBytes_same, Nat.mod_eq_of_lt (by omega)]
  have hvalid : t.mem.readN (p + 12) 4 = 1 := by
    rw [hmem, Memory.readN_writeBytes_outside (by omega), Memory.readN_writeBytes_same, Nat.mod_eq_of_lt (by omega)]
  have hkept (o n : Nat) (h : 8 ≤ o ∧ o + n ≤ 9 ∨ 10 ≤ o ∧ o + n ≤ 12) : t.mem.readN (p + o) n = s.mem.readN (p + o) n := by
    rw [hmem]
    iterate 4 rw [Memory.readN_writeBytes_outside (by omega)]
  simp only [mailAt, Mail.of, hversion, horder, hvalid, hkept 8 1 (by omega), hkept 10 2 (by omega), hlam', heta']
  rfl

end

end Sys2Proof.Machine

/-! PROOFS. The merge unit (R52, R181, R182): an arriving message is folded into its mailbox, or dropped. -/

namespace Sys2Proof.Machine
open Sys2Proof Sys2Proof.Claims

/-! ### What the steps after a merge leave alone -/

/-- Memory, the messages in flight and the mailbox counts of every core are as they were. -/
structure KeepsMail (s t : State) : Prop where
  mem : t.mem = s.mem
  gmsg : t.gmsg = s.gmsg
  merges : ∀ k, (t.core k).merges = (s.core k).merges
  drops : ∀ k, (t.core k).drops = (s.core k).drops

namespace KeepsMail
variable {s t u : State}

theorem refl (s : State) : KeepsMail s s := ⟨rfl, rfl, fun _ => rfl, fun _ => rfl⟩

theorem trans (h₁ : KeepsMail s t) (h₂ : KeepsMail t u) : KeepsMail s u :=
  ⟨h₂.mem.trans h₁.mem, h₂.gmsg.trans h₁.gmsg, fun k => (h₂.merges k).trans (h₁.merges k), fun k => (h₂.drops k).trans (h₁.drops k)⟩

theorem of_cores (hm : t.mem = s.mem) (hg : t.gmsg = s.gmsg) (hc : t.cores = s.cores) : KeepsMail s t := by
  have hcore (k : Nat) : t.core k = s.core k := by
    rw [State.core, hc]
    rfl
  exact ⟨hm, hg, fun k => by rw [hcore], fun k => by rw [hcore]⟩

/-- A core written back with its mailbox counts as they were. -/
theorem setCore (s : State) (c : Nat) (k : Core) (hm : k.merges = (s.core c).merges) (hd : k.drops = (s.core c).drops) :
    KeepsMail s (s.setCore c k) := by
  refine ⟨rfl, rfl, fun i => ?_, fun i => ?_⟩ <;> by_cases hi : i = c
  · rw [hi, State.core_setCore_same, hm]
  · rw [State.core_setCore_ne _ _ hi]
  · rw [hi, State.core_setCore_same, hd]
  · rw [State.core_setCore_ne _ _ hi]

end KeepsMail

section
variable (s : State)

theorem State.countRecv_keepsMail (core g : Nat) : KeepsMail s (s.countRecv core g) := by
  unfold State.countRecv
  split
  · exact .refl s
  · exact .setCore s _ _ rfl rfl

theorem State.startGroup_keepsMail (g : Nat) : KeepsMail s (s.startGroup g) := by
  unfold State.startGroup
  split
  · exact .refl s
  · exact .of_cores rfl rfl rfl

/-- A trigger touches the pending handlers of its core (R182). -/
theorem State.trigger_keepsMail (core tag : Nat) (m : GaussMsg) (version : Nat) : KeepsMail s (s.trigger core tag m version) := by
  have hnow : KeepsMail s (s.clusterNow (clusterOf core)).2 := .of_cores rfl rfl rfl
  unfold State.trigger
  split
  · exact .refl s
  · split
    · exact .refl s
    · dsimp only
      split
      · exact hnow.trans (.setCore _ _ _ rfl rfl)
      · refine (hnow.trans (.setCore _ _ _ ?_ ?_)).trans (State.startGroup_keepsMail _ _)
        · rfl
        · rfl

/-- The answer to the sender goes to its context. -/
theorem State.opDone_keepsMail (x : Sender) (v : Option Word) : KeepsMail s (s.opDone x v) := by
  unfold State.opDone
  split
  · exact .refl s
  · exact .of_cores (State.setCtx_mem _ _ _) (State.setCtx_gmsg _ _ _) (State.setCtx_cores _ _ _)

/-! ### The merge (R181) -/

variable (m : GaussMsg)

/-- The mailbox that a message is for. -/
def State.mailPlace : Nat := s.mailbox m.core m.tenant m.index

/-- What a merge makes of an entry's message: the message itself where the entry holds none of its order, else the damped one (R52). -/
def Mail.mergedLam (b : Mail) : List Nat :=
  if !b.valid || b.order != m.order then m.lam else hermResult m.order (dampAll b.d (hermBits m.order b.lam) m.lam)
def Mail.mergedEta (b : Mail) : List Nat :=
  if !b.valid || b.order != m.order then m.eta else dampAll b.d (b.eta.take m.order) m.eta

/-- The message stands in its mailbox. -/
def State.mailPut : State :=
  let b := mailAt s (s.mailPlace m)
  s.putMail (s.mailPlace m) ((b.version + 1) % 2 ^ 32) m.order (b.mergedLam m) (b.mergedEta m)

/-- Besides, the merge is counted. -/
def State.mailed : State :=
  (s.mailPut m).modCore m.core fun k => { k with merges := k.merges.set 0 m.tenant (k.merges.get 0 m.tenant + 1) }

/-- The message is dropped and counted. -/
def State.mailDropped : State :=
  s.modCore m.core fun k => { k with drops := k.drops.set 0 m.tenant (Nat.min (k.drops.get 0 m.tenant + 1) (2 ^ 32 - 1)) }

/-- A merge drops the message, or puts it and triggers the mailbox's tag; either way the message is counted as received. -/
theorem State.merge_eq : s.merge m =
    (if m.order < 1 ∨ 4 < m.order ∨ mbCount ((s.core m.core).mbtab.get 0 m.tenant) ≤ m.index then s.mailDropped m
      else if bit (mailAt s (s.mailPlace m)).tag 15 then
        (s.mailed m).trigger m.core ((mailAt s (s.mailPlace m)).tag % 64) m (((mailAt s (s.mailPlace m)).version + 1) % 2 ^ 32)
      else s.mailed m).countRecv m.core m.group := rfl

variable {s m}

theorem State.merge_of_noMailbox (h : m.order < 1 ∨ 4 < m.order ∨ mbCount ((s.core m.core).mbtab.get 0 m.tenant) ≤ m.index) :
    KeepsMail (s.mailDropped m) (s.merge m) := by
  rw [State.merge_eq, if_pos h]
  exact State.countRecv_keepsMail _ _ _

theorem State.merge_of_mailbox (h1 : 1 ≤ m.order) (h4 : m.order ≤ 4) (hi : m.index < mbCount ((s.core m.core).mbtab.get 0 m.tenant)) :
    KeepsMail (s.mailed m) (s.merge m) := by
  rw [State.merge_eq, if_neg (by omega)]
  split
  · exact (State.trigger_keepsMail _ _ _ _ _).trans (State.countRecv_keepsMail _ _ _)
  · exact State.countRecv_keepsMail _ _ _

/-- The oldest message in flight arrives: it is merged, and its sender's context has its answer. -/
theorem execGmsgMerge_first {from_ : Option Sender} {rest : List (GaussMsg × Option Sender)} (h : s.gmsg = (m, from_) :: rest)
    (hcore : m.core < 96) : ∃ t, exec (.gmsgMerge (.sent 0)) s = .next t ∧ KeepsMail (({ s with gmsg := rest } : State).merge m) t := by
  have harm : exec (.gmsgMerge (.sent 0)) s = execGmsgMerge (.sent 0) s := rfl
  rw [harm]
  cases from_ with
  | none => exact ⟨_, by simp [execGmsgMerge, h, hcore], .refl _⟩
  | some y => exact ⟨_, by simp [execGmsgMerge, h, hcore], State.opDone_keepsMail _ y none⟩

/-! ### The entry after a merge (R51, R52) -/

theorem Mail.mergedLam_lt {b : Mail} (h : ∀ x ∈ m.lam, x < 2 ^ 64) : ∀ x ∈ b.mergedLam m, x < 2 ^ 64 := by
  unfold Mail.mergedLam
  split
  · exact h
  · exact hermResult_lt dampAll_lt

theorem Mail.mergedEta_lt {b : Mail} (h : ∀ x ∈ m.eta, x < 2 ^ 64) : ∀ x ∈ b.mergedEta m, x < 2 ^ 64 := by
  unfold Mail.mergedEta
  split
  · exact h
  · exact dampAll_lt

theorem length_mergedLam {b : Mail} (h : m.lam.length = m.order * m.order) : (b.mergedLam m).length = m.order * m.order := by
  unfold Mail.mergedLam
  split
  · exact h
  · exact length_hermResult _ _

theorem length_mergedEta {b : Mail} (hb : b.eta.length = 4) (h4 : m.order ≤ 4) (h : m.eta.length = m.order) :
    (b.mergedEta m).length = m.order := by
  unfold Mail.mergedEta
  split
  · exact h
  · simp only [dampAll, List.length_zipWith, List.length_take, hb, h]
    omega

theorem Mail.merged_of_first {b : Mail} (h : b.valid = false ∨ b.order ≠ m.order) : (b.mergedLam m, b.mergedEta m) = (m.lam, m.eta) := by
  have hfirst : (!b.valid || b.order != m.order) = true := by simpa using h
  rw [Mail.mergedLam, Mail.mergedEta, if_pos hfirst, if_pos hfirst]

theorem Mail.merged_of_same {b : Mail} (hv : b.valid = true) (ho : b.order = m.order) : (b.mergedLam m, b.mergedEta m) =
    (hermResult m.order (dampAll b.d (hermBits m.order b.lam) m.lam), dampAll b.d (b.eta.take m.order) m.eta) := by
  have hsame : ¬(!b.valid || b.order != m.order) = true := by simp [hv, ho]
  rw [Mail.mergedLam, Mail.mergedEta, if_neg hsame, if_neg hsame]

theorem mailAt_congr {s t : State} (h : t.mem = s.mem) (p : Nat) : mailAt t p = mailAt s p := by rw [mailAt, mailAt, h]

theorem mailAt_mailPut (h4 : m.order ≤ 4) (hx : ∀ x ∈ m.lam ++ m.eta, x < 2 ^ 64) : mailAt (s.mailPut m) (s.mailPlace m) =
    { mailAt s (s.mailPlace m) with
      version := ((mailAt s (s.mailPlace m)).version + 1) % 2 ^ 32, order := m.order, valid := true
      lam := mailSlots 16 ((mailAt s (s.mailPlace m)).mergedLam m), eta := mailSlots 4 ((mailAt s (s.mailPlace m)).mergedEta m) } :=
  mailAt_putMail s _ _ _ _ _ (Nat.mod_lt _ (by omega)) (by omega) (Mail.mergedLam_lt fun x hm => hx x (List.mem_append_left _ hm))
    (Mail.mergedEta_lt fun x hm => hx x (List.mem_append_right _ hm))

theorem State.mailPut_storeEffect : StoreEffect s (s.mailPut m) := s.putMail_storeEffect _ _ _ _ _

@[simp] theorem State.mailed_mem : (s.mailed m).mem = (s.mailPut m).mem := by
  rw [State.mailed, State.modCore, State.setCore_mem]
@[simp] theorem State.mailed_gmsg : (s.mailed m).gmsg = (s.mailPut m).gmsg := by
  rw [State.mailed, State.modCore, State.setCore_gmsg]

theorem State.read_mailPut_outside {q : Nat} (h : q < s.mailPlace m ∨ s.mailPlace m + 192 ≤ q) : (s.mailPut m).mem.read q = s.mem.read q :=
  s.read_putMail_outside (s.mailPlace m) _ _ _ _ h

theorem State.merges_mailed : ((s.mailed m).core m.core).merges.get 0 m.tenant = (s.core m.core).merges.get 0 m.tenant + 1 := by
  have hcore : (s.mailPut m).core m.core = s.core m.core := State.mailPut_storeEffect.core_eq _
  rw [State.mailed, State.modCore, State.core_setCore_same, FMap.get_set_same, hcore]

theorem State.drops_mailDropped : ((s.mailDropped m).core m.core).drops.get 0 m.tenant =
    min ((s.core m.core).drops.get 0 m.tenant + 1) (2 ^ 32 - 1) := by
  rw [State.mailDropped, State.modCore, State.core_setCore_same, FMap.get_set_same]

end

theorem messageMerges : MessageMerges := by
  rintro s m from_ rest p count hq hcore rfl rfl
  obtain ⟨t, hexec, hkeeps⟩ := execGmsgMerge_first hq hcore
  -- The queue of messages aside, the state that merges is s.
  generalize hw : ({ s with gmsg := rest } : State) = w at hkeeps
  have hgmsg : w.gmsg = rest := by rw [← hw]
  have hmem : w.mem = s.mem := by rw [← hw]
  have hcores (k : Nat) : w.core k = s.core k := by
    rw [← hw]
    rfl
  have hplace : w.mailPlace m = s.mailbox m.core m.tenant m.index := by
    rw [← hw]
    rfl
  have hbefore := mailAt_congr hmem (s.mailbox m.core m.tenant m.index)
  refine ⟨fun h1 h4 hi hlam heta hx => ?merged, fun hno => ?dropped⟩
  case merged =>
    have hall : KeepsMail (w.mailed m) t := (State.merge_of_mailbox h1 h4 (by rwa [hcores])).trans hkeeps
    have hentry := mailAt_mailPut (s := w) h4 hx
    rw [hplace, hbefore, ← mailAt_congr (s := w.mailPut m) (hall.mem.trans State.mailed_mem)] at hentry
    have hmessage := Mail.message_of_slots (m := mailAt t (s.mailbox m.core m.tenant m.index)) h4 (by rw [hentry]) (by rw [hentry])
      (by rw [hentry]) (by rw [hentry]) (length_mergedLam (by rw [hlam, Nat.pow_two])) (length_mergedEta (by simp [mailAt, Mail.of]) h4 heta)
    refine ⟨t, hexec, ?_, by rw [hentry], by rw [hentry], by rw [hentry], by rw [hentry], by rw [hentry], fun hfirst => ?_, fun hv ho => ?_,
      ?_, fun q hq => ?_⟩
    · rw [hall.gmsg, State.mailed_gmsg, State.mailPut_storeEffect.gmsg_eq, hgmsg]
    · rw [hmessage, Mail.merged_of_first hfirst]
    · rw [hmessage, Mail.merged_of_same hv ho]
    · rw [hall.merges, State.merges_mailed, hcores]
    · rw [hall.mem, State.mailed_mem, State.read_mailPut_outside (by rwa [hplace]), hmem]
  case dropped =>
    have hall : KeepsMail (w.mailDropped m) t := (State.merge_of_noMailbox (by rw [hcores]; omega)).trans hkeeps
    refine ⟨t, hexec, hall.gmsg.trans hgmsg, hall.mem.trans hmem, ?_⟩
    rw [hall.drops, State.drops_mailDropped, hcores]

end Sys2Proof.Machine

/-! PROOFS. The instructions of page 0x48 that read mailboxes or send messages, through the vector queue (R183 to R187): with nothing else in
flight such an instruction enters the queue, starts and completes, one after the other. -/

namespace Sys2Proof.Machine
open Sys2Proof Sys2Proof.Claims

/-- The instructions of page 0x48 whose effect lies in mailboxes and messages. -/
inductive IsMailOp : Instr → Prop
  | gsend (d : SReg) (vp : VReg) (b : SReg) : IsMailOp (.gsend d vp b)
  | gsendc (d : SReg) (vp : VReg) (b : SReg) : IsMailOp (.gsendc d vp b)
  | gld (vp : VReg) (a b : SReg) : IsMailOp (.gld vp a b)
  | gsum (vp : VReg) (a : SReg) : IsMailOp (.gsum vp a)
  | gsumx (vp : VReg) (a : SReg) : IsMailOp (.gsumx vp a)

theorem IsMailOp.vmemOf {i : Instr} (h : IsMailOp i) : vmemOf i = none := by cases h <;> rfl

/-! ### Entry (R176) -/

/-- The issuing context once an instruction has entered its empty queue. -/
def State.enteredCtx (s : State) (e : VEntry) : Ctx :=
  { s.curCtx with vq := [{ e with started := false }], ord := s.curCtx.ord + 1, pc := s.nextPc }

def State.entered (s : State) (e : VEntry) : State := s.setCur (s.enteredCtx e)

section
variable {s : State} {i : Instr} {reads dst : List SReg} {a b : SReg}

theorem State.currentSet_entered (h : Quiet s) (e : VEntry) : CurrentSet s (s.entered e) (s.enteredCtx e) :=
  (CurrentSet.refl s).setCtx h.cur (s.enteredCtx e)

/-- With nothing in flight an instruction whose checks pass enters the queue. -/
theorem State.vEnter_of_quiet (h : Quiet s) {sa sb : Ctx → Word} {legal : Ctx → Bool} {check : Ctx → Option TrapInfo}
    (hlegal : legal s.curCtx = true) (hcheck : check s.curCtx = none) :
    s.vEnter i reads dst sa sb legal check = .next (s.entered (entryOf i s.curCtx (sa s.curCtx) (sb s.curCtx))) := by
  have hbusy (r : SReg) : s.curCtx.busy r = false := by simp [Ctx.busy, h.loads, h.queue, h.ops]
  simp [State.vEnter, hbusy, Ctx.vlPending, h.queue, h.guess, hlegal, hcheck, badRead_of_quiet h, State.entered, State.enteredCtx, entryOf]

theorem firstTrap_eq_none {xs : List (Option TrapInfo)} (h : ∀ x ∈ xs, x = none) : firstTrap xs = none := by
  induction xs with
  | nil => rfl
  | cons x xs ih =>
    obtain ⟨rfl, hxs⟩ := List.forall_mem_cons.1 h
    exact ih hxs

theorem pairCheck_eq_none {c : Ctx} (h : c.vgrp.toNat ^ 2 ≤ c.vbits / 64) : pairCheck c = none := by
  rw [Nat.pow_two] at h
  exact if_pos (decide_eq_true h)

theorem State.gaussEnter_of_quiet (h : Quiet s) (hk : s.curCtx.vgrp.toNat ^ 2 ≤ s.curCtx.vbits / 64)
    {checks : Ctx → List (Option TrapInfo)} (hchecks : ∀ x ∈ checks s.curCtx, x = none) :
    s.gaussEnter i reads a b dst checks = .next (s.entered (entryOf i s.curCtx (s.curCtx.reg a) (s.curCtx.reg b))) :=
  State.vEnter_of_quiet h rfl (firstTrap_eq_none (List.forall_mem_cons.2 ⟨pairCheck_eq_none hk, hchecks⟩))

theorem illegalUnless_true {ok : Bool} (h : ok = true) (v : Word) : illegalUnless ok v = none := if_pos h

end

/-! ### Start (R84, R111) -/

section
variable {s t : State} {cx : Nat} {c : Ctx} {e : VEntry} {acc : List ElemAccess} {sends : Bool}

/-- With no older entry, fence or acquire nothing holds such an instruction back. -/
theorem State.not_vHeld_mail (hi : IsMailOp e.ins) (hvq : c.vq = [e]) (hfences : c.fences = []) (hloads : c.loads = []) :
    t.vHeld cx c e = false := by
  have hfenced (cls : Nat) : t.fenced cx c e.ord cls = false := by simp [State.fenced, hfences]
  have hacquire : c.olderAcquire e.ord = false := by simp [Ctx.olderAcquire, hloads]
  have holder : (c.vq.any fun x => x.ord < e.ord) = false := by simp [hvq]
  have hwaits : c.startWaits e = false := by simp [Ctx.startWaits, hvq]
  unfold State.vHeld
  simp only [hfenced, hacquire, holder, hwaits]
  generalize e.ins = i at hi
  cases hi <;> simp [onSchur, readsBook]

theorem State.probe_of_good_beats (h : c.vecEcc = []) : t.probe cx c e = t.probeOwn cx c e := by
  simp [State.probe, VEntry.sourceError, h]

/-- An entry alone in the queue passes its probe and starts. -/
theorem execVectorStart_passes (hafter : e.after = 0) (hc : t.ctx cx = { c with vq := [{ e with started := false }] }) (hundo : c.undo = [])
    (hahead : c.ahead = []) (hcnt : (t.ctx cx).cntEn < 255) (hheld : t.vHeld cx (t.ctx cx) { e with started := false } = false)
    (hprobe : t.probe cx (t.ctx cx) { e with started := false } = (.pass acc none sends, t)) : execVectorStart cx t =
      .next (t.setCtx cx { c with
        vq := [{ e with started := true, accesses := acc, cut := none, sends := sends, after := 0 }], instret := c.instret + 1 }) := by
  have hfirst : (t.ctx cx).vq.find? (fun e => !e.started) = some { e with started := false } := by rw [hc]; simp
  have hroom : (sends && VEntry.isProbedSend { e with started := false } && decide (255 ≤ (t.ctx cx).cntEn)) = false := by
    rw [decide_eq_false (by omega), Bool.and_false]
  simp only [execVectorStart, hfirst, hheld, hprobe, hroom]
  simp [State.modCtx, hc, Ctx.aheadHit, hahead, Ctx.setEntry, hafter]
  exact congrArg (t.setCtx cx) (Ctx.freeUndo_of_started (by simp) (by exact hundo) rfl)

/-! ### Completion (R110, R194, R225) -/

/-- Reading at a place leaves no trace: its home is reached, and the host holds no line over it (R385, R420). -/
def State.Unnoticed (s : State) (a : ElemAccess) : Prop := ∀ t : State, t.host = s.host → t.snoopRead a.place a.size = t

/-- The arrays of the cores lie above every line that the host can hold. -/
theorem State.unnoticed_of_core (h : LinesBelow s) {a : ElemAccess} (hp : 2 ^ 48 ≤ a.place) : s.Unnoticed a := by
  intro t ht
  have hmap : (t.host.snoop.map fun x => if overlaps (64 * x.1) 64 a.place a.size then (x.1, false) else x) = t.host.snoop := by
    refine (List.map_congr_left fun x hx => if_neg ?_).trans (List.map_id _)
    have hbelow := h.held x (ht ▸ hx)
    simp only [overlaps, Bool.and_eq_true, decide_eq_true_eq]
    omega
  unfold State.snoopRead
  rw [t.touch_ready _ _ (t.unready_pad _ _ hp)]
  dsimp only
  split
  · rfl
  · rw [hmap]

theorem State.foldl_snoopRead_unnoticed (ht : t.host = s.host) (h : ∀ a ∈ acc, s.Unnoticed a) :
    acc.foldl (fun s a => s.snoopRead a.place a.size) t = t := by
  induction acc with
  | nil => rfl
  | cons a acc ih =>
    obtain ⟨ha, hacc⟩ := List.forall_mem_cons.1 h
    rw [List.foldl_cons, ha t ht, ih hacc]

/-- Nothing older of the context is in the way of its accesses. -/
theorem State.accessDue_alone (hloads : c.loads = []) (hstores : c.stores = []) (hmx : ∀ m, t.mxOf cx c = some m → m.queue = []) (o : Nat)
    (write : Bool) (acc : List ElemAccess) : t.accessDue cx c o write acc = true := by
  simp [State.accessDue, Ctx.olderLoad, hloads, hstores, State.not_mxBlocks hmx]

theorem State.completeDue_mail (hi : IsMailOp e.ins) (hloads : c.loads = []) (hstores : c.stores = [])
    (hmx : ∀ m, t.mxOf cx c = some m → m.queue = []) : t.completeDue cx c e = true := by
  have hdue (w : Bool) (acc : List ElemAccess) := State.accessDue_alone hloads hstores hmx e.ord w acc
  unfold State.completeDue
  generalize e.ins = i at hi
  cases hi <;> simp [hdue]

/-- An entry that has read nothing yet has all its accesses to read. -/
theorem VEntry.unread_of_fresh (h : e.got = []) : e.unread = e.accesses := by
  simp [VEntry.unread, h]

/-- The entry completes: its effect, and the queue is empty. -/
theorem execVectorComplete_mail (hi : IsMailOp e.ins) (hstarted : e.started = true) (hgot : e.got = []) (hc : t.ctx cx = c) (hvq : c.vq = [e])
    (hloads : c.loads = []) (hstores : c.stores = []) (hmx : ∀ m, t.mxOf cx c = some m → m.queue = [])
    (ht : t.host = s.host) (hacc : ∀ a ∈ e.accesses, s.Unnoticed a) (hecc : ((t.vEffect cx c e).ctx cx).vecEcc = []) :
    execVectorComplete cx t = .next ((t.vEffect cx c e).modCtx cx fun x => { x with vq := x.vq.tail }) := by
  have hlose (xs : List ElemAccess) : e.lose c xs = e := by simp [VEntry.lose, hi.vmemOf]
  have hreads : (if e.reads then e.unread else e.accesses) = e.accesses := by rw [VEntry.unread_of_fresh hgot, ite_self]
  have hbeats : (((t.vEffect cx c e).ctx cx).clearBeats (e.writes c)).poisonBeats e = (t.vEffect cx c e).ctx cx := by
    simp [Ctx.clearBeats, Ctx.poisonBeats, hecc, hi.vmemOf]
  have hdue : (e.started && t.completeDue cx c e) = true := by rw [hstarted, State.completeDue_mail hi hloads hstores hmx]; rfl
  simp only [execVectorComplete, hc, hvq, hdue, hreads, State.foldl_snoopRead_unnoticed ht hacc, hlose, if_true, State.modCtx, hbeats]

end

/-! ### The run (R84, R110) -/

/-- What the queue holds of an instruction that has started with these accesses. -/
def State.startedEntry (s : State) (i : Instr) (sa sb : Word) (acc : List ElemAccess) (sends : Bool) : VEntry :=
  { entryOf i s.curCtx sa sb with accesses := acc, sends := sends }

section
variable {s t : State} {i : Instr} {c : Ctx} {sa sb : Word} {acc : List ElemAccess} {sends : Bool}

theorem CurrentSet.host (h : CurrentSet s t c) : t.host = s.host := by rw [h.fields]

/-- Such an instruction enters, starts and completes. -/
theorem runs_mail (h : Quiet s) (hi : IsMailOp i) (henter : exec i s = .next (s.entered (entryOf i s.curCtx sa sb)))
    (hprobe : (s.entered (entryOf i s.curCtx sa sb)).probeOwn s.sched.cur (s.enteredCtx (entryOf i s.curCtx sa sb))
      { entryOf i s.curCtx sa sb with started := false } = (.pass acc none sends, s.entered (entryOf i s.curCtx sa sb)))
    (hacc : ∀ a ∈ acc, s.Unnoticed a) : ∃ u, CurrentSet s u (s.movingCtx (s.startedEntry i sa sb acc sends)) ∧
      ∀ w d, u.vEffect s.sched.cur (s.movingCtx (s.startedEntry i sa sb acc sends)) (s.startedEntry i sa sb acc sends) = w →
        w.ctx s.sched.cur = d → d.vecEcc = [] → Runs i s (w.setCtx s.sched.cur { d with vq := d.vq.tail }) := by
  have hentered := State.currentSet_entered h (entryOf i s.curCtx sa sb)
  have hstarted := hentered.setCtx h.cur (s.movingCtx (s.startedEntry i sa sb acc sends))
  have hcnt : (s.enteredCtx (entryOf i s.curCtx sa sb)).cntEn < 255 := by
    simp only [Ctx.cntEn, State.enteredCtx, h.ops, List.filter_nil, List.length_nil]
    exact (Nat.add_le_add_left (List.length_filter_le _ _) 0).trans_lt (by simp)
  have hstart := execVectorStart_passes (e := entryOf i s.curCtx sa sb) (c := { s.curCtx with ord := s.curCtx.ord + 1, pc := s.nextPc }) rfl
    hentered.ctx_cur h.undo h.ahead (by rwa [hentered.ctx_cur])
    (by rw [hentered.ctx_cur]; exact State.not_vHeld_mail hi rfl h.fences h.loads)
    (by rw [hentered.ctx_cur, State.probe_of_good_beats (by exact h.beats), hprobe])
  refine ⟨_, hstarted, fun w d hw hctx hbeats => ⟨_, _, henter, hstart, ?_⟩⟩
  have hcomplete := execVectorComplete_mail (e := s.startedEntry i sa sb acc sends) (s := s) hi rfl rfl hstarted.ctx_cur rfl h.loads h.stores
    (fun m hm => h.matrix m ((hstarted.mxOf h.cur rfl).symm.trans hm)) hstarted.host hacc (by rw [hw, hctx, hbeats])
  rw [hw, State.modCtx, hctx] at hcomplete
  exact hcomplete

end

end Sys2Proof.Machine

/-! PROOFS. GLD, GSUM and GSUMX (R186, R187): the mailboxes they name are read as memory holds them, or the bounds check fails. -/

namespace Sys2Proof.Machine
open Sys2Proof Sys2Proof.Claims

/-! ### The mailboxes of the issuing context (R178, R192) -/

/-- The access of mailbox i of the issuing context's table. -/
def State.mailAccess (s : State) (i : Nat) : ElemAccess :=
  { idx := i, place := s.mailbox (coreOf s.sched.cur) (s.tenantOf s.curCtx) i, size := 192, cached := none }

/-- The mailbox that it reads. -/
def State.mailHeld (s : State) (i : Nat) : Mail := mailAt s (s.mailAccess i).place

/-- COUNT of the issuing context's table. -/
def State.mailRoom (s : State) : Nat := mbCount ((s.core (coreOf s.sched.cur)).mbtab.get 0 (s.tenantOf s.curCtx))

section
variable {s t u : State} {c : Ctx} {e : VEntry} {p cx : Nat} {is : List Nat}

theorem corePlace_ge (core o : Nat) : 2 ^ 48 ≤ corePlace core o := by
  unfold corePlace
  omega

theorem State.mailAccess_ge (s : State) (i : Nat) : 2 ^ 48 ≤ (s.mailAccess i).place := corePlace_ge _ _

theorem CurrentSet.tenantOf (h : CurrentSet s t c) (hjob : c.job = s.curCtx.job) : t.tenantOf c = s.tenantOf s.curCtx := by
  have hjobs : t.job? = s.job? := funext fun k => by
    rw [h.fields]
    rfl
  rw [State.tenantOf, State.tenantOf, State.jobOf, State.jobOf, hjob, hjobs]

theorem CurrentSet.mailAccesses (h : CurrentSet s t c) (hjob : c.job = s.curCtx.job) (is : List Nat) :
    t.mailAccesses s.sched.cur c is = is.map s.mailAccess := by
  have hplace (i : Nat) : t.mailbox (coreOf s.sched.cur) (s.tenantOf s.curCtx) i = (s.mailAccess i).place := by
    rw [h.fields]
    rfl
  refine List.map_congr_left fun i _ => ?_
  rw [h.tenantOf hjob, hplace]
  rfl

theorem CurrentSet.mailCount (h : CurrentSet s t c) (hjob : c.job = s.curCtx.job) : t.mailCount s.sched.cur c = s.mailRoom := by
  rw [State.mailCount, State.mailRoom, h.tenantOf hjob, h.core]

/-- No copy that differs from its home lies over the arrays of the cores. -/
theorem LinesBelow.clean (h : LinesBelow s) (hp : 2 ^ 48 ≤ p) : s.stale.find? (p / 64) = none := by
  cases hd : s.stale.find? (p / 64) with
  | none => rfl
  | some d =>
    have := h.stale _ d hd
    omega

/-- A context without pending stores reads in its core's array what memory holds. -/
theorem State.ownBytes_of_core (hl : LinesBelow s) (hstale : u.stale = s.stale) (hstores : c.stores = []) (hp : 2 ^ 48 ≤ p) (o n : Nat) :
    u.ownBytes c o none p n = u.mem.readN p n := by
  rw [State.ownBytes_eq_bytesAt hstores, State.bytesAt_eq_readN]
  intro _ i _
  rw [hstale]
  exact LinesBelow.clean hl (by omega)

theorem CurrentSet.readOf_mail (hu : CurrentSet s u c) (hl : LinesBelow s) (hstores : c.stores = []) (hgot : e.got = []) (i : Nat) :
    Mail.ofBytes (u.readOf c e (s.mailAccess i)) = s.mailHeld i := by
  have hmem : u.mem = s.mem := by rw [hu.fields]
  have hstale : u.stale = s.stale := by rw [hu.fields]
  have hread : u.readOf c e (s.mailAccess i) = u.ownBytes c e.ord none (s.mailAccess i).place 192 := by
    rw [State.readOf, hgot]
    rfl
  rw [hread, State.ownBytes_of_core hl hstale hstores (s.mailAccess_ge i), Mail.ofBytes_readN]
  exact mailAt_congr hmem _

theorem CurrentSet.readOf_mails (hu : CurrentSet s u c) (hl : LinesBelow s) (hstores : c.stores = []) (hgot : e.got = [])
    (hacc : e.accesses = is.map s.mailAccess) : (e.accesses.map fun a => Mail.ofBytes (u.readOf c e a)) = is.map s.mailHeld := by
  rw [hacc, List.map_map]
  exact List.map_congr_left fun i _ => hu.readOf_mail hl hstores hgot i

/-- Without errors in memory the mailboxes are to be read (R428). -/
theorem State.probeMail_of_clean (h : t.ecc = []) : t.probeMail cx c e is = .pass (t.mailAccesses cx c is) none false := by
  have hgood : (t.mailAccesses cx c is).find? (fun a => t.eccAt a.place a.size) = none := List.find?_eq_none.2 (by simp [State.eccAt, h])
  simp only [State.probeMail, State.probeData, hgood]

/-! ### Effects -/

variable {vp : VReg} {a b : SReg}

theorem State.vEffect_gld {x : Mail} (he : e.ins = .gld vp a b) (hx : (e.accesses.map fun a => Mail.ofBytes (u.readOf c e a)) = [x]) :
    u.vEffect cx c e = u.setCtx cx ((c.putPair vp (x.message e.vgrp).1 (x.message e.vgrp).2).setReg b x.status) := by
  simp only [State.vEffect, he, hx, List.map_cons, List.head?_cons]

/-- GSUM, or with cavity GSUMX. -/
def sumOp (cavity : Bool) (vp : VReg) (a : SReg) : Instr := if cavity then .gsumx vp a else .gsum vp a

theorem isMailOp_sumOp (cavity : Bool) (vp : VReg) (a : SReg) : IsMailOp (sumOp cavity vp a) := by
  cases cavity
  · exact .gsum vp a
  · exact .gsumx vp a

theorem State.vEffect_sumOp {cavity : Bool} {xs : List Mail} (he : e.ins = sumOp cavity vp a)
    (hx : (e.accesses.map fun a => Mail.ofBytes (u.readOf c e a)) = xs) : u.vEffect cx c e =
      u.setCtx cx ((c.putPair vp (gsumOf vp (xs.map (·.message e.vgrp)) e c).lam (gsumOf vp (xs.map (·.message e.vgrp)) e c).eta).addFlags
        (gsumOf vp (xs.map (·.message e.vgrp)) e c).fl) := by
  cases cavity <;> simp [State.vEffect, he, sumOp, hx, Ctx.putResult]

/-- Where no register holds an error, a register written is all that changes. -/
theorem Ctx.setReg_of_good (h : c.badRegs = []) (r : SReg) (v : Word) :
    c.setReg r v = { c with sregs := if r.val = 0 then c.sregs else c.sregs.set 0 r.val v } := by
  have herase : c.badRegs.erase r.val = c.badRegs := by rw [h]; rfl
  unfold Ctx.setReg
  rw [herase]
  split <;> rfl

end

/-! ### The runs -/

section
variable {s u : State} {i : Instr} {e : VEntry} {sa sb : Word} {is : List Nat} {vp : VReg} {a b : SReg}

/-- A run of an instruction whose effect is a context in which at most the vector registers, the scalar registers and the flags are others. -/
theorem contextResult_of_effect (h : Quiet s) (hu : CurrentSet s u (s.movingCtx e)) {d : Ctx} {eff : Ctx → Ctx}
    (hruns : ∀ w d, u.vEffect s.sched.cur (s.movingCtx e) e = w → w.ctx s.sched.cur = d → d.vecEcc = [] →
      Runs i s (w.setCtx s.sched.cur { d with vq := d.vq.tail }))
    (heffect : u.vEffect s.sched.cur (s.movingCtx e) e = u.setCtx s.sched.cur d)
    (hd : d = { s.movingCtx e with vregs := d.vregs, sregs := d.sregs, fflags := d.fflags })
    (hfile : SameFile (eff s.curCtx) d) : ContextResult i s eff := by
  have hset := hu.setCtx h.cur d
  have hlast := hset.setCtx h.cur { d with vq := d.vq.tail }
  refine ⟨_, hruns _ _ heffect hset.ctx_cur (by rw [hd]; exact h.beats), ?_, hlast.ctx.symm ▸ hfile⟩
  rw [hd] at hlast ⊢
  exact vectorFrame_of_currentSet h hlast rfl rfl rfl rfl

/-- An instruction that reads mailboxes of the table runs. -/
theorem runs_mailReads (h : Quiet s) (hi : IsMailOp i) (henter : exec i s = .next (s.entered (entryOf i s.curCtx sa sb)))
    (hprobe : ∀ (t : State) (c : Ctx), c.job = s.curCtx.job → t.mailCount s.sched.cur c = s.mailRoom →
      t.probeOwn s.sched.cur c { entryOf i s.curCtx sa sb with started := false } =
        (t.probeMail s.sched.cur c { entryOf i s.curCtx sa sb with started := false } is, t))
    (hecc : s.ecc = []) (hl : LinesBelow s) :
    ∃ u, CurrentSet s u (s.movingCtx (s.startedEntry i sa sb (is.map s.mailAccess) false)) ∧
      ∀ w d, u.vEffect s.sched.cur (s.movingCtx (s.startedEntry i sa sb (is.map s.mailAccess) false))
          (s.startedEntry i sa sb (is.map s.mailAccess) false) = w →
        w.ctx s.sched.cur = d → d.vecEcc = [] → Runs i s (w.setCtx s.sched.cur { d with vq := d.vq.tail }) := by
  have hentered := State.currentSet_entered h (entryOf i s.curCtx sa sb)
  have hclean : (s.entered (entryOf i s.curCtx sa sb)).ecc = [] := by rw [hentered.fields]; exact hecc
  refine runs_mail h hi henter ?_ fun x hx => ?_
  · rw [hprobe _ (s.enteredCtx (entryOf i s.curCtx sa sb)) rfl (hentered.mailCount rfl), State.probeMail_of_clean hclean, hentered.mailAccesses rfl]
  · obtain ⟨j, -, rfl⟩ := List.mem_map.1 hx
    exact State.unnoticed_of_core hl (s.mailAccess_ge j)

/-- An instruction with one check of its scalar operand. -/
theorem State.gaussEnter_of_check (h : Quiet s) (hk : s.curCtx.vgrp.toNat ^ 2 ≤ s.curCtx.vbits / 64) {ok : Word → Bool}
    (ha : ok (s.curCtx.reg a) = true) (i : Instr) (dst : List SReg) :
    s.gaussEnter i [a] a 0 dst (fun c => [illegalUnless (ok (c.reg a)) (c.reg a)]) =
      .next (s.entered (entryOf i s.curCtx (s.curCtx.reg a) (s.curCtx.reg 0))) :=
  State.gaussEnter_of_quiet h hk fun x hx => by
    rw [List.mem_singleton.1 hx]
    exact illegalUnless_true ha _

theorem execGld_of_quiet (h : Quiet s) (hk : s.curCtx.vgrp.toNat ^ 2 ≤ s.curCtx.vbits / 64) (ha : (s.curCtx.reg a).toNat < 1024)
    (vp : VReg) (b : SReg) : exec (.gld vp a b) s =
      .next (s.entered (entryOf (.gld vp a b) s.curCtx (s.curCtx.reg a) (s.curCtx.reg 0))) :=
  State.gaussEnter_of_check h hk (ok := fun v => decide (v.toNat < 1024)) (decide_eq_true ha) _ _

theorem execSumOp_of_quiet {cavity : Bool} (h : Quiet s) (hk : s.curCtx.vgrp.toNat ^ 2 ≤ s.curCtx.vbits / 64)
    (ha : rangeOk cavity (s.curCtx.reg a) = true) (vp : VReg) : exec (sumOp cavity vp a) s =
      .next (s.entered (entryOf (sumOp cavity vp a) s.curCtx (s.curCtx.reg a) (s.curCtx.reg 0))) := by
  cases cavity
  · exact State.gaussEnter_of_check h hk (ok := rangeOk false) ha _ _
  · exact State.gaussEnter_of_check h hk (ok := rangeOk true) ha _ _

theorem gld_reads (h : Quiet s) (hk : s.curCtx.vgrp.toNat ^ 2 ≤ s.curCtx.vbits / 64) (hecc : s.ecc = []) (hl : LinesBelow s)
    (ha : (s.curCtx.reg a).toNat < 1024) (hroom : (s.curCtx.reg a).toNat < s.mailRoom) (vp : VReg) (b : SReg) :
    ContextResult (.gld vp a b) s fun c =>
      let x := s.mailHeld (c.reg a).toNat
      (c.putPair vp (x.message c.vgrp.toNat).1 (x.message c.vgrp.toNat).2).setReg b x.status := by
  obtain ⟨u, hu, hruns⟩ := runs_mailReads (is := [(s.curCtx.reg a).toNat]) h (.gld vp a b) (execGld_of_quiet h hk ha vp b)
    (fun t c _ hcount => by simp [State.probeOwn, entryOf, hcount, hroom]) hecc hl
  have hmails := hu.readOf_mails (is := [(s.curCtx.reg a).toNat]) (e := s.startedEntry (.gld vp a b) (s.curCtx.reg a) (s.curCtx.reg 0)
    ([(s.curCtx.reg a).toNat].map s.mailAccess) false) hl (by exact h.stores) rfl rfl
  have heffect := State.vEffect_gld (cx := s.sched.cur) rfl hmails
  refine contextResult_of_effect h hu hruns heffect ?_ ?_
  · rw [Ctx.setReg_of_good (by exact h.errors)]
    rfl
  · rw [Ctx.setReg_of_good (by exact h.errors), Ctx.setReg_of_good (by exact h.errors)]
    exact ⟨rfl, rfl, rfl, rfl, rfl, rfl, rfl⟩

theorem sumOp_reads {cavity : Bool} (h : Quiet s) (hk : s.curCtx.vgrp.toNat ^ 2 ≤ s.curCtx.vbits / 64) (hecc : s.ecc = []) (hl : LinesBelow s)
    (ha : rangeOk cavity (s.curCtx.reg a) = true) (hroom : rangeFirst (s.curCtx.reg a) + rangeCnt (s.curCtx.reg a) ≤ s.mailRoom) (vp : VReg) :
    ContextResult (sumOp cavity vp a) s fun c =>
      let e := entryOf (sumOp cavity vp a) c (c.reg a) (c.reg 0)
      let r := gsumOf vp ((rangeIdx cavity (c.reg a)).map fun i => (s.mailHeld i).message c.vgrp.toNat) e c
      (c.putPair vp r.lam r.eta).addFlags r.fl := by
  obtain ⟨u, hu, hruns⟩ := runs_mailReads (is := rangeIdx cavity (s.curCtx.reg a)) h (isMailOp_sumOp cavity vp a)
    (execSumOp_of_quiet h hk ha vp) (fun t c _ hcount => by cases cavity <;> simp [State.probeOwn, sumOp, entryOf, hcount, hroom]) hecc hl
  have hmails := hu.readOf_mails (is := rangeIdx cavity (s.curCtx.reg a)) (e := s.startedEntry (sumOp cavity vp a) (s.curCtx.reg a)
    (s.curCtx.reg 0) ((rangeIdx cavity (s.curCtx.reg a)).map s.mailAccess) false) hl (by exact h.stores) rfl rfl
  have heffect := State.vEffect_sumOp (cx := s.sched.cur) rfl hmails
  rw [List.map_map] at heffect
  exact contextResult_of_effect h hu hruns heffect rfl ⟨rfl, rfl, rfl, rfl, rfl, rfl, rfl⟩

/-! ### The bounds check fails (R88, R186, R187) -/

/-- Nothing is left to be taken back but the entry itself. -/
theorem State.squash_enteredCtx (h : Quiet s) (hpc : e.pc = s.curCtx.pc) :
    (s.enteredCtx e).squash = { s.curCtx with ord := s.curCtx.ord + 1 } := by
  rw [Ctx.squash, Ctx.unguess_none (s.enteredCtx e) h.guess]
  simp [State.enteredCtx, h.undo, h.ahead, h.loads, h.queue, hpc]

/-- A trap can be entered where nothing is in flight. -/
theorem State.not_trapHeld_alone {t : State} {cx : Nat} {c : Ctx} (hvq : c.vq = []) (hguess : c.guess = none) (hloads : c.loads = [])
    (hstores : c.stores = []) (hops : c.ops = []) (hmx : ∀ m, t.mxOf cx c = some m → m.queue = []) : t.trapHeld cx c = false := by
  have hpendM (o : Nat) : t.pendM cx c o = false := by
    unfold State.pendM
    split
    · next m hm => simp [hmx m hm]
    · rfl
  simp [State.trapHeld, Ctx.unstarted, Ctx.busy, State.pendClasses, Ctx.pendS, Ctx.pendV, Ctx.pendE, hpendM, hvq, hguess, hloads, hops, hstores]

/-- The context that meets a failed bounds check: the instruction has started, and is discarded. -/
def State.boundsCtx (s : State) : Ctx := { s.curCtx with ord := s.curCtx.ord + 1, instret := s.curCtx.instret + 1, vfault := 0 }

theorem execVectorStart_bounds (h : Quiet s) (hi : IsMailOp i) {v : Word}
    (hprobe : (s.entered (entryOf i s.curCtx sa sb)).probeOwn s.sched.cur (s.enteredCtx (entryOf i s.curCtx sa sb))
      { entryOf i s.curCtx sa sb with started := false } = (.fail (.plain 0 .windowBounds v), s.entered (entryOf i s.curCtx sa sb))) :
    exec (.vectorStart s.sched.cur) (s.entered (entryOf i s.curCtx sa sb)) =
      .next (((s.entered (entryOf i s.curCtx sa sb)).setCtx s.sched.cur s.boundsCtx).takeTrap s.sched.cur
        { cause := .windowBounds, value := v } s.curCtx.pc) := by
  have hentered := State.currentSet_entered h (entryOf i s.curCtx sa sb)
  have hctx := hentered.ctx_cur
  have hheld := State.not_vHeld_mail (t := s.entered (entryOf i s.curCtx sa sb)) (cx := s.sched.cur)
    (c := s.enteredCtx (entryOf i s.curCtx sa sb)) (e := { entryOf i s.curCtx sa sb with started := false }) hi rfl h.fences h.loads
  have hfirst : (s.enteredCtx (entryOf i s.curCtx sa sb)).vq.find? (fun e => !e.started) =
      some { entryOf i s.curCtx sa sb with started := false } := rfl
  have hsquash := State.squash_enteredCtx (e := entryOf i s.curCtx sa sb) h rfl
  have hfree := State.not_trapHeld_alone (t := s.entered (entryOf i s.curCtx sa sb)) (cx := s.sched.cur)
    (c := { s.curCtx with ord := s.curCtx.ord + 1 }) h.queue h.guess h.loads h.stores h.ops fun m hm =>
      h.matrix m ((State.mxOf_congr h.cur (by rw [hentered.core]) rfl).symm.trans hm)
  have hpass := (State.probe_of_good_beats (cx := s.sched.cur) (c := s.enteredCtx (entryOf i s.curCtx sa sb)) (by exact h.beats)).trans hprobe
  show execVectorStart s.sched.cur _ = _
  simp only [execVectorStart, hctx, hfirst, hheld, hpass, hsquash, hfree, State.vFault, State.modCtx]
  simp [State.boundsCtx, VFail.plain, entryOf]

/-- Outside the table the trap is taken at the instruction, with VFAULT 0. -/
theorem mail_traps (h : Quiet s) (hi : IsMailOp i) (henter : exec i s = .next (s.entered (entryOf i s.curCtx sa sb)))
    (hprobe : ∀ (t : State) (c : Ctx), t.mailCount s.sched.cur c = s.mailRoom →
      t.probeOwn s.sched.cur c { entryOf i s.curCtx sa sb with started := false } = (.fail (.plain 0 .windowBounds sa), t)) :
    ∃ t w, exec i s = .next t ∧ w = { s with ctxs := w.ctxs } ∧ OtherContexts s w ∧
      w.curCtx = { s.curCtx with ord := w.curCtx.ord, instret := s.curCtx.instret + 1, vfault := 0 } ∧
      exec (.vectorStart s.sched.cur) t = .next (w.takeTrap s.sched.cur { cause := .windowBounds, value := sa } s.curCtx.pc) := by
  have hentered := State.currentSet_entered h (entryOf i s.curCtx sa sb)
  have hlast := hentered.setCtx h.cur s.boundsCtx
  refine ⟨_, _, henter, hlast.fields, hlast.others, by rw [hlast.ctx]; rfl, execVectorStart_bounds h hi ?_⟩
  exact hprobe _ (s.enteredCtx (entryOf i s.curCtx sa sb)) (hentered.mailCount rfl)

end

theorem mailboxReads : MailboxReads := by
  rintro vp a b s c core owner count h rfl rfl rfl rfl hk
  refine ⟨fun hecc hl ha hroom => gld_reads h hk hecc hl ha hroom vp b, fun hecc hl cavity ha hroom => sumOp_reads h hk hecc hl ha hroom vp, ?_⟩
  have hsum (cavity : Bool) (ha : rangeOk cavity (s.curCtx.reg a) = true)
      (hout : s.mailRoom < rangeFirst (s.curCtx.reg a) + rangeCnt (s.curCtx.reg a)) :=
    mail_traps h (isMailOp_sumOp cavity vp a) (execSumOp_of_quiet h hk ha vp) fun t c hcount => by
      cases cavity <;> simp [State.probeOwn, sumOp, entryOf, hcount, hout.not_ge]
  rintro i (⟨rfl, ha, hout⟩ | ⟨rfl, ha, hout⟩ | ⟨rfl, ha, hout⟩)
  · exact mail_traps h (.gld vp a b) (execGld_of_quiet h hk ha vp b) fun t c hcount => by
      have hout : s.mailRoom ≤ (s.curCtx.reg a).toNat := hout
      simp [State.probeOwn, entryOf, hcount, hout.not_gt]
  · exact hsum false ha hout
  · exact hsum true ha hout

/-- Settles O16: what GLD and the sums read is memory's, since nothing lies over the arrays of the cores, and their bounds check meets an entry that
nothing holds back; GCFG and GSTAT change at most one map of one core. -/
theorem mailboxReadsAndTables : Obligations.MailboxReadsAndTables := ⟨mailboxReads, mailboxTables⟩

end Sys2Proof.Machine

/-! PROOFS. GSEND and GSENDC (R183, R184): with nothing else in flight the message is put on GMSG and kept in the shadow, or skipped. -/

namespace Sys2Proof.Machine
open Sys2Proof Sys2Proof.Claims

/-- GSEND, or with cond GSENDC. -/
def sendOp (cond : Bool) (d : SReg) (vp : VReg) (b : SReg) : Instr := if cond then .gsendc d vp b else .gsend d vp b

/-- What the queue of the issuing context holds of a send. -/
def State.sendEntry (s : State) (i : Instr) (d b : SReg) : VEntry := entryOf i s.curCtx (s.curCtx.reg d) (s.curCtx.reg b)

/-! ### Entry and probe -/

section
variable {s t u : State} {cond : Bool} {d b : SReg} {vp : VReg} {cx p o : Nat} {c : Ctx} {e : VEntry} {a : ElemAccess} {j : Job}

theorem isMailOp_sendOp (cond : Bool) (d : SReg) (vp : VReg) (b : SReg) : IsMailOp (sendOp cond d vp b) := by
  cases cond
  · exact .gsend d vp b
  · exact .gsendc d vp b

theorem cntEn_of_quiet (h : Quiet s) : s.curCtx.cntEn = 0 := by simp [Ctx.cntEn, h.ops, h.queue]

theorem execSendOp_of_quiet (h : Quiet s) (hk : s.curCtx.vgrp.toNat ^ 2 ≤ s.curCtx.vbits / 64)
    (hword : mailWordOk s.twin.paired (s.curCtx.reg d) = true) (hshadow : shadowOk (s.curCtx.reg b) = true) :
    exec (sendOp cond d vp b) s = .next (s.entered (s.sendEntry (sendOp cond d vp b) d b)) := by
  have henter (i : Instr) : s.gsendEnter i d b = .next (s.entered (s.sendEntry i d b)) := by
    rw [State.gsendEnter, if_neg (by rw [cntEn_of_quiet h]; omega)]
    refine State.gaussEnter_of_quiet h hk (List.forall_mem_cons.2 ⟨illegalUnless_true hword _, fun x hx => ?_⟩)
    rw [List.mem_singleton.1 hx]
    exact illegalUnless_true hshadow _
  cases cond
  · exact henter _
  · exact henter _

theorem State.probeOwn_sendOp (he : e.ins = sendOp cond d vp b) : t.probeOwn cx c e = (t.probeSend cx c e vp cond, t) := by
  cases cond <;> simp [State.probeOwn, he, sendOp]

/-- Without a shadow the message is sent. -/
theorem State.probeSend_plain (hsb : e.sb = 0) : t.probeSend cx c e vp cond = .pass [] none true := by
  simp [State.probeSend, State.shadowProbe, hsb, State.accessDue]

/-- A shadow within the tenant's region is accessed at its place in the core's array (R184, R198). -/
theorem State.shadowProbe_within {region : Nat × Nat} (hv : e.sb.toNat = 0x7F0000000000 + o)
    (hregion : t.coreRegion (coreOf cx) (t.tenantOf c) = region) (ho : o + 192 ≤ region.2) :
    t.shadowProbe cx c e.sb = .ok [{ idx := 0, place := corePlace (coreOf cx) (region.1 + o), size := 192, cached := none }] := by
  have hne : e.sb ≠ 0 := fun h0 => by
    rw [h0] at hv
    exact absurd hv (by simp; omega)
  rw [State.shadowProbe, if_neg hne]
  simp [hv, hregion, ho]

/-- R184: whether GSENDC finds that the shadow already holds the message, up to its residual test. -/
def shadowSettled (b : Mail) (c : Ctx) (k : Nat) (vp : VReg) : Bool :=
  b.valid && b.order == k && residualSettled (decodeF .f32 c.gtau.toNat)
    (parts (hermBits k (c.elems64 vp (k * k))) (hermBits k b.lam) ++ parts (c.elems64 (pairHi vp) k) (b.eta.take k))

theorem State.probeSend_shadow (hshadow : t.shadowProbe cx c e.sb = .ok [a]) (hdue : t.accessDue cx c e.ord false [a] = true)
    (hecc : t.ecc = []) : t.probeSend cx c e vp cond =
      .pass [a] none (!(cond && shadowSettled (t.ownMail c e.ord a.place) c e.vgrp vp)) := by
  simp [State.probeSend, hshadow, hdue, State.ownEcc_of_clean hecc, shadowSettled, Bool.and_assoc]

/-- A context without pending stores reads an entry in its core's array as memory holds it. -/
theorem State.ownMail_of_core (hl : LinesBelow s) (hstale : u.stale = s.stale) (hmem : u.mem = s.mem) (hstores : c.stores = [])
    (hp : 2 ^ 48 ≤ p) (o : Nat) : u.ownMail c o p = mailAt s p :=
  (Mail.of_congr fun off n _ => State.ownBytes_of_core hl hstale hstores (by omega) o n).trans (mailAt_congr hmem p)

/-- The access of the shadow at offset o of the region of a job's tenant. -/
def State.shadowAccess (s : State) (j : Job) (o : Nat) : ElemAccess :=
  { idx := 0, place := corePlace (coreOf s.sched.cur) ((s.coreRegion (coreOf s.sched.cur) j.tenant).1 + o), size := 192, cached := none }

theorem shadowOk_of_window {v : Word} (hv : v.toNat = 0x7F0000000000 + o) (ho : o % 64 = 0) (hend : o < 0x400000) : shadowOk v = true := by
  have halign : v.toNat % 64 = 0 := by omega
  have hlo : 0x7F0000000000 ≤ v.toNat := by omega
  have hhi : v.toNat < 0x7F0000400000 := by omega
  simp [shadowOk, halign, hlo, hhi]

/-- With nothing else in flight the probe of a send reads the shadow as memory holds it. -/
theorem CurrentSet.probeSend_shadow (hq : Quiet s) (hecc : s.ecc = []) (hl : LinesBelow s) (ht : CurrentSet s t (s.enteredCtx e))
    (htenant : s.tenantOf s.curCtx = j.tenant) (hv : e.sb.toNat = 0x7F0000000000 + o)
    (ho : o + 192 ≤ (s.coreRegion (coreOf s.sched.cur) j.tenant).2) : t.probeSend s.sched.cur (s.enteredCtx e) e vp cond =
      .pass [s.shadowAccess j o] none (!(cond && shadowSettled (mailAt s (s.shadowAccess j o).place) s.curCtx e.vgrp vp)) := by
  have hregion : t.coreRegion (coreOf s.sched.cur) (t.tenantOf (s.enteredCtx e)) = s.coreRegion (coreOf s.sched.cur) j.tenant := by
    rw [ht.tenantOf rfl, htenant, ht.fields]
    rfl
  have hdue := State.accessDue_alone (t := t) (cx := s.sched.cur) (c := s.enteredCtx e) hq.loads hq.stores
    (fun m hm => hq.matrix m ((ht.mxOf hq.cur rfl).symm.trans hm)) e.ord false [s.shadowAccess j o]
  have hmail := State.ownMail_of_core (u := t) (c := s.enteredCtx e) (p := (s.shadowAccess j o).place) hl (by rw [ht.fields]) (by rw [ht.fields])
    hq.stores (corePlace_ge _ _) e.ord
  rw [State.probeSend_shadow (State.shadowProbe_within hv hregion ho) hdue (by rw [ht.fields]; exact hecc)]
  exact congrArg (fun x => ProbeResult.pass [s.shadowAccess j o] none (!(cond && shadowSettled x s.curCtx e.vgrp vp))) hmail

end

/-! ### The send -/

section
variable {s w : State} {cx h : Nat} {c : Ctx} {e : VEntry} {vp : VReg} {j : Job}

/-- The message that the pair holds (R184). -/
def State.mailMessage (s : State) (cx : Nat) (c : Ctx) (e : VEntry) (vp : VReg) (j : Job) : GaussMsg :=
  { order := e.vgrp, lam := hermBits e.vgrp (c.elems64 vp (e.vgrp * e.vgrp)), eta := c.elems64 (pairHi vp) e.vgrp, tenant := j.tenant
    group := if e.sa.toNat % 256 < 96 then s.namedGroup j.group j.tenant else 0xFF, deadline := j.deadline
    src := coreOf cx, core := e.sa.toNat % 256, index := bitsOf e.sa.toNat 17 8 }

/-- The context that has sent a message. -/
def Ctx.sending (c : Ctx) (o : Nat) : Ctx :=
  { c with sent := c.sent + 1, ops := c.ops ++ [{ ord := o, cls := .en, dst := 0, outbox := false }] }

/-- The message is in flight, and counted. -/
def State.posted (s : State) (cx : Nat) (c : Ctx) (e : VEntry) (vp : VReg) (h : Nat) (j : Job) : State :=
  (({ s with gmsg := s.gmsg ++ [(s.mailMessage cx c e vp j, some { job := h, ord := e.ord })] } : State).modCtx cx
    (·.sending e.ord)).countSent (coreOf cx) (s.mailMessage cx c e vp j).group

theorem State.sendMail_plain (hsends : e.sends = true) (hjob : c.job = some h) (hj : s.jobOf c = some j) (hacc : e.accesses = []) :
    s.sendMail cx c e vp = s.posted cx c e vp h j := by
  simp only [State.sendMail, hsends, hj, hjob, hacc]
  rfl

theorem State.sendMail_shadow {a : ElemAccess} (hsends : e.sends = true) (hjob : c.job = some h) (hj : s.jobOf c = some j)
    (hacc : e.accesses = [a]) : s.sendMail cx c e vp = (s.posted cx c e vp h j).putMail a.place
      ((((s.posted cx c e vp h j).ownMail c e.ord a.place).version + 1) % 2 ^ 32) e.vgrp
      (hermBits e.vgrp (c.elems64 vp (e.vgrp * e.vgrp))) (c.elems64 (pairHi vp) e.vgrp) := by
  simp only [State.sendMail, hsends, hj, hjob, hacc]
  rfl

theorem State.sendMail_skipped (hsends : e.sends = false) :
    s.sendMail cx c e vp = s.modCtx cx fun c => { c with skipped := c.skipped + 1 } := by
  simp [State.sendMail, hsends]

/-- Counting a message in its group changes one core. -/
theorem State.countSent_cores (s : State) (core g : Nat) : s.countSent core g = { s with cores := (s.countSent core g).cores } := by
  unfold State.countSent
  split <;> rfl

/-- Posting a message changes GMSG, the sender and the counts of one core. -/
theorem State.posted_fields (hcx : cx < numCtx) : (s.posted cx c e vp h j).mem = s.mem ∧ (s.posted cx c e vp h j).stale = s.stale ∧
    (s.posted cx c e vp h j).sched = s.sched ∧
    (s.posted cx c e vp h j).gmsg = s.gmsg ++ [(s.mailMessage cx c e vp j, some { job := h, ord := e.ord })] ∧
    (s.posted cx c e vp h j).ctx cx = (s.ctx cx).sending e.ord := by
  generalize hw : ({ s with gmsg := s.gmsg ++ [(s.mailMessage cx c e vp j, some { job := h, ord := e.ord })] } : State) = w
  have hctx : (w.modCtx cx (·.sending e.ord)).ctx cx = (s.ctx cx).sending e.ord := by
    rw [State.modCtx, State.ctx_setCtx_same _ _ hcx, ← hw]
    rfl
  rw [State.posted, hw, State.countSent_cores]
  refine ⟨?_, ?_, ?_, ?_, hctx⟩
  · rw [State.modCtx, State.setCtx_mem, ← hw]
  · rw [State.modCtx, State.setCtx_stale, ← hw]
  · rw [State.modCtx, State.setCtx_sched, ← hw]
  · rw [State.modCtx, State.setCtx_gmsg, ← hw]

end

/-! ### The runs -/

/-- What a send that has started goes by: the operand that names its mailbox, its order, and what its probe has decided. -/
structure IsSent (s : State) (d : SReg) (acc : List ElemAccess) (sends : Bool) (e : VEntry) : Prop where
  sa : e.sa = s.curCtx.reg d
  vgrp : e.vgrp = s.curCtx.vgrp.toNat
  ord : e.ord = s.curCtx.ord
  accesses : e.accesses = acc
  sends : e.sends = sends

/-- The shadow that a send names lies within the region of the tenant (R184, R198). -/
structure ShadowAt (s : State) (b : SReg) (j : Job) (o : Nat) : Prop where
  window : (s.curCtx.reg b).toNat = 0x7F0000000000 + o
  aligned : o % 64 = 0
  within : o + 192 ≤ (s.coreRegion (coreOf s.sched.cur) j.tenant).2
  region : (s.coreRegion (coreOf s.sched.cur) j.tenant).2 ≤ 0x400000

/-- The issuing context after a send: the message is its one operation in flight. -/
def State.sentCtx (s : State) (e : VEntry) : Ctx := { (s.movingCtx e).sending e.ord with vq := [] }

/-- The issuing context after GSENDC has found the message in the shadow. -/
def State.skippedCtx (s : State) (e : VEntry) : Ctx := { s.movingCtx e with skipped := s.curCtx.skipped + 1, vq := [] }

section
variable {s u w : State} {cond sends : Bool} {d b : SReg} {vp : VReg} {cx h o : Nat} {c : Ctx} {e : VEntry} {j : Job}
  {acc : List ElemAccess}

theorem State.vEffect_sendOp (he : e.ins = sendOp cond d vp b) : u.vEffect cx c e = u.sendMail cx c e vp := by
  cases cond <;> simp [State.vEffect, he, sendOp]

theorem CurrentSet.jobOf (hu : CurrentSet s u c) (hjob : c.job = some h) (hj : s.job? h = some j) : u.jobOf c = some j := by
  have hjobs : u.job? h = s.job? h := by
    rw [hu.fields]
    rfl
  rw [State.jobOf, hjob, ← hj, ← hjobs]
  rfl

theorem State.tenantOf_of_job (hjob : s.curCtx.job = some h) (hj : s.job? h = some j) : s.tenantOf s.curCtx = j.tenant := by
  rw [State.tenantOf, (CurrentSet.refl s).jobOf hjob hj]

theorem State.curCtx_setCtx_cur (hw : w.sched.cur = s.sched.cur) (hcur : s.sched.cur < numCtx) (d : Ctx) :
    (w.setCtx s.sched.cur d).curCtx = d := by
  rw [← hw] at hcur ⊢
  exact State.curCtx_setCur w hcur

/-- A send whose probe passes enters, starts and completes. -/
theorem runs_send (hq : Quiet s) (hk : s.curCtx.vgrp.toNat ^ 2 ≤ s.curCtx.vbits / 64)
    (hword : mailWordOk s.twin.paired (s.curCtx.reg d) = true) (hshadow : shadowOk (s.curCtx.reg b) = true)
    (hprobe : ∀ t e, CurrentSet s t (s.enteredCtx e) → e.sb = s.curCtx.reg b → e.vgrp = s.curCtx.vgrp.toNat →
      t.probeSend s.sched.cur (s.enteredCtx e) e vp cond = .pass acc none sends)
    (hacc : ∀ a ∈ acc, s.Unnoticed a) : ∃ u e, CurrentSet s u (s.movingCtx e) ∧ IsSent s d acc sends e ∧
      ∀ w d', u.sendMail s.sched.cur (s.movingCtx e) e vp = w → w.ctx s.sched.cur = d' → d'.vecEcc = [] →
        Runs (sendOp cond d vp b) s (w.setCtx s.sched.cur { d' with vq := d'.vq.tail }) := by
  obtain ⟨u, hu, hruns⟩ := runs_mail hq (isMailOp_sendOp cond d vp b) (execSendOp_of_quiet hq hk hword hshadow) (by
    rw [State.probeOwn_sendOp (cond := cond) (d := d) (vp := vp) (b := b) rfl]
    exact congrArg (·, _) (hprobe _ _ (State.currentSet_entered hq _) rfl rfl)) hacc
  refine ⟨u, _, hu, ⟨rfl, rfl, rfl, rfl, rfl⟩, fun w d' hw => hruns w d' ?_⟩
  rw [State.vEffect_sendOp (cond := cond) (d := d) (vp := vp) (b := b) rfl]
  exact hw

/-- Without a shadow the message is posted, and the queue is empty. -/
theorem runs_sendPlain (hq : Quiet s) (hjob : s.curCtx.job = some h) (hj : s.job? h = some j)
    (hword : mailWordOk s.twin.paired (s.curCtx.reg d) = true) (hk : s.curCtx.vgrp.toNat ^ 2 ≤ s.curCtx.vbits / 64)
    (hb : s.curCtx.reg b = 0) (cond : Bool) (vp : VReg) : ∃ u e, CurrentSet s u (s.movingCtx e) ∧ IsSent s d [] true e ∧
      Runs (sendOp cond d vp b) s ((u.posted s.sched.cur (s.movingCtx e) e vp h j).setCtx s.sched.cur (s.sentCtx e)) := by
  obtain ⟨u, e, hu, he, hruns⟩ := runs_send (cond := cond) (vp := vp) (acc := []) (sends := true) hq hk hword (by simp [hb, shadowOk])
    (fun t e _ hsb _ => State.probeSend_plain (hsb.trans hb)) (fun _ hx => absurd hx List.not_mem_nil)
  have hjob' : (s.movingCtx e).job = some h := hjob
  obtain ⟨-, -, -, -, hctx⟩ := State.posted_fields (s := u) (c := s.movingCtx e) (e := e) (vp := vp) (h := h) (j := j) hq.cur
  rw [hu.ctx_cur] at hctx
  exact ⟨u, e, hu, he, hruns _ _ (State.sendMail_plain he.sends hjob' (hu.jobOf hjob' hj) he.accesses) hctx hq.beats⟩

/-- A send with a shadow enters, starts and completes; it sends unless it is GSENDC and the shadow holds the message. -/
theorem runs_sendProbed (hq : Quiet s) (hjob : s.curCtx.job = some h) (hj : s.job? h = some j) (hecc : s.ecc = [])
    (hword : mailWordOk s.twin.paired (s.curCtx.reg d) = true) (hk : s.curCtx.vgrp.toNat ^ 2 ≤ s.curCtx.vbits / 64)
    (hshadow : ShadowAt s b j o) (hl : LinesBelow s)
    (hsends : (!(cond && shadowSettled (mailAt s (s.shadowAccess j o).place) s.curCtx s.curCtx.vgrp.toNat vp)) = sends) :
    ∃ u e, CurrentSet s u (s.movingCtx e) ∧ IsSent s d [s.shadowAccess j o] sends e ∧
      ∀ w d', u.sendMail s.sched.cur (s.movingCtx e) e vp = w → w.ctx s.sched.cur = d' → d'.vecEcc = [] →
        Runs (sendOp cond d vp b) s (w.setCtx s.sched.cur { d' with vq := d'.vq.tail }) := by
  obtain ⟨hv, halign, hwithin, hregion⟩ := hshadow
  refine runs_send hq hk hword (shadowOk_of_window hv halign (by omega)) (fun t e ht hsb hvgrp => ?_) fun x hx => ?_
  · rw [ht.probeSend_shadow hq hecc hl (State.tenantOf_of_job hjob hj) (by rw [hsb, hv]) hwithin, hvgrp, hsends]
  · rw [List.mem_singleton.1 hx]
    exact State.unnoticed_of_core hl (corePlace_ge _ _)

/-- With a shadow GSEND also writes the message into it, under the version after the one it held. -/
theorem runs_gsendShadow (hq : Quiet s) (hjob : s.curCtx.job = some h) (hj : s.job? h = some j) (hecc : s.ecc = [])
    (hword : mailWordOk s.twin.paired (s.curCtx.reg d) = true) (hk : s.curCtx.vgrp.toNat ^ 2 ≤ s.curCtx.vbits / 64)
    (hshadow : ShadowAt s b j o) (hl : LinesBelow s) (vp : VReg) : ∃ u e, CurrentSet s u (s.movingCtx e) ∧
      Runs (.gsend d vp b) s (((u.posted s.sched.cur (s.movingCtx e) e vp h j).putMail (s.shadowAccess j o).place
        (((mailAt s (s.shadowAccess j o).place).version + 1) % 2 ^ 32) s.curCtx.vgrp.toNat
        (hermBits s.curCtx.vgrp.toNat (s.curCtx.elems64 vp (s.curCtx.vgrp.toNat * s.curCtx.vgrp.toNat)))
        (s.curCtx.elems64 (pairHi vp) s.curCtx.vgrp.toNat)).setCtx s.sched.cur (s.sentCtx e)) := by
  obtain ⟨u, e, hu, he, hruns⟩ := runs_sendProbed (cond := false) (vp := vp) (sends := true) hq hjob hj hecc hword hk hshadow hl rfl
  have hjob' : (s.movingCtx e).job = some h := hjob
  have heffect := State.sendMail_shadow (cx := s.sched.cur) (vp := vp) he.sends hjob' (hu.jobOf hjob' hj) he.accesses
  obtain ⟨hmem, hstale, -, -, hctx⟩ := State.posted_fields (s := u) (c := s.movingCtx e) (e := e) (vp := vp) (h := h) (j := j) hq.cur
  have hheld := State.ownMail_of_core (c := s.movingCtx e) (p := (s.shadowAccess j o).place) hl (hstale.trans (by rw [hu.fields]))
    (hmem.trans (by rw [hu.fields])) hq.stores (corePlace_ge _ _) e.ord
  rw [hu.ctx_cur] at hctx
  rw [hheld, he.vgrp] at heffect
  exact ⟨u, e, hu, hruns _ _ heffect (((State.putMail_storeEffect _ _ _ _ _ _).sameContexts.ctx_eq _).trans hctx) hq.beats⟩

/-- Where the shadow holds the message GSENDC sends nothing. -/
theorem runs_gsendcSettled (hq : Quiet s) (hjob : s.curCtx.job = some h) (hj : s.job? h = some j) (hecc : s.ecc = [])
    (hword : mailWordOk s.twin.paired (s.curCtx.reg d) = true) (hk : s.curCtx.vgrp.toNat ^ 2 ≤ s.curCtx.vbits / 64)
    (hshadow : ShadowAt s b j o) (hl : LinesBelow s)
    (hsettled : shadowSettled (mailAt s (s.shadowAccess j o).place) s.curCtx s.curCtx.vgrp.toNat vp = true) :
    ∃ v e, CurrentSet s v (s.skippedCtx e) ∧ Runs (.gsendc d vp b) s v := by
  obtain ⟨u, e, hu, he, hruns⟩ := runs_sendProbed (cond := true) (vp := vp) (sends := false) hq hjob hj hecc hword hk hshadow hl
    (by rw [hsettled]; rfl)
  have heffect := State.sendMail_skipped (s := u) (cx := s.sched.cur) (c := s.movingCtx e) (vp := vp) he.sends
  rw [State.modCtx, hu.ctx_cur] at heffect
  have hset := hu.setCtx hq.cur { s.movingCtx e with skipped := s.curCtx.skipped + 1 }
  exact ⟨_, e, hset.setCtx hq.cur (s.skippedCtx e), hruns _ _ heffect hset.ctx_cur hq.beats⟩

end

/-! ### The statement -/

section
variable {s u : State} {d b : SReg} {vp : VReg} {h o : Nat} {e : VEntry} {j : Job} {acc : List ElemAccess} {sends : Bool}

/-- What is in flight after a send is its message. -/
theorem cntEn_sentCtx (hq : Quiet s) (e : VEntry) : (s.sentCtx e).cntEn = 1 := by
  simp [State.sentCtx, Ctx.sending, Ctx.cntEn, State.movingCtx, hq.ops]

/-- The message that a send posts is the pair's, under the operands of the instruction. -/
theorem IsSent.mailMessage (he : IsSent s d acc sends e) : ∃ msg, u.mailMessage s.sched.cur (s.movingCtx e) e vp j = msg ∧
    msg.order = s.curCtx.vgrp.toNat ∧ msg.lam = hermBits s.curCtx.vgrp.toNat (s.curCtx.elems64 vp (s.curCtx.vgrp.toNat ^ 2)) ∧
    msg.eta = s.curCtx.elems64 (pairHi vp) s.curCtx.vgrp.toNat ∧ msg.tenant = j.tenant ∧ msg.src = coreOf s.sched.cur ∧
    msg.core = (s.curCtx.reg d).toNat % 256 ∧ msg.index = (s.curCtx.reg d).toNat / 256 % 1024 := by
  rw [Nat.pow_two, ← he.vgrp, ← he.sa]
  exact ⟨_, rfl, rfl, rfl, rfl, rfl, rfl, rfl, rfl⟩

/-- The entry that holds a message of order k. -/
theorem mailAt_putMessage {k v p : Nat} {lam eta : List Nat} (hv : v < 2 ^ 32) (hk : k ≤ 4) (hlam : ∀ x ∈ lam, x < 2 ^ 64)
    (heta : ∀ x ∈ eta, x < 2 ^ 64) (hlen : lam.length = k ^ 2) : (mailAt (u.putMail p v k lam eta) p).version = v ∧
      (mailAt (u.putMail p v k lam eta) p).order = k ∧ (mailAt (u.putMail p v k lam eta) p).valid = true ∧
      (mailAt (u.putMail p v k lam eta) p).lam.take (k ^ 2) = lam := by
  rw [mailAt_putMail u p v k lam eta hv (by omega) hlam heta]
  refine ⟨rfl, rfl, rfl, ?_⟩
  rw [← hlen]
  exact take_mailSlots (hlen.trans_le (Nat.pow_le_pow_left hk 2))

end

theorem messageSends : MessageSends := by
  rintro d vp b s c h j hq rfl hjob hj hecc hword hk
  refine ⟨fun i hi hb => ?_, fun o place hk1 hk4 hv halign hwithin hregion hl hplace => ?_⟩
  · have hop : ∃ cond, i = sendOp cond d vp b := hi.elim (⟨false, ·⟩) (⟨true, ·⟩)
    obtain ⟨cond, rfl⟩ := hop
    obtain ⟨u, e, hu, he, hruns⟩ := runs_sendPlain hq hjob hj hword hk hb cond vp
    obtain ⟨hmem, -, hsched, hgmsg, -⟩ := State.posted_fields (s := u) (c := s.movingCtx e) (e := e) (vp := vp) (h := h) (j := j) hq.cur
    obtain ⟨msg, hmsg, horder, hlam, heta, htenant, hsrc, hcore, hindex⟩ := he.mailMessage (u := u) (vp := vp) (j := j)
    have hcur := State.curCtx_setCtx_cur ((congrArg Sched.cur hsched).trans hu.cur) hq.cur (s.sentCtx e)
    refine ⟨_, msg, hruns, ?_, horder, hlam, heta, htenant, hsrc, hcore, hindex, ?_, ?_⟩
    · rw [State.setCtx_gmsg, hgmsg, hmsg, he.ord, hu.fields]
    · rw [State.setCtx_mem, hmem, hu.fields]
    · rw [hcur]
      exact ⟨rfl, rfl, rfl, rfl, cntEn_sentCtx hq e⟩
  · have hshadow : ShadowAt s b j o := ⟨hv, halign, hwithin, hregion⟩
    replace hplace : place = (s.shadowAccess j o).place := hplace
    subst hplace
    refine ⟨?_, fun hvalid horder hresidual => ?_⟩
    · obtain ⟨u, e, hu, hruns⟩ := runs_gsendShadow hq hjob hj hecc hword hk hshadow hl vp
      obtain ⟨hmem, -, -, hgmsg, -⟩ := State.posted_fields (s := u) (c := s.movingCtx e) (e := e) (vp := vp) (h := h) (j := j) hq.cur
      obtain ⟨hversion, horder, hvalid, hlam⟩ := mailAt_putMessage (u := u.posted s.sched.cur (s.movingCtx e) e vp h j)
        (v := ((mailAt s (s.shadowAccess j o).place).version + 1) % 2 ^ 32) (p := (s.shadowAccess j o).place)
        (Nat.mod_lt _ (by decide)) hk4 (hermBits_lt (elems64_lt s.curCtx vp (s.curCtx.vgrp.toNat * s.curCtx.vgrp.toNat)))
        (elems64_lt s.curCtx (pairHi vp) s.curCtx.vgrp.toNat) ((length_hermBits _ _).trans (Nat.pow_two _).symm)
      refine ⟨_, hruns, ?_, ?_⟩
      · rw [State.setCtx_gmsg, (State.putMail_storeEffect _ _ _ _ _ _).gmsg_eq, hgmsg, List.length_append, hu.fields]
        rfl
      · rw [mailAt_congr (State.setCtx_mem _ _ _), State.setCtx_mem]
        refine ⟨hversion, horder, hvalid, by rw [hlam, Nat.pow_two], fun q hout => ?_⟩
        rw [State.read_putMail_outside _ _ _ _ _ _ hout, hmem, hu.fields]
    · have hsettled : shadowSettled (mailAt s (s.shadowAccess j o).place) s.curCtx s.curCtx.vgrp.toNat vp = true := by
        rw [shadowSettled, hvalid, horder, hresidual, beq_self_eq_true]
        rfl
      obtain ⟨v, e, hset, hruns⟩ := runs_gsendcSettled (vp := vp) hq hjob hj hecc hword hk hshadow hl hsettled
      refine ⟨v, hruns, by rw [hset.fields], by rw [hset.fields], ?_⟩
      rw [hset.ctx]
      exact ⟨rfl, rfl, hq.ops⟩

/-- Settles O17: a send is alone in the queue, so it reads its shadow as memory holds it, posts its message and writes the shadow in one step, or
is skipped; the merge writes the mailbox that the message names. -/
theorem messageSendsAndMerges : Obligations.MessageSendsAndMerges := ⟨messageSends, messageMerges⟩

end Sys2Proof.Machine

/-! PROOFS. Memory keeps its canonical form (R200). Every byte that a unit writes goes through the operations of memory, which keep the form;
so of each operation of the state one lemma says either that it leaves memory as it is, or that it keeps the form, and one says so of the
outcome of each instruction and event. What issue, translation and the turns add is no byte beyond these. -/

namespace Sys2Proof.Machine
open Sys2Proof

/-- The next state of an outcome, where it has one, holds its memory in the canonical form. -/
def NextWf (o : Out) : Prop := ∀ t, o = .next t → t.mem.wf = true

namespace NextWf

theorem next {t : State} (h : t.mem.wf = true) : NextWf (.next t) := fun _ e => by cases e; exact h

theorem ite {c : Prop} [Decidable c] {a b : Out} (ha : NextWf a) (hb : NextWf b) : NextWf (if c then a else b) := by
  split
  · exact ha
  · exact hb

end NextWf

/-! ### Folds and pairs -/

theorem foldl_mem {α : Type} {f : State → α → State} (hf : ∀ s a, (f s a).mem = s.mem) (xs : List α) (s : State) :
    (xs.foldl f s).mem = s.mem := by
  induction xs generalizing s with
  | nil => rfl
  | cons x xs ih => exact (ih (f s x)).trans (hf s x)

theorem foldl_wf {α : Type} {f : State → α → State} (hf : ∀ s a, s.mem.wf = true → (f s a).mem.wf = true) (xs : List α) {s : State}
    (h : s.mem.wf = true) : (xs.foldl f s).mem.wf = true := by
  induction xs generalizing s with
  | nil => exact h
  | cons x xs ih => exact ih (hf s x h)

/-- A fold that carries a result beside the state. -/
theorem foldl_snd_wf {α β : Type} {f : β × State → α → β × State} (hf : ∀ r a, r.2.mem.wf = true → (f r a).2.mem.wf = true)
    (xs : List α) {r : β × State} (h : r.2.mem.wf = true) : (xs.foldl f r).2.mem.wf = true := by
  induction xs generalizing r with
  | nil => exact h
  | cons x xs ih => exact ih (hf r x h)

theorem ite_mem {c : Prop} [Decidable c] {a b s : State} (ha : a.mem = s.mem) (hb : b.mem = s.mem) : (if c then a else b).mem = s.mem := by
  split
  · exact ha
  · exact hb

theorem wf_of_snd {α : Type} {r : α × State} {x : α} {t : State} (h : r = (x, t)) (hr : r.2.mem.wf = true) : t.mem.wf = true := by
  subst h
  exact hr

/-! ### Contexts, jobs, cores and counts -/

section
variable (s : State)

@[simp] theorem State.modCtx_mem (cx : Nat) (f : Ctx → Ctx) : (s.modCtx cx f).mem = s.mem := s.setCtx_mem cx _
@[simp] theorem State.modCore_mem (c : Nat) (f : Core → Core) : (s.modCore c f).mem = s.mem := rfl
@[simp] theorem State.modCluster_mem (k : Nat) (f : Cluster → Cluster) : (s.modCluster k f).mem = s.mem := rfl
@[simp] theorem State.modGroup_mem (g : Nat) (f : Group → Group) : (s.modGroup g f).mem = s.mem := rfl
@[simp] theorem State.complete_mem (f : Ctx → Ctx) : (s.complete f).mem = s.mem := s.setCur_mem _
@[simp] theorem State.waitOn_mem (w : Wait) : (s.waitOn w).mem = s.mem := s.setCur_mem _
@[simp] theorem State.learnBranch_mem (pc : Word) (cx : Nat) (taken : Bool) : (s.learnBranch pc cx taken).mem = s.mem := rfl
@[simp] theorem State.guessBranch_mem (reads : List SReg) (off : Int) (t : BranchTest) : (s.guessBranch reads off t).mem = s.mem :=
  s.setCur_mem _

@[simp] theorem State.modJob_mem (h : Nat) (f : Job → Job) : (s.modJob h f).mem = s.mem := by
  unfold State.modJob
  split <;> rfl

@[simp] theorem State.opDone_mem (x : Sender) (v : Option Word) : (s.opDone x v).mem = s.mem := by
  unfold State.opDone
  split <;> simp

@[simp] theorem State.startGroup_mem (g : Nat) : (s.startGroup g).mem = s.mem := by
  unfold State.startGroup
  split <;> rfl

@[simp] theorem State.countRecv_mem (core g : Nat) : (s.countRecv core g).mem = s.mem := by
  unfold State.countRecv
  split <;> rfl

@[simp] theorem State.countSent_mem (core g : Nat) : (s.countSent core g).mem = s.mem := by
  unfold State.countSent
  split <;> rfl

@[simp] theorem State.setMx_mem (cx : Nat) (m : MatrixUnit) : (s.setMx cx m).mem = s.mem := by
  unfold State.setMx
  split <;> simp

@[simp] theorem State.decideBranch_mem (cx : Nat) : (s.decideBranch cx).mem = s.mem := by
  unfold State.decideBranch
  dsimp only
  split
  · rfl
  · split_ifs <;> simp

@[simp] theorem State.stopJob_mem (h : Nat) (j : Job) (cx : Nat) : (s.stopJob h j cx).mem = s.mem := by simp [State.stopJob]

@[simp] theorem State.abandonJob_mem (h : Nat) : (s.abandonJob h).mem = s.mem := by
  unfold State.abandonJob
  split
  · rfl
  · split <;> simp

end

/-! ### The log and traps -/

section
variable {s : State} (h : s.mem.wf = true)
include h

theorem State.wf_logCore (kind core owner cause : Nat) (v0 v1 : Word) : (s.logCore kind core owner cause v0 v1).mem.wf = true :=
  State.wf_log _ _ h

theorem State.wf_dropHostWrite (place owner : Nat) : (s.dropHostWrite place owner).mem.wf = true := State.wf_log _ _ h

theorem State.wf_framePlaces (cx : Nat) (k : AccessKind) (base : Word) : (s.framePlaces cx k base).2.mem.wf = true := by
  refine foldl_snd_wf ?_ _ h
  rintro ⟨_ | ps, u⟩ i hu
  · exact hu
  · have ha := u.wf_access (s.agentOf cx (s.ctx cx)) (base + BitVec.ofNat 64 (8 * i)) 8 k (k == .write) hu
    dsimp only
    split <;> next heq => exact wf_of_snd heq ha

theorem State.wf_trapNest (cx : Nat) (t : TrapInfo) (pc : Word) : (s.trapNest cx t pc).mem.wf = true := by
  unfold State.trapNest
  dsimp only
  split <;> simp [State.wf_logCore h]

theorem State.wf_takeTrap (cx : Nat) (t : TrapInfo) (pc : Word) : (s.takeTrap cx t pc).mem.wf = true := by
  unfold State.takeTrap
  dsimp only
  split
  · simpa using h
  · split
    · exact State.wf_trapNest h _ _ _
    · split
      · have hf := State.wf_framePlaces h cx .write ((s.ctx cx).reg regS2 - 32)
        split
        · next heq =>
          rw [State.modCtx_mem]
          exact foldl_wf (fun u _ => u.wf_putWord _ _ _) _ (wf_of_snd heq hf)
        · next heq => exact State.wf_trapNest (wf_of_snd heq hf) _ _ _
      · simpa using h

end

/-! ### How an instruction issues, waits or traps -/

section
variable {s : State} {cause : Cause} {v : Word} {d a b c p : SReg} {reads writes : List SReg} {vl : Bool} {ins : Instr} {q : Qual}
  (h : s.mem.wf = true)
include h

theorem State.trapCur_wf : NextWf (s.trapCur cause v) := .ite (.next h) (.next (State.wf_takeTrap h _ _ _))

theorem State.trapWith_wf {f : State → State} (hf : (f s).mem = s.mem) : NextWf (s.trapWith f cause v) :=
  .ite (.next h) (State.trapCur_wf (by rwa [hf]))

theorem State.badTrap_wf {r : SReg} {x : BadReg} : NextWf (s.badTrap r x) := State.trapWith_wf h (s.setCur_mem _)

theorem State.freeIssue_wf {eff : State → Ctx → Out} (heff : ∀ c, NextWf (eff s c)) : NextWf (s.freeIssue reads writes vl eff) := by
  rcases s.freeIssue_cases reads writes vl eff with hi | ⟨r, x, -, hi⟩ | ⟨-, -, hi⟩ <;> rw [hi]
  · exact .next h
  · exact State.badTrap_wf h
  · exact heff _

theorem State.heldOp_wf {eff : State → Out} (heff : NextWf (eff s)) : NextWf (s.heldOp reads writes eff) := by
  rcases s.heldOp_cases reads writes eff with hi | ⟨r, x, -, hi⟩ | ⟨-, -, hi⟩ <;> rw [hi]
  · exact .next h
  · exact State.badTrap_wf h
  · exact heff

theorem State.supervisorOnly_wf {k : State → Out} (hk : NextWf (k s)) : NextWf (s.supervisorOnly k) := .ite hk (State.trapCur_wf h)

theorem State.complete_wf {f : Ctx → Ctx} : NextWf (.next (s.complete f)) := .next (by simpa using h)

theorem State.waitOn_wf {w : Wait} : NextWf (.next (s.waitOn w)) := .next (by simpa using h)

theorem State.freeOp_wf {eff : Ctx → Ctx} : NextWf (s.freeOp reads writes vl eff) :=
  State.freeIssue_wf h fun _ => .next (by simpa using h)

theorem State.regOp_wf {val : Ctx → Word} : NextWf (s.regOp reads d val) := State.freeOp_wf h

theorem State.heldReg_wf {val : Ctx → Word} : NextWf (s.heldReg reads d val) := State.heldOp_wf h (State.complete_wf h)

theorem State.divOp_wf {f : Word → Word → Word × Flags} : NextWf (s.divOp d a b f) := State.heldOp_wf h (State.complete_wf h)

theorem State.branchOp_wf {off : Int} {t : BranchTest} : NextWf (s.branchOp reads off t) := by
  refine .ite (.next ?_) (State.freeIssue_wf h fun _ => .next (by simpa using h))
  split <;> simpa using h

/-! ### Entry into the vector queue and the matrix queue -/

theorem State.vEnter_wf {sa sb : Ctx → Word} {legal : Ctx → Bool} {check : Ctx → Option TrapInfo} :
    NextWf (s.vEnter ins reads writes sa sb legal check) := by
  refine .ite (.next h) (.ite (State.trapCur_wf h) ?_)
  split
  · exact State.badTrap_wf h
  · split
    · exact State.trapCur_wf h
    · exact .next (by simpa using h)

theorem State.vIssue_wf {sa sb : Ctx → Word} {legal : Ctx → Bool} : NextWf (s.vIssue ins reads writes sa sb legal) := State.vEnter_wf h

theorem State.vPlain_wf {ok : Fmt → Bool} : NextWf (s.vPlain ins q ok) := State.vIssue_wf h

theorem State.vScalar_wf {ok : Fmt → Bool} : NextWf (s.vScalar ins q a ok) := State.vIssue_wf h

theorem State.bflyEnter_wf : NextWf (s.bflyEnter ins b q) := State.vEnter_wf h

theorem State.vMemEnter_wf {ok : Fmt → Bool} : NextWf (s.vMemEnter ins reads b q ok) := .ite (.next h) (State.vIssue_wf h)

theorem State.gaussEnter_wf {checks : Ctx → List (Option TrapInfo)} : NextWf (s.gaussEnter ins reads a b writes checks) := State.vEnter_wf h

theorem State.gsendEnter_wf : NextWf (s.gsendEnter ins d b) := .ite (.next h) (State.gaussEnter_wf h)

theorem State.mxGate_wf {raises : Bool} {k : MatrixUnit → Out} (hk : ∀ m, NextWf (k m)) : NextWf (s.mxGate raises k) := by
  unfold State.mxGate
  dsimp only
  split
  · exact State.trapCur_wf h
  · exact .ite (State.trapCur_wf h) (.ite (State.trapWith_wf h (s.setMx_mem _ _)) (hk _))

theorem State.mxIssue_wf {check : Ctx → Option TrapInfo} {op : Ctx → MxOp} : NextWf (s.mxIssue reads check op) := by
  refine State.heldOp_wf h (State.mxGate_wf h fun m => ?_)
  dsimp only
  split
  · exact State.trapCur_wf h
  · exact .ite (.next h) (State.complete_wf (by simpa using h))

theorem State.mxMove_wf : NextWf (s.mxMove ins b q) := State.mxGate_wf h fun _ => State.vEnter_wf h

/-! ### Loads, stores and atomics -/

theorem State.loadOp_wf {addr : Ctx → Word} {size : Nat} {signed : Bool} : NextWf (s.loadOp reads d addr size signed) := by
  refine .ite (.next h) (State.freeIssue_wf h fun c => ?_)
  have ha := s.wf_access (s.agentOf s.sched.cur c) (addr c) size .read false h
  dsimp only
  split
  · next heq => exact State.trapCur_wf (wf_of_snd heq ha)
  · next heq => exact .next (by simpa using wf_of_snd heq ha)

theorem State.loadImm_wf {imm size : Nat} {signed : Bool} : NextWf (s.loadImm d a imm size signed) := State.loadOp_wf h

theorem State.queueStore_wf {x : Xlat} {size : Nat} {kind : StoreKind} {release vec : Bool} :
    NextWf (.next (s.queueStore x size kind release vec)) := State.complete_wf h

theorem State.storeOp_wf {addr : Ctx → Word} {size : Nat} {release : Bool} : NextWf (s.storeOp reads d addr size release) := by
  refine .ite (.next h) (State.heldOp_wf h ?_)
  have ha := s.wf_access (s.agentOf s.sched.cur s.curCtx) (addr s.curCtx) size .write true h
  dsimp only
  split
  · next heq => exact State.trapCur_wf (wf_of_snd heq ha)
  · next heq => exact State.queueStore_wf (wf_of_snd heq ha)

theorem State.storeImm_wf {imm size : Nat} : NextWf (s.storeImm d a imm size) := State.storeOp_wf h

theorem State.lineOp_wf {k : AccessKind} {kind : StoreKind} : NextWf (s.lineOp a k kind) := by
  refine .ite (.next h) (State.heldOp_wf h ?_)
  have ha := s.wf_xlate (s.agentOf s.sched.cur s.curCtx) (s.curCtx.reg a) k (k == .write) h
  dsimp only
  split
  · next heq => exact State.trapCur_wf (wf_of_snd heq ha)
  · next heq =>
    have ht := wf_of_snd heq ha
    exact .ite (State.trapCur_wf (s.wf_xlate _ _ _ _ h)) (.ite (State.complete_wf ht) (State.queueStore_wf ht))

theorem State.amoOp_wf {op : AmoOp} {w32 : Bool} : NextWf (s.amoOp op d a b c w32) := by
  refine .ite (.next h) (State.heldOp_wf h ?_)
  have ha := s.wf_access (s.agentOf s.sched.cur s.curCtx) (s.curCtx.reg a) (if w32 then 4 else 8) .write (op != .cas) h
  dsimp only
  split
  · next heq => exact State.complete_wf (wf_of_snd heq ha)
  · next t heq =>
    have ht := wf_of_snd heq ha
    have hr := t.wf_access (s.agentOf s.sched.cur s.curCtx) (s.curCtx.reg a) (if w32 then 4 else 8) .read false ht
    refine .ite ?_ (State.trapCur_wf ht)
    split
    · next heq => exact State.trapCur_wf (wf_of_snd heq hr)
    · next heq =>
      have hu := wf_of_snd heq hr
      exact .ite (.next hu) (.ite (State.trapCur_wf hu) (State.complete_wf (by simpa using hu)))

theorem execLdaq_wf : NextWf (execLdaq d a s) := by
  refine .ite (.next h) (State.heldOp_wf h ?_)
  have ha := s.wf_access (s.agentOf s.sched.cur s.curCtx) (s.curCtx.reg a) 8 .read false h
  dsimp only
  split
  · next heq => exact State.trapCur_wf (wf_of_snd heq ha)
  · next heq => exact State.complete_wf (wf_of_snd heq ha)

end

/-! ### Loads that return and stores that are performed (R97, R201, R213) -/

section
variable {s : State} (h : s.mem.wf = true)
include h

theorem State.wf_loadReturn (cx : Nat) (c : Ctx) (i : Nat) (l : PendLoad) : (s.loadReturn cx c i l).mem.wf = true := by
  have hcx (u : State) (hu : u.mem = s.mem) (c : Ctx) : (u.setCtx cx c).mem.wf = true := by rwa [State.setCtx_mem, hu]
  unfold State.loadReturn
  dsimp only
  split
  case h_4 =>
    split
    · exact hcx _ (s.snoopRead_mem _ _) _
    · split
      · exact hcx _ (s.snoopRead_mem _ _) _
      · refine State.wf_putBytes _ _ _ _ ?_
        split
        · exact State.wf_xlate _ _ _ _ _ (hcx _ (s.snoopRead_mem _ _) _)
        · exact hcx _ (s.snoopRead_mem _ _) _
  case h_3 => exact hcx _ rfl _
  all_goals exact hcx _ (s.snoopRead_mem _ _) _

theorem State.wf_performStore (p : PendStore) : (s.performStore p).mem.wf = true := by
  unfold State.performStore
  split
  · exact s.wf_putBytes _ _ _ h
  · exact s.wf_putBytes _ _ _ h
  · split
    · exact h
    · exact s.wf_putBytes _ _ _ h
  · exact State.wf_flushLine _ _ (by simpa using h)
  · exact State.wf_invalLine _ _ (by simpa using h)

theorem State.wf_performOne (left : List PendStore) (p : PendStore) : (s.performOne left p).mem.wf = true := State.wf_performStore h p

/-! ### Mailboxes and the merge unit (R51, R181) -/

theorem State.wf_putMail (place version k : Nat) (lam eta : List Nat) : (s.putMail place version k lam eta).mem.wf = true := by
  unfold State.putMail
  iterate 4 apply State.wf_storeBytes
  exact h

end

@[simp] theorem State.trigger_mem (s : State) (core tag : Nat) (m : GaussMsg) (version : Nat) : (s.trigger core tag m version).mem = s.mem := by
  unfold State.trigger
  split
  · rfl
  · split
    · rfl
    · dsimp only
      split <;> simp

section
variable {s : State} {d a : SReg} (h : s.mem.wf = true)
include h

theorem State.wf_merge (m : GaussMsg) : (s.merge m).mem.wf = true := by
  unfold State.merge
  dsimp only
  rw [State.countRecv_mem]
  split
  · exact h
  · have hput := State.wf_putMail h
    split
    · rw [State.trigger_mem, State.modCore_mem]
      exact hput _ _ _ _ _
    · rw [State.modCore_mem]
      exact hput _ _ _ _ _

theorem execGmsgMerge_wf {m : GmSource} : NextWf (execGmsgMerge m s) := by
  unfold execGmsgMerge
  cases m with
  | twin m => exact .ite (.next (State.wf_merge h _)) (.next h)
  | sent i =>
    dsimp only
    split
    · exact .next h
    · refine .ite (.next h) ?_
      have hm (i : Nat) (m : GaussMsg) : (if m.core < 96 then State.merge { s with gmsg := s.gmsg.eraseIdx i } m
          else { s with gmsg := s.gmsg.eraseIdx i }).mem.wf = true := by
        split
        · exact State.wf_merge (by exact h) m
        · exact h
      split
      · exact .next (by rw [State.opDone_mem]; exact hm _ _)
      · exact .next (hm _ _)

theorem execGcfg_wf {n : Fin 16} : NextWf (execGcfg n a s) :=
  State.heldOp_wf h (.ite (State.trapCur_wf h) (.ite (State.trapCur_wf h) (State.complete_wf (by exact h))))

theorem execGstat_wf {sel : Fin 16} : NextWf (execGstat d sel s) := by
  refine State.heldOp_wf h ?_
  have put (u : State) (v : Word) (hu : u.mem = s.mem) :
      NextWf (if s.curCtx.vq.isEmpty then .next (u.complete fun c => c.setReg d v) else .next u) :=
    .ite (State.complete_wf (by rwa [hu])) (.next (by rwa [hu]))
  dsimp only
  split
  case h_6 => exact .ite (put _ _ rfl) (.next h)
  case h_7 => exact State.trapCur_wf h
  all_goals exact put s _ rfl

/-! ### The matrix unit (R155 to R172) -/

omit h in
@[simp] theorem State.parkEcc_mem (p : Nat) (m : MatrixUnit) : (s.parkEcc p m).mem = s.mem := by
  unfold State.parkEcc
  generalize List.foldl _ _ _ = e
  rfl

theorem execMxstat_wf {sel : Fin 9} : NextWf (execMxstat d sel s) := by
  refine State.heldOp_wf h ?_
  split
  · exact State.trapCur_wf h
  · exact .ite (.next h) (State.complete_wf (by simpa using h))

theorem execMxpark_wf : NextWf (execMxpark a s) := by
  refine State.heldOp_wf h ?_
  dsimp only
  split
  · exact State.trapCur_wf h
  · refine .ite (State.trapCur_wf h) ?_
    split
    · exact State.trapCur_wf h
    · exact .ite (.next h) (State.complete_wf (by rw [State.setMx_mem, State.parkEcc_mem]; exact s.wf_storeBytes _ _ _ h))

theorem execMxunpark_wf : NextWf (execMxunpark a s) := by
  refine State.heldOp_wf h ?_
  dsimp only
  split
  · exact State.trapCur_wf h
  · refine .ite (State.trapCur_wf h) ?_
    split
    · exact State.trapCur_wf h
    · exact .ite (.next h) (.ite (State.trapWith_wf h (s.setMx_mem _ _)) (State.complete_wf (by simpa using h)))

end

section
variable (s : State)

@[simp] theorem State.mxReads_mem (a : Agent) (m : MatrixUnit) (cmd : MxCmd) (q : Nat) : (s.mxReads a m cmd q).mem = s.mem := by
  refine foldl_mem (fun u r => ?_) _ s
  split
  · rfl
  · cases u.mxPlace a r.base with
    | none => rfl
    | some p => exact u.snoopRead_mem p r.len

@[simp] theorem State.mxBegin_mem (core cx : Nat) (m : MatrixUnit) (cmd : MxCmd) : (s.mxBegin core cx m cmd).mem = s.mem := by
  have hr := s.mxReads_mem
  unfold State.mxBegin
  dsimp only
  split
  · rfl
  · split
    · rfl
    · split
      · exact hr _ _ _ _
      · exact hr _ _ _ _

@[simp] theorem State.mxBeginOn_mem (core : Nat) : (s.mxBeginOn core).mem = s.mem := by
  unfold State.mxBeginOn
  split <;> simp

@[simp] theorem State.mxBeginShared_mem (x : SharedRead) (core : Nat) : (s.mxBeginShared x core).mem = s.mem := State.mxBeginOn_mem _ core

theorem execMxCmdBegin_mem {t : State} {core : Nat} (ht : execMxCmdBegin core s = .next t) : t.mem = s.mem := by
  unfold execMxCmdBegin at ht
  dsimp only at ht
  split at ht
  · cases ht; rfl
  · split_ifs at ht <;> cases ht
    · rw [foldl_mem fun u c => u.mxBeginShared_mem _ c, foldl_mem fun u (r : Nat × Nat) => u.snoopRead_mem r.1 r.2]
    · rfl
    · exact s.mxBeginOn_mem core

end

section
variable {s : State} (h : s.mem.wf = true)
include h

theorem execMxShareTimeout_wf {core : Nat} : NextWf (execMxShareTimeout core s) := by
  unfold execMxShareTimeout
  split
  · exact .ite (.next (by simpa using h)) (.next h)
  · exact .next h

theorem State.wf_mxWrite (cx : Nat) (c : Ctx) (j : Nat) : (s.mxWrite cx c j).mem.wf = true := by
  unfold State.mxWrite
  split
  · exact State.wf_storeBytes _ _ _ _ (by simpa using h)
  · exact h

/-! ### The probe pass (R207) -/

theorem State.wf_probeElem (a : Agent) (k : AccessKind) (d : Bool) (size : Nat) (l : Lanes) (hit : Option PageHit) (i : Nat) (va : Word) :
    (s.probeElem a k d size l hit i va).2.mem.wf = true := by
  unfold State.probeElem
  split
  · exact s.wf_access _ _ _ _ _ h
  · exact s.wf_access _ _ _ _ _ h
  · dsimp only
    split
    · exact h
    · split <;> exact h

theorem State.wf_probeElems (a : Agent) (k : AccessKind) (d : Bool) (size : Nat) (l : Lanes) (xs : List (Nat × Word)) :
    (s.probeElems a k d size l xs).2.mem.wf = true := by
  refine foldl_snd_wf (fun r x hr => ?_) xs h
  dsimp only
  split
  · exact hr
  · have hp := State.wf_probeElem hr a k d size l r.1.2 x.1 x.2
    split <;> next heq => exact wf_of_snd heq hp

theorem State.wf_probeMem (cx : Nat) (c : Ctx) (e : VEntry) (m : VMem) : (s.probeMem cx c e m).2.mem.wf = true := by
  have hp := fun a k d size l xs => State.wf_probeElems h a k d size l xs
  unfold State.probeMem
  dsimp only
  generalize (if m.write = true then AccessKind.write else AccessKind.read) = k
  split
  · exact State.wf_probeElems (hp _ _ _ _ _ _) _ _ _ _ _ _
  · exact hp _ _ _ _ _ _

end
end Sys2Proof.Machine

namespace Sys2Proof.Machine
open Sys2Proof

/-! ### The vector queue (R84 to R88, R217) -/

section
variable {s : State} (h : s.mem.wf = true)
include h

theorem State.wf_probeVMem (cx : Nat) (c : Ctx) (e : VEntry) (m : VMem) : (s.probeVMem cx c e m).2.mem.wf = true := by
  have hp := State.wf_probeMem h cx c e m
  unfold State.probeVMem
  dsimp only
  split <;> exact hp

theorem State.wf_probeOwn (cx : Nat) (c : Ctx) (e : VEntry) : (s.probeOwn cx c e).2.mem.wf = true := by
  unfold State.probeOwn
  split
  case h_7 =>
    split
    · exact State.wf_probeVMem h _ _ _ _
    · exact h
  all_goals exact h

theorem State.wf_probe (cx : Nat) (c : Ctx) (e : VEntry) : (s.probe cx c e).2.mem.wf = true := by
  have hp := State.wf_probeOwn h cx c e
  unfold State.probe
  split
  · exact hp
  · dsimp only
    split
    · exact h
    · split
      · split
        · exact hp
        · exact h
      · exact h

theorem State.wf_vFault (cx : Nat) (e : VEntry) (f : VFail) : (s.vFault cx e f).mem.wf = true :=
  State.wf_takeTrap (by rwa [State.modCtx_mem]) _ _ _

theorem execVectorStart_wf {cx : Nat} : NextWf (execVectorStart cx s) := by
  unfold execVectorStart
  dsimp only
  split
  · exact .next h
  · next e _ =>
    have hp := State.wf_probe h cx (s.ctx cx) e
    refine .ite (.next h) ?_
    split
    · exact .next h
    · next heq => exact .ite (.next h) (.next (State.wf_vFault (wf_of_snd heq hp) _ _ _))
    · next heq => exact .ite (.next h) (.next (by rw [State.modCtx_mem]; exact wf_of_snd heq hp))

theorem State.wf_sendMail (cx : Nat) (c : Ctx) (e : VEntry) (vp : VReg) : (s.sendMail cx c e vp).mem.wf = true := by
  unfold State.sendMail
  dsimp only
  split
  · simpa using h
  · split
    · split
      · exact State.wf_putMail (by simpa using h) _ _ _ _ _
      · simpa using h
    · exact h

theorem State.wf_vEffect (cx : Nat) (c : Ctx) (e : VEntry) : (s.vEffect cx c e).mem.wf = true := by
  unfold State.vEffect
  dsimp only
  split
  case h_1 | h_2 => exact State.wf_sendMail h _ _ _ _
  case h_4 | h_5 => simpa using h
  case h_3 | h_6 | h_7 => split <;> simpa using h
  case h_8 =>
    split
    · split
      · split <;> simpa using h
      · simpa using h
    · split <;> simpa using h

theorem execVectorComplete_wf {cx : Nat} : NextWf (execVectorComplete cx s) := by
  unfold execVectorComplete
  dsimp only
  split
  · exact .next h
  · refine .ite (.next ?_) (.next h)
    rw [State.modCtx_mem]
    exact State.wf_vEffect (by rwa [foldl_mem fun u (a : ElemAccess) => u.snoopRead_mem a.place a.size]) _ _ _

end

@[simp] theorem State.elemRead_mem (s : State) (cx : Nat) (c : Ctx) (j : Nat) : (s.elemRead cx c j).mem = s.mem := by
  unfold State.elemRead
  split
  · rfl
  · split <;> simp

@[simp] theorem State.handOver_mem (s : State) (cx : Nat) (c : Ctx) (j : Nat) : (s.handOver cx c j).mem = s.mem := by
  unfold State.handOver
  split
  · rfl
  · split
    · rfl
    · split <;> simp

section
variable {s : State} {cx i : Nat} (h : s.mem.wf = true)
include h

theorem execScalarLoadReturn_wf : NextWf (execScalarLoadReturn cx i s) := by
  unfold execScalarLoadReturn
  dsimp only
  split
  · exact .ite (.next (State.wf_loadReturn h _ _ _ _)) (.next h)
  · exact .next (by simpa using h)

theorem execStorePerformed_wf : NextWf (execStorePerformed cx i s) := by
  unfold execStorePerformed
  dsimp only
  split
  · exact .ite (.next (State.wf_performOne (by simpa using h) _ _)) (.next h)
  · exact .ite (.next (by simpa using h)) (.next (State.wf_mxWrite h _ _ _))

end

/-! ### Active messages, weirs, barriers and groups (R299 to R315) -/

section
variable (s : State)

@[simp] theorem State.unreserve_mem (core owner : Nat) : (s.unreserve core owner).mem = s.mem := rfl
@[simp] theorem State.sendRelease_mem (src core owner : Nat) : (s.sendRelease src core owner).mem = s.mem := rfl
@[simp] theorem State.enableTags_mem (core : Nat) (ts : List Nat) (en : Bool) : (s.enableTags core ts en).mem = s.mem := rfl
@[simp] theorem State.modWeir_mem (w : Nat) (f : Weir → Weir) : (s.modWeir w f).mem = s.mem := rfl
@[simp] theorem State.fireWeir_mem (w : Nat) : (s.fireWeir w).mem = s.mem := rfl
@[simp] theorem State.setBarrier_mem (c b : Nat) (x : Barrier) : (s.setBarrier c b x).mem = s.mem := rfl
@[simp] theorem State.report_mem (k t : Nat) : (s.report k t).mem = s.mem := rfl

@[simp] theorem State.dropEntry_mem (core : Nat) (e : HandlerEntry) : (s.dropEntry core e).mem = s.mem := by
  unfold State.dropEntry
  split <;> rfl

@[simp] theorem State.acceptEntry_mem (core : Nat) (kind : EntryKind) (tag tenant group : Nat) (dl : Word) (payload : List Word)
    (src : Option Nat) : (s.acceptEntry core kind tag tenant group dl payload src).mem = s.mem := State.startGroup_mem _ _

@[simp] theorem State.receive_mem (m : ActiveMsg) : (s.receive m).2.mem = s.mem := by
  unfold State.receive
  dsimp only
  split
  · dsimp only
    split <;> simp
  · split
    · split
      · simp
      · split <;> simp
    · split <;> simp

@[simp] theorem State.engTake_mem (p : EngPacket) : (s.engTake p).mem = s.mem := by
  unfold State.engTake
  dsimp only
  split
  · rfl
  · split <;> simp

@[simp] theorem State.sweepGroup_mem (g : Nat) : (s.sweepGroup g).mem = s.mem := by
  unfold State.sweepGroup
  dsimp only
  split
  · rfl
  · split
    · split <;> rfl
    · rfl

end

section
variable {s : State} {d a b c p : SReg} {reads writes : List SReg} {v : Word} {i : Nat} (h : s.mem.wf = true)
include h

theorem State.outboxFull_wf {slot : Bool} : NextWf (s.outboxFull v slot) := .ite (State.trapCur_wf h) (.next h)

theorem State.sendMsg_wf {reply : Bool} {n : Nat} : NextWf (s.sendMsg reply d a p n) := by
  refine State.heldOp_wf h (.ite (State.trapCur_wf h) (.ite (State.trapCur_wf h) (.ite (.next h)
    (.ite (State.outboxFull_wf h) (.ite (State.outboxFull_wf h) ?_)))))
  split
  · refine State.complete_wf ?_
    split <;> exact h
  · exact .next h

theorem execMtag_wf {mx : Fin 2} : NextWf (execMtag d a mx s) := by
  refine .ite (.next h) (State.heldOp_wf h (.ite (State.trapCur_wf h) (.ite (State.trapCur_wf h) ?_)))
  have ha := s.wf_access (s.agentOf s.sched.cur s.curCtx) (s.curCtx.reg a) 16 .read false h
  split
  · next heq => exact State.trapCur_wf (wf_of_snd heq ha)
  · next heq =>
    have ht := wf_of_snd heq ha
    exact .ite (.next ht) (.ite (State.trapCur_wf ht) (.ite (State.trapCur_wf (by simpa using ht)) (State.complete_wf (by simpa using ht))))

theorem State.tagMask_wf {k : State → Nat → List Nat → Out} (hk : ∀ core ts, NextWf (k s core ts)) : NextWf (s.tagMask a writes k) :=
  State.heldOp_wf h (.ite (State.trapCur_wf h) (hk _ _))

theorem execMclr_wf : NextWf (execMclr d a s) :=
  State.tagMask_wf h fun core _ => State.complete_wf (by rw [foldl_mem fun u e => u.dropEntry_mem core e]; exact h)

theorem execAmArrival_wf {m : AmSource} : NextWf (execAmArrival m s) := by
  unfold execAmArrival
  cases m with
  | twin t => exact .ite (.next (by simpa using h)) (.next h)
  | sent i =>
    dsimp only
    split
    · exact .next h
    · next m _ =>
      have hm : (if m.dst < 96 then State.receive { s with am := s.am.eraseIdx i } m
          else if m.right then (0, { s with am := s.am.eraseIdx i })
          else (Config.freeNat s.sched.draws % 3, { s with am := s.am.eraseIdx i, sched := { s.sched with draws := s.sched.draws + 1 } })).2.mem
          = s.mem := by
        split
        · exact State.receive_mem _ m
        · split <;> rfl
      refine .ite (.next h) ?_
      split
      · exact .next (by rw [← hm] at h; exact h)
      · exact .next (by rw [← hm] at h; exact h)

theorem execAmAnswer_wf : NextWf (execAmAnswer i s) := by
  unfold execAmAnswer
  split
  · exact .next h
  · next x _ =>
    refine .ite (.next h) ?_
    dsimp only
    split
    · refine .next ?_
      rw [State.countSent_mem]
      split <;> simpa [State.unreserve] using h
    · refine .next ?_
      split <;> simpa [State.unreserve] using h

theorem execEmptyRelease_wf {r : ReleaseSource} : NextWf (execEmptyRelease r s) := by
  unfold execEmptyRelease
  cases r with
  | twin core owner => exact .ite (.next h) (.next h)
  | sent i =>
    dsimp only
    split
    · exact .next h
    · exact .ite (.next h) (.ite (.next h) (.next h))

theorem execEngDelivery_wf {m : EngIn} : NextWf (execEngDelivery m s) := by
  unfold execEngDelivery
  cases m with
  | twin t => exact .ite (.next (by simpa using h)) (.next h)
  | sent i =>
    dsimp only
    split
    · exact .next h
    · exact .ite (.next h) (.next (by simpa using h))

theorem State.weirOp_wf {checks : Ctx → List (Option TrapInfo)} {k : State → Nat → Out} (hk : ∀ x, NextWf (k s x)) :
    NextWf (s.weirOp reads a writes checks k) := by
  refine State.heldOp_wf h ?_
  dsimp only
  split
  · exact State.trapCur_wf h
  · exact .ite (State.trapCur_wf h) (.ite (.next h) (hk _))

theorem execWarm_wf : NextWf (execWarm d a b c s) := State.weirOp_wf h fun _ => .ite (State.complete_wf (by exact h)) (State.complete_wf (by exact h))

theorem execWpost_wf : NextWf (execWpost d a b s) :=
  State.weirOp_wf h fun _ => .ite (State.complete_wf (by exact h)) (.ite (State.trapCur_wf h) (State.complete_wf (by exact h)))

theorem execWsig_wf : NextWf (execWsig a b s) := by
  refine State.heldOp_wf h ?_
  dsimp only
  split
  · exact State.trapCur_wf h
  · exact .ite (State.trapCur_wf h) (State.complete_wf (by exact h))

theorem State.wf_logWeirOvf (x : WeirArrival) : (s.logWeirOvf x).mem.wf = true := by
  unfold State.logWeirOvf
  dsimp only
  split
  · exact State.wf_log _ _ (by simpa using h)
  · exact State.wf_log _ _ (by simpa using h)
  · exact h

theorem State.wf_weirArrive (x : WeirArrival) : (s.weirArrive x).mem.wf = true := by
  unfold State.weirArrive
  dsimp only
  split
  · exact h
  · split
    · split
      · exact State.wf_logWeirOvf (by exact h) x
      · exact h
    · split <;> exact h

theorem execWeirArrival_wf : NextWf (execWeirArrival i s) := by
  unfold execWeirArrival
  split
  · exact .next h
  · exact .ite (.next h) (.next (State.wf_weirArrive (by exact h) _))

theorem State.barrierOp_wf {checks : Ctx → List (Option TrapInfo)} {k : State → Nat → Nat → Out} (hk : ∀ core id, NextWf (k s core id)) :
    NextWf (s.barrierOp reads b d checks k) := by
  refine State.heldOp_wf h ?_
  dsimp only
  split
  · exact State.trapCur_wf h
  · exact .ite (State.trapCur_wf h) (hk _ _)

theorem State.barrierWait_wf {core id g : Nat} : NextWf (s.barrierWait d core id g) :=
  .ite (State.trapWith_wf h (s.setCur_mem _)) (.ite (State.complete_wf (by exact h)) (State.waitOn_wf h))

theorem execBinit_wf : NextWf (execBinit d a b s) := State.barrierOp_wf h fun _ _ => .ite (State.trapCur_wf h) (State.complete_wf (by exact h))

theorem execBsync_wf : NextWf (execBsync d a s) := by
  refine State.barrierOp_wf h fun core id => ?_
  dsimp only
  split
  · exact State.barrierWait_wf h
  · exact .ite (.next h) (State.barrierWait_wf (by simpa using h))

theorem execBarrive_wf : NextWf (execBarrive a s) := State.heldOp_wf h (.ite (State.trapCur_wf h) (State.complete_wf (by exact h)))

theorem execBarrierArrival_wf : NextWf (execBarrierArrival i s) := by
  unfold execBarrierArrival
  split
  · exact .next h
  · exact .ite (.next h) (.ite (.next h) (.next h))

theorem execQopen_wf : NextWf (execQopen d a b s) := by
  refine State.heldOp_wf h (.ite (State.trapCur_wf h) (.ite (State.trapCur_wf h) (.ite (State.complete_wf (by exact h)) (State.complete_wf ?_))))
  rw [foldl_mem fun u k => u.modCore_mem k _]
  exact h

theorem execQclose_wf : NextWf (execQclose d a s) :=
  State.heldOp_wf h (.ite (State.trapCur_wf h) (.ite (State.complete_wf (by exact h)) (State.complete_wf (by exact h))))

theorem execQstat_wf {sel : Fin 6} : NextWf (execQstat d a sel s) := by
  refine State.heldOp_wf h ?_
  dsimp only
  split
  · exact State.trapCur_wf h
  · exact .ite (State.trapCur_wf h) (State.complete_wf (by exact h))

theorem execSweep_wf : NextWf (execSweep s) := by
  refine .ite (.next h) (.ite (.next h) (.next ?_))
  rw [foldl_mem State.sweepGroup_mem]
  exact h

theorem execGroupCompletionSend_wf {g : Nat} : NextWf (execGroupCompletionSend g s) := by
  unfold execGroupCompletionSend
  split
  · exact .next h
  · exact .ite (.next h) (.next h)

end
end Sys2Proof.Machine

namespace Sys2Proof.Machine
open Sys2Proof

/-! ### Streams and flumes (R241 to R266) -/

section
variable (s : State)

@[simp] theorem State.setChunkMap_mem (k m : Nat) (v : Word) : (s.setChunkMap k m v).mem = s.mem := rfl
@[simp] theorem State.setFlume_mem (k f : Nat) (x : Flume) : (s.setFlume k f x).mem = s.mem := rfl

@[simp] theorem State.flumeDone_mem (k f i : Nat) : (s.flumeDone k f i).mem = s.mem := by
  unfold State.flumeDone
  dsimp only
  split <;> rfl

@[simp] theorem State.flumeRel_mem (k f i : Nat) : (s.flumeRel k f i).mem = s.mem := rfl

@[simp] theorem State.finishSlots_mem (hs : List HeldSlot) : (s.finishSlots hs).mem = s.mem := by
  refine foldl_mem (fun u x => ?_) hs s
  dsimp only
  split_ifs <;> simp

@[simp] theorem State.queueStrip_mem (k : Nat) (x : Strip) (f : Ctx → Ctx) : (s.queueStrip k x f).mem = s.mem := by
  unfold State.queueStrip
  dsimp only
  rw [State.complete_mem, State.modCluster_mem]
  split <;> rfl

end

section
variable {s : State} {d a b : SReg} {reads writes : List SReg} (h : s.mem.wf = true)
include h

theorem State.mapOp_wf {k : State → Nat → Nat → Word → Out} (hk : ∀ x m v, NextWf (k s x m v)) : NextWf (s.mapOp a b writes k) :=
  State.heldOp_wf h (.ite (State.trapCur_wf h) (.ite (State.trapCur_wf h) (hk _ _ _)))

theorem execSwaitm_wf : NextWf (execSwaitm a b s) :=
  State.mapOp_wf h fun _ _ _ => .ite (State.complete_wf h) (State.waitOn_wf h)

theorem execStestm_wf : NextWf (execStestm d a b s) := State.mapOp_wf h fun _ _ _ => State.complete_wf h

theorem execSclrm_wf : NextWf (execSclrm a b s) := State.mapOp_wf h fun _ _ _ => State.complete_wf (by exact h)

theorem State.wf_probeRange (a : Agent) (k : AccessKind) (setD : Bool) (xs : List (Word × Nat)) :
    (s.probeRange a k setD xs).2.mem.wf = true := by
  refine foldl_snd_wf ?_ xs h
  rintro ⟨_ | ps, u⟩ x hu
  · exact hu
  · have hr := u.wf_reach a x.1 x.2 k setD hu
    dsimp only
    split
    · next heq => split <;> exact wf_of_snd heq hr
    · next heq => exact wf_of_snd heq hr

theorem State.wf_probeWrite (a : Agent) (xs : List (Word × Nat)) : (s.probeWrite a xs).2.mem.wf = true := by
  have hr := State.wf_probeRange h a .write false xs
  unfold State.probeWrite
  split
  · next heq => exact State.wf_probeRange (wf_of_snd heq hr) _ _ _ _
  · exact hr

theorem State.wf_probeStrip (a : Agent) (cs : List CutPiece) : (s.probeStrip a cs).2.mem.wf = true := by
  have hr := State.wf_probeRange h a .read false (cs.map fun c => (c.src, c.len))
  unfold State.probeStrip
  split
  · next heq => exact wf_of_snd heq hr
  · next heq =>
    have hw := State.wf_probeWrite (wf_of_snd heq hr) a (cs.map fun c => (c.dst, c.len))
    split <;> next heq => exact wf_of_snd heq hw

theorem State.flumeOp_wf {fenced push : Bool} {k : State → Nat → Nat → Out} (hk : ∀ x f, NextWf (k s x f)) :
    NextWf (s.flumeOp reads a writes fenced push k) := by
  refine .ite (.next h) (State.heldOp_wf h ?_)
  dsimp only
  split
  · exact State.trapCur_wf h
  · exact hk _ _

theorem State.flumeTake_wf {push : Bool} : NextWf (s.flumeTake d a push) :=
  State.flumeOp_wf h fun _ _ => .ite (State.trapCur_wf h)
    (.ite (.ite (State.complete_wf h) (State.waitOn_wf h)) (State.complete_wf (by exact h)))

theorem State.flumeGive_wf {push : Bool} : NextWf (s.flumeGive a b push) := by
  refine State.flumeOp_wf h fun _ _ => ?_
  dsimp only
  generalize List.find? _ _ = slot
  cases slot with
  | none => exact State.trapCur_wf h
  | some i => exact .ite (.ite (.next h) (State.complete_wf (by simpa using h))) (State.complete_wf (by simpa using h))

theorem execScopy_wf {sn sd ss sc : SReg} {fo : Option Fmt} : NextWf (execScopy sn sd ss sc fo s) := by
  refine .ite (.next h) (.ite (State.heldOp_wf h (State.trapCur_wf h)) (State.heldOp_wf h ?_))
  refine .ite (State.trapCur_wf h) (.ite (State.trapCur_wf h) (.ite (State.trapCur_wf h) (.ite (State.complete_wf h)
    (.ite (.next h) (.ite (State.trapCur_wf h) (.ite (State.trapCur_wf h) ?_))))))
  split
  · next heq => exact State.trapCur_wf (wf_of_snd heq (State.wf_probeStrip h _ _))
  · next heq _ => exact .next (by simpa using wf_of_snd heq (State.wf_probeStrip h _ _))
  · next heq _ => exact .next (wf_of_snd heq (State.wf_probeStrip h _ _))

theorem State.wf_wordPlaces (a : Agent) (va : Word) (n : Nat) : (s.wordPlaces a va n).2.mem.wf = true := by
  refine foldl_snd_wf ?_ _ h
  rintro ⟨_ | ps, u⟩ i hu
  · exact hu
  · have ha := u.wf_access a (va + BitVec.ofNat 64 (8 * i)) 8 .read false hu
    dsimp only
    split <;> next heq => exact wf_of_snd heq ha

theorem State.loadWords_wf {va : Word} {n : Nat} {k : State → List Nat → Out} (hk : ∀ t ws, t.mem.wf = true → NextWf (k t ws)) :
    NextWf (s.loadWords va n k) := by
  have hp := State.wf_wordPlaces h (s.agentOf s.sched.cur s.curCtx) va n
  unfold State.loadWords
  dsimp only
  split
  · next heq => exact State.trapCur_wf (wf_of_snd heq hp)
  · next heq =>
    have ht := wf_of_snd heq hp
    refine .ite (.next ht) ?_
    split
    · exact State.trapCur_wf ht
    · exact hk _ _ (by rwa [foldl_mem fun u (p : Xlat) => u.snoopRead_mem p.place 8])

theorem execSpat_wf {n : Fin 8} : NextWf (execSpat n a s) :=
  State.heldOp_wf h (State.loadWords_wf h fun _ _ ht => .ite (State.complete_wf ht) (State.trapCur_wf ht))

theorem execSstrm_wf {n : Fin 8} {sd ss : SReg} : NextWf (execSstrm n sd ss s) := by
  refine .ite (.next h) (State.heldOp_wf h ?_)
  refine .ite (State.trapCur_wf h) (.ite (State.trapCur_wf h) (.ite (State.trapCur_wf h) (.ite (.next h) ?_)))
  split
  · next heq => exact State.trapCur_wf (wf_of_snd heq (State.wf_probeStrip h _ _))
  · next heq _ => exact .next (by simpa using wf_of_snd heq (State.wf_probeStrip h _ _))
  · next heq _ => exact .next (wf_of_snd heq (State.wf_probeStrip h _ _))

theorem State.wf_copyByte (x : Strip) (done : List Piece) (p : Piece) (j : Nat) : (s.copyByte x done p j).mem.wf = true := by
  unfold State.copyByte
  dsimp only
  split
  · exact h
  · exact State.wf_putBytes _ _ _ _ (by simpa using h)

theorem State.wf_losePiece (x : Strip) (p : Piece) : (s.losePiece x p).mem.wf = true := by
  unfold State.losePiece
  split
  · exact h
  · exact State.wf_dropHostWrite h _ _

theorem State.wf_copyChunk (x : Strip) (c : Nat) : (s.copyChunk x c).mem.wf = true := by
  refine foldl_wf (fun u p hu => ?_) (x.chunkPieces c) h
  split
  · exact State.wf_losePiece hu x p
  · exact foldl_wf (fun v j hv => State.wf_copyByte hv x x.pieces p j) _ hu

theorem execStreamChunkServe_wf {k i : Nat} : NextWf (execStreamChunkServe k i s) := by
  unfold execStreamChunkServe
  split
  · exact .next h
  · split
    · exact .next h
    · split
      · exact .next h
      · exact .next (by rw [State.modCluster_mem]; exact State.wf_copyChunk h _ _)

theorem execChunkDone_wf {k i : Nat} : NextWf (execChunkDone k i s) := by
  unfold execChunkDone
  dsimp only
  split
  · exact .next h
  · split
    · exact .next h
    · split
      · split <;> exact .next (by simpa using h)
      · exact .next h

end

/-! ### Engines (R411 to R428) -/

section
variable (s : State)

@[simp] theorem State.modEngCount_mem (e t : Nat) (f : EngCounts → EngCounts) : (s.modEngCount e t f).mem = s.mem := rfl

@[simp] theorem State.acceptCmd_mem (i : Nat) (c : EngCmd) : (s.acceptCmd i c).mem = s.mem := by
  unfold State.acceptCmd
  dsimp only
  split
  · rw [State.countSent_mem]
  · rfl

@[simp] theorem State.countDropped_mem (c : EngCmd) : (s.countDropped c).mem = s.mem := by
  unfold State.countDropped
  split <;> simp

@[simp] theorem State.engReply_mem (c : EngCmd) (status header : Nat) (fault : Word) : (s.engReply c status header fault).mem = s.mem := by
  unfold State.engReply
  split
  · simp
  · split
    · rfl
    · split <;> rfl

@[simp] theorem State.engLeave_mem (c : EngCmd) (status : Nat) : (s.engLeave c status).mem = s.mem := by
  unfold State.engLeave
  split <;> simp

@[simp] theorem State.engUnrun_mem (c : EngCmd) (status : Nat) : (s.engUnrun c status).mem = s.mem :=
  (State.engLeave_mem _ c status).trans (s.modEngCount_mem _ _ _)

@[simp] theorem State.cancelCmds_mem (sel : EngCmd → Bool) : (s.cancelCmds sel).mem = s.mem :=
  foldl_mem (fun u c => u.engUnrun_mem c 3) _ _

@[simp] theorem State.fireCmd_mem (w : Nat) (who : Captured) (addr : Word) (ws : List Word) (abort : Bool) :
    (s.fireCmd w who addr ws abort).mem = s.mem := by
  unfold State.fireCmd
  dsimp only
  split
  · split <;> simp
  · rfl

end

section
variable {s : State} {d a : SReg} (h : s.mem.wf = true)
include h

theorem execEcmd_wf : NextWf (execEcmd d a s) := by
  refine State.heldOp_wf h (.ite (State.trapCur_wf h) (State.loadWords_wf h fun t ws ht => ?_))
  split
  · exact .ite (State.trapCur_wf ht) (.ite (.next ht) (State.complete_wf (by exact ht)))
  · exact .next ht

theorem execEngineCmdArrive_wf {i : Nat} : NextWf (execEngineCmdArrive i s) := by
  unfold execEngineCmdArrive
  split
  · exact .next h
  · next c _ =>
    dsimp only
    split
    · refine .ite (.next h) ?_
      split
      · refine .next ?_
        dsimp only
        split
        · simpa using h
        · exact h
      · refine .next ?_
        split
        · simpa using h
        · exact h
    · exact .ite (.next (by simpa using h)) (.next h)
    · exact .next h

theorem execEngineAnswer_wf {i : Nat} : NextWf (execEngineAnswer i s) := by
  unfold execEngineAnswer
  split
  · exact .next h
  · exact .next (by simpa using h)

theorem execEcancel_wf : NextWf (execEcancel d a s) := by
  refine State.heldOp_wf h (.ite (State.trapCur_wf h) ?_)
  split
  · exact .next h
  · exact .ite (.next h) (State.complete_wf (by simpa using h))

theorem execEstat_wf {sel : Fin 7} : NextWf (execEstat d a sel s) :=
  State.heldOp_wf h (.ite (State.trapCur_wf h) (State.complete_wf h))

theorem State.wf_readRegion (a : Agent) (r : Region) : (s.readRegion a r).2.mem.wf = true := by
  have hr := State.wf_probeRange h a .read false r.cuts
  unfold State.readRegion
  split
  · next heq => exact wf_of_snd heq hr
  · next heq =>
    have ht := wf_of_snd heq hr
    dsimp only
    split
    · exact ht
    · rwa [foldl_mem fun u (z : (Word × Nat) × Xlat) => u.snoopRead_mem z.2.place z.1.2]

omit h in
theorem State.wf_writeCuts (zs : List ((Word × Nat) × Xlat)) : ∀ {s : State} (bs : List Byte), s.mem.wf = true →
    (s.writeCuts zs bs).mem.wf = true := by
  induction zs with
  | nil => exact fun _ h => h
  | cons z zs ih => exact fun bs h => ih _ (State.wf_putBytes _ _ _ _ h)

theorem State.wf_runCmd (c : EngCmd) : (s.runCmd c).mem.wf = true := by
  unfold State.runCmd
  dsimp only
  split
  · exact h
  · have h0 := State.wf_readRegion h c.agent c.r0
    split <;> rename_i heq <;> have ht := wf_of_snd heq h0
    · exact ht
    · have h1 := State.wf_readRegion ht c.agent c.r1
      split <;> rename_i heq <;> have hu := wf_of_snd heq h1
      · exact hu
      · have hw := fun xs => State.wf_probeWrite hu c.agent xs
        split <;> rename_i heq <;> have hv := wf_of_snd heq (hw _)
        · exact hv
        · exact State.wf_writeCuts _ _ hv

theorem State.engineRun_wf {e opcode : Nat} : NextWf (s.engineRun e opcode) := by
  unfold State.engineRun
  split
  · exact .ite (.next (State.wf_runCmd h _)) (.next h)
  · exact .next h

theorem execEngineCompletion_wf {e : Nat} : NextWf (execEngineCompletion e s) := by
  unfold execEngineCompletion
  split
  · exact .next h
  · next c _ =>
    split
    · dsimp only
      refine .next ?_
      rw [State.engReply_mem, State.modEngCount_mem]
      dsimp only
      have hw := fun xs => State.wf_probeWrite (s := (s.sliceNow (e / 2)).2) (by simpa using h) c.agent xs
      split
      · exact h
      · split
        · next heq => exact State.wf_writeCuts _ _ (wf_of_snd heq (hw _))
        · next heq => exact wf_of_snd heq (hw _)
    · exact .next (by simpa using h)
    · exact .next h

/-! ### Fetch (R20) -/

theorem State.wf_fetchHalf (a : Agent) (va : Word) : (s.fetchHalf a va).2.mem.wf = true := by
  have hx := s.wf_xlate a va .exec false h
  unfold State.fetchHalf
  split
  · next heq => exact wf_of_snd heq hx
  · next heq =>
    have ht := wf_of_snd heq hx
    split_ifs
    · exact ht
    · exact ht
    · exact ht
    · simpa using ht

omit h in
theorem State.wf_fetchFrom (a : Agent) (room : Nat) : ∀ {s : State} (va : Word) (ws : List Nat), s.mem.wf = true →
    (s.fetchFrom a room va ws).2.mem.wf = true := by
  induction room with
  | zero =>
    intro s va ws h
    have hf := State.wf_fetchHalf h a va
    unfold State.fetchFrom
    split
    · next heq => exact wf_of_snd heq hf
    · next heq => split <;> exact wf_of_snd heq hf
  | succ room ih =>
    intro s va ws h
    have hf := State.wf_fetchHalf h a va
    unfold State.fetchFrom
    split
    · next heq => exact wf_of_snd heq hf
    · next heq =>
      split
      · exact ih _ _ (wf_of_snd heq hf)
      · exact wf_of_snd heq hf

theorem State.wf_fetchChain (cx : Nat) (va : Word) : (s.fetchChain cx va).2.mem.wf = true := by
  unfold State.fetchChain
  split
  · exact h
  · exact State.wf_fetchFrom _ _ _ _ h

end

/-! ### Jobs (R271 to R298) -/

section
variable (s : State)

@[simp] theorem State.takeHandles_mem (n : Nat) : (s.takeHandles n).2.mem = s.mem := rfl

@[simp] theorem State.addChild_mem (r : LaunchRec) (t : Job) (base i k now : Nat) (lost : Bool) :
    (s.addChild r t base i k now lost).mem = s.mem := by
  unfold State.addChild
  exact ite_mem (s.putJob_mem _ _) ((State.startGroup_mem _ _).trans (s.putJob_mem _ _))

@[simp] theorem State.place_mem (r : LaunchRec) (t : Job) (home : Nat) (mayLose dead : Bool) :
    (s.place r t home mayLose dead).2.mem = s.mem := by
  refine foldl_mem (fun u x => ?_) _ _
  dsimp only
  split
  · rfl
  · split
    · exact foldl_mem (fun v i => v.addChild_mem _ _ _ _ _ _ _) _ _
    · exact foldl_mem (fun v i => v.addChild_mem _ _ _ _ _ _ _) _ _

@[simp] theorem State.charge_mem (h : Nat) : (s.charge h).mem = s.mem := by
  unfold State.charge
  split
  · rfl
  · split
    · rfl
    · dsimp only
      split <;> simp

@[simp] theorem State.clearContext_mem (cx h : Nat) : (s.clearContext cx h).mem = s.mem := rfl

@[simp] theorem State.endJob_mem (h : Nat) (abandoned : Bool) : (s.endJob h abandoned).mem = s.mem := by
  unfold State.endJob
  split
  · rfl
  · dsimp only
    rw [State.dropJob_mem]
    split_ifs <;> split <;> split <;> simp

theorem execJend.commit_mem (j : Job) (h : Nat) : (execJend.commit s j h).mem = s.mem := by
  unfold execJend.commit
  dsimp only
  rw [State.endJob_mem]
  split <;> rfl

end

section
variable {s : State} {d a : SReg} (h : s.mem.wf = true)
include h

theorem State.wf_abandonAct (a : Agent) (src : Nat) (abword abaddr : Word) (weir : Nat) :
    (s.abandonAct a src abword abaddr weir).mem.wf = true := by
  have ha := s.wf_access a abaddr 8 .write true h
  have key : (if abaddr = 0 then s else
      match s.access a abaddr 8 .write true with
      | (.ok x, s) => s.putBytes x.place x.cached (bytesOf abword.toNat 8)
      | (.error _, s) => { s with abwFail := s.abwFail.set 0 a.owner (s.abwFail.get 0 a.owner + 1) }).mem.wf = true := by
    split
    · exact h
    · split
      · next heq => exact State.wf_putBytes _ _ _ _ (wf_of_snd heq ha)
      · next heq =>
        have ht := wf_of_snd heq ha
        exact ht
  unfold State.abandonAct
  dsimp only
  split <;> exact key

theorem State.wf_recordFails (tenant : Nat) (r : LaunchRec) : (s.recordFails tenant r).mem.wf = true := by
  unfold State.recordFails
  split
  · exact State.wf_abandonAct h _ _ _ _ _
  · exact h

theorem execSpawn_wf : NextWf (execSpawn d a s) := by
  refine State.heldOp_wf h (.ite (State.trapCur_wf h) (State.loadWords_wf h fun t ws ht => ?_))
  split
  · dsimp only
    exact .ite (State.trapCur_wf ht) (.ite (State.waitOn_wf ht) (.ite (.next ht) (State.complete_wf (by rwa [State.place_mem]))))
  · exact .next ht

theorem execJend_wf : NextWf (execJend s) := by
  refine State.heldOp_wf h (.ite (State.trapCur_wf h) (.ite (State.waitOn_wf h) ?_))
  split
  · exact .ite (State.trapWith_wf h (s.setMx_mem _ _)) (.next (by rwa [execJend.commit_mem]))
  · exact .next (by rwa [execJend.commit_mem])
  · exact .next h

theorem execJdead_wf : NextWf (execJdead d s) := State.heldOp_wf h (State.complete_wf (by simpa using h))

theorem execJtight_wf : NextWf (execJtight d a s) := by
  refine State.heldOp_wf h ?_
  dsimp only
  split
  · exact State.complete_wf (by simpa using h)
  · exact .next h

end
end Sys2Proof.Machine

namespace Sys2Proof.Machine
open Sys2Proof

/-! ### The governor (R276 to R292) -/

section
variable (s : State)

@[simp] theorem State.giveMx_mem (c h : Nat) (j : Job) : (s.giveMx c h j).mem = s.mem := by
  unfold State.giveMx
  split <;> rfl

@[simp] theorem State.enter_mem (h : Nat) (j : Job) (cx quad : Nat) : (s.enter h j cx quad).mem = s.mem := by
  unfold State.enter
  dsimp only
  rw [State.setCtx_mem, State.putJob_mem, State.giveMx_mem, State.clusterNow_mem]

theorem State.startOn_mem {t : State} {cores : List Nat} {r : ReadyJob} (ht : s.startOn cores r = some t) : t.mem = s.mem := by
  unfold State.startOn at ht
  dsimp only at ht
  split at ht
  · cases ht
  · split at ht <;> obtain ⟨_, -, rfl⟩ := Option.map_eq_some_iff.1 ht <;> simp

@[simp] theorem State.saveImage_mem (h cx : Nat) (st : JobState) : (s.saveImage h cx st).mem = s.mem := by
  unfold State.saveImage
  dsimp only
  rw [State.clearContext_mem, State.modJob_mem, State.charge_mem]

@[simp] theorem State.displace_mem (h : Nat) : (s.displace h).mem = s.mem := by
  unfold State.displace
  split
  · split <;> simp
  · rfl

@[simp] theorem State.parkDisplaced_mem (k : Nat) : (s.parkDisplaced k).mem = s.mem := by
  refine foldl_mem (fun u x => ?_) _ s
  split
  · exact ite_mem (by simp) rfl
  · rfl

theorem State.displaceFor_mem {t : State} {k tenant : Nat} {cores : List Nat} {r : ReadyJob}
    (ht : s.displaceFor k tenant cores r = some t) : t.mem = s.mem := by
  unfold State.displaceFor at ht
  split at ht
  · cases ht
  · obtain ⟨_, -, rfl⟩ := Option.map_eq_some_iff.1 ht
    exact foldl_mem State.displace_mem _ s

theorem State.resumeParked_mem {t : State} {tenant : Nat} {cores : List Nat} (ht : s.resumeParked tenant cores = some t) :
    t.mem = s.mem := by
  obtain ⟨_, -, hr⟩ := Option.bind_eq_some_iff.1 ht
  exact s.startOn_mem hr

theorem State.decideFor_mem {t : State} {k tenant now : Nat} (ht : s.decideFor k tenant now = some t) : t.mem = s.mem := by
  unfold State.decideFor at ht
  dsimp only at ht
  rcases (Option.orElse_eq_some _ _ _).1 ht with h | ⟨-, h⟩
  · obtain ⟨_, -, hr⟩ := Option.bind_eq_some_iff.1 h
    rcases (Option.orElse_eq_some _ _ _).1 hr with h | ⟨-, h⟩
    · exact s.startOn_mem h
    · exact s.displaceFor_mem h
  · split at h
    · cases h
    · rcases (Option.orElse_eq_some _ _ _).1 h with h | ⟨-, h⟩
      · exact s.resumeParked_mem h
      · obtain ⟨_, -, hr⟩ := Option.bind_eq_some_iff.1 h
        exact s.startOn_mem hr

@[simp] theorem State.markBusy_mem (k now : Nat) : (s.markBusy k now).mem = s.mem := by
  refine foldl_mem (fun u c => ?_) _ s
  dsimp only
  split
  · exact u.modCore_mem _ _
  · rfl

@[simp] theorem State.abandonMid_mem (h cx : Nat) : (s.abandonMid h cx).mem = s.mem := by
  unfold State.abandonMid
  dsimp only
  rw [State.modJob_mem, foldl_mem]
  · simp
  · rintro u ⟨x, j⟩
    dsimp only
    split <;> simp

@[simp] theorem State.unhold_mem (r gen : Nat) : (s.unhold r gen).mem = s.mem := by
  refine foldl_mem (fun u y => ?_) _ s
  dsimp only
  split <;> simp

@[simp] theorem State.chargeCluster_mem (k : Nat) : (s.chargeCluster k).mem = s.mem := by
  refine ite_mem rfl ?_
  rw [foldl_mem fun u (x : Nat × Job) => ite_mem (u.charge_mem x.1) rfl]
  rfl

@[simp] theorem State.sendJobs_mem (k dst tenant n : Nat) : (s.sendJobs k dst tenant n).mem = s.mem := by
  induction n generalizing s with
  | zero => rfl
  | succ n ih =>
    refine ite_mem rfl ?_
    split
    · rfl
    · rw [ih, State.modJob_mem]

theorem State.moveGroup_mem {t : State} {h g : Nat} (ht : s.moveGroup h g = some t) : t.mem = s.mem := by
  unfold State.moveGroup at ht
  split at ht
  · cases ht
  · split_ifs at ht <;> cases ht <;> simp

end

section
variable {s : State} {d a b : SReg} (h : s.mem.wf = true)
include h

theorem State.wf_abandonEnd (x cx : Nat) (j : Job) : (s.abandonEnd x cx j).mem.wf = true := by
  unfold State.abandonEnd
  dsimp only
  rw [State.endJob_mem]
  exact State.wf_abandonAct h _ _ _ _ _

theorem execJwid_wf {lvl : Fin 6} : NextWf (execJwid d a lvl s) := State.heldOp_wf h (State.complete_wf h)

theorem execJself_wf : NextWf (execJself d s) := by
  refine State.heldOp_wf h ?_
  split
  · exact State.complete_wf h
  · exact .next h

theorem execJabort_wf : NextWf (execJabort d a s) := by
  refine State.heldOp_wf h ?_
  dsimp only
  split
  · exact .next h
  · refine .ite (.next (by simpa using h)) (.ite (State.trapCur_wf h) ?_)
    split
    · exact .ite (State.complete_wf (by simpa using h)) (State.complete_wf h)
    · exact State.complete_wf h

theorem execJinfo_wf {sel : Fin 8} : NextWf (execJinfo d sel s) := by
  refine State.heldOp_wf h ?_
  split
  · exact State.complete_wf h
  · exact .next h

theorem execWaitSatisfied_wf {cx : Nat} : NextWf (execWaitSatisfied cx s) := by
  unfold execWaitSatisfied
  dsimp only
  split
  · exact .ite (.next (by simpa using h)) (.next h)
  · exact .next h

theorem execIdleExpire_wf {cx : Nat} : NextWf (execIdleExpire cx s) := by
  unfold execIdleExpire
  dsimp only
  split
  · exact .ite (.next (by simpa using h)) (.next (by simpa using h))
  · exact .next h

theorem execGovernorDispatch_wf {k : Nat} : NextWf (execGovernorDispatch k s) := by
  refine .ite (.next h) (.ite (.next (by simpa using h)) ?_)
  dsimp only
  split
  · exact .next (by simpa using h)
  · next heq =>
    obtain ⟨_, -, ho⟩ := List.exists_of_findSome?_eq_some heq
    obtain ⟨u, hu, he⟩ := Option.map_eq_some_iff.1 ho
    cases he
    exact .next (by rw [State.modCluster_mem, State.decideFor_mem _ hu]; simpa using h)

theorem execDeadlineComparator_wf {cx : Nat} : NextWf (execDeadlineComparator cx s) := by
  refine .ite (.next h) ?_
  dsimp only
  split
  · exact .next (by simpa using h)
  · exact .ite (.next (by simpa using h)) (.next (by simpa using h))

theorem execQueuedDeadlinePass_wf {q : QueuedRef} : NextWf (execQueuedDeadlinePass q s) := by
  unfold execQueuedDeadlinePass
  cases q with
  | job x =>
    dsimp only
    split
    · exact .next h
    · split
      · exact .ite (.next (by simpa using h)) (.next (by simpa using h))
      · exact .ite (.next (by simpa using h)) (.next (by simpa using h))
      · exact .next (by simpa using h)
  | handler c i =>
    dsimp only
    split
    · exact .next h
    · refine .ite (.next ?_) (.next (by simpa using h))
      split <;> simpa using h

theorem execAbandonAction_wf {x : Nat} : NextWf (execAbandonAction x s) := by
  unfold execAbandonAction
  split
  · exact .next h
  · split
    · exact .ite (.next (by simpa using h)) (.next h)
    · exact .ite (.next (State.wf_abandonEnd h _ _ _)) (.next h)
    · exact .next h

theorem State.wf_place (r : LaunchRec) (t : Job) (home : Nat) (mayLose dead : Bool) : (s.place r t home mayLose dead).2.mem.wf = true := by
  rwa [State.place_mem]

theorem execReservationRelease_wf {r : Nat} : NextWf (execReservationRelease r s) := by
  unfold execReservationRelease
  split
  · exact .next h
  · next x _ =>
    have hm (u : State) (hu : u.mem = s.mem) : (if decide (x.q ≤ x.consumed) = true then u.unhold r x.gen else u).mem.wf = true := by
      rwa [ite_mem (u.unhold_mem r x.gen) rfl, hu]
    dsimp only
    split
    · exact .next h
    · refine .ite (.next ?_) (.next ?_)
      · apply State.wf_recordFails
        exact hm _ rfl
      · apply State.wf_place
        exact hm _ rfl

theorem execBudgetUpdate_wf : NextWf (execBudgetUpdate s) := .next (by rwa [foldl_mem State.chargeCluster_mem])

theorem execLoadAveraging_wf {k : Nat} : NextWf (execLoadAveraging k s) := by
  refine .ite (.next h) (.ite (.next (by simpa using h)) (.next ?_))
  rw [foldl_mem fun u (x : Nat × Nat) => ite_mem (State.sendJobs_mem _ _ _ _ _) rfl]
  simpa using h

theorem execJobMoveArrive_wf {i : Nat} : NextWf (execJobMoveArrive i s) := by
  unfold execJobMoveArrive
  split
  · exact .next h
  · exact .ite (.next h) (.next (by simpa using h))

theorem State.wf_readBlock (a : Agent) (va : Word) (n : Nat) : (s.readBlock a va n).2.mem.wf = true := by
  have hp := State.wf_wordPlaces h a va n
  unfold State.readBlock
  split
  · next heq => exact wf_of_snd heq hp
  · next ps u heq =>
    have hu : (ps.foldl (fun (s : State) (p : Xlat) => s.snoopRead p.place 8) u).mem.wf = true := by
      rw [foldl_mem fun u (p : Xlat) => u.snoopRead_mem p.place 8]
      exact wf_of_snd heq hp
    dsimp only
    split <;> exact hu

theorem execWeirPacketMake_wf {i : Nat} : NextWf (execWeirPacketMake i s) := by
  unfold execWeirPacketMake
  split
  · exact .next h
  · next f _ =>
    have hr (a : Agent) (va : Word) (n : Nat) :=
      State.wf_readBlock (s := { s with firings := s.firings.eraseIdx i }) h a va n
    dsimp only
    split
    · split <;> rename_i heq <;> have ht := wf_of_snd heq (hr _ _ _)
      · exact .next (by exact ht)
      · exact .ite (.next (State.wf_recordFails (by exact ht) _ _)) (.next (State.wf_place ht _ _ _ _ _))
    · split <;> rename_i heq <;> have ht := wf_of_snd heq (hr _ _ _)
      · exact .next (by exact ht)
      · exact .next (by rwa [State.fireCmd_mem])
    · refine .ite (.next h) ?_
      split <;> rename_i heq <;> have ht := wf_of_snd heq (hr _ _ _)
      · exact .next (by exact ht)
      · refine .ite (.next (by exact ht)) (.next ?_)
        dsimp only
        rwa [ite_mem (State.countSent_mem _ _ _) rfl]
    · exact .next h

/-! ### The registers of a context, traps and returns (R354 to R360) -/

theorem execGet_wf {idx : BitVec 8} : NextWf (execGet d idx s) := by
  refine .ite (State.trapCur_wf h) ?_
  split
  · exact State.trapCur_wf h
  · exact .ite (.next h) (State.freeOp_wf h)

theorem execSet_wf {idx : BitVec 8} : NextWf (execSet a idx s) := by
  refine .ite (State.trapCur_wf h) (.ite (State.trapCur_wf h) (State.heldOp_wf h ?_))
  refine .ite (.next h) (.ite (State.trapCur_wf h) (.ite ?_ (State.complete_wf h)))
  split
  · exact State.trapCur_wf h
  · next heq =>
    obtain ⟨_, -, hm⟩ := Option.bind_eq_some_iff.1 heq
    exact State.complete_wf (by rwa [State.moveGroup_mem _ hm])

theorem execRdcnt_wf {sel : Fin 7} : NextWf (execRdcnt d sel s) :=
  .ite (.next h) (State.freeIssue_wf h fun _ => .next (by simpa using h))

theorem execWaitc_wf {ld st cp mx en : Fin 16} : NextWf (execWaitc ld st cp mx en s) := by
  refine .ite (State.waitOn_wf h) ?_
  split
  · exact .ite (State.trapWith_wf h (s.setMx_mem _ _)) (State.freeOp_wf h)
  · exact State.freeOp_wf h

theorem execTrap_wf {imm : Nat} : NextWf (execTrap imm s) := State.heldOp_wf h (State.trapCur_wf h)

theorem execBrk_wf {imm : BitVec 8} : NextWf (execBrk imm s) := State.heldOp_wf h (State.trapCur_wf h)

theorem State.wf_frameWords (cx : Nat) (c : Ctx) : (s.frameWords cx c).2.mem.wf = true := by
  refine foldl_snd_wf ?_ _ h
  rintro ⟨_ | ws, u⟩ i hu
  · exact hu
  · have ha := fun b va => u.wf_access b va 8 .read false hu
    dsimp only
    split
    · next heq => exact wf_of_snd heq (ha _ _)
    · next heq => simpa using wf_of_snd heq (ha _ _)

theorem State.returnTo_wf {t : Word} : NextWf (s.returnTo t) := by
  refine .ite (State.trapCur_wf h) (.ite (.next h) ?_)
  split
  · exact State.badTrap_wf h
  · refine .ite (State.complete_wf h) (.ite (State.complete_wf h) ?_)
    have hf := State.wf_frameWords h s.sched.cur s.curCtx
    split <;> rename_i heq <;> have ht := wf_of_snd heq hf
    · exact State.trapCur_wf ht
    · exact State.complete_wf ht

theorem State.trapReturn_wf {skip : Bool} : NextWf (s.trapReturn skip) := by
  refine State.heldOp_wf h (.ite (State.trapCur_wf h) (.ite (State.trapCur_wf h) (.ite ?_ (State.returnTo_wf h))))
  have hf := fun va => State.wf_fetchChain h s.sched.cur va
  split <;> rename_i heq <;> have ht := wf_of_snd heq (hf _)
  · exact State.returnTo_wf ht
  · exact State.trapCur_wf ht
  · exact State.trapCur_wf ht

theorem execSvc_wf : NextWf (execSvc d a b s) := by
  refine State.heldOp_wf h (.ite (State.trapCur_wf h) (.ite (State.trapCur_wf h) ?_))
  have hr := s.wf_xlate (s.agentOf s.sched.cur s.curCtx) (s.curCtx.reg a) .read false h
  split <;> rename_i heq <;> have ht := wf_of_snd heq hr
  · exact State.trapCur_wf ht
  · have hw := State.wf_xlate _ (s.agentOf s.sched.cur s.curCtx) (s.curCtx.reg a) .write true ht
    split <;> rename_i heq <;> have hu := wf_of_snd heq hw
    · exact State.trapCur_wf hu
    · refine .ite (State.trapCur_wf hu) (.ite (.next hu) ?_)
      split
      · exact State.complete_wf (by exact hu)
      · exact .next hu

theorem execGateinfo_wf {sel : Fin 7} : NextWf (execGateinfo d sel s) := State.heldReg_wf h

theorem execEnmtr_wf {kind : Fin 3} : NextWf (execEnmtr d a kind s) := by
  refine .ite (State.trapCur_wf h) (State.heldOp_wf h ?_)
  dsimp only
  split
  · exact .ite (State.trapCur_wf h) (State.complete_wf h)
  · split
    · exact State.trapCur_wf h
    · exact .ite (State.trapCur_wf h) (State.complete_wf h)
  · exact State.complete_wf h

end

/-! ### Power gates, images of contexts and the kernel's acts -/

section
variable (s : State)

@[simp] theorem State.gateCore_mem (c : Nat) (edge : Bool) : (s.gateCore c edge).mem = s.mem := by simp [State.gateCore]
@[simp] theorem State.ungateCore_mem (c : Nat) : (s.ungateCore c).mem = s.mem := by simp [State.ungateCore]

@[simp] theorem State.gateUnit_mem (u : GateUnit) : (s.gateUnit u).mem = s.mem := by
  cases u with
  | core c => exact s.gateCore_mem c false
  | cluster k =>
    refine (State.setGated_mem _ _ _).trans ?_
    rw [foldl_mem fun u i => u.modCore_mem _ _]
    rfl
  | engine e => exact State.setGated_mem _ _ _
  | _ => exact s.setGated_mem _ _

@[simp] theorem State.ungateUnit_mem (u : GateUnit) : (s.ungateUnit u).mem = s.mem := by
  cases u with
  | core c => exact s.ungateCore_mem c
  | cluster k =>
    refine (State.setGated_mem _ _ _).trans ?_
    rw [foldl_mem fun u i => ite_mem rfl (u.modCore_mem _ _)]
  | _ => exact s.setGated_mem _ _

@[simp] theorem State.dropTlb_mem (scope owner va : Nat) : (s.dropTlb scope owner va).mem = s.mem := by
  unfold State.dropTlb
  dsimp only
  rw [foldl_mem fun u i => u.modCluster_mem _ _, foldl_mem fun u i => u.modCore_mem _ _]

@[simp] theorem State.loadImage_mem (ref cx : Nat) (rd : Nat → Nat → Nat) : (s.loadImage ref cx rd).mem = s.mem := by
  unfold State.loadImage
  dsimp only
  split
  · next heq =>
    obtain ⟨_, -, hm⟩ := Option.bind_eq_some_iff.1 heq
    rw [State.moveGroup_mem _ hm, State.setCtx_mem]
    split <;> simp
  · rw [State.setCtx_mem]
    split <;> simp

@[simp] theorem State.addRsv_mem (x : RsvDesc) : (s.addRsv x).2.mem = s.mem := by
  unfold State.addRsv
  dsimp only
  split <;> rfl

@[simp] theorem State.kernelReturn_mem (cx : Nat) (pc : Word) (status : CtxStatus) : (s.kernelReturn cx pc status).mem = s.mem :=
  s.modCtx_mem cx _

end

section
variable {s : State} {d a b : SReg} (h : s.mem.wf = true)
include h

theorem State.pgateOp_wf {k : State → GateUnit → Out} (hk : ∀ u, NextWf (k s u)) : NextWf (s.pgateOp d a k) := by
  refine State.supervisorOnly_wf h (State.heldOp_wf h ?_)
  split
  · exact State.trapCur_wf h
  · exact hk _

theorem State.pgateDone_wf {v : Word} : NextWf (s.pgateDone d v) := State.complete_wf h

theorem execPgateGate_wf : NextWf (execPgateGate d a s) :=
  State.pgateOp_wf h fun _ => .ite (State.pgateDone_wf h) (.ite (State.pgateDone_wf h) (State.pgateDone_wf (by simpa using h)))

theorem execPgateUngate_wf : NextWf (execPgateUngate d a s) :=
  State.pgateOp_wf h fun _ => .ite (State.pgateDone_wf h) (.ite (State.pgateDone_wf h) (.next h))

theorem execPgateQuery_wf : NextWf (execPgateQuery d a s) := State.pgateOp_wf h fun _ => State.pgateDone_wf h

theorem execHalt_wf : NextWf (execHalt a s) := by
  refine State.supervisorOnly_wf h (State.heldOp_wf h ?_)
  dsimp only
  split
  · exact .next h
  · exact .next (by rw [State.abandonJob_mem]; exact State.wf_logCore h _ _ _ _ _ _)

theorem State.ctxOp_wf {zeroOk : Bool} {k : State → Nat → Word → Out} (hk : ∀ cx sa, NextWf (k s cx sa)) :
    NextWf (s.ctxOp d a b zeroOk k) :=
  State.supervisorOnly_wf h (State.heldOp_wf h (.ite (State.trapCur_wf h) (.ite (State.trapCur_wf h) (hk _ _))))

theorem execCtxsave_wf : NextWf (execCtxsave d a b s) := by
  refine State.ctxOp_wf h fun cx sa => .ite (State.complete_wf h) (.ite (.next (by simpa using h)) (.ite (.next h) ?_))
  have hw := State.wf_probeWrite h (s.agentOf s.sched.cur s.curCtx) (imagePages sa)
  split <;> rename_i heq <;> have ht := wf_of_snd heq hw
  · exact State.trapWith_wf ht (State.setCtx_mem _ _ _)
  · exact State.complete_wf (by rw [State.setCtx_mem]; exact State.wf_writeCuts _ _ ht)

theorem execCtxload_wf : NextWf (execCtxload d a b s) := by
  refine State.ctxOp_wf h fun cx sa => .ite (State.complete_wf h) (.ite (State.complete_wf (by simpa using h)) ?_)
  have hr := State.wf_probeRange h (s.agentOf s.sched.cur s.curCtx) .read false (imagePages sa)
  split <;> rename_i heq <;> have ht := wf_of_snd heq hr
  · exact State.trapCur_wf ht
  · refine .ite (.next ht) ?_
    split
    · exact State.trapCur_wf ht
    · have hs := ht
      rw [← foldl_mem fun u (x : Xlat × (Word × Nat)) => u.snoopRead_mem x.1.place x.2.2] at hs
      exact .ite (State.complete_wf hs) (State.complete_wf (by rwa [State.modCtx_mem, State.loadImage_mem]))

theorem execTlbinv_wf : NextWf (execTlbinv a b s) :=
  State.supervisorOnly_wf h (State.heldOp_wf h (.ite (State.trapCur_wf h)
    (.ite (.next (by simpa using h)) (State.complete_wf (by simpa using h)))))

theorem execIdle_wf : NextWf (execIdle a s) :=
  State.heldOp_wf h (.ite (State.complete_wf (by simpa using h)) (State.waitOn_wf (by simpa using h)))

theorem State.wf_addRsv (x : RsvDesc) : (s.addRsv x).2.mem.wf = true := by rwa [State.addRsv_mem]

theorem execRsvadd_wf : NextWf (execRsvadd d a s) :=
  State.supervisorOnly_wf h (State.heldOp_wf h (.ite (State.trapCur_wf h)
    (State.loadWords_wf h fun _ _ ht => State.complete_wf (State.wf_addRsv ht _))))

theorem State.wf_kernelHalt (cx : Nat) : (s.kernelHalt cx).mem.wf = true := by
  unfold State.kernelHalt
  dsimp only
  split
  · rw [State.abandonJob_mem]
    exact State.wf_logCore h _ _ _ _ _ _
  · exact State.wf_logCore h _ _ _ _ _ _

theorem State.wf_kernelSkip (cx : Nat) : (s.kernelSkip cx).mem.wf = true := by
  have hf := fun a pc => State.wf_fetchFrom a 4 pc [] h
  unfold State.kernelSkip
  dsimp only
  split
  · next heq => exact (by rw [State.kernelReturn_mem]; exact wf_of_snd heq (hf _ _))
  · next heq => exact State.wf_kernelHalt (wf_of_snd heq (hf _ _)) cx

theorem State.wf_kernelReadS5 (cx : Nat) {k : State} (hk : k.mem.wf = true) : (s.kernelReadS5 cx k).mem.wf = true := by
  unfold State.kernelReadS5
  dsimp only
  split
  · exact hk
  · split
    · exact h
    · exact State.wf_takeTrap (by simpa using h) _ _ _

theorem State.wf_kernelAct (cx : Nat) : (s.kernelAct cx).mem.wf = true := by
  have hskip (c : Ctx) : ((s.setCtx cx c).kernelSkip cx).mem.wf = true := State.wf_kernelSkip (by simpa using h) cx
  unfold State.kernelAct
  dsimp only
  split_ifs
  · exact h
  · exact State.wf_kernelHalt h cx
  · exact State.wf_kernelReadS5 h cx (hskip _)
  · exact hskip _
  · exact hskip _
  · split
    · split
      · exact h
      · rwa [State.kernelReturn_mem]
    · exact State.wf_kernelHalt h cx
  · exact h
  · rwa [State.kernelReturn_mem]
  · exact State.wf_kernelHalt h cx

end
end Sys2Proof.Machine

namespace Sys2Proof.Machine
open Sys2Proof

/-! ### Windows, edges and loans (R331 to R353) -/

section
variable (s : State)

@[simp] theorem State.finishLoan_mem (core now : Nat) : (s.finishLoan core now).mem = s.mem := by
  unfold State.finishLoan
  dsimp only
  split <;> rfl

@[simp] theorem State.haltCore_mem (core : Nat) : (s.haltCore core).mem = s.mem := by
  unfold State.haltCore
  dsimp only
  rw [State.modCore_mem]
  refine foldl_mem (fun u x => ?_) _ s
  split <;> simp

@[simp] theorem State.beginEdge_mem (core at_ window in_ : Nat) : (s.beginEdge core at_ window in_).mem = s.mem := by
  unfold State.beginEdge
  dsimp only
  rw [State.modCore_mem, State.haltCore_mem, State.finishLoan_mem]

@[simp] theorem State.switchCore_mem (t : Table) (w : WinPos) (core : Nat) : (s.switchCore t w core).mem = s.mem := by
  unfold State.switchCore
  dsimp only
  split
  · rfl
  · refine ite_mem rfl ?_
    rw [State.beginEdge_mem]
    exact ite_mem (s.ungateCore_mem core) rfl

@[simp] theorem State.newCycle_mem (cycle : Nat) : (s.newCycle cycle).mem = s.mem := ite_mem rfl rfl

@[simp] theorem State.saveCore_mem (core : Nat) (loan : Bool) : (s.saveCore core loan).mem = s.mem := by
  refine foldl_mem (fun u x => ?_) _ s
  split <;> simp

theorem State.resumeSaved_mem {x : Nat × Job} {k : State → State} (hk : ∀ u, (k u).mem = u.mem) : (s.resumeSaved x k).mem = s.mem :=
  ite_mem (by simp) (by simp [hk])

@[simp] theorem State.resumeLent_mem (core tenant : Nat) : (s.resumeLent core tenant).mem = s.mem := by
  refine foldl_mem (fun u x => u.resumeSaved_mem fun v => ?_) _ s
  split
  · exact ite_mem rfl (v.enter_mem _ _ _ _)
  · rfl

@[simp] theorem State.restoreCore_mem (core tenant : Nat) : (s.restoreCore core tenant).mem = s.mem := by
  unfold State.restoreCore
  dsimp only
  rw [State.resumeLent_mem]
  refine foldl_mem (fun u x => u.resumeSaved_mem fun v => ?_) _ s
  split
  · exact ite_mem (v.putJob_mem _ _) (v.enter_mem _ _ _ _)
  · rfl

end

section
variable {s : State} (h : s.mem.wf = true)
include h

theorem State.wf_chargeOverrun (core now : Nat) (e : Edge) : (s.chargeOverrun core now e).mem.wf = true := by
  unfold State.chargeOverrun
  dsimp only
  split
  · exact h
  · split
    · exact State.wf_log _ _ (State.wf_log s _ h)
    · exact State.wf_log s _ h

theorem execWindowStart_wf {u : TimeUnit} : NextWf (execWindowStart u s) := by
  unfold execWindowStart
  split
  · exact .next h
  · refine .ite (.next h) ?_
    cases u with
    | cluster k =>
      refine .ite (.next h) (.ite (.next (by simpa using h)) (.next ?_))
      rw [foldl_mem fun u c => u.switchCore_mem _ _ c]
      simpa using h
    | slice x => exact .ite (.next h) (.ite (.next (by simpa using h)) (.next (by simpa using h)))

theorem execEdgeGuard_wf {core : Nat} : NextWf (execEdgeGuard core s) :=
  .ite (.next h) (.next (by dsimp only; rw [ite_mem (State.modCore_mem _ _ _) rfl]; exact h))

theorem execEdgeSwapComplete_wf {core : Nat} : NextWf (execEdgeSwapComplete core s) := by
  refine .ite (.next h) ?_
  split
  · exact .next h
  · refine .ite (.next h) (.next ?_)
    dsimp only
    rw [ite_mem (State.gateCore_mem _ _ _) rfl, State.modCore_mem]
    have hs := fun now e => State.wf_chargeOverrun (s := ((s.clusterNow (clusterOf core)).2).saveCore core e.loan) (by simpa using h) core now e
    split
    · exact hs _ _
    · rw [State.restoreCore_mem]
      exact hs _ _

theorem execCoreRepower_wf {core : Nat} : NextWf (execCoreRepower core s) := by
  refine .ite (.next h) ?_
  dsimp only
  split
  · split
    · exact .ite (.next (by simpa using h)) (.next (by simpa using h))
    · exact .next (by simpa using h)
  · exact .next (by simpa using h)

theorem execLoanStart_wf {core : Nat} : NextWf (execLoanStart core s) := by
  refine .ite (.next h) ?_
  dsimp only
  split
  · refine .ite (.next (by simpa using h)) ?_
    split
    · exact .next (by simpa using h)
    · exact .next (by simpa using h)
  · exact .next (by simpa using h)

theorem execLoanEnd_wf {core : Nat} : NextWf (execLoanEnd core s) := by
  refine .ite (.next h) ?_
  dsimp only
  split
  · exact .ite (.next (by simpa using h)) (.next (by simpa using h))
  · exact .next h

theorem execTableEpoch_wf : NextWf (execTableEpoch s) := by
  unfold execTableEpoch
  split
  · exact .ite (.next h) (.next h)
  · exact .next h

end

/-! ### The service cores (R361 to R371) -/

section
variable (s : State)

@[simp] theorem State.svcCharge_mem (sl : Nat) (t : SvcTurn) (q : SvcCore) : (s.svcCharge sl t q).mem = s.mem := by
  obtain ⟨_, _, -, -, h⟩ := s.svcCharge_frame sl t q
  rw [h]

@[simp] theorem State.svcKeep_mem (sl : Nat) (t : SvcTurn) (i : Nat) (c : Call) : (s.svcKeep sl t i c).mem = s.mem := s.svcCharge_mem _ _ _

@[simp] theorem State.svcReply_mem (sl : Nat) (c : Call) (reply word : Nat) : (s.svcReply sl c reply word).mem = s.mem := by
  unfold State.svcReply
  dsimp only
  split_ifs <;> rfl

@[simp] theorem State.mapCalls_mem (f : Call → Call) : (s.mapCalls f).mem = s.mem := rfl

@[simp] theorem State.askOthers_mem (sl id : Nat) (ws : List PageWrite) : (s.askOthers sl id ws).mem = s.mem := by
  refine foldl_mem (fun u k => ?_) _ s
  rfl

@[simp] theorem State.askServed_mem (id : Option Nat) : (s.askServed id).mem = s.mem := ite_mem rfl rfl

@[simp] theorem State.setHrRows_mem (port g : Nat) (r : HrRows) : (s.setHrRows port g r).mem = s.mem := rfl

@[simp] theorem State.snoopPages_mem (o : HostObj) : (s.snoopPages o).mem = s.mem := foldl_mem (fun u _ => by simp) _ s

@[simp] theorem State.markGone_mem (key : Nat) (o : HostObj) : (s.markGone key o).mem = s.mem := rfl

@[simp] theorem State.resumeObject_mem (h : Nat) : (s.resumeObject h).mem = s.mem := s.modCtx_mem _ _

@[simp] theorem State.resumeStop_mem (p : Stop) (pc : Word) : (s.resumeStop p pc).mem = s.mem := s.modCtx_mem _ _

end

section
variable {s : State} {sl : Nat} (h : s.mem.wf = true)
include h

theorem State.wf_svcTake (t : SvcTurn) : (s.svcTake sl t).mem.wf = true := by rwa [State.svcTake_mem]

theorem State.wf_svcKeep (t : SvcTurn) (i : Nat) (c : Call) : (s.svcKeep sl t i c).mem.wf = true := by rwa [State.svcKeep_mem]

theorem State.wf_svcRead (c : Call) (va n : Nat) : (s.svcRead c va n).2.mem.wf = true := by
  unfold State.svcRead
  split
  · rwa [State.snoopRead_mem]
  · have hr := State.wf_readRegion h c.agent { base := va, len := n }
    split <;> next heq => exact wf_of_snd heq hr

theorem State.wf_svcBlock (c : Call) : (s.svcBlock c).2.mem.wf = true := by
  unfold State.svcBlock
  split
  · exact h
  · have hr := State.wf_readRegion h c.agent { base := c.block.toNat, len := 64 }
    split <;> next heq => exact wf_of_snd heq hr

theorem State.wf_svcFinish (c : Call) (ws : List Nat) (r : Nat × Nat) : (s.svcFinish sl c ws r).mem.wf = true := by
  unfold State.svcFinish
  dsimp only
  rw [State.svcReply_mem]
  split
  · split <;> exact h
  · have hw := State.wf_probeWrite h c.agent [(c.block + 0x30, 16)]
    split <;> rename_i heq <;> have ht := wf_of_snd heq hw
    · exact State.wf_writeCuts _ _ ht
    · exact ht

theorem State.wf_svcBegin (t : SvcTurn) (i : Nat) (c : Call) : (s.svcBegin sl t i c).mem.wf = true := by
  have hb := State.wf_svcBlock h c
  unfold State.svcBegin
  split
  · next heq => exact State.wf_svcTake (wf_of_snd heq hb) t
  · next heq => exact State.wf_svcKeep (by simpa using wf_of_snd heq hb) t i _

theorem State.svcLast_wf {ok : Nat → Bool} {k : SvcTurn → Nat → Call → List Nat → Out} (hk : ∀ t i c ws, NextWf (k t i c ws)) :
    NextWf (s.svcLast sl ok k) := by
  unfold State.svcLast
  split
  · exact .next h
  · next t _ =>
    split
    · exact .next h
    · split
      · exact .next h
      · split
        · exact .next (State.wf_svcBegin h t _ _)
        · exact .next (State.wf_svcKeep h t _ _)
        · split
          · exact .next (State.wf_svcFinish (State.wf_svcTake h t) _ _ _)
          · exact .ite (hk _ _ _ _) (.next h)

theorem State.svcServeWhen_wf {ok : Nat → Bool} {who : Caller} {due : Call → Bool} {fn : State → Call → (Nat → Nat) → SvcResult}
    (hfn : ∀ u c arg, u.mem.wf = true → (fn u c arg).2.mem.wf = true) : NextWf (s.svcServeWhen sl ok who due fn) :=
  State.svcLast_wf h fun t _ _ _ => .ite (.next (State.wf_svcKeep h t _ _))
    (.ite (.next (State.wf_svcFinish (State.wf_svcTake h t) _ _ _))
      (.next (State.wf_svcFinish (hfn _ _ _ (State.wf_svcTake h t)) _ _ _)))

theorem State.svcServe_wf {ok : Nat → Bool} {who : Caller} {fn : State → Call → (Nat → Nat) → SvcResult}
    (hfn : ∀ u c arg, u.mem.wf = true → (fn u c arg).2.mem.wf = true) : NextWf (s.svcServe sl ok who fn) := State.svcServeWhen_wf h hfn

theorem State.svcServe0_wf {ok : Nat → Bool} {fn : State → Call → (Nat → Nat) → SvcResult}
    (hfn : ∀ u c arg, u.mem.wf = true → (fn u c arg).2.mem.wf = true) : NextWf (s.svcServe0 sl ok fn) := State.svcServeWhen_wf h hfn

theorem State.wf_withRead {c : Call} {va n : Nat} {k : State → List Byte → SvcResult} (hk : ∀ u bs, u.mem.wf = true → (k u bs).2.mem.wf = true) :
    (s.withRead c va n k).2.mem.wf = true := by
  have hr := State.wf_svcRead h c va n
  unfold State.withRead
  split
  · next heq => exact hk _ _ (wf_of_snd heq hr)
  · next heq => exact wf_of_snd heq hr

theorem State.wf_pageWrite (w : PageWrite) : (s.pageWrite w).mem.wf = true := by
  unfold State.pageWrite
  cases w with
  | bytes p bs =>
    dsimp only
    split
    · exact State.wf_storeBytes _ _ _ _ h
    · split
      · exact State.wf_putBytes _ _ _ _ h
      · exact State.wf_dropHostWrite h _ _
  | _ => exact State.wf_putWord _ _ _ _ h

theorem State.wf_ownWrites (ws : List PageWrite) : (s.ownWrites sl ws).mem.wf = true :=
  foldl_wf (fun _ w hu => State.wf_pageWrite hu w) _ h

theorem State.withAsk_wf {t : SvcTurn} {i : Nat} {c : Call} {w : List PageWrite} {pages : List Nat} {k : List Nat → Out}
    (hk : ∀ pages, NextWf (k pages)) : NextWf (s.withAsk sl t i c w pages k) :=
  .ite (hk _) (.ite (hk _) (.ite (.next (State.wf_svcKeep h t _ _))
    (.next (by rw [State.askOthers_mem]; exact State.wf_svcKeep h t _ _))))

/-- A plan keeps the form, and so does the effect that it plans. -/
def PlanWf (p : Except (Nat × Nat) (List PageWrite × (State → SvcResult)) × State) : Prop :=
  p.2.mem.wf = true ∧ ∀ w k, p.1 = .ok (w, k) → ∀ u, u.mem.wf = true → (k u).2.mem.wf = true

omit h in
theorem PlanWf.error {t : State} {r : Nat × Nat} (h : t.mem.wf = true) : PlanWf (.error r, t) := ⟨h, fun _ _ e => by cases e⟩

omit h in
theorem PlanWf.ok {t : State} {w : List PageWrite} {k : State → SvcResult} (h : t.mem.wf = true)
    (hk : ∀ u, u.mem.wf = true → (k u).2.mem.wf = true) : PlanWf (.ok (w, k), t) := ⟨h, fun _ _ e => by cases e; exact hk⟩

theorem State.svcServeAsk_wf {ok : Nat → Bool} {who : Caller}
    {plan : State → Call → (Nat → Nat) → Except (Nat × Nat) (List PageWrite × (State → SvcResult)) × State}
    (hp : ∀ u c arg, u.mem.wf = true → PlanWf (plan u c arg)) : NextWf (s.svcServeAsk sl ok who plan) := by
  refine State.svcLast_wf h fun t i c ws => .ite (.next (State.wf_svcFinish (State.wf_svcTake h t) _ _ _)) ?_
  obtain ⟨hs, hk⟩ := hp s c (fun j => ws.getD (2 + j) 0) h
  split
  · next heq => exact .next (State.wf_svcFinish (State.wf_svcTake (wf_of_snd heq hs) t) _ _ _)
  · next w k u heq =>
    rw [heq] at hs hk
    exact State.withAsk_wf hs fun _ => .next (State.wf_svcFinish (hk w k rfl _ (State.wf_ownWrites (State.wf_svcTake hs t) _)) _ _ _)

theorem execSvcCallArrive_wf {i : Nat} : NextWf (execSvcCallArrive i s) := by
  unfold execSvcCallArrive
  split
  · exact .next h
  · refine .ite (.next h) ?_
    dsimp only
    split
    · refine .next ?_
      dsimp only
      split <;> exact h
    · refine .next ?_
      split <;> exact h

theorem execSvcAnswer_wf {i : Nat} : NextWf (execSvcAnswer i s) := by
  unfold execSvcAnswer
  split
  · exact .next h
  · exact .next (by simpa using h)

theorem execNop_wf : NextWf (execNop sl s) := by
  refine State.svcLast_wf h fun t _ _ _ => ?_
  have ht : (s.svcTake sl t).mem.wf = true := State.wf_svcTake h t
  exact .ite (.next (State.wf_svcFinish (by simpa using ht) _ _ _)) (.ite (.next (State.wf_svcFinish ht _ _ _))
    (.next (by rw [State.askServed_mem]; exact State.wf_ownWrites ht _)))

theorem execInternalCall_wf {dst : Nat} {ws : List Word} : NextWf (execInternalCall sl dst ws s) := by
  refine .ite (.next h) (.ite (.next h) (.ite (.next h) (State.svcLast_wf h fun t i c _ => .ite (.next h) (.next ?_))))
  simpa using h

theorem execRsvAdd_wf : NextWf (execRsvAdd sl s) := by
  refine State.svcServe_wf h fun u c arg hu => ?_
  split
  · exact hu
  · exact State.wf_withRead hu fun v bs hv => State.wf_addRsv hv _

theorem execRsvRemove_wf : NextWf (execRsvRemove sl s) := by
  refine State.svcServe_wf h fun u c arg hu => ?_
  split
  · exact hu
  · split
    · exact hu
    · exact (congrArg Memory.wf (ite_mem (State.unhold_mem _ _ _) rfl)).trans hu

theorem execCounter_wf : NextWf (execCounter sl s) := by
  refine State.svcServe_wf h fun u c arg hu => ?_
  dsimp only
  split
  · split_ifs <;> exact hu
  · split_ifs <;> exact hu
  · split_ifs <;> exact hu
  · split_ifs <;> exact hu
  · exact hu

theorem execMapObject_wf : NextWf (execMapObject sl s) := by
  refine State.svcServe_wf h fun u c arg hu => State.wf_withRead hu fun v bs hv => ?_
  dsimp only
  split
  · split
    · exact (congrArg Memory.wf (State.snoopPages_mem _ _)).trans (by simpa using hv)
    · exact (congrArg Memory.wf (State.snoopPages_mem _ _)).trans (by simpa using hv)
  · exact hv

theorem State.wf_cleaned (tenant : Nat) (o : HostObj) (pages : List Nat) : (s.cleaned sl tenant o pages).mem.wf = true := by
  unfold State.cleaned
  rw [foldl_mem fun u i => u.dropTlb_mem 0 tenant (o.va + i)]
  exact State.wf_ownWrites h _

theorem State.withObject_wf {t : SvcTurn} {i : Nat} {c : Call} {ws : List Nat} {k : State → Nat → HostObj → Out}
    (hk : ∀ u id o, u.mem.wf = true → NextWf (k u id o)) : NextWf (s.withObject sl t i c ws k) := by
  have he (r : Nat × Nat) : NextWf (.next ((s.svcTake sl t).svcFinish sl c ws r)) := .next (State.wf_svcFinish (State.wf_svcTake h t) _ _ _)
  refine .ite (he _) ?_
  split
  · exact he _
  · exact .ite (he _) (.ite (.next (State.wf_svcKeep h t _ _)) (hk _ _ _ (by simpa using h)))

theorem State.harvestRun_wf {t : SvcTurn} {i : Nat} {c : Call} {ws : List Nat} {o : HostObj} {k : State → List Nat → Out}
    (hk : ∀ u pages, u.mem.wf = true → NextWf (k u pages)) : NextWf (s.harvestRun sl t i c ws o k) := by
  have hs (u : State) (hu : u.mem.wf = true) (pages : List Nat) : (pages.foldl (fun (s : State) i =>
      (leafSlot s.mem (o.va + i) 3 (ptePpn o.root.toNat)).elim s fun x => s.snoopRead (ptePpn x.2) 4096) u).mem.wf = true := by
    rw [foldl_mem]
    · exact hu
    · intro v i
      cases leafSlot v.mem (o.va + i) 3 (ptePpn o.root.toNat) with
      | none => rfl
      | some x => exact v.snoopRead_mem _ _
  unfold State.harvestRun
  dsimp only
  split
  · exact State.withAsk_wf (hs _ h _) fun _ => hk _ _ (State.wf_ownWrites (hs _ h _) _)
  · split
    · exact .next (State.wf_svcFinish (State.wf_svcTake h t) _ _ _)
    · refine State.withAsk_wf h fun _ => ?_
      have hc := fun pages => hs _ (State.wf_cleaned (sl := sl) h c.tenant o pages)
      exact State.withAsk_wf (hc _ _) fun _ => hk _ _ (State.wf_ownWrites (hc _ _) _)

theorem execHarvest_wf : NextWf (execHarvest sl s) :=
  State.svcLast_wf h fun t _ _ _ => State.withObject_wf h fun _ _ _ hu => State.harvestRun_wf hu fun _ _ hv =>
    .next (State.wf_svcFinish (State.wf_svcTake hv t) _ _ _)

theorem execHarvestAuto_wf {t obj : Nat} : NextWf (execHarvestAuto t obj s) := by
  unfold execHarvestAuto
  dsimp only
  split
  · exact .next h
  · exact .ite (.next (by simpa using h)) (.next (by simpa using h))

theorem State.wf_unmap (tenant id : Nat) (o : HostObj) : (s.unmap sl tenant id o).mem.wf = true := by
  unfold State.unmap
  dsimp only
  rw [foldl_mem fun u i => u.dropTlb_mem 0 tenant (o.va + i)]
  exact State.wf_ownWrites h _

theorem execUnmapObject_wf : NextWf (execUnmapObject sl s) := by
  refine State.svcLast_wf h fun t i c ws => State.withObject_wf h fun u id o hu => ?_
  have leaves (v : State) (hv : v.mem.wf = true) (c : Call) : NextWf (if v.filling c.tenant o then .next (v.svcKeep sl t i c)
      else v.withAsk sl t i c (v.unmapWrites o) [] fun _ => .next (((v.svcTake sl t).unmap sl c.tenant id o).svcFinish sl c ws (0, 0))) :=
    .ite (.next (State.wf_svcKeep hv t i c))
      (State.withAsk_wf hv fun _ => .next (State.wf_svcFinish (State.wf_unmap (State.wf_svcTake hv t) _ _ _) _ _ _))
  exact .ite (leaves u hu c) (State.harvestRun_wf hu fun v _ hv => leaves _ (by exact hv) _)

theorem State.wf_faultUnserved (f : ObjFault) : (s.faultUnserved f).mem.wf = true := by
  unfold State.faultUnserved
  dsimp only
  split
  · exact h
  · split
    · exact h
    · rw [State.abandonJob_mem]
      exact State.wf_logCore h _ _ _ _ _ _

theorem execObjectFaultServe_wf : NextWf (execObjectFaultServe sl s) := by
  unfold execObjectFaultServe
  split
  · exact .next h
  · next t _ =>
    have ht : (s.svcTake sl t).mem.wf = true := State.wf_svcTake h t
    split
    · exact .next h
    · dsimp only
      split
      · exact .next h
      · split
        · exact .next (State.wf_faultUnserved ht _)
        · have hw (root va : Nat) : ((s.svcTake sl t).snoopWalk root va).mem.wf = true := by simpa using ht
          split
          · exact .next (State.wf_faultUnserved (hw _ _) _)
          · refine .ite (.next (by rw [State.resumeObject_mem]; exact hw _ _)) (.ite (.next (State.wf_faultUnserved (hw _ _) _))
              (.ite (.next (State.wf_faultUnserved (hw _ _) _)) ?_))
            split
            · exact .next (by rwa [State.svcCharge_mem])
            · refine .ite (.next ?_) (.ite (.next (by rwa [State.svcCharge_mem])) (.next ?_))
              · rw [State.resumeObject_mem]
                exact State.wf_pageWrite (State.wf_storeBytes _ _ _ _ (by rw [State.snoopRead_mem]; exact hw _ _)) _
              · rw [State.askOthers_mem]
                exact State.wf_storeBytes _ _ _ _ (by rwa [State.snoopRead_mem, State.svcCharge_mem])

theorem execQuarClear_wf : NextWf (execQuarClear sl s) := State.svcServe_wf h fun _ _ _ hu => hu

theorem execSweepSet_wf : NextWf (execSweepSet sl s) := State.svcServe_wf h fun u c arg hu => by
  split <;> exact hu

theorem execLogSet_wf : NextWf (execLogSet sl s) := State.svcServeAsk_wf h fun u c arg hu => by
  dsimp only
  split
  · exact .error hu
  · exact .ok hu fun _ hv => hv

theorem execFlumeSet_wf : NextWf (execFlumeSet sl s) := by
  refine State.svcServe_wf h fun u c arg hu => ?_
  dsimp only
  split
  · exact hu
  · refine State.wf_withRead hu fun v bs hv => ?_
    split
    · exact hv
    · split <;> exact hv

theorem State.wf_loadCore (t : LoadTable) (tenant : Nat) (x : Nat × Nat) : (s.loadCore t tenant x).mem.wf = true := by
  unfold State.loadCore
  dsimp only
  rw [foldl_mem fun u i => u.modCore_mem _ _]
  exact State.wf_storeBytes _ _ _ _ (State.wf_storeBytes _ _ _ _ (by simpa using h))

theorem State.wf_loadCluster (t : LoadTable) (tenant k : Nat) : (s.loadCluster t tenant k).mem.wf = true := by
  unfold State.loadCluster
  dsimp only
  rw [foldl_mem fun u i => u.setFlume_mem _ _ _]
  exact State.wf_storeBytes _ _ _ _ (by simpa using h)

theorem execImageLoad_wf : NextWf (execImageLoad sl s) := by
  refine State.svcServe_wf h fun u c arg hu => ?_
  dsimp only
  split
  · exact hu
  · have hr : (u.snoopRead (arg 0) 0xF00).mem.wf = true := by simpa using hu
    split
    · exact hr
    · exact foldl_wf (fun _ k hv => State.wf_loadCluster hv _ _ k) _ (foldl_wf (fun _ x hv => State.wf_loadCore hv _ _ x) _ hr)

theorem State.wf_pastStop (p : Stop) : (s.pastStop p).2.mem.wf = true := by
  have hf := fun a => State.wf_fetchFrom a 4 p.tepc [] h
  unfold State.pastStop
  dsimp only
  split <;> next heq => exact wf_of_snd heq (hf _)

theorem execDebugOpen_wf : NextWf (execDebugOpen sl s) := State.svcServe0_wf h fun u c arg hu => by
  split_ifs <;> exact hu

theorem execDebugClose_wf : NextWf (execDebugClose sl s) := by
  refine State.svcServe0_wf h fun u c arg hu => ?_
  split
  · exact hu
  · exact foldl_wf (fun v p hv => by rw [State.resumeStop_mem]; exact State.wf_pastStop hv p) _ hu

theorem execDebugRead_wf : NextWf (execDebugRead sl s) := by
  refine State.svcLast_wf h fun t i c ws => ?_
  have ht : (s.svcTake sl t).mem.wf = true := State.wf_svcTake h t
  refine .ite (.next (State.wf_svcFinish ht _ _ _)) (.ite (.next (State.wf_svcKeep h t _ _)) ?_)
  split
  · exact .next (State.wf_svcFinish ht _ _ _)
  · exact .ite (.next (State.wf_svcFinish ht _ _ _)) (State.withAsk_wf h fun _ => .next (State.wf_svcFinish (State.wf_ownWrites ht _) _ _ _))

theorem execDebugWrite_wf : NextWf (execDebugWrite sl s) := by
  refine State.svcServe0_wf h fun u c arg hu => ?_
  unfold State.debugBuffer
  split
  · exact hu
  · split
    · exact hu
    · have hr := (congrArg Memory.wf (u.snoopRead_mem (arg 2) imageSize)).trans hu
      dsimp only
      generalize u.snoopRead (arg 2) imageSize = v at hr ⊢
      generalize State.imageDiffers _ _ _ = differs
      cases differs with
      | true => exact hr
      | false =>
        rw [if_neg Bool.false_ne_true, State.svcDone, State.loadImage_mem]
        exact hr

theorem execDebugResume_wf : NextWf (execDebugResume sl s) := by
  refine State.svcServe0_wf h fun u c arg hu => ?_
  split
  · exact hu
  · split
    · exact (congrArg Memory.wf (State.resumeStop_mem _ _ _)).trans (State.wf_pastStop hu _)
    · exact (congrArg Memory.wf (State.resumeStop_mem _ _ _)).trans hu

end
end Sys2Proof.Machine

namespace Sys2Proof.Machine
open Sys2Proof

/-! ### The load of the table, host queues and the host (R361 to R410) -/

section
variable (s : State)

@[simp] theorem State.abandonAll_mem : s.abandonAll.mem = s.mem := foldl_mem (fun u _ => u.abandonJob_mem _) _ s

@[simp] theorem State.resetCore_mem (c : Nat) : (s.resetCore c).mem = s.mem := ite_mem rfl (State.gateCore_mem _ _ _)

@[simp] theorem State.resetCluster_mem (k : Nat) : (s.resetCluster k).mem = s.mem := rfl

@[simp] theorem State.takeTable_mem (t : Table) : (s.takeTable t).mem = s.mem := by
  unfold State.takeTable
  dsimp only
  rw [foldl_mem State.resetCluster_mem, foldl_mem State.resetCore_mem]

@[simp] theorem State.flip_mem (page : Nat) (device : Bool) : (s.flip page device).mem = s.mem := by
  unfold State.flip
  dsimp only
  split <;> rfl

@[simp] theorem State.enterFilter_mem (line : Nat) (excl : Bool) : (s.enterFilter line excl).mem = s.mem := rfl

@[simp] theorem State.hostTouch_mem (place n : Nat) (excl : Bool) : (s.hostTouch place n excl).mem = s.mem := by
  refine foldl_mem (fun u l => ?_) _ s
  exact (State.enterFilter_mem _ l excl).trans (ite_mem (u.flip_mem _ _) rfl)

@[simp] theorem State.failReads_mem (sel : Nat → Bool) : (s.failReads sel).mem = s.mem := by
  refine foldl_mem (fun u x => ?_) _ s
  dsimp only
  rw [State.setCtx_mem, State.drawNat_mem]

@[simp] theorem State.refuseTwinSends_mem : s.refuseTwinSends.2.mem = s.mem := by
  refine (foldl_mem (fun u x => ?_) _ _).trans rfl
  split <;> simp

@[simp] theorem State.tally_mem (w n : Nat) : (s.tally w n).mem = s.mem := rfl

@[simp] theorem State.recordExcess_mem : s.recordExcess.mem = s.mem := by
  refine foldl_mem (fun u t => ?_) _ s
  rfl

@[simp] theorem State.noteLow_mem (w : Nat) : (s.noteLow w).mem = s.mem := rfl

@[simp] theorem State.await_mem (place : Nat) : (s.await place).mem = s.mem := ite_mem rfl rfl

@[simp] theorem State.poisonLine_mem (w : Nat) : (s.poisonLine w).mem = s.mem := rfl

@[simp] theorem State.correct_mem : s.correct.mem = s.mem := by
  unfold State.correct
  dsimp only
  split <;> rfl

@[simp] theorem State.loseEntry_mem (core : Nat) (e : HandlerEntry) : (s.loseEntry core e).mem = s.mem := by
  unfold State.loseEntry
  dsimp only
  split <;> simp

@[simp] theorem State.setPort_mem (port : Nat) (p : Port) : (s.setPort port p).mem = s.mem := rfl

end

section
variable {s : State} {sl : Nat} (h : s.mem.wf = true)
include h

theorem State.wf_endLoad (i : Nat) (c : Call) : (s.endLoad sl i c).mem.wf = true := by
  unfold State.endLoad
  dsimp only
  refine State.wf_svcFinish ?_ _ _ _
  split
  · rw [State.takeTable_mem]
    exact h
  · exact h

theorem execTableLoad_wf : NextWf (execTableLoad sl s) := by
  unfold execTableLoad
  split
  · exact .ite (.next (State.wf_endLoad h _ _)) (.next (by simpa using h))
  · refine State.svcLast_wf h fun t _ _ _ => .ite (.next (State.wf_svcKeep h t _ _)) ?_
    have ht : ((s.svcTake sl t).sliceNow sl).2.mem.wf = true := State.wf_svcTake (sl := sl) h t
    have hr (p n : Nat) : (((s.svcTake sl t).sliceNow sl).2.snoopRead p n).mem.wf = true := by rwa [State.snoopRead_mem]
    exact .ite (.next (State.wf_svcFinish ht _ _ _)) (.ite (.next (State.wf_svcFinish ht _ _ _))
      (.ite (.next (State.wf_svcFinish (hr _ _) _ _ _)) (.next (by rw [State.abandonAll_mem]; exact hr _ _))))

theorem execQueueBind_wf : NextWf (execQueueBind sl s) := by
  refine State.svcServeAsk_wf h fun u c arg hu => ?_
  have hx := fun va => u.wf_xlate c.agent va .read false hu
  have hp : (if c.own.isSome then (.ok (arg 1), u)
      else match u.xlate c.agent (BitVec.ofNat 64 (arg 1)) .read false with
        | (.ok x, s) => (.ok x.place, s)
        | (.error t, s) => (.error t.value.toNat, s) : Except Nat Nat × State).2.mem.wf = true := by
    split
    · exact hu
    · split <;> next heq => exact wf_of_snd heq (hx _)
  dsimp only
  split <;> rename_i heq <;> have ht := wf_of_snd heq hp
  · exact .error ht
  · split
    · exact .error ht
    · split
      · exact .error ht
      · split
        · exact .error ht
        · exact .ok (by simpa using ht) fun _ hv => hv

theorem State.wf_refuseRecord (n : Nat) (q : HostQueue) (i reason now : Nat) : (s.refuseRecord n q i reason now).mem.wf = true := by
  unfold State.refuseRecord
  dsimp only
  split
  · rw [State.flumeDone_mem, State.setFlume_mem]
    exact State.wf_storeBytes _ _ _ _ h
  · exact State.wf_putWord _ _ _ _ h

theorem State.wf_queueRecord (n : Nat) (q : HostQueue) : (s.queueRecord n q).mem.wf = true := by
  unfold State.queueRecord
  dsimp only
  refine State.wf_putWord _ _ _ _ ?_
  split
  · exact State.wf_refuseRecord (by simpa using h) _ _ _ _ _
  · exact State.wf_place (by simpa using h) _ _ _ _ _

theorem State.wf_readQueue (n tail : Nat) : (s.readQueue n tail).mem.wf = true := by
  unfold State.readQueue
  split
  · exact h
  · refine foldl_wf (fun u _ hu => ?_) _ h
    split
    · exact State.wf_queueRecord hu _ _
    · exact hu

theorem execHlqdb_wf {q tail : Nat} : NextWf (execHlqdb q tail s) := .ite (.next h) (.next (State.wf_readQueue (by exact h) _ _))

theorem execQueueUnbind_wf : NextWf (execQueueUnbind sl s) := by
  refine State.svcServe_wf h fun u c arg hu => ?_
  split <;> exact hu

theorem execHostsig_wf : NextWf (execHostsig s) := .ite (.next h) (.next h)

theorem execHdmWindowSet_wf {hb hs : Nat} : NextWf (execHdmWindowSet hb hs s) := .ite (.next h) (.next h)

theorem execBiasreq_wf {v : Word} : NextWf (execBiasreq v s) := .ite (.next h) (.next (by simpa using h))

theorem execBiasSet_wf : NextWf (execBiasSet sl s) := by
  refine State.svcServe_wf h fun u c arg hu => ?_
  have hx := fun va => u.wf_xlate c.agent va .write false hu
  have hp : (if c.tenant = 62 then (some (arg 0 / 4096 * 4096), u)
      else match u.xlate c.agent (BitVec.ofNat 64 (arg 0)) .write false with
        | (.ok x, s) => if x.uc then (none, s) else (some (x.place / 4096 * 4096), s)
        | (.error _, s) => (none, s) : Option Nat × State).2.mem.wf = true := by
    split
    · exact hu
    · split
      · next heq => split <;> exact wf_of_snd heq (hx _)
      · next heq => exact wf_of_snd heq (hx _)
  dsimp only
  split <;> rename_i heq <;> have ht := wf_of_snd heq hp
  · exact ht
  · split
    · exact ht
    · exact (congrArg Memory.wf (State.flip_mem _ _ _)).trans ht

theorem execHostMemAccess_wf {acc : HostAccess} : NextWf (execHostMemAccess acc s) := by
  refine .ite (.next h) ?_
  cases acc with
  | read off len excl => exact .ite (.next h) (.next (by simpa using h))
  | write off bs =>
    refine .ite (.next h) (.next ?_)
    rw [State.hostTouch_mem]
    exact Memory.wf_writeBytes _ _ _ (by simpa using h)

theorem State.wf_freeLine (line : Nat) : (s.freeLine line).mem.wf = true := Memory.wf_writeN _ _ _ _ h

theorem execHostSnoop_wf {line : Nat} {excl : Bool} : NextWf (execHostSnoop line excl s) := by
  refine .ite (.next h) (.next ?_)
  have hf := State.wf_flushLine s line h
  split
  · exact State.wf_freeLine hf _
  · exact hf

theorem State.wf_dumpLine (line : Nat) (d : CachedLine) (now : Nat) : (s.dumpLine line d now).mem.wf = true := by
  unfold State.dumpLine
  split
  · exact h
  · split
    · exact h
    · dsimp only
      iterate 2 apply State.wf_storeBytes
      exact h

theorem State.wf_dropStores (sel : Nat → Bool) (kind base : Nat) : (s.dropStores sel kind base).2.mem.wf = true := by
  refine foldl_snd_wf (fun r x hr => ?_) _ h
  refine foldl_snd_wf (fun q p hq => State.wf_log _ _ (by simpa using hq)) _ ?_
  dsimp only
  split
  · exact hr
  · rwa [State.setCtx_mem]

/-- The fall of the host link (R384): each dirty line is dumped, and what the home holds stands for it. -/
theorem execHostLinkDown_wf : NextWf (execHostLinkDown s) := by
  refine .ite (.next h) (.next (State.wf_log _ _ (State.wf_dropStores ?_ _ _ _)))
  rw [State.failReads_mem]
  refine foldl_wf (fun u l hu => State.wf_freeLine (by exact hu) l) _ (foldl_wf (fun u x hu => ?_) _ ?_)
  · exact Memory.wf_writeBytes _ _ _ (State.wf_dumpLine hu _ _ _)
  · exact foldl_wf (fun u l hu => State.wf_flushLine u l hu) _ (by simpa using h)

theorem execPoisonClear_wf : NextWf (execPoisonClear sl s) := State.svcServe_wf h fun u c arg hu => by
  split
  · exact hu
  · split <;> exact hu

theorem execLinkDump_wf : NextWf (execLinkDump sl s) := State.svcServe_wf h fun u c arg hu => by
  split <;> exact hu

theorem execTwinPair_wf {grants : List TwinGrant} : NextWf (execTwinPair grants s) := .ite (.next h) (.next h)

theorem execTwinExport_wf : NextWf (execTwinExport sl s) := State.svcServe_wf h fun u c arg hu => by
  split
  · exact hu
  · refine State.wf_withRead hu fun v bs hv => ?_
    dsimp only
    split <;> exact hv

theorem execTwinMemoryAccess_wf {acc : TwinAccess} : NextWf (execTwinMemoryAccess acc s) := by
  unfold execTwinMemoryAccess
  dsimp only
  split
  · exact .ite (.next (by simpa using h)) (.next h)
  · exact .ite (.next (State.wf_storeBytes _ _ _ _ h)) (.next h)
  · refine .ite (.next h) ?_
    split
    · exact .next (State.wf_storeBytes _ _ _ _ h)
    · exact .next (by simpa using h)

theorem execTwinLinkDown_wf : NextWf (execTwinLinkDown s) := by
  unfold execTwinLinkDown
  split
  · exact .next h
  dsimp only
  refine .next (State.wf_log _ _ ?_)
  rw [State.refuseTwinSends_mem]
  exact State.wf_dropStores (by simpa using h) _ _ _

/-! ### Power, clocks and scrubbing (R372 to R430) -/

theorem execBootImageVerify_wf {u : ImageUnit} {image : List Byte} {good : Bool} : NextWf (execBootImageVerify u image good s) := by
  refine .ite (.next h) ?_
  cases u with
  | service k => exact .ite (.next h) (.next h)
  | microKernel => exact .next h

theorem execPowerCapCheck_wf : NextWf (execPowerCapCheck s) := by
  unfold execPowerCapCheck
  dsimp only
  refine .ite (.next h) (.ite (.ite (.next ?_) (.next ?_)) (.ite (.next h) (.next h)))
  · rw [foldl_mem State.displace_mem]
    exact h
  · rw [State.recordExcess_mem]
    split_ifs <;> exact h

theorem execEnergyMeterUpdate_wf : NextWf (execEnergyMeterUpdate s) := by
  refine .next ?_
  have hm := foldl_mem (f := fun (s : State) b => let (n, s) := s.drawNat; { s with meters := s.meters.charge b n })
    (fun u b => rfl) s.bills s
  exact (congrArg Memory.wf hm).trans h

theorem execUngateComplete_wf {u : GateUnit} : NextWf (execUngateComplete u s) := .ite (.next (by simpa using h)) (.next h)

theorem execStillEnter_wf : NextWf (execStillEnter s) := .ite (.next h) (.next h)

theorem execChannelWake_wf {c : Nat} : NextWf (execChannelWake c s) := by
  unfold execChannelWake
  split
  · exact .next h
  · exact .ite (.next h) (.next h)

theorem execLpddrScrub_wf {w : Nat} : NextWf (execLpddrScrub sl w s) := by
  refine .ite (.next h) (.next ?_)
  dsimp only
  split <;> simpa using h

theorem State.wf_loseWeir (w : Nat) : (s.loseWeir w).mem.wf = true := by
  unfold State.loseWeir
  dsimp only
  split
  · exact h
  · split
    · exact h
    · split
      · have hr := fun a va => State.wf_readBlock (s := s.modWeir w fun _ => {}) h a va 8
        split <;> rename_i heq <;> have ht := wf_of_snd heq (hr _ _)
        · split
          · rwa [State.engLeave_mem]
          · exact ht
        · exact ht
      · exact h

theorem State.wf_upset (x : ScrubTarget) : (s.upset x).mem.wf = true := by
  unfold State.upset
  cases x with
  | word w => dsimp only; split <;> exact h
  | vreg cx beat => dsimp only; split <;> simpa using h
  | tile core w => dsimp only; split <;> exact h
  | job x => simpa using h
  | tag core t =>
    dsimp only
    rw [State.tally_mem, foldl_mem fun u e => u.loseEntry_mem core e]
    exact h
  | weir w => exact State.wf_loseWeir h w
  | barrier core b => exact h
  | footprint i =>
    dsimp only
    split
    · exact h
    · split
      · exact h
      · rw [State.engLeave_mem]
        exact h

theorem execSramScrub_wf {x : ScrubTarget} : NextWf (execSramScrub x s) := by
  refine .next ?_
  dsimp only
  split
  · exact State.wf_upset (by exact h) x
  · rw [State.correct_mem]
    exact h

/-! ### The radio ports (R391 to R410) -/

theorem execEthFrameReceive_wf {port : Nat} {frame : EthFrame} : NextWf (execEthFrameReceive port frame s) := by
  refine .ite (.next h) (.ite (.next h) ?_)
  split
  · exact .next h
  · split
    · exact .next h
    · split
      · exact .next h
      · exact .ite (.next h) (.next h)

theorem execRowCloseTimeout_wf {port g : Nat} : NextWf (execRowCloseTimeout port g s) := by
  unfold execRowCloseTimeout
  split
  · exact .next h
  · exact .next h

theorem State.wf_deliverRow (port n : Nat) (g : HrGroup) (row : Row) (k f : Nat) : (s.deliverRow port n g row k f).mem.wf = true := by
  unfold State.deliverRow
  dsimp only
  rw [State.setHrRows_mem, State.flumeDone_mem, State.setFlume_mem]
  exact State.wf_storeBytes _ _ _ _ h

theorem execRowSlotFill_wf {port g : Nat} : NextWf (execRowSlotFill port g s) := by
  unfold execRowSlotFill
  split
  · exact .next h
  · dsimp only
    split
    · exact .next h
    · refine .ite (.next h) ?_
      split
      · exact .next h
      · exact .ite (.next (State.wf_deliverRow (by exact h) _ _ _ _ _ _)) (.ite (.next h) (.next h))

theorem execOverrunRowFill_wf {port g : Nat} : NextWf (execOverrunRowFill port g s) := by
  unfold execOverrunRowFill
  split
  · exact .next h
  · dsimp only
    split
    · exact .next h
    · split
      · exact .next h
      · exact .ite (.next h) (.next (State.wf_deliverRow (by exact h) _ _ _ _ _ _))

theorem execCplaneTransmit_wf {port : Nat} {put : Option EthFrame} : NextWf (execCplaneTransmit port put s) := by
  refine .ite (.next h) ?_
  dsimp only
  split <;> exact .next h

theorem execGroupSet_wf : NextWf (execGroupSet sl s) := by
  refine State.svcServe_wf h fun u c arg hu => ?_
  dsimp only
  split
  · exact hu
  · refine State.wf_withRead hu fun v bs hv => ?_
    split
    · exact hv
    · split <;> exact hv

end
end Sys2Proof.Machine

namespace Sys2Proof.Machine
open Sys2Proof

/-! ### Every row of the table -/

section
variable {s : State} {d a b : SReg} (h : s.mem.wf = true)
include h

theorem execJalr_wf : NextWf (execJalr d a s) :=
  State.freeIssue_wf h fun _ => .ite (State.trapCur_wf h) (.next (by simpa using h))

theorem execTime_wf : NextWf (execTime d s) := State.freeIssue_wf h fun _ => .next (by simpa using h)

theorem execFence_wf {pred succ : Fin 16} {scope : Fin 5} : NextWf (execFence pred succ scope s) := State.heldOp_wf h (State.complete_wf h)

theorem execMen_wf : NextWf (execMen a s) := State.tagMask_wf h fun _ _ => State.complete_wf (by exact h)

theorem execMdis_wf : NextWf (execMdis a s) := State.tagMask_wf h fun _ _ => State.complete_wf (by exact h)

/-- Every instruction and every event keeps the canonical form of memory. -/
theorem exec_wf (i : Instr) : NextWf (exec i s) := by
  unfold exec
  cases i with
  | add | sub | and | or | xor | sll | addi | li | mov | not | neg | srl | sra | slli | srli | srai | mul | mulh | mulhn | slt | sltn
  | andi | ori | xori | min | max | minn | maxn | clz | ctz | popc | sext | zext | lih | addpc | addsl | select =>
    exact State.regOp_wf h
  | ldd | lb | lbn | lh | lhn | lw | lwn => exact State.loadImm_wf h
  | std | sb | sh | sw => exact State.storeImm_wf h
  | beqz | bnez | beq | bne | blt | bge | bltn | bgen => exact State.branchOp_wf h
  | jal | setvl | loopsm | pref => exact State.freeOp_wf h
  | time => exact execTime_wf h
  | div | divn | rem | remn => exact State.divOp_wf h
  | vadd | vsub | vmul | vmac | vmin | vmax | vminn | vmaxn | vand | vor | vxor | vsll | vsrl | vsra | vdiv | vdivn | vrem | vremn | vadds
  | vsubs | vmulhq | vabs | vneg | vrcp | vrsqrt | vexp2 | vlog2 | vsqrt | vclass | vscale | vceq | vcne | vclt | vcle | vcltn | vclen
  | vceqi | vclti | mand | mor | mxor | mnot | vmv | vperm | vcompress | vexpand | viota | vid | vmerge | vredsum | vredmax | vredmin
  | vcvt | vqscale | vquant | vdeq | vcblk | vwidenlo | vwidenhi | vnarrow | vcadd | vcsub | vcmul | vcmulj | vcmac | vcmacj | vconj
  | vcrot | vcabs2 | vcscale | vcdot | vcreal | vcswap | vcmag | vcmacs | vmgmul | vmgmulh | vmgmv | vhchol | vhinv | vhsolve | vmgtr =>
    exact State.vPlain_wf h
  | mcnt | many | mfirst | vext | vins => exact State.vIssue_wf h
  | vsplat | vslideup | vslidedn | vhreg => exact State.vScalar_wf h
  | vbfly2 | vbfly3 | vbfly4 | vbfly5 => exact State.bflyEnter_wf h
  | vtwid | vdrev | vtrans | vschur | vschurv => exact State.vEnter_wf h
  | mxcfg | mma | mmaz | mxzero | mxst | mxld | mxldcb | mxscale | mxshare => exact State.mxIssue_wf h
  | vmovz | vmovtoz => exact State.mxMove_wf h
  | gsend | gsendc => exact State.gsendEnter_wf h
  | gld | gsum | gsumx | gdamp | gmarg | gembed | gmean => exact State.gaussEnter_wf h
  | ldx => exact State.loadOp_wf h
  | stx | strl => exact State.storeOp_wf h
  | cflush | cinv => exact State.lineOp_wf h
  | amoadd | amoand | amoor | amoxor | amomin | amomax | amominn | amomaxn | amoswp | amocas => exact State.amoOp_wf h
  | vld | vst | vlds | vsts | vldx | vstx | vldb | vamoadd | vldff => exact State.vMemEnter_wf h
  | flpop | flpush => exact State.flumeTake_wf h
  | flrel | fldone => exact State.flumeGive_wf h
  | tret | tretSkip => exact State.trapReturn_wf h
  | gateinfo => exact State.heldReg_wf h
  | fence => exact execFence_wf h
  | jdead => exact execJdead_wf h
  | jwid => exact execJwid_wf h
  | mpend => exact State.heldOp_wf h (State.complete_wf h)
  | trap | brk => exact State.heldOp_wf h (State.trapCur_wf h)
  | illegalInstruction | prefixChain | fetchFault => exact State.trapCur_wf h
  | msendrq | msendrp => exact State.sendMsg_wf h
  | men => exact execMen_wf h
  | mdis => exact execMdis_wf h
  | mclr => exact execMclr_wf h
  | wstat => exact State.weirOp_wf h fun _ => State.complete_wf h
  | bwait => exact State.barrierOp_wf h fun _ _ => State.barrierWait_wf h
  | stestm => exact execStestm_wf h
  | sclrm => exact execSclrm_wf h
  | pgateQuery => exact execPgateQuery_wf h
  | jalr => exact execJalr_wf h
  | get => exact execGet_wf h
  | set => exact execSet_wf h
  | rdcnt => exact execRdcnt_wf h
  | waitc => exact execWaitc_wf h
  | mxpark => exact execMxpark_wf h
  | mxunpark => exact execMxunpark_wf h
  | mxstat => exact execMxstat_wf h
  | gcfg => exact execGcfg_wf h
  | gstat => exact execGstat_wf h
  | ldaq => exact execLdaq_wf h
  | scopy => exact execScopy_wf h
  | spat => exact execSpat_wf h
  | sstrm => exact execSstrm_wf h
  | swaitm => exact execSwaitm_wf h
  | ecmd => exact execEcmd_wf h
  | ecancel => exact execEcancel_wf h
  | estat => exact execEstat_wf h
  | spawn => exact execSpawn_wf h
  | jend => exact execJend_wf h
  | jtight => exact execJtight_wf h
  | jself => exact execJself_wf h
  | jabort => exact execJabort_wf h
  | jinfo => exact execJinfo_wf h
  | mtag => exact execMtag_wf h
  | warm => exact execWarm_wf h
  | wpost => exact execWpost_wf h
  | wsig => exact execWsig_wf h
  | binit => exact execBinit_wf h
  | barrive => exact execBarrive_wf h
  | bsync => exact execBsync_wf h
  | qopen => exact execQopen_wf h
  | qclose => exact execQclose_wf h
  | qstat => exact execQstat_wf h
  | svc => exact execSvc_wf h
  | enmtr => exact execEnmtr_wf h
  | pgateGate => exact execPgateGate_wf h
  | pgateUngate => exact execPgateUngate_wf h
  | halt => exact execHalt_wf h
  | ctxsave => exact execCtxsave_wf h
  | ctxload => exact execCtxload_wf h
  | tlbinv => exact execTlbinv_wf h
  | idle => exact execIdle_wf h
  | rsvadd => exact execRsvadd_wf h
  | mxRowReady | mxCmdComplete | registerWrite | hostsigw | spdmMeasurements | powerOn | deviceReset | ptpLockLoss | hostLinkUp =>
    exact .next h
  | budgetUpdate => exact execBudgetUpdate_wf h
  | energyMeterUpdate => exact execEnergyMeterUpdate_wf h
  | sramScrub => exact execSramScrub_wf h
  | channelTrained | clusterReady | headracePortReady | ptpFirstLock | ptpLockRegained | dvfsStepChange => exact .ite (.next h) (.next h)
  | hlqdb => exact execHlqdb_wf h
  | biasreq => exact execBiasreq_wf h
  | hostSnoop => exact execHostSnoop_wf h
  | hostLinkDown => exact execHostLinkDown_wf h
  | twinPair => exact execTwinPair_wf h
  | twinLinkDown => exact execTwinLinkDown_wf h
  | edgeGuard => exact execEdgeGuard_wf h
  | hostsig => exact execHostsig_wf h
  | ungateComplete => exact execUngateComplete_wf h
  | stillEnter => exact execStillEnter_wf h
  | lpddrScrub => exact execLpddrScrub_wf h
  | hdmWindowSet => exact execHdmWindowSet_wf h
  | rsvAdd => exact execRsvAdd_wf h
  | rsvRemove => exact execRsvRemove_wf h
  | counter => exact execCounter_wf h
  | mapObject => exact execMapObject_wf h
  | queueUnbind => exact execQueueUnbind_wf h
  | quarClear => exact execQuarClear_wf h
  | sweepSet => exact execSweepSet_wf h
  | imageLoad => exact execImageLoad_wf h
  | flumeSet => exact execFlumeSet_wf h
  | groupSet => exact execGroupSet_wf h
  | poisonClear => exact execPoisonClear_wf h
  | biasSet => exact execBiasSet_wf h
  | linkDump => exact execLinkDump_wf h
  | twinExport => exact execTwinExport_wf h
  | debugOpen => exact execDebugOpen_wf h
  | debugClose => exact execDebugClose_wf h
  | debugWrite => exact execDebugWrite_wf h
  | debugResume => exact execDebugResume_wf h
  | logSet => exact execLogSet_wf h
  | queueBind => exact execQueueBind_wf h
  | ldpcDecode | ldpcEncode | polarDecode | polarEncode | rateDematch | rateMatch | crcCheck => exact State.engineRun_wf h
  | vectorStart => exact execVectorStart_wf h
  | vectorComplete => exact execVectorComplete_wf h
  | scalarLoadReturn => exact execScalarLoadReturn_wf h
  | storePerformed => exact execStorePerformed_wf h
  | mxCmdBegin => exact fun _ ht => (congrArg Memory.wf (execMxCmdBegin_mem s ht)).trans h
  | mxShareTimeout => exact execMxShareTimeout_wf h
  | waitSatisfied => exact execWaitSatisfied_wf h
  | idleExpire => exact execIdleExpire_wf h
  | deadlineComparator => exact execDeadlineComparator_wf h
  | abandonAction => exact execAbandonAction_wf h
  | queuedDeadlinePass => exact execQueuedDeadlinePass_wf h
  | reservationRelease => exact execReservationRelease_wf h
  | governorDispatch => exact execGovernorDispatch_wf h
  | loadAveraging => exact execLoadAveraging_wf h
  | jobMoveArrive => exact execJobMoveArrive_wf h
  | amArrival => exact execAmArrival_wf h
  | amAnswer => exact execAmAnswer_wf h
  | emptyRelease => exact execEmptyRelease_wf h
  | engDelivery => exact execEngDelivery_wf h
  | gmsgMerge => exact execGmsgMerge_wf h
  | weirArrival => exact execWeirArrival_wf h
  | weirPacketMake => exact execWeirPacketMake_wf h
  | barrierArrival => exact execBarrierArrival_wf h
  | sweep => exact execSweep_wf h
  | groupCompletionSend => exact execGroupCompletionSend_wf h
  | engineCmdArrive => exact execEngineCmdArrive_wf h
  | engineAnswer => exact execEngineAnswer_wf h
  | engineCompletion => exact execEngineCompletion_wf h
  | streamChunkServe => exact execStreamChunkServe_wf h
  | chunkDone => exact execChunkDone_wf h
  | ethFrameReceive => exact execEthFrameReceive_wf h
  | rowCloseTimeout => exact execRowCloseTimeout_wf h
  | rowSlotFill => exact execRowSlotFill_wf h
  | overrunRowFill => exact execOverrunRowFill_wf h
  | cplaneTransmit => exact execCplaneTransmit_wf h
  | windowStart => exact execWindowStart_wf h
  | edgeSwapComplete => exact execEdgeSwapComplete_wf h
  | coreRepower => exact execCoreRepower_wf h
  | loanStart => exact execLoanStart_wf h
  | loanEnd => exact execLoanEnd_wf h
  | tableEpoch => exact execTableEpoch_wf h
  | svcCallArrive => exact execSvcCallArrive_wf h
  | svcAnswer => exact execSvcAnswer_wf h
  | internalCall => exact execInternalCall_wf h
  | nop => exact execNop_wf h
  | unmapObject => exact execUnmapObject_wf h
  | harvest => exact execHarvest_wf h
  | harvestAuto => exact execHarvestAuto_wf h
  | objectFaultServe => exact execObjectFaultServe_wf h
  | tableLoad => exact execTableLoad_wf h
  | debugRead => exact execDebugRead_wf h
  | hostMemAccess => exact execHostMemAccess_wf h
  | twinMemoryAccess => exact execTwinMemoryAccess_wf h
  | bootImageVerify => exact execBootImageVerify_wf h
  | powerCapCheck => exact execPowerCapCheck_wf h
  | channelWake => exact execChannelWake_wf h

/-! ### Turns -/

theorem State.wf_windowDue (k : Nat) : (s.windowDue k).2.mem.wf = true := by
  rwa [State.windowDue_kept (f := State.mem) fun u k => u.clusterNow_mem k]

theorem State.wf_comparatorLate (cx : Nat) : (s.comparatorLate cx).2.mem.wf = true := by
  rwa [State.comparatorLate_kept (f := State.mem) fun u k => u.clusterNow_mem k]

theorem State.issue_wf : NextWf s.issue := by
  have hf := State.wf_fetchChain h s.sched.cur s.curCtx.pc
  unfold State.issue
  split <;> rename_i heq <;> have ht := wf_of_snd heq hf
  · exact exec_wf ht _
  · split
    · exact exec_wf ht _
    · exact exec_wf ht _
    · exact State.trapCur_wf ht
  · split
    · exact exec_wf (by exact ht) _
    · exact exec_wf ht _
    · exact exec_wf ht _

theorem State.kernelTurn_wf {cx : Nat} : NextWf (s.kernelTurn cx) := .ite (.next (State.wf_kernelAct h cx)) (.next h)

theorem State.goOn_wf {cx : Nat} : NextWf (s.goOn cx) := .ite (State.kernelTurn_wf h) (State.issue_wf (by exact h))

theorem State.runTurn_wf {cx : Nat} : NextWf (s.runTurn cx) := by
  have hd : (s.decideBranch cx).mem.wf = true := by rwa [State.decideBranch_mem]
  have hw := fun k => State.wf_windowDue hd k
  unfold State.runTurn
  dsimp only
  refine .ite ?_ (.next hd)
  split <;> rename_i heq <;> have ht := wf_of_snd heq (hw _)
  · exact .ite (State.goOn_wf ht) (exec_wf ht _)
  · have hc := State.wf_comparatorLate ht cx
    split <;> rename_i heq <;> have hu := wf_of_snd heq hc
    · exact exec_wf hu _
    · exact State.goOn_wf hu

theorem State.act_wf {t : Turn} : NextWf (s.act t) := by
  refine .ite ?_ ?_
  · cases t with
    | run cx => exact State.runTurn_wf h
    | kernel cx => exact State.kernelTurn_wf h
    | event i => exact .ite (exec_wf h i) (.next h)
  · split
    · exact exec_wf h _
    · exact .next h

theorem State.settle_wf {o : Out} {k : State → Out} (ho : NextWf o) (hk : ∀ u, u.mem.wf = true → NextWf (k u)) : NextWf (s.settle o k) := by
  unfold State.settle
  split
  · split
    · exact ho
    · exact hk _ (by rwa [State.await_mem])
  · exact ho

theorem State.serve_wf {k : State → Out} (hk : ∀ u, u.mem.wf = true → NextWf (k u)) (is : List Instr) : NextWf (State.serve k is s) := by
  induction is generalizing s with
  | nil => exact hk s h
  | cons i is ih => exact State.settle_wf h (exec_wf h i) fun u hu => ih hu

omit h in
@[simp] theorem State.takeTurn_mem (s : State) : s.takeTurn.2.mem = s.mem := by
  unfold State.takeTurn
  split <;> rfl

theorem State.turn_wf : NextWf s.turn := by
  have ht : s.takeTurn.2.mem.wf = true := by rwa [State.takeTurn_mem]
  exact State.settle_wf ht (State.act_wf ht) fun _ hu => .next hu

theorem step_wf : NextWf (step s) := State.serve_wf (State.tick_wf _ h) (fun _ hu => State.turn_wf hu) _

end

/-- Settles O58: every write of memory keeps its canonical form, so every instruction, every event and every turn keeps it. -/
theorem stepKeepsMemoryCanonical : Obligations.StepKeepsMemoryCanonical :=
  ⟨fun i _ t h ht => exec_wf h i t ht, fun _ t h ht => step_wf h t ht⟩

end Sys2Proof.Machine

/-! PROOFS. The access check (R198, R203 to R208): what it answers, and that it marks no more of memory than the leaf that the walk finds. -/

namespace Sys2Proof.Machine
open Sys2Proof Sys2Proof.Claims

/-! ### Bits A and D of the leaf (R204) -/

section
variable {m m' : Memory} {g : Agent} {va : Word} {d : Bool}

theorem leafMarked_refl (m : Memory) (g : Agent) (va : Word) (d : Bool) : LeafMarked m m g va d := .inl rfl

theorem leafMarked_of_eq (h : m' = m) : LeafMarked m m' g va d := .inl h

/-- An access that does not set D marks no more than one that does. -/
theorem LeafMarked.of_false (h : LeafMarked m m' g va false) : LeafMarked m m' g va d := by
  rcases h with h | ⟨l, x, hw, hx | ⟨-, hd⟩, hl, ho⟩
  · exact .inl h
  · exact .inr ⟨l, x, hw, .inl hx, hl, ho⟩
  · cases hd

end

/-- Bit A set, and bit D where the access writes. -/
theorem markByte_eq (b : Byte) (d : Bool) :
    BitVec.ofNat 8 (let b := b.toNat
      let b := if bit b 5 then b else b + 32
      if !d || bit b 6 then b else b + 64) = b ||| (if d then 0x60 else 0x20) := by
  revert b d
  decide +kernel

section
variable {s : State} {g : Agent} {va : Word} {k : AccessKind} {d : Bool}

theorem State.setAD_mem (s : State) (l : Leaf) (d : Bool) :
    (s.setAD l d).mem = s.mem.write l.at_ (s.mem.read l.at_ ||| (if d then 0x60 else 0x20)) := by
  rw [← markByte_eq]
  rfl

theorem State.leafMarked_setAD {l : Leaf} (h : walk s.mem va.toNat 3 (ptePpn g.root.toNat) = some l) :
    LeafMarked s.mem (s.setAD l d).mem g va d := by
  refine .inr ⟨l, if d then 0x60 else 0x20, h, ?_, ?_, fun q hq => ?_⟩
  · cases d with
    | false => exact .inl rfl
    | true => exact .inr ⟨rfl, rfl⟩
  · rw [s.setAD_mem, Memory.read_write_same]
  · rw [s.setAD_mem, Memory.read_write_ne _ _ hq]

theorem State.leafMarked_markLeaf : LeafMarked s.mem (s.markLeaf g va.toNat d).mem g va d := by
  unfold State.markLeaf
  split
  · exact leafMarked_refl _ _ _ _
  · next h => exact State.leafMarked_setAD h

theorem State.leafMarked_walkFor : LeafMarked s.mem (s.walkFor g va.toNat k d).2.mem g va d := by
  unfold State.walkFor
  dsimp only
  rw [State.snoopWalk_mem]
  split
  · exact leafMarked_of_eq (s.snoopWalk_mem _ _)
  · next l h =>
    have hs (t : State) (ht : t.mem = s.mem) : LeafMarked s.mem (t.setAD l d).mem g va d := by
      rw [← ht] at h ⊢
      exact State.leafMarked_setAD h
    split
    · dsimp only
      rw [State.tlbFill_mem]
      split
      · exact hs _ (by simp)
      · exact hs _ (by simp)
    · exact leafMarked_of_eq (s.snoopWalk_mem _ _)

theorem State.leafMarked_pageOf : LeafMarked s.mem (s.pageOf g va.toNat k d).2.mem g va d := by
  have hwalk (t : State) (ht : t.mem = s.mem) : LeafMarked s.mem (t.walkFor g va.toNat k d).2.mem g va d := by
    rw [← ht]
    exact State.leafMarked_walkFor
  have hits (t : State) (e : TlbEntry) (ht : t.mem = s.mem) : LeafMarked s.mem (if d && !e.d then t.walkFor g va.toNat k d
      else if e.grants k g.user && t.paExists (e.pa + (va.toNat - e.va)) then
        (some e, if e.size = 65536 then t.markLeaf g va.toNat d else t)
      else (none, t)).2.mem g va d := by
    split
    · exact hwalk t ht
    · split
      · dsimp only
        split
        · rw [← ht]
          exact State.leafMarked_markLeaf
        · exact leafMarked_of_eq ht
      · exact leafMarked_of_eq ht
  have hhit (t : State) (o : Option TlbEntry) (r : Option TlbEntry) (u : State) (h : t.tlbHit o = (r, u)) : u.mem = t.mem := by
    have hm := t.tlbHit_mem o
    rwa [h] at hm
  unfold State.pageOf
  dsimp only
  split
  on_goal 1 => refine hits _ _ ?_
  on_goal 2 => refine hwalk _ ?_
  all_goals
    split
    · split
      · exact s.tlbFill_mem _ _ _ _
      · rfl
    · split
      · next heq => exact hhit _ _ _ _ heq
      · next heq =>
        have h1 := hhit _ _ _ _ heq
        split
        · next heq => exact (State.tlbFill_mem _ _ _ _ _).trans ((hhit _ _ _ _ heq).trans h1)
        · next heq => exact (hhit _ _ _ _ heq).trans h1

theorem State.leafMarked_xlate : LeafMarked s.mem (s.xlate g va k d).2.mem g va d := by
  have h : LeafMarked s.mem (s.pageOf g va.toNat k d).2.mem g va d := State.leafMarked_pageOf
  unfold State.xlate
  dsimp only
  split
  · exact leafMarked_refl _ _ _ _
  · split
    · exact leafMarked_refl _ _ _ _
    · split <;> next heq => rwa [heq] at h

theorem State.leafMarked_reach {n : Nat} : LeafMarked s.mem (s.reach g va n k d).2.mem g va d := by
  have h : LeafMarked s.mem (s.xlate g va k d).2.mem g va d := State.leafMarked_xlate
  unfold State.reach
  split
  · next heq =>
    rw [heq] at h
    split
    · dsimp only
      split
      · exact LeafMarked.of_false State.leafMarked_xlate
      · exact h
    · exact h
  · exact h

theorem State.leafMarked_access {n : Nat} : LeafMarked s.mem (s.access g va n k d).2.mem g va d := by
  unfold State.access
  split
  · exact leafMarked_refl _ _ _ _
  · exact State.leafMarked_reach

end

/-- R204, R385, R420: an access marks the leaf of its walk, fills the TLBs and takes lines from the host. -/
theorem accessFrame : AccessFrame := by
  rintro s g va size k d t rfl
  have he := s.access_effect g va size k d
  exact ⟨State.leafMarked_access, he.fields, he.core, he.cluster⟩

/-! ### What the check answers -/

/-- A device read changes the lines the host holds and the note of a home that is not ready. -/
def SnoopOnly (s t : State) : Prop :=
  t = { s with host := { s.host with snoop := t.host.snoop }, sched := { s.sched with held := t.sched.held } }

theorem SnoopOnly.trans {s t u : State} (h₁ : SnoopOnly s t) (h₂ : SnoopOnly t u) : SnoopOnly s u := by
  unfold SnoopOnly at *
  rw [h₂, h₁]

section
variable {s : State} {g : Agent} {va : Word} {k : AccessKind} {d : Bool} {size : Nat}

theorem State.snoopRead_only (s : State) (p n : Nat) : SnoopOnly s (s.snoopRead p n) := by
  have ht : SnoopOnly s (s.touch p n) := by
    rcases s.touch_cases p n with h | ⟨q, h⟩ <;> rw [h] <;> rfl
  unfold State.snoopRead
  dsimp only
  split
  · exact ht
  · exact ht.trans rfl

theorem State.snoopWalk_only (s : State) (root va : Nat) : SnoopOnly s (s.snoopWalk root va) := by
  unfold State.snoopWalk
  generalize walkReads s.mem va 3 root = ps
  induction ps generalizing s with
  | nil => rfl
  | cons p ps ih => exact (s.snoopRead_only p 8).trans (ih _)

theorem State.access_misaligned (h : va.toNat % size ≠ 0) : s.access g va size k d = (.error { cause := .misaligned, value := va }, s) :=
  if_pos h

/-- An aligned access whose translation fails is the failure. -/
theorem State.access_of_xlate_error {t : TrapInfo} {u : State} (ha : va.toNat % size = 0) (h : s.xlate g va k d = (.error t, u)) :
    s.access g va size k d = (.error t, u) := by
  rw [State.access, if_neg (not_not.2 ha), State.reach, h]

theorem State.access_of_xlate_ok {x : Xlat} {u : State} (ha : va.toNat % size = 0) (h : s.xlate g va k d = (.ok x, u))
    (hb : s.barred g size k x = none) : s.access g va size k d = (.ok x, u) := by
  rw [State.access, if_neg (not_not.2 ha), State.reach, h]
  dsimp only
  rw [hb]

theorem State.xlate_above (h : 2 ^ 48 ≤ va.toNat ∨ 2 ^ 47 ≤ va.toNat ∧ g.user = true) :
    s.xlate g va k d = (.error { cause := .protection, value := va }, s) := by
  unfold State.xlate
  simp only [Bool.or_eq_true, Bool.and_eq_true, decide_eq_true_eq]
  rw [if_pos h]

/-- From the windows up to the end of the user half an address is in a window or fails (R198). -/
theorem State.xlate_window (h : 0x7F0000000000 ≤ va.toNat) (h' : va.toNat < 2 ^ 47) : s.xlate g va k d =
    (if k = .exec then .error { cause := .protection, value := va } else s.windowAccess g va, s) := by
  unfold State.xlate
  simp only [Bool.or_eq_true, Bool.and_eq_true, decide_eq_true_eq]
  rw [if_neg (by omega), if_pos ⟨h, h'⟩]

/-- Below the windows an address is the page table's. -/
theorem State.xlate_unmapped {u : State} (h : va.toNat < 0x7F0000000000) (hp : s.pageOf g va.toNat k d = (none, u)) :
    s.xlate g va k d = (.error { cause := k.fault, value := va }, u) := by
  unfold State.xlate
  simp only [Bool.or_eq_true, Bool.and_eq_true, decide_eq_true_eq]
  rw [if_neg (by omega), if_neg (by omega), hp]

/-- Between the windows, and past the last one, is nothing (R198). -/
theorem State.windowAccess_hole (h : 0x7F3010000000 ≤ va.toNat ∨ 0x7F0000400000 ≤ va.toNat ∧ va.toNat < 0x7F1000000000) :
    s.windowAccess g va = .error { cause := .protection, value := va } := by
  unfold State.windowAccess
  simp only [Bool.and_eq_true, decide_eq_true_eq]
  rw [if_neg (by omega), if_neg (by omega), if_neg (by omega), if_neg (by omega)]

theorem State.xlate_protection (h : 2 ^ 48 ≤ va.toNat ∨ 2 ^ 47 ≤ va.toNat ∧ g.user = true ∨
    (0x7F3010000000 ≤ va.toNat ∧ va.toNat < 2 ^ 47) ∨ (0x7F0000400000 ≤ va.toNat ∧ va.toNat < 0x7F1000000000)) :
    s.xlate g va k d = (.error { cause := .protection, value := va }, s) := by
  have hole (hlo : 0x7F0000000000 ≤ va.toNat) (hhi : va.toNat < 2 ^ 47)
      (h : 0x7F3010000000 ≤ va.toNat ∨ 0x7F0000400000 ≤ va.toNat ∧ va.toNat < 0x7F1000000000) :
      s.xlate g va k d = (.error { cause := .protection, value := va }, s) := by
    rw [State.xlate_window hlo hhi, State.windowAccess_hole h, ite_self]
  rcases h with h | h | ⟨h, h'⟩ | h
  · exact State.xlate_above (.inl h)
  · exact State.xlate_above (.inr h)
  · exact hole (by omega) h' (.inl h)
  · exact hole (by omega) (by omega) (.inr h)

/-- Nothing bars an access to a core's array: it is no twin memory and no line of the host's (R208). -/
theorem State.barred_corePlace (h : s.linkPoison = []) (c o : Nat) :
    s.barred g size k { place := corePlace c o, cached := none, uc := false } = none := by
  have h1 : isTwinPa (corePlace c o) = false := by
    simp only [isTwinPa, Bool.eq_false_iff, ne_eq, Bool.and_eq_true, decide_eq_true_eq]
    unfold corePlace
    omega
  have h2 : isHostPa (corePlace c o) = false := by
    simp only [isHostPa, Bool.eq_false_iff, ne_eq, Bool.and_eq_true, decide_eq_true_eq]
    unfold corePlace
    omega
  simp [State.barred, h1, State.poisoned, h2, h]

theorem State.access_ownArray {c o : Nat} (hc : g.core = some c) (hv : va.toNat = 0x7F0000000000 + o) (ho : o < 0x400000)
    (ha : va.toNat % size = 0) (hk : k ≠ .exec) (hp : s.linkPoison = []) :
    s.access g va size k d = (if o < (s.coreRegion c g.owner).2 then
        .ok { place := corePlace c ((s.coreRegion c g.owner).1 + o), cached := none, uc := false }
      else .error { cause := .windowBounds, value := va }, s) := by
  have hx := State.xlate_window (s := s) (g := g) (va := va) (k := k) (d := d) (by omega) (by omega)
  have hw : s.windowAccess g va = windowPlace (s.coreRegion c g.owner) o (corePlace c) va := by
    have h1 : va.toNat < 0x7F0000400000 := by omega
    have h2 : va.toNat - 0x7F0000000000 = o := by omega
    simp only [State.windowAccess, if_pos h1, hc, h2]
  rw [if_neg hk, hw, windowPlace] at hx
  split at hx
  · next hr => rw [if_pos hr, State.access_of_xlate_ok ha hx (State.barred_corePlace hp _ _)]
  · next hr => rw [if_neg hr, State.access_of_xlate_error ha hx]

/-- With no entry in a TLB, a page that no walk finds is a page fault, and only the walk's reads are left (R203). -/
theorem State.pageOf_unmapped (hw : walk s.mem va.toNat 3 (ptePpn g.root.toNat) = none) (hc : ∀ c, g.core = some c → (s.core c).tlb = [])
    (hk : ∀ c, g.cluster = some c → (s.cluster c).tlb = []) :
    s.pageOf g va.toNat k d = (none, s.snoopWalk (ptePpn g.root.toNat) va.toNat) := by
  have h1 : (g.core.bind fun c => ((s.core c).tlb.filter fun e => g.lane.all (· == e.bank)).find? fun e => e.holds g.owner va.toNat) = none := by
    cases h : g.core with
    | none => rfl
    | some c => simp [hc c h]
  have h2 : (g.cluster.bind fun c => (s.cluster c).tlb.find? fun e => e.holds g.owner va.toNat) = none := by
    cases h : g.cluster with
    | none => rfl
    | some c => simp [hk c h]
  unfold State.pageOf
  simp only [h1, h2, Option.all_none, Bool.and_self, if_true]
  rw [State.walkFor]
  dsimp only
  rw [State.snoopWalk_mem, hw]

theorem State.access_unmapped (ha : va.toNat % size = 0) (hv : va.toNat < 0x7F0000000000)
    (hw : walk s.mem va.toNat 3 (ptePpn g.root.toNat) = none) (hc : ∀ c, g.core = some c → (s.core c).tlb = [])
    (hk : ∀ c, g.cluster = some c → (s.cluster c).tlb = []) :
    s.access g va size k d = (.error { cause := k.fault, value := va }, s.snoopWalk (ptePpn g.root.toNat) va.toNat) :=
  State.access_of_xlate_error ha (State.xlate_unmapped hv (State.pageOf_unmapped hw hc hk))

theorem AccessKind.fault_eq (k : AccessKind) :
    k.fault = if k = .read then .pageFaultRead else if k = .write then .pageFaultWrite else .pageFaultExec := by
  cases k <;> rfl

end

/-- R198, R203, R206: the answers, in the order in which the check meets them. -/
theorem accessCheckAnswers : AccessCheckAnswers := fun s g va size k d _ =>
  ⟨State.access_misaligned,
   fun ha hp => State.access_of_xlate_error ha (State.xlate_protection hp),
   fun _ _ hc hv ho ha hk hp => State.access_ownArray hc hv ho ha hk hp,
   fun ha hv hw hc hk => ⟨_, s.snoopWalk_only _ _, by rw [← AccessKind.fault_eq]; exact State.access_unmapped ha hv hw hc hk⟩⟩

/-- Settles O19: the check fails in the order alignment, translation, page or window, and all that a walk leaves is its marked leaf, its
entries in the TLBs and the lines it read. -/
theorem accessChecks : Obligations.AccessChecks := ⟨accessCheckAnswers, accessFrame⟩

end Sys2Proof.Machine


/-! PROOFS. A load and its context's own store, the atomics, the cache instructions and FENCE (R210 to R214, R223 to R229). An atomic is a load
whose return puts the new value at the place it read; CFLUSH and CINV are stores that drop a line. -/

namespace Sys2Proof.Machine
open Sys2Proof Sys2Proof.Claims

/-! ### A load sees the older store of its context (R223, R225) -/

section
variable {s : State} {cx : Nat} {c : Ctx} {p : PendStore} {l : PendLoad} {cached : Option Nat} {o q n v : Nat}

theorem PendStore.byteAt_data {bs : List Byte} (h : p.kind = .data bs) (i : Nat) : p.byteAt (p.place + i) = bs[i]? := by
  simp [PendStore.byteAt, h]

theorem State.ownByte_of_store (hs : c.stores = [p]) (ho : p.ord < o) {b : Byte} (hb : p.byteAt q = some b) :
    s.ownByte c o cached q = b := by
  simp [State.ownByte, hs, ho, hb, laterStore]

theorem State.ownBytes_of_store (hs : c.stores = [p]) (ho : p.ord < o) (h : ∀ i < n, p.byteAt (q + i) = (bytesOf v n)[i]?) :
    s.ownBytes c o cached q n = v % 256 ^ n := by
  induction n generalizing q v with
  | zero => simp [State.ownBytes, Nat.mod_one]
  | succ n ih =>
    have hfirst : s.ownByte c o cached q = BitVec.ofNat 8 v := State.ownByte_of_store hs ho (h 0 (by omega))
    have hrest : s.ownBytes c o cached (q + 1) n = v / 256 % 256 ^ n := ih fun i hi => by
      rw [Nat.add_right_comm]
      exact h (i + 1) (by omega)
    rw [State.ownBytes, hfirst, hrest, Nat.pow_succ', Nat.mod_mul]
    simp

/-- Bytes that the own store writes hold no error (R428). -/
theorem State.ownEcc_of_store (hs : c.stores = [p]) (ho : p.ord < o) (h : ∀ i < n, (p.byteAt (q + i)).isSome = true) :
    s.ownEcc c o q n = false := by
  simp only [State.ownEcc, List.any_eq_false, List.mem_range]
  intro i hi
  simp [hs, ho, h i hi]

/-- An older plain store holds no plain load back: it gives its bytes. -/
theorem State.loadDue_of_store (hs : c.stores = [p]) (hl : c.loads = [l]) (hq : c.vq = []) {bs : List Byte} (hk : p.kind = .data bs)
    (hplain : l.kind = .plain) (hm : ∀ m, s.mxOf cx c = some m → m.queue = []) : s.loadDue cx c l = true := by
  have hmx := State.not_mxBlocks hm l.ord l.place l.size
  simp [State.loadDue, hmx, Ctx.olderLoad, Ctx.olderVec, Ctx.olderAcquire, hs, hl, hq, hplain, PendLoad.atomic, PendStore.forwards, hk]

end

/-- R223, R225: the older store gives the load its bytes, whether or not it has been performed. -/
theorem loadSeesOwnStore : LoadSeesOwnStore := by
  intro s cx c p l v hcx hc hs hl hq ho hk hplace hsize hplain _ hsigned _ hpois hm
  have hlen : (bytesOf v l.size).length = l.size := length_bytesOf v l.size
  have hbyte (i : Nat) : p.byteAt (l.place + i) = (bytesOf v l.size)[i]? := hplace ▸ PendStore.byteAt_data hk i
  have hvalue : s.ownBytes c l.ord l.cached l.place l.size = v % 256 ^ l.size := State.ownBytes_of_store hs ho fun i _ => hbyte i
  have herror : s.loadError c l = none := by
    rw [State.loadError, hpois, State.ownEcc_of_store hs ho fun i hi => by rw [hbyte, List.getElem?_eq_getElem (by rw [hlen]; exact hi)]; rfl]
    rfl
  have hreturn : s.loadReturn cx c 0 l = (s.snoopRead l.place l.size).setCtx cx
      ({ c with loads := [] }.setReg l.dst (BitVec.ofNat 64 (v % 256 ^ l.size))) := by
    unfold State.loadReturn
    rw [herror, hvalue, hplain, hl, hsigned]
    rfl
  refine ⟨(s.snoopRead l.place l.size).setCtx cx ({ c with loads := [] }.setReg l.dst (BitVec.ofNat 64 (v % 256 ^ l.size))), ?_, ?_, ?_, ?_⟩
  · show execScalarLoadReturn cx 0 s = _
    unfold execScalarLoadReturn
    simp only [← hc, hl, List.getElem?_cons_zero]
    rw [if_pos (State.loadDue_of_store hs hl hq hk hplain hm), hreturn]
  · rw [State.ctx_setCtx_same _ _ hcx, pow_mul]
    exact .of_regs fun r => Ctx.reg_setReg_congr (c := c) (c' := { c with loads := [] }) rfl l.dst r _
  · rw [State.setCtx_mem, State.snoopRead_mem]
  · rw [State.ctx_setCtx_same _ _ hcx, Ctx.setReg_eq]
    exact ⟨hs, rfl⟩

/-! ### The new value of an atomic (R213) -/

/-- Two outcomes of an atomic of n bytes leave the same: both write, the same bytes, or neither writes. -/
def SameWrite (n : Nat) (x y : Option Nat) : Prop := x.map (· % 2 ^ (8 * n)) = y.map (· % 2 ^ (8 * n))

theorem signedOf_eq_toInt_ofNat {w : Nat} (hw : 0 < w) (x : Nat) : signedOf w x = (BitVec.ofNat w x).toInt := by
  obtain ⟨w, rfl⟩ := Nat.exists_eq_add_of_lt hw
  rw [BitVec.toInt_eq_toNat_cond, BitVec.toNat_ofNat, signedOf, Nat.zero_add, Nat.add_sub_cancel, Nat.pow_succ']
  simp only [Nat.mul_lt_mul_left (Nat.zero_lt_two)]

theorem ofNat_mod_two_pow_self (w x : Nat) : BitVec.ofNat w (x % 2 ^ w) = BitVec.ofNat w x := by
  apply BitVec.eq_of_toNat_eq
  simp

theorem signedOf_lt_iff {w : Nat} (hw : 0 < w) (x y : Nat) :
    signedOf w (x % 2 ^ w) < signedOf w y ↔ (BitVec.ofNat w x).slt (BitVec.ofNat w y) = true := by
  rw [BitVec.slt_iff_toInt_lt, signedOf_eq_toInt_ofNat hw, signedOf_eq_toInt_ofNat hw, ofNat_mod_two_pow_self]

theorem signedOf_gt_iff {w : Nat} (hw : 0 < w) (x y : Nat) :
    signedOf w y < signedOf w (x % 2 ^ w) ↔ (BitVec.ofNat w y).slt (BitVec.ofNat w x) = true := by
  rw [BitVec.slt_iff_toInt_lt, signedOf_eq_toInt_ofNat hw, signedOf_eq_toInt_ofNat hw, ofNat_mod_two_pow_self]

section
variable {n : Nat} (b c o : Nat)

theorem sameWrite_add : SameWrite n (AmoOp.apply .add (8 * n) o b c) (some (o + b)) := by
  simp [SameWrite, AmoOp.apply]

theorem sameWrite_and : SameWrite n (AmoOp.apply .and (8 * n) o b c) (some (o &&& b)) := by
  show some ((o &&& b % 2 ^ (8 * n)) % 2 ^ (8 * n)) = some ((o &&& b) % 2 ^ (8 * n))
  rw [Nat.and_mod_two_pow, Nat.and_mod_two_pow, Nat.mod_mod]

theorem sameWrite_or : SameWrite n (AmoOp.apply .or (8 * n) o b c) (some (o ||| b)) := by
  show some ((o ||| b % 2 ^ (8 * n)) % 2 ^ (8 * n)) = some ((o ||| b) % 2 ^ (8 * n))
  rw [Nat.or_mod_two_pow, Nat.or_mod_two_pow, Nat.mod_mod]

theorem sameWrite_xor : SameWrite n (AmoOp.apply .xor (8 * n) o b c) (some (o ^^^ b)) := by
  show some ((o ^^^ b % 2 ^ (8 * n)) % 2 ^ (8 * n)) = some ((o ^^^ b) % 2 ^ (8 * n))
  rw [Nat.xor_mod_two_pow, Nat.xor_mod_two_pow, Nat.mod_mod]

theorem sameWrite_min (hn : 0 < n) : SameWrite n (AmoOp.apply .min (8 * n) o b c)
    (some (if (BitVec.ofNat (8 * n) b).slt (BitVec.ofNat (8 * n) o) then b else o)) := by
  simp only [SameWrite, AmoOp.apply, signedOf_lt_iff (Nat.mul_pos (by omega : 0 < 8) hn)]
  split <;> simp

theorem sameWrite_max (hn : 0 < n) : SameWrite n (AmoOp.apply .max (8 * n) o b c)
    (some (if (BitVec.ofNat (8 * n) o).slt (BitVec.ofNat (8 * n) b) then b else o)) := by
  simp only [SameWrite, AmoOp.apply, signedOf_gt_iff (Nat.mul_pos (by omega : 0 < 8) hn)]
  split <;> simp

theorem sameWrite_swp : SameWrite n (AmoOp.apply .swp (8 * n) o b c) (some b) := by
  simp [SameWrite, AmoOp.apply]

theorem sameWrite_cas : SameWrite n (AmoOp.apply .cas (8 * n) o b c) (if o = b % 2 ^ (8 * n) then some c else none) := by
  simp only [SameWrite, AmoOp.apply]
  split <;> simp

end

/-! ### Atomics (R213, R214) -/

section
variable {s t : State}

/-- An agent is what a context's job, address space and mode say. -/
theorem State.agentOf_congr {cx : Nat} {c c' : Ctx} (hcx : cx < numCtx) (hjobs : t.jobs = s.jobs) (hjob : c'.job = c.job)
    (hroot : c'.ptbase = c.ptbase) (hmode : c'.mode = c.mode) : t.agentOf cx c' = s.agentOf cx c := by
  have htenant : t.tenantOf c' = s.tenantOf c := by
    rw [State.tenantOf, State.jobOf, hjob, show t.job? = s.job? from funext fun h => by rw [State.job?, hjobs]; rfl]
    rfl
  simp only [State.agentOf, htenant, hroot, hmode, State.coreAt, if_pos hcx]

/-- An atomic's record as it issues. -/
def State.pendAmo (s : State) (x : Xlat) (op : AmoOp) (d a b c : SReg) (n : Nat) : PendLoad :=
  s.pendLoad x d (s.curCtx.reg a) n (AmoOp.signedResult op) (.amo op (s.curCtx.reg b) (s.curCtx.reg c))

/-- With nothing in flight an atomic whose access passes is pending. -/
theorem amoOp_of_quiet (h : Quiet s) {op : AmoOp} {d a b c : SReg} {w32 : Bool} {n : Nat} (hn : n = if w32 then 4 else 8) {x : Xlat}
    (hx : s.access s.curAgent (s.curCtx.reg a) n .write (op != .cas) = (.ok x, t)) :
    s.amoOp op d a b c w32 = .next (t.setCur (s.loadingCtx (s.pendAmo x op d a b c n) .running)) := by
  subst hn
  have hagent : s.agentOf s.sched.cur s.curCtx = s.curAgent := rfl
  have heffect : AccessEffect s t := .of_snd hx (s.access_effect _ _ _ _ _)
  have hloads : s.endCtx.loads = [] := h.loads
  unfold State.amoOp
  rw [if_neg (by simp [curFenced_of_quiet h, cntLd_of_quiet h]), heldOp_of_ready (heldReady_of_quiet h [a, b, c] [d])]
  dsimp only
  rw [hagent, hx]
  dsimp only
  rw [heffect.complete_eq, hloads, Ctx.retire_started _ (by exact unstarted_of_quiet h) (by exact h.guess)]
  rfl

/-- The state in which an atomic that is due puts its new value: the load has returned. -/
def State.returned (s t : State) (l : PendLoad) : State :=
  ((t.setCur (s.loadingCtx l .running)).snoopRead l.place l.size).setCtx s.sched.cur
    (s.loadedCtx l .running (extend l.signed l.size (t.mem.readN l.place l.size)))

@[simp] theorem State.returned_mem (s t : State) (l : PendLoad) : (s.returned t l).mem = t.mem := by simp [State.returned]

theorem State.returned_stale (ht : AccessEffect s t) (l : PendLoad) : (s.returned t l).stale = s.stale := by
  rw [State.returned, State.setCtx_stale, (State.snoopRead_effect _ _ _).stale_eq, State.setCur, State.setCtx_stale, ht.stale_eq]

theorem State.returned_alone (h : Quiet s) (ht : AccessEffect s t) (l : PendLoad) : CurrentAlone s (s.returned t l) ∧
    (s.returned t l).curCtx = s.loadedCtx l .running (extend l.signed l.size (t.mem.readN l.place l.size)) :=
  have halone := (ht.sameContexts.currentAlone.setCur h.cur (s.loadingCtx l .running)).trans
    (State.snoopRead_effect _ l.place l.size).sameContexts.currentAlone
  ⟨halone.setCtx h.cur _, halone.curCtx_setCtx h.cur _⟩

/-- The state in which an atomic writes: AMOCAS marks the leaf only now (R213). -/
def State.marked (s t : State) (l : PendLoad) (op : AmoOp) : State :=
  if op = .cas then ((s.returned t l).xlate ((s.returned t l).agentOf s.sched.cur (s.loadingCtx l .running)) l.va .write true).2
  else s.returned t l

theorem State.marked_effect (s t : State) (l : PendLoad) (op : AmoOp) : AccessEffect (s.returned t l) (s.marked t l op) := by
  unfold State.marked
  split
  · exact State.xlate_effect _ _ _ _ _
  · exact .refl _

/-- The memory in which an atomic writes is the access check's, but for the mark of AMOCAS. -/
theorem State.marked_mem (h : Quiet s) (ht : AccessEffect s t) (l : PendLoad) (op : AmoOp) :
    if (op != .cas) = true then (s.marked t l op).mem = t.mem else LeafMarked t.mem (s.marked t l op).mem s.curAgent l.va true := by
  have hagent : (s.returned t l).agentOf s.sched.cur (s.loadingCtx l .running) = s.curAgent :=
    State.agentOf_congr h.cur (State.returned_alone h ht l).1.jobs rfl rfl rfl
  by_cases hop : op = .cas
  · rw [if_neg (by simp [hop]), State.marked, if_pos hop, ← s.returned_mem t l, hagent]
    exact State.leafMarked_xlate
  · rw [if_pos (by simp [hop]), State.marked, if_neg hop, s.returned_mem]

/-- An atomic alone in flight reads memory, and puts the new value where there is one. -/
theorem execScalarLoadReturn_amo (h : Quiet s) (ht : AccessEffect s t) {l : PendLoad} {op : AmoOp} {b c : Word} (hk : l.kind = .amo op b c)
    (hecc : s.ecc = []) (hp : s.poisoned l.place = false)
    (hline : l.cached = none → ∀ i < l.size, s.stale.find? ((l.place + i) / 64) = none) :
    execScalarLoadReturn s.sched.cur 0 (t.setCur (s.loadingCtx l .running)) =
      .next ((AmoOp.apply op (8 * l.size) (t.mem.readN l.place l.size) b.toNat c.toNat).elim (s.returned t l) fun new =>
        (s.marked t l op).putBytes l.place l.cached (bytesOf new l.size)) := by
  have hcur : t.sched.cur = s.sched.cur := ht.sameContexts.cur
  have hctx : (t.setCur (s.loadingCtx l .running)).ctx s.sched.cur = s.loadingCtx l .running := by
    rw [State.setCur, hcur, State.ctx_setCtx_same _ _ h.cur]
  have hset := State.setCur_eq (s := t) (hcur ▸ h.cur) (s.loadingCtx l .running)
  have herror : (t.setCur (s.loadingCtx l .running)).loadError (s.loadingCtx l .running) l = none := by
    have hpois : (t.setCur (s.loadingCtx l .running)).poisoned l.place = false := by
      rw [← hp, ← ht.poisoned_eq, hset]
      rfl
    have hclean : (t.setCur (s.loadingCtx l .running)).ecc = [] := by rw [hset, ← hecc, ← ht.ecc_eq]
    rw [State.loadError, hpois, State.ownEcc_of_clean hclean]
    rfl
  have hvalue : (t.setCur (s.loadingCtx l .running)).ownBytes (s.loadingCtx l .running) l.ord l.cached l.place l.size =
      t.mem.readN l.place l.size := by
    rw [State.ownBytes_eq_bytesAt (by exact h.stores), State.bytesAt_eq_readN, State.setCur_mem]
    rw [hset, ← ht.stale_eq] at *
    exact hline
  unfold execScalarLoadReturn
  simp only [hctx, State.loads_loadingCtx, List.getElem?_cons_zero]
  rw [if_pos (loadDue_of_quiet h ht)]
  unfold State.loadReturn
  rw [herror, hvalue, hk]
  dsimp only
  cases AmoOp.apply op (8 * l.size) (t.mem.readN l.place l.size) b.toNat c.toNat <;> rfl

/-- What a due atomic leaves: its bytes put where it writes, and memory as its access check left it where it does not. -/
theorem amo_performed (h : Quiet s) (ht : AccessEffect s t) {l : PendLoad} {op : AmoOp} {b c : Word} (hk : l.kind = .amo op b c)
    (hecc : s.ecc = []) (hp : s.poisoned l.place = false)
    (hline : l.cached = none → ∀ i < l.size, s.stale.find? ((l.place + i) / 64) = none) :
    ∃ u, execScalarLoadReturn s.sched.cur 0 (t.setCur (s.loadingCtx l .running)) = .next u ∧ SameContexts (s.returned t l) u ∧
      (AmoOp.apply op (8 * l.size) (t.mem.readN l.place l.size) b.toNat c.toNat = none → u.mem = t.mem ∧ u.stale = s.stale) ∧
      ∀ new, AmoOp.apply op (8 * l.size) (t.mem.readN l.place l.size) b.toNat c.toNat = some new →
        BytesPut (s.marked t l op) u l.cached l.place (bytesOf new l.size) := by
  refine ⟨_, execScalarLoadReturn_amo h ht hk hecc hp hline, ?_, fun hn => ?_, fun new hn => ?_⟩
  · cases AmoOp.apply op (8 * l.size) (t.mem.readN l.place l.size) b.toNat c.toNat with
    | none => exact .refl _
    | some new => exact (s.marked_effect t l op).sameContexts.trans (State.putBytes_sameContexts _ _ _ _)
  · rw [hn]
    exact ⟨s.returned_mem t l, State.returned_stale ht l⟩
  · rw [hn]
    refine State.putBytes_put fun hc i hi => ?_
    rw [(s.marked_effect t l op).stale_eq, State.returned_stale ht l]
    exact hline hc i (by rwa [length_bytesOf] at hi)

variable {i : Instr} {op : AmoOp} {d a b c : SReg} {w32 : Bool} {n : Nat} {signed setD : Bool} {new : Ctx → Nat → Option Nat}

/-- An instruction that is one of the model's atomics does what the rules say of its new value. -/
theorem atomic_of_amoOp (hi : ∀ s, exec i s = s.amoOp op d a b c w32) (hn : n = if w32 then 4 else 8)
    (hsigned : AmoOp.signedResult op = signed) (hD : (op != .cas) = setD)
    (hnew : ∀ x o, SameWrite n (AmoOp.apply op (8 * n) o (x.reg b).toNat (x.reg c).toNat) (new x o)) : Atomic i d a n signed new setD := by
  subst hsigned hD
  have hpos : 0 < n := by subst hn; split <;> omega
  have hsize : n ≤ 8 := by subst hn; split <;> omega
  intro s x m hok hready
  obtain ⟨t, haccess, rfl⟩ := accessOf_eq_ok hok
  have hq := hready.quiet
  have ht : AccessEffect s t := .of_snd haccess (s.access_effect _ _ _ _ _)
  have hpois : s.poisoned x.place = false := s.not_poisoned_of_access (congrArg Prod.fst haccess)
  obtain ⟨u, hexec, hctxs, hkept, hput⟩ := amo_performed hq ht (l := s.pendAmo x op d a b c n) rfl hready.ecc hpois
    (PlaceReady.clean hready hsize)
  obtain ⟨halone, hctx⟩ := State.returned_alone hq ht (s.pendAmo x op d a b c n)
  have hloaded := s.loadedCtx_eq (s.pendAmo x op d a b c n) .running (extend (AmoOp.signedResult op) n (t.mem.readN x.place n))
  have hsame := hnew s.curCtx (t.mem.readN x.place n)
  refine ⟨_, u, (hi s).trans (amoOp_of_quiet hq hn haccess), hexec, ?_, ?_, ?_⟩
  · rw [hctxs.curCtx_eq, hctx, ← extend_eq hpos hsize]
    exact s.loadedCtx_writes _ _ _
  · split
    · next v hv =>
      rw [hv] at hsame
      obtain ⟨w, hw, hwv⟩ := Option.map_eq_some_iff.1 hsame
      obtain ⟨hinside, houtside⟩ := hput w hw
      rw [length_bytesOf] at hinside houtside
      refine ⟨?_, (s.marked t (s.pendAmo x op d a b c n) op).mem, fun q hq => ?_, State.marked_mem hq ht _ op⟩
      · have hbytes : u.bytesAt x.cached x.place n = w % 256 ^ n := State.bytesAt_bytesOf hinside
        rw [hbytes]
        rw [pow_mul] at hwv ⊢
        exact hwv
      · obtain ⟨hread, hhome⟩ := houtside q hq
        refine ⟨hread, hhome.trans (State.homeByte_congr ?_ rfl)⟩
        rw [(s.marked_effect t _ op).stale_eq, State.returned_stale ht]
    · next hv =>
      rw [hv] at hsame
      exact hkept (Option.map_eq_none_iff.1 hsame)
  · rw [hctxs.curCtx_eq, hctx]
    refine ⟨?_, ?_, ?_, ?_, hctxs.jobs.trans halone.jobs⟩ <;> exact hloaded ▸ rfl

end

/-- R213, R214: the atomics, 32 and 64 bits wide. -/
theorem atomicResults : AtomicResults := by
  intro d a b c w32 n hn
  have hpos : 0 < n := by subst hn; split <;> omega
  exact ⟨atomic_of_amoOp (fun _ => rfl) hn rfl rfl fun _ _ => sameWrite_add _ _ _,
    atomic_of_amoOp (fun _ => rfl) hn rfl rfl fun _ _ => sameWrite_and _ _ _,
    atomic_of_amoOp (fun _ => rfl) hn rfl rfl fun _ _ => sameWrite_or _ _ _,
    atomic_of_amoOp (fun _ => rfl) hn rfl rfl fun _ _ => sameWrite_xor _ _ _,
    atomic_of_amoOp (fun _ => rfl) hn rfl rfl fun _ _ => sameWrite_min _ _ _ hpos,
    atomic_of_amoOp (fun _ => rfl) hn rfl rfl fun _ _ => sameWrite_max _ _ _ hpos,
    atomic_of_amoOp (fun _ => rfl) hn rfl rfl fun _ _ => rfl,
    atomic_of_amoOp (fun _ => rfl) hn rfl rfl fun _ _ => rfl,
    atomic_of_amoOp (fun _ => rfl) hn rfl rfl fun _ _ => sameWrite_swp _ _ _,
    atomic_of_amoOp (fun _ => rfl) hn rfl rfl fun _ _ => sameWrite_cas _ _ _⟩

end Sys2Proof.Machine


namespace Sys2Proof.Machine
open Sys2Proof Sys2Proof.Claims

/-! ### PREF, CFLUSH and CINV (R210, R211) -/

theorem FMap.erase_of_find?_eq_none {α : Type} (m : FMap α) {k : Nat} (h : m.find? k = none) : m.erase k = m := by
  induction m with
  | nil => rfl
  | cons x m ih =>
    obtain ⟨j, v⟩ := x
    rw [FMap.find?] at h
    split at h
    · cases h
    · next hj => rw [FMap.erase, if_neg hj, ih h]

section
variable {s t y : State}

theorem execPref_result {h : Fin 3} {a : SReg} {imm : Nat} (hr : FreeReady s [a] [] false) :
    ∃ t, exec (.pref h a imm) s = .next t ∧ (∀ r, t.curCtx.reg r = s.curCtx.reg r) ∧ t.curCtx.pc = s.nextPc ∧ ScalarFrame s t := by
  refine ⟨_, freeOp_of_ready hr fun c => c, fun r => ?_, ?_, State.scalarFrame_setCur hr.cur ((s.scalarSide_issueCtx _ _).trans (scalarSide_retire _))⟩
  · rw [s.curCtx_setCur hr.cur, Ctx.reg_retire, State.reg_issueCtx]
  · rw [s.curCtx_setCur hr.cur, Ctx.pc_retire, State.pc_issueCtx]

@[simp] theorem State.flushLine_stale (s : State) (l : Nat) : (s.flushLine l).stale = s.stale.erase l := by
  unfold State.flushLine
  split
  · next h => exact (FMap.erase_of_find?_eq_none _ h).symm
  · dsimp only
    split <;> rfl

/-- A flushed line that differs from its home takes what the home holds, but where the line is dirty its home takes the line (R211). -/
theorem State.flushLine_mem (s : State) (l : Nat) : (s.flushLine l).mem =
    (s.stale.find? l).elim s.mem fun d => if d.dirty then s.mem else s.mem.writeBytes (64 * l) d.home := by
  unfold State.flushLine
  cases s.stale.find? l with
  | none => rfl
  | some d =>
    dsimp only [Option.elim]
    split <;> rfl

theorem State.flushLine_sameContexts (s : State) (l : Nat) : SameContexts s (s.flushLine l) := by
  unfold State.flushLine
  split
  · exact .refl s
  · dsimp only
    split <;> exact ⟨rfl, rfl, rfl⟩

@[simp] theorem State.invalLine_stale (s : State) (l : Nat) : (s.invalLine l).stale = s.stale.erase l := by
  unfold State.invalLine
  dsimp only
  split
  · next h => exact (FMap.erase_of_find?_eq_none _ h).symm
  · rfl

theorem State.invalLine_mem (s : State) (l : Nat) : (s.invalLine l).mem =
    (s.stale.find? l).elim s.mem fun d => s.mem.writeBytes (64 * l) d.home := by
  unfold State.invalLine
  dsimp only
  cases s.stale.find? l <;> rfl

@[simp] theorem State.invalLine_linkPoison (s : State) (l : Nat) : (s.invalLine l).linkPoison = s.linkPoison.erase l := by
  unfold State.invalLine
  dsimp only
  split <;> rfl

theorem State.invalLine_sameContexts (s : State) (l : Nat) : SameContexts s (s.invalLine l) := by
  unfold State.invalLine
  dsimp only
  split <;> exact ⟨rfl, rfl, rfl⟩

/-- The record of CFLUSH or CINV as it issues: a store of its line. -/
def State.pendLine (s : State) (x : Xlat) (kind : StoreKind) : PendStore :=
  { ord := s.curCtx.ord, place := lineOf x.place * 64, size := 64, kind := kind, cached := x.cached, release := false, vec := false }

/-- With nothing in flight a line instruction whose translation passes is pending, and over where no line is cached. -/
theorem lineOp_of_quiet (h : Quiet s) {a : SReg} {k : AccessKind} {kind : StoreKind} {x : Xlat}
    (hx : s.xlate s.curAgent (s.curCtx.reg a) k (k == .write) = (.ok x, y))
    (hgrant : isTwinPa x.place = false ∨ s.twinGrants (s.tenantOf s.curCtx) (lineOf x.place * 64) 64 (k == .write) = true) :
    s.lineOp a k kind = if x.uc = true ∨ 2 ^ 48 ≤ x.place then .next (y.complete id)
      else .next (y.setCur (s.storingCtx (s.pendLine x kind))) := by
  have hagent : s.agentOf s.sched.cur s.curCtx = s.curAgent := rfl
  have howner : s.curAgent.owner = s.tenantOf s.curCtx := rfl
  have heffect : AccessEffect s y := .of_snd hx (s.xlate_effect _ _ _ _)
  have hstores : s.endCtx.stores = [] := h.stores
  have hpass : ¬ (isTwinPa x.place && !s.twinGrants s.curAgent.owner (lineOf x.place * 64) 64 (k == .write)) = true := by
    rcases hgrant with hg | hg <;> simp [howner, hg]
  unfold State.lineOp
  rw [if_neg (by simp [curFenced_of_quiet h, cntSt_of_quiet h]), heldOp_of_ready (heldReady_of_quiet h [a] [])]
  dsimp only
  rw [hagent, hx]
  dsimp only
  rw [if_neg hpass]
  simp only [Bool.or_eq_true, decide_eq_true_eq]
  refine if_congr Iff.rfl rfl (congrArg _ ?_)
  rw [State.queueStore, heffect.complete_eq, hstores, Ctx.retire_started _ (by exact unstarted_of_quiet h) (by exact h.guess)]
  rfl

theorem storePerformed_of_quiet (h : Quiet s) (ht : AccessEffect s t) (p : PendStore) :
    ∃ ecc, execStorePerformed s.sched.cur 0 (t.setCur (s.storingCtx p)) = .next { (s.storing t p).performStore p with ecc := ecc } := by
  have hctx : (t.setCur (s.storingCtx p)).ctx s.sched.cur = s.storingCtx p := by
    rw [State.setCur, ht.sameContexts.cur, State.ctx_setCtx_same _ _ h.cur]
  have helement : (s.storingCtx p).elementDue 0 p = true := by simp [Ctx.elementDue]
  unfold execStorePerformed
  simp only [hctx, State.stores_storingCtx, List.getElem?_cons_zero]
  rw [if_pos (by rw [storeDue_of_quiet h ht, helement]; rfl), State.performOne]
  exact ⟨_, rfl⟩

/-- A pending line instruction touches the home, then does what it does to the line. -/
theorem linePerformed_result (h : Quiet s) (ht : AccessEffect s t) {x : Xlat} {kind : StoreKind} {f : State → Nat → State}
    (hf : ∀ u : State, u.performStore (s.pendLine x kind) = f (u.touch (lineOf x.place * 64) 64) (lineOf (lineOf x.place * 64)))
    (hsame : ∀ u l, SameContexts u (f u l)) :
    ∃ u v ecc, execStorePerformed s.sched.cur 0 (t.setCur (s.storingCtx (s.pendLine x kind))) = .next u ∧
      u = { f v (x.place / 64) with ecc := ecc } ∧ v.stale = s.stale ∧ v.mem = t.mem ∧ v.linkPoison = s.linkPoison ∧
      u.curCtx.sregs = s.curCtx.sregs ∧ u.curCtx.pc = s.nextPc := by
  obtain ⟨ecc, hexec⟩ := storePerformed_of_quiet h ht (s.pendLine x kind)
  have hline : lineOf (lineOf x.place * 64) = x.place / 64 := by unfold lineOf; omega
  rw [hf, hline] at hexec
  have htouch := (s.storing t (s.pendLine x kind)).touch_effect (lineOf x.place * 64) 64
  have hctxs := (htouch.sameContexts.trans (hsame _ (x.place / 64))).curCtx_eq.trans (State.storing_alone h ht _).2
  refine ⟨_, _, ecc, hexec, rfl, ?_, ?_, ?_, ?_, ?_⟩
  · rw [htouch.stale_eq, State.storing_stale, ht.stale_eq]
  · rw [State.touch_mem, State.storing_mem]
  · rw [htouch.fields]
    show (s.storing t _).linkPoison = _
    rw [State.storing, State.setCtx_linkPoison, State.setCur, State.setCtx_linkPoison, ht.fields]
  · exact (congrArg Ctx.sregs hctxs).trans rfl
  · exact (congrArg Ctx.pc hctxs).trans rfl

/-- CFLUSH drops the line, which its home takes where it is dirty (R211). -/
theorem execCflush_result (h : Quiet s) {a : SReg} {x : Xlat} (hx : s.xlate s.curAgent (s.curCtx.reg a) .read false = (.ok x, y))
    (hcached : ¬ (x.uc = true ∨ 2 ^ 48 ≤ x.place))
    (hgrant : isTwinPa x.place = false ∨ s.twinGrants (s.tenantOf s.curCtx) (lineOf x.place * 64) 64 false = true) :
    ∃ t u, exec (.cflush a) s = .next t ∧ exec (.storePerformed s.sched.cur 0) t = .next u ∧ u.stale = s.stale.erase (x.place / 64) ∧
      u.mem = (s.stale.find? (x.place / 64)).elim y.mem (fun d => if d.dirty then y.mem else y.mem.writeBytes (64 * (x.place / 64)) d.home) ∧
      u.curCtx.sregs = s.curCtx.sregs ∧ u.curCtx.pc = s.nextPc := by
  have ht : AccessEffect s y := .of_snd hx (s.xlate_effect _ _ _ _)
  obtain ⟨u, v, ecc, hexec, hu, hstale, hmem, -, hregs, hpc⟩ :=
    linePerformed_result h ht (x := x) (kind := .flush) (f := State.flushLine) (fun _ => rfl) State.flushLine_sameContexts
  refine ⟨_, u, (lineOp_of_quiet h hx hgrant).trans (if_neg hcached), hexec, ?_, ?_, hregs, hpc⟩
  · rw [hu, ← hstale]
    exact v.flushLine_stale _
  · rw [hu, ← hstale, ← hmem]
    exact v.flushLine_mem _

/-- CINV drops the line, and memory holds what the home holds (R211). -/
theorem execCinv_result (h : Quiet s) {a : SReg} {x : Xlat} (hx : s.xlate s.curAgent (s.curCtx.reg a) .write true = (.ok x, y))
    (hcached : ¬ (x.uc = true ∨ 2 ^ 48 ≤ x.place))
    (hgrant : isTwinPa x.place = false ∨ s.twinGrants (s.tenantOf s.curCtx) (lineOf x.place * 64) 64 true = true) :
    ∃ t u, exec (.cinv a) s = .next t ∧ exec (.storePerformed s.sched.cur 0) t = .next u ∧ u.stale = s.stale.erase (x.place / 64) ∧
      u.linkPoison = s.linkPoison.erase (x.place / 64) ∧
      u.mem = (s.stale.find? (x.place / 64)).elim y.mem (fun d => y.mem.writeBytes (64 * (x.place / 64)) d.home) ∧
      u.curCtx.sregs = s.curCtx.sregs ∧ u.curCtx.pc = s.nextPc := by
  have ht : AccessEffect s y := .of_snd hx (s.xlate_effect _ _ _ _)
  obtain ⟨u, v, ecc, hexec, hu, hstale, hmem, hpoison, hregs, hpc⟩ :=
    linePerformed_result h ht (x := x) (kind := .inval) (f := State.invalLine) (fun _ => rfl) State.invalLine_sameContexts
  refine ⟨_, u, (lineOp_of_quiet h hx hgrant).trans (if_neg hcached), hexec, ?_, ?_, ?_, hregs, hpc⟩
  · rw [hu, ← hstale]
    exact v.invalLine_stale _
  · rw [hu, ← hpoison]
    exact v.invalLine_linkPoison _
  · rw [hu, ← hstale, ← hmem]
    exact v.invalLine_mem _

/-- Where no line is cached a line instruction is over as it issues (R211). -/
theorem lineOp_uncached (h : Quiet s) {a : SReg} {k : AccessKind} {kind : StoreKind} {x : Xlat}
    (hx : (s.xlate s.curAgent (s.curCtx.reg a) k (k == .write)).1 = .ok x) (huc : x.uc = true ∨ 2 ^ 48 ≤ x.place)
    (hgrant : isTwinPa x.place = false ∨ s.twinGrants (s.tenantOf s.curCtx) (lineOf x.place * 64) 64 (k == .write) = true) :
    ∃ t, s.lineOp a k kind = .next t ∧ t.curCtx.stores = [] ∧ t.stale = s.stale ∧
      LeafMarked s.mem t.mem s.curAgent (s.curCtx.reg a) (k == .write) ∧ t.curCtx.sregs = s.curCtx.sregs ∧ t.curCtx.pc = s.nextPc := by
  have hxlate := Prod.ext (x := s.xlate s.curAgent (s.curCtx.reg a) k (k == .write)) (y := (.ok x, _)) hx rfl
  have ht := s.xlate_effect s.curAgent (s.curCtx.reg a) k (k == .write)
  have hcur : (s.xlate s.curAgent (s.curCtx.reg a) k (k == .write)).2.sched.cur < numCtx := ht.sameContexts.cur ▸ h.cur
  refine ⟨_, (lineOp_of_quiet h hxlate hgrant).trans (if_pos huc), ?_⟩
  rw [ht.complete_eq, State.curCtx_setCur _ hcur, id, Ctx.retire_started _ (by exact unstarted_of_quiet h) (by exact h.guess)]
  refine ⟨h.stores, ?_, ?_, rfl, rfl⟩
  · rw [State.setCur, State.setCtx_stale, ht.stale_eq]
  · rw [State.setCur_mem]
    exact State.leafMarked_xlate

end

/-! ### FENCE (R229) -/

section
variable {s : State} {before after : Fin 16} {scope : Fin 5}

/-- What FENCE leaves on the list: itself. -/
def State.pendFence (s : State) (before after : Fin 16) (scope : Fin 5) : PendFence :=
  { ord := s.curCtx.ord, pc := s.curCtx.pc, before := before.val, after := after.val, scope := scope.val }

/-- The context past FENCE. -/
def State.fencedCtx (s : State) (before after : Fin 16) (scope : Fin 5) : Ctx :=
  { s.endCtx with fences := (s.curCtx.fences.filter fun f => s.fenceWaits s.sched.cur s.endCtx f) ++ [s.pendFence before after scope] }

theorem execFence_of_ready (h : HeldReady s [] []) :
    exec (.fence before after scope) s = .next (s.setCur (s.fencedCtx before after scope).retire) := by
  show execFence before after scope s = _
  rw [execFence, heldOp_of_ready h]
  rfl

/-- Without a pending access of a class nothing is pending. -/
theorem State.pendClasses_of_empty {cx : Nat} {c : Ctx} (hloads : c.loads = []) (hstores : c.stores = []) (hvq : c.vq = []) (hops : c.ops = [])
    (hm : ∀ m, s.mxOf cx c = some m → m.queue = []) (set o : Nat) : s.pendClasses cx c set o = false := by
  have hpendM : s.pendM cx c o = false := by
    unfold State.pendM
    split
    · next m hc => simp [hm m hc]
    · rfl
  simp [State.pendClasses, Ctx.pendS, Ctx.pendV, Ctx.pendE, hpendM, hloads, hstores, hvq, hops]

/-- With nothing in flight a FENCE waits for nothing, so it holds nothing back. -/
theorem fence_open (h : Quiet s) (cls : Nat) : (s.setCur (s.fencedCtx before after scope).retire).curFenced cls = false := by
  have hctx : (s.fencedCtx before after scope).retire = { s.fencedCtx before after scope with
      ord := s.curCtx.ord + 1, instret := s.curCtx.instret + 1 } := Ctx.retire_started _ (unstarted_of_quiet h) h.guess
  have hmatrix := matrix_setCur_of_quiet h (.refl s) (c := (s.fencedCtx before after scope).retire) (by rw [hctx]; rfl)
  rw [State.curFenced, State.curCtx_setCur _ h.cur, State.fenced, List.any_eq_false]
  intro f _
  have hpend := State.pendClasses_of_empty (s := s.setCur (s.fencedCtx before after scope).retire) (cx := s.sched.cur)
    (c := (s.fencedCtx before after scope).retire) (by rw [hctx]; exact h.loads) (by rw [hctx]; exact h.stores)
    (by rw [hctx]; exact h.queue) (by rw [hctx]; exact h.ops) hmatrix f.before f.ord
  rw [State.setCur_sched, State.fenceWaits, hpend]
  simp

theorem hasClass_eq_testBit (set cls : Nat) : hasClass set cls = set.testBit cls := by
  rw [hasClass, bit, Nat.testBit_eq_decide_div_mod_eq]
  rfl

theorem Ctx.ord_count (c : Ctx) (n : Nat) : (c.count n).ord = c.ord := by
  unfold Ctx.count; split
  · split <;> rfl
  · rfl

/-- A retired instruction takes the next place in its context's order. -/
theorem Ctx.ord_retire (c : Ctx) : c.retire.ord = c.ord + 1 := by
  simp only [Ctx.retire]; split
  · rfl
  · exact Ctx.ord_count _ _

/-- A FENCE whose older loads are pending holds the accesses of its second set back. -/
theorem fence_holds (h : HeldReady s [] []) (hfences : s.curCtx.fences = []) (hbefore : before.val.testBit 0 = true) (hscope : scope.val ≠ 0)
    (hload : s.curCtx.loads.any (fun l => l.ord < s.curCtx.ord) = true) {cls : Nat} (hafter : after.val.testBit cls = true) :
    (s.setCur (s.fencedCtx before after scope).retire).curFenced cls = true := by
  obtain ⟨hside, -⟩ := scalarSide_retire (s.fencedCtx before after scope)
  have hctx : (s.fencedCtx before after scope).retire.fences = [s.pendFence before after scope] := by
    rw [hside]
    show (s.curCtx.fences.filter _) ++ _ = _
    rw [hfences]
    rfl
  have hloads : (s.fencedCtx before after scope).retire.loads = s.curCtx.loads := by rw [hside]; rfl
  have hord : s.curCtx.ord < (s.fencedCtx before after scope).retire.ord := by
    rw [Ctx.ord_retire]
    exact Nat.lt_succ_self _
  have hclass : hasClass before.val 0 = true := (hasClass_eq_testBit _ _).trans hbefore
  have hheld : hasClass after.val cls = true := (hasClass_eq_testBit _ _).trans hafter
  have hb : before.val ≠ 0 := fun h0 => by simp [h0] at hbefore
  have ha : after.val ≠ 0 := fun h0 => by simp [h0] at hafter
  rw [State.curFenced, State.curCtx_setCur _ h.cur, State.fenced, hctx, State.setCur_sched]
  simp [State.fenceWaits, State.pendFence, State.pendClasses, Ctx.pendS, hclass, hheld, hb, ha, hscope, hload, hloads, hord]

end

/-- R210, R211, R229: PREF, the line instructions and FENCE. -/
theorem cacheAndFenceResults : CacheAndFenceResults := by
  refine ⟨fun h a imm s hr => execPref_result hr, fun a s y x l hm huc hplace hl hgrant => ?_, fun a s x k i hm huc hi hgrant hx => ?_,
    fun before after scope s h => ?_⟩
  · subst hl
    have hcached : ¬ (x.uc = true ∨ 2 ^ 48 ≤ x.place) := by
      rw [huc]
      simpa using hplace
    have hg (w : Bool) : isTwinPa x.place = false ∨ s.twinGrants (s.tenantOf s.curCtx) (lineOf x.place * 64) 64 w = true := by
      rw [Nat.mul_comm]
      exact hgrant w
    refine ⟨fun hx => ?_, fun hx => ?_⟩
    · obtain ⟨t, u, ht, hu, hstale, hmem, hrest⟩ := execCflush_result hm.quiet hx hcached (hg _)
      refine ⟨t, u, ht, hu, hstale, hmem.trans ?_, hrest⟩
      cases s.stale.find? (x.place / 64) <;> rfl
    · obtain ⟨t, u, ht, hu, hstale, hpoison, hmem, hrest⟩ := execCinv_result hm.quiet hx hcached (hg _)
      refine ⟨t, u, ht, hu, hstale, hpoison, hmem.trans ?_, hrest⟩
      cases s.stale.find? (x.place / 64) <;> rfl
  · rcases hi with ⟨rfl, rfl⟩ | ⟨rfl, rfl⟩
    · exact lineOp_uncached hm.quiet hx huc hgrant
    · exact lineOp_uncached hm.quiet hx huc hgrant
  · refine ⟨_, execFence_of_ready h, fun r => ?_, ?_, State.setCur_mem _ _, State.setCur_eq h.cur _, fun hq cls => fence_open hq cls,
      fun hfences hbefore hscope hload cls _ hafter => fence_holds h hfences hbefore hscope hload hafter⟩
    · rw [s.curCtx_setCur h.cur, Ctx.reg_retire]
      rfl
    · rw [s.curCtx_setCur h.cur, Ctx.pc_retire]
      rfl

/-- Settles O20: a load takes its own store's bytes, an atomic's return puts the new value where the old one stood, a line instruction is a store
that drops its line, and a FENCE is a record that waits while its accesses are pending. -/
theorem atomicCacheAndFenceResults : Obligations.AtomicCacheAndFenceResults := ⟨loadSeesOwnStore, atomicResults, cacheAndFenceResults⟩

end Sys2Proof.Machine


/-! PROOFS. Vector loads and stores (R207, R216 to R219). The probe pass does not look at the contexts, so that it answers in the queue what it
answers as the instruction issues. -/

namespace Sys2Proof.Machine
open Sys2Proof Sys2Proof.Claims

/-! ### An access check does not look at the contexts (R198 to R208) -/

/-- The state with other contexts. -/
def State.withCtxs (s : State) (x : FMap Ctx) : State := { s with ctxs := x }

/-- An answer with the state's contexts replaced. -/
def onCtxs {α : Type} (x : FMap Ctx) (r : α × State) : α × State := (r.1, r.2.withCtxs x)

section
variable (s : State) (x : FMap Ctx)

theorem State.touch_withCtxs (p n : Nat) : (s.withCtxs x).touch p n = (s.touch p n).withCtxs x := by
  have hready : (s.withCtxs x).unready p n = s.unready p n := rfl
  unfold State.touch
  rw [hready]
  cases s.unready p n <;> rfl

theorem State.snoopRead_withCtxs (p n : Nat) : (s.withCtxs x).snoopRead p n = (s.snoopRead p n).withCtxs x := by
  unfold State.snoopRead
  rw [s.touch_withCtxs]
  generalize s.touch p n = t
  dsimp only
  by_cases h : t.host.snoop.isEmpty
  · rw [if_pos h]
    exact if_pos h
  · rw [if_neg h]
    exact if_neg h

theorem State.snoopWrite_withCtxs (p n : Nat) : (s.withCtxs x).snoopWrite p n = (s.snoopWrite p n).withCtxs x := by
  unfold State.snoopWrite
  rw [s.touch_withCtxs]
  generalize s.touch p n = t
  dsimp only
  by_cases h : t.host.snoop.isEmpty
  · rw [if_pos h]
    exact if_pos h
  · rw [if_neg h]
    exact if_neg h

theorem State.snoopWalk_withCtxs (root va : Nat) : (s.withCtxs x).snoopWalk root va = (s.snoopWalk root va).withCtxs x :=
  List.foldl_hom (State.withCtxs · x) (g₁ := fun s p => s.snoopRead p 8) (g₂ := fun s p => s.snoopRead p 8) fun t p =>
    t.snoopRead_withCtxs x p 8

theorem State.tlbFill_withCtxs (a : Agent) (core cluster : Option Nat) (e : TlbEntry) :
    (s.withCtxs x).tlbFill a core cluster e = (s.tlbFill a core cluster e).withCtxs x := by
  have hcluster (t : State) (n c : Nat) (f : Cluster → Cluster) (σ : Sched) :
      ({ (if n = 0 then t else t.modCluster c f) with sched := σ } : State).withCtxs x =
        { (if n = 0 then t.withCtxs x else (t.withCtxs x).modCluster c f) with sched := σ } := by
    split <;> rfl
  unfold State.tlbFill
  symm
  cases core <;> cases cluster
  · rfl
  · exact hcluster _ _ _ _ _
  · rfl
  · exact hcluster _ _ _ _ _

theorem State.setAD_withCtxs (l : Leaf) (d : Bool) : (s.withCtxs x).setAD l d = (s.setAD l d).withCtxs x := by
  unfold State.setAD
  rw [s.snoopWrite_withCtxs]
  dsimp only
  split <;> rfl

theorem State.markLeaf_withCtxs (a : Agent) (va : Nat) (d : Bool) : (s.withCtxs x).markLeaf a va d = (s.markLeaf a va d).withCtxs x := by
  have hmem : (s.withCtxs x).mem = s.mem := rfl
  unfold State.markLeaf
  rw [hmem]
  split
  · rfl
  · exact s.setAD_withCtxs x _ d

theorem State.drawBit_withCtxs : (s.withCtxs x).drawBit = onCtxs x s.drawBit := rfl

theorem State.walkFor_withCtxs (a : Agent) (va : Nat) (k : AccessKind) (d : Bool) :
    (s.withCtxs x).walkFor a va k d = onCtxs x (s.walkFor a va k d) := by
  have hmem (t : State) : (t.withCtxs x).mem = t.mem := rfl
  have hpa (t : State) (p : Nat) : (t.withCtxs x).paExists p = t.paExists p := rfl
  unfold State.walkFor
  rw [s.snoopWalk_withCtxs]
  generalize s.snoopWalk (ptePpn a.root.toNat) va = t
  dsimp only
  rw [hmem]
  split
  · rfl
  · next l hl =>
    rw [hpa, t.drawBit_withCtxs]
    split
    · split
      · exact Prod.ext rfl (by rw [onCtxs, State.setAD_withCtxs, State.tlbFill_withCtxs]; rfl)
      · exact Prod.ext rfl (by rw [State.setAD_withCtxs, State.tlbFill_withCtxs]; rfl)
    · rfl

theorem State.tlbHit_withCtxs (e : Option TlbEntry) : (s.withCtxs x).tlbHit e = onCtxs x (s.tlbHit e) := by
  cases e <;> rfl

/-- What a TLB entry that answers leads to. -/
def State.entryAnswer (t : State) (a : Agent) (va : Nat) (k : AccessKind) (d : Bool) (e : TlbEntry) : Option TlbEntry × State :=
  if d && !e.d then t.walkFor a va k d
  else if e.grants k a.user && t.paExists (e.pa + (va - e.va)) then (some e, if e.size = 65536 then t.markLeaf a va d else t)
  else (none, t)

/-- The answer of the TLBs whose entries are l1 and l2. -/
def State.tlbAnswer (s : State) (a : Agent) (free : Bool) (l1 l2 : Option TlbEntry) : Option TlbEntry × State :=
  if free then
    match l1, l2 with
    | none, some e => (some e, s.tlbFill a a.core none e)
    | l1, _ => (l1, s)
  else
    match s.tlbHit l1 with
    | (some e, s) => (some e, s)
    | (none, s) =>
      match s.tlbHit l2 with
      | (some e, s) => (some e, s.tlbFill a a.core none e)
      | (none, s) => (none, s)

theorem State.entryAnswer_withCtxs (a : Agent) (va : Nat) (k : AccessKind) (d : Bool) (e : TlbEntry) :
    (s.withCtxs x).entryAnswer a va k d e = onCtxs x (s.entryAnswer a va k d e) := by
  have hpa (p : Nat) : (s.withCtxs x).paExists p = s.paExists p := rfl
  unfold State.entryAnswer
  rw [hpa]
  split
  · exact s.walkFor_withCtxs x a va k d
  · split
    · rw [s.markLeaf_withCtxs]
      split <;> rfl
    · rfl

theorem State.tlbAnswer_withCtxs (a : Agent) (free : Bool) (l1 l2 : Option TlbEntry) :
    (s.withCtxs x).tlbAnswer a free l1 l2 = onCtxs x (s.tlbAnswer a free l1 l2) := by
  unfold State.tlbAnswer
  split
  · split
    · exact congrArg (Prod.mk _) (s.tlbFill_withCtxs x _ _ _ _)
    · rfl
  · rw [s.tlbHit_withCtxs]
    obtain ⟨h1, t⟩ := s.tlbHit l1
    cases h1 with
    | some e => rfl
    | none =>
      dsimp only [onCtxs]
      rw [t.tlbHit_withCtxs]
      obtain ⟨h2, u⟩ := t.tlbHit l2
      cases h2 with
      | some e => exact congrArg (Prod.mk _) (u.tlbFill_withCtxs x _ _ _ _)
      | none => rfl

theorem State.pageOf_withCtxs (a : Agent) (va : Nat) (k : AccessKind) (d : Bool) :
    (s.withCtxs x).pageOf a va k d = onCtxs x (s.pageOf a va k d) := by
  -- The answer of the TLBs, then that of its entry or of a walk.
  let held (tlb : List TlbEntry) : Option TlbEntry := tlb.find? fun e => e.holds a.owner va
  let l1 := a.core.bind fun c => held ((s.core c).tlb.filter fun e => a.lane.all (· == e.bank))
  let l2 := a.cluster.bind fun c => held (s.cluster c).tlb
  let fresh (e : TlbEntry) : Bool := e.fresh s.mem (ptePpn a.root.toNat) va
  have hpage (t : State) (h : t = s ∨ t = s.withCtxs x) : t.pageOf a va k d =
      match (t.tlbAnswer a (l1.all fresh && l2.all fresh) l1 l2).1 with
      | some e => (t.tlbAnswer a (l1.all fresh && l2.all fresh) l1 l2).2.entryAnswer a va k d e
      | none => (t.tlbAnswer a (l1.all fresh && l2.all fresh) l1 l2).2.walkFor a va k d := by
    rcases h with rfl | rfl <;> rfl
  rw [hpage _ (.inr rfl), hpage s (.inl rfl), s.tlbAnswer_withCtxs]
  obtain ⟨h, t⟩ := s.tlbAnswer a (l1.all fresh && l2.all fresh) l1 l2
  cases h with
  | some e => exact t.entryAnswer_withCtxs x a va k d e
  | none => exact t.walkFor_withCtxs x a va k d

theorem State.xlate_withCtxs (a : Agent) (va : Word) (k : AccessKind) (d : Bool) :
    (s.withCtxs x).xlate a va k d = onCtxs x (s.xlate a va k d) := by
  unfold State.xlate
  dsimp only
  rw [s.pageOf_withCtxs]
  split
  · rfl
  · split
    · split <;> rfl
    · obtain ⟨h, t⟩ := s.pageOf a va.toNat k d
      cases h <;> rfl

theorem State.reach_withCtxs (a : Agent) (va : Word) (n : Nat) (k : AccessKind) (d : Bool) :
    (s.withCtxs x).reach a va n k d = onCtxs x (s.reach a va n k d) := by
  have hbarred (y : Xlat) : (s.withCtxs x).barred a n k y = s.barred a n k y := rfl
  unfold State.reach
  rw [s.xlate_withCtxs, s.xlate_withCtxs]
  obtain ⟨h, t⟩ := s.xlate a va k d
  cases h with
  | error e => rfl
  | ok y =>
    dsimp only [onCtxs]
    rw [hbarred]
    split
    · exact Prod.ext rfl (by split <;> rfl)
    · rfl

theorem State.access_withCtxs (a : Agent) (va : Word) (n : Nat) (k : AccessKind) (d : Bool) :
    (s.withCtxs x).access a va n k d = onCtxs x (s.access a va n k d) := by
  unfold State.access
  split
  · rfl
  · exact s.reach_withCtxs x a va n k d

/-! ### The probe pass of a vector access (R205 to R207) -/

theorem State.probeElem_withCtxs (a : Agent) (k : AccessKind) (d : Bool) (n : Nat) (l : Lanes) (hit : Option PageHit) (i : Nat) (va : Word) :
    (s.withCtxs x).probeElem a k d n l hit i va = onCtxs x (s.probeElem a k d n l hit i va) := by
  have hbarred (y : Xlat) : (s.withCtxs x).barred a n k y = s.barred a n k y := rfl
  unfold State.probeElem
  split
  · exact s.access_withCtxs x _ va n k d
  · exact s.access_withCtxs x a va n k d
  · dsimp only
    rw [hbarred]
    split
    · rfl
    · split <;> rfl

end

/-- One element of a probe pass, unless an earlier one has failed. -/
def probeStep (a : Agent) (k : AccessKind) (d : Bool) (n : Nat) (l : Lanes) (r : (Probe × Option PageHit) × State) (y : Nat × Word) :
    (Probe × Option PageHit) × State :=
  match r.1.1.fail with
  | some _ => r
  | none =>
    match r.2.probeElem a k d n l r.1.2 y.1 y.2 with
    | (.ok p, s) =>
      (({ r.1.1 with acc := r.1.1.acc ++ [{ idx := y.1, place := p.place, size := n, cached := p.cached }] },
        if y.2.toNat < 0x7F0000000000 ∨ 2 ^ 47 ≤ y.2.toNat then some { va := y.2.toNat / 4096, at_ := p } else none), s)
    | (.error t, s) => (({ r.1.1 with fail := some (y.1, t) }, none), s)

/-- The passes over the elements from an answer. -/
def probeFrom (a : Agent) (k : AccessKind) (d : Bool) (n : Nat) (l : Lanes) (r : (Probe × Option PageHit) × State) (ys : List (Nat × Word)) :
    (Probe × Option PageHit) × State := ys.foldl (probeStep a k d n l) r

/-- Before the first element. -/
def probeInit (s : State) : (Probe × Option PageHit) × State := (({ acc := [], fail := none }, none), s)

section
variable (s : State) (a : Agent) (k : AccessKind) (d : Bool) (n : Nat) (l : Lanes)

theorem State.probeElems_eq (ys : List (Nat × Word)) : s.probeElems a k d n l ys =
    ((probeFrom a k d n l (probeInit s) ys).1.1, (probeFrom a k d n l (probeInit s) ys).2) := rfl

theorem probeStep_withCtxs (x : FMap Ctx) (r : (Probe × Option PageHit) × State) (y : Nat × Word) :
    probeStep a k d n l (onCtxs x r) y = onCtxs x (probeStep a k d n l r y) := by
  obtain ⟨⟨p, hit⟩, t⟩ := r
  unfold probeStep
  dsimp only [onCtxs]
  rw [t.probeElem_withCtxs]
  cases p.fail with
  | some _ => rfl
  | none =>
    obtain ⟨h, u⟩ := t.probeElem a k d n l hit y.1 y.2
    cases h <;> rfl

theorem probeFrom_withCtxs (x : FMap Ctx) (r : (Probe × Option PageHit) × State) (ys : List (Nat × Word)) :
    probeFrom a k d n l (onCtxs x r) ys = onCtxs x (probeFrom a k d n l r ys) :=
  List.foldl_hom (onCtxs x) (probeStep_withCtxs a k d n l x)

theorem State.probeElems_withCtxs (x : FMap Ctx) (ys : List (Nat × Word)) :
    (s.withCtxs x).probeElems a k d n l ys = onCtxs x (s.probeElems a k d n l ys) := by
  have h := probeFrom_withCtxs a k d n l x (probeInit s) ys
  exact Prod.ext (congrArg (fun r => r.1.1) h :) (congrArg (fun r => r.2) h :)

end

/-- The probe pass does not look at the contexts of the state (R207). -/
theorem State.probeMem_withCtxs (s : State) (x : FMap Ctx) (cx : Nat) (c : Ctx) (e : VEntry) (m : VMem) :
    (s.withCtxs x).probeMem cx c e m = onCtxs x (s.probeMem cx c e m) := by
  have hagent : (s.withCtxs x).agentOf cx c = s.agentOf cx c := rfl
  unfold State.probeMem
  dsimp only
  rw [hagent, s.probeElems_withCtxs]
  dsimp only [onCtxs]
  rw [State.probeElems_withCtxs]
  exact (apply_ite (onCtxs x) _ _ _).symm

/-! ### What a probe pass leaves (R204, R207) -/

section
variable {m m' m'' : Memory}

theorem pageBits_refl (m : Memory) : PageBits m m := fun p => ⟨0, by simp, by simp⟩

theorem pageBits_trans (h : PageBits m m') (h' : PageBits m' m'') : PageBits m m'' := fun p => by
  obtain ⟨x, hx, hm⟩ := h p
  obtain ⟨y, hy, hm'⟩ := h' p
  refine ⟨x ||| y, ?_, by rw [hm', hm, BitVec.or_assoc]⟩
  have hor (z : Byte) : (x ||| y) &&& z = (x &&& z) ||| (y &&& z) := by
    ext i
    simp [Bool.and_or_distrib_right]
  rw [hor, hx, hy]
  rfl

theorem pageBits_of_leafMarked {g : Agent} {va : Word} {d : Bool} (h : LeafMarked m m' g va d) : PageBits m m' := by
  rcases h with rfl | ⟨l, x, -, hx, hat, hother⟩
  · exact pageBits_refl m'
  · intro p
    by_cases hp : p = l.at_
    · subst hp
      refine ⟨x, ?_, hat⟩
      rcases hx with rfl | ⟨rfl, -⟩ <;> rfl
    · exact ⟨0, by simp, by simp [hother p hp]⟩

end

/-- What the accesses of a probe pass may change: of memory the bits A and D of page tables alone. -/
structure ProbeEffect (s t : State) : Prop where
  access : AccessEffect s t
  bits : PageBits s.mem t.mem

namespace ProbeEffect
variable {s t u : State}

theorem refl (s : State) : ProbeEffect s s := ⟨.refl s, pageBits_refl s.mem⟩
theorem trans (h : ProbeEffect s t) (h' : ProbeEffect t u) : ProbeEffect s u := ⟨h.access.trans h'.access, pageBits_trans h.bits h'.bits⟩

end ProbeEffect

section
variable (s : State) (a : Agent) (k : AccessKind) (d : Bool) (n : Nat) (l : Lanes)

theorem State.access_probeEffect (va : Word) : ProbeEffect s (s.access a va n k d).2 :=
  ⟨s.access_effect a va n k d, pageBits_of_leafMarked State.leafMarked_access⟩

theorem State.probeElem_effect (hit : Option PageHit) (i : Nat) (va : Word) : ProbeEffect s (s.probeElem a k d n l hit i va).2 := by
  unfold State.probeElem
  split
  · exact s.access_probeEffect _ k d n va
  · exact s.access_probeEffect a k d n va
  · dsimp only
    split
    · exact .refl s
    · split <;> exact .refl s

theorem probeStep_effect (r : (Probe × Option PageHit) × State) (y : Nat × Word) : ProbeEffect r.2 (probeStep a k d n l r y).2 := by
  have h := r.2.probeElem_effect a k d n l r.1.2 y.1 y.2
  unfold probeStep
  split
  · exact .refl r.2
  · split <;> next heq => rwa [heq] at h

theorem probeFrom_effect (r : (Probe × Option PageHit) × State) (ys : List (Nat × Word)) : ProbeEffect r.2 (probeFrom a k d n l r ys).2 := by
  induction ys generalizing r with
  | nil => exact .refl r.2
  | cons y ys ih => exact (probeStep_effect a k d n l r y).trans (ih _)

theorem State.probeElems_effect (ys : List (Nat × Word)) : ProbeEffect s (s.probeElems a k d n l ys).2 :=
  probeFrom_effect a k d n l (probeInit s) ys

theorem State.probeMem_effect (cx : Nat) (c : Ctx) (e : VEntry) (m : VMem) : ProbeEffect s (s.probeMem cx c e m).2 := by
  unfold State.probeMem
  dsimp only
  generalize (if m.write = true then AccessKind.write else .read) = k
  split
  · exact (s.probeElems_effect _ _ _ _ _ _).trans (State.probeElems_effect _ _ _ _ _ _ _)
  · exact s.probeElems_effect _ _ _ _ _ _

/-- The accesses found are elements of the list, in its order, of the size that was asked for. -/
structure Accesses (ys : List Nat) (n : Nat) (acc : List ElemAccess) : Prop where
  order : (acc.map (·.idx)).Sublist ys
  size : ∀ x ∈ acc, x.size = n

theorem probeFrom_accesses (r : (Probe × Option PageHit) × State) (ys : List (Nat × Word)) :
    ∃ acc, (probeFrom a k d n l r ys).1.1.acc = r.1.1.acc ++ acc ∧ Accesses (ys.map (·.1)) n acc := by
  induction ys generalizing r with
  | nil => exact ⟨[], (List.append_nil _).symm, .slnil, by simp⟩
  | cons y ys ih =>
    obtain ⟨acc, hacc, horder, hsize⟩ := ih (probeStep a k d n l r y)
    have hstep : (probeStep a k d n l r y).1.1.acc = r.1.1.acc ∨
        ∃ p : Xlat, (probeStep a k d n l r y).1.1.acc = r.1.1.acc ++ [{ idx := y.1, place := p.place, size := n, cached := p.cached }] := by
      unfold probeStep
      split
      · exact .inl rfl
      · split
        · exact .inr ⟨_, rfl⟩
        · exact .inl rfl
    rcases hstep with hstep | ⟨p, hstep⟩
    · exact ⟨acc, hacc.trans (by rw [hstep]), horder.cons _, hsize⟩
    · refine ⟨{ idx := y.1, place := p.place, size := n, cached := p.cached } :: acc, hacc.trans (by rw [hstep]; simp), horder.cons_cons _, ?_⟩
      exact List.forall_mem_cons.2 ⟨rfl, hsize⟩

theorem State.probeElems_accesses {is : List Nat} {ys : List (Nat × Word)} (h : ys.map (·.1) = is) :
    Accesses is n (s.probeElems a k d n l ys).1.acc := by
  obtain ⟨acc, hacc, hfound⟩ := probeFrom_accesses a k d n l (probeInit s) ys
  rw [s.probeElems_eq, hacc, ← h]
  exact hfound

/-- A probe pass finds accesses of the instruction's elements (R207). -/
theorem State.probeMem_accesses (cx : Nat) (c : Ctx) (e : VEntry) (m : VMem) :
    Accesses (m.elems e c) (elemBytes (Qual.fmt m.q e.vtype)) (s.probeMem cx c e m).1.acc := by
  have helems (f : Nat → Word) : ((m.elems e c).map fun i => (i, f i)).map (·.1) = m.elems e c := by
    rw [List.map_map]
    exact List.map_id _
  unfold State.probeMem
  dsimp only
  generalize (if m.write = true then AccessKind.write else .read) = k
  split
  · exact State.probeElems_accesses _ _ _ _ _ _ (helems _)
  · exact s.probeElems_accesses _ _ _ _ _ (helems _)

end

end Sys2Proof.Machine


/-! PROOFS. A vector memory instruction in the queue (R84, R110, R207, R216): with nothing else in flight it enters, its probe pass answers as
at issue, and it completes. -/

namespace Sys2Proof.Machine
open Sys2Proof Sys2Proof.Claims

/-- The vector memory instructions, each with the access it makes. -/
inductive VMemOp : Instr → VMem → Prop
  | vld (vd : VReg) (a : SReg) (q : Qual) : VMemOp (.vld vd a q) { reg := vd, addr := .unit, q := q, write := false }
  | vst (vd : VReg) (a : SReg) (q : Qual) : VMemOp (.vst vd a q) { reg := vd, addr := .unit, q := q, write := true }
  | vlds (vd : VReg) (a b : SReg) (q : Qual) : VMemOp (.vlds vd a b q) { reg := vd, addr := .strided, q := q, write := false }
  | vsts (vd : VReg) (a b : SReg) (q : Qual) : VMemOp (.vsts vd a b q) { reg := vd, addr := .strided, q := q, write := true }
  | vldx (vd : VReg) (a : SReg) (vb : VReg) (amt : Fin 7) (q : Qual) :
      VMemOp (.vldx vd a vb amt q) { reg := vd, addr := .indexed vb amt.val, q := q, write := false }
  | vstx (vd : VReg) (a : SReg) (vb : VReg) (amt : Fin 7) (q : Qual) :
      VMemOp (.vstx vd a vb amt q) { reg := vd, addr := .indexed vb amt.val, q := q, write := true }
  | vldb (vd : VReg) (a : SReg) (q : Qual) : VMemOp (.vldb vd a q) { reg := vd, addr := .same, q := q, write := false }
  | vamoadd (vd : VReg) (a : SReg) (vb : VReg) (amt : Fin 7) (q : Qual) :
      VMemOp (.vamoadd vd a vb amt q) { reg := vd, addr := .indexed vb amt.val, q := q, write := true }
  | vldff (vd : VReg) (a : SReg) (q : Qual) : VMemOp (.vldff vd a q) { reg := vd, addr := .unit, q := q, write := false }

namespace VMemOp
variable {i : Instr} {m : VMem}

theorem vmemOf (h : VMemOp i m) : vmemOf i = some m := by cases h <;> rfl
theorem isVecLoad (h : VMemOp i m) : isVecLoad i = !m.write := by cases h <;> rfl
theorem isVecStore (h : VMemOp i m) : isVecStore i = m.write := by cases h <;> rfl

end VMemOp

section
variable {s t y z : State} {i : Instr} {m : VMem} {c d : Ctx} {e : VEntry} {mem : Memory} {cx : Nat}

/-! ### Entry (R216) -/

theorem State.vMemEnter_of_quiet (h : Quiet s) {q : Qual} {ok : Fmt → Bool} (hok : ok (Qual.fmt q s.curCtx.vtype) = true) (i : Instr)
    (a : SReg) (reads : List SReg) (b : SReg) :
    s.vMemEnter i (a :: reads) b q ok = .next (s.entered (entryOf i s.curCtx (s.curCtx.reg a) (s.curCtx.reg b))) := by
  have hroom : ¬ 255 ≤ (if isVecStore i then s.curCtx.cntSt else s.curCtx.cntLd) := by
    rw [cntSt_of_quiet h, cntLd_of_quiet h]
    simp
  unfold State.vMemEnter
  exact (if_neg hroom).trans (State.vEnter_of_quiet h hok rfl)

/-! ### Start (R84, R207) -/

theorem State.probeOwn_vmem (hi : VMemOp e.ins m) : t.probeOwn cx c e = t.probeVMem cx c e m := by
  unfold State.probeOwn
  generalize e.ins = i at hi
  cases hi <;> rfl

/-- With no older entry, fence or acquire nothing holds a vector memory instruction back. -/
theorem State.not_vHeld_vmem (hi : VMemOp e.ins m) (hvq : c.vq = [e]) (hfences : c.fences = []) (hloads : c.loads = []) :
    t.vHeld cx c e = false := by
  have hfenced (cls : Nat) : t.fenced cx c e.ord cls = false := by simp [State.fenced, hfences]
  have hacquire : c.olderAcquire e.ord = false := by simp [Ctx.olderAcquire, hloads]
  have holder : (c.vq.any fun x => x.ord < e.ord) = false := by simp [hvq]
  have hwaits : c.startWaits e = false := by simp [Ctx.startWaits, hvq]
  unfold State.vHeld
  simp only [hfenced, hacquire, holder, hwaits]
  generalize e.ins = i at hi
  cases hi <;> simp [onSchur, readsBook]

/-- Without errors in memory the data are good (R428). -/
theorem State.probeData_of_clean (h : t.ecc = []) (vfault : ElemAccess → Nat) (acc : List ElemAccess) (cut : Option Nat) :
    t.probeData cx c e vfault acc cut = .pass acc cut false := by
  have hgood : acc.find? (fun a => t.eccAt a.place a.size) = none := List.find?_eq_none.2 (by simp [State.eccAt, h])
  simp only [State.probeData, hgood]

/-- Where every element passes, the instruction starts with the accesses found. -/
theorem State.probeVMem_passes {p : Probe} (hp : t.probeMem cx c e m = (p, y)) (hfail : p.fail = none) (hecc : y.ecc = []) :
    t.probeVMem cx c e m = (.pass p.acc none false, y) := by
  simp only [State.probeVMem, hp, hfail, State.probeData_of_clean hecc, ite_self]

/-- A VLDFF whose first failing element is not element 0 starts with the accesses before it (R219). -/
theorem State.probeVMem_cut {p : Probe} {n : Nat} {f : TrapInfo} {vd : VReg} {a : SReg} {q : Qual} (he : e.ins = .vldff vd a q)
    (hp : t.probeMem cx c e m = (p, y)) (hfail : p.fail = some (n, f)) (hn : n ≠ 0) (hecc : y.ecc = []) :
    t.probeVMem cx c e m = (.pass p.acc (some n) false, y) := by
  simp [State.probeVMem, hp, hfail, State.probeData_of_clean hecc, he, hn]

/-- One whose element 0 fails does not (R219). -/
theorem State.probeVMem_fails {p : Probe} {f : TrapInfo} (hp : t.probeMem cx c e m = (p, y)) (hfail : p.fail = some (0, f)) :
    t.probeVMem cx c e m = (.fail { idx := 0, trap := f, sg := 0 }, y) := by
  simp [State.probeVMem, hp, hfail]

/-- An entry alone in the queue passes its probe and starts. -/
theorem execVectorStart_pass {acc : List ElemAccess} {cut : Option Nat} (hafter : e.after = 0)
    (hc : t.ctx cx = { c with vq := [{ e with started := false }] }) (hy : y.ctx cx = t.ctx cx) (hundo : c.undo = []) (hahead : c.ahead = [])
    (hheld : t.vHeld cx (t.ctx cx) { e with started := false } = false)
    (hprobe : t.probe cx (t.ctx cx) { e with started := false } = (.pass acc cut false, y)) : execVectorStart cx t =
      .next (y.setCtx cx { c with
        vq := [{ e with started := true, accesses := acc, cut := cut, sends := false, after := 0 }], instret := c.instret + 1 }) := by
  have hfirst : (t.ctx cx).vq.find? (fun e => !e.started) = some { e with started := false } := by rw [hc]; simp
  simp only [execVectorStart, hfirst, hheld, hprobe]
  simp [State.modCtx, hy, hc, Ctx.aheadHit, hahead, Ctx.setEntry, hafter]
  exact congrArg (y.setCtx cx) (Ctx.freeUndo_of_started (by simp) (by exact hundo) rfl)

/-! ### The state while it is in flight -/

/-- The issuing context is c and memory is mem; beside these at most TLBs, lines of the host and the bookkeeping of the draws are others. -/
structure Going (s z : State) (mem : Memory) (c : Ctx) : Prop where
  alone : CurrentAlone s z
  ctx : z.ctx s.sched.cur = c
  mem : z.mem = mem
  stale : z.stale = s.stale
  ecc : z.ecc = s.ecc
  unit : ∀ k, (z.core k).mx = (s.core k).mx

namespace Going

theorem curCtx (h : Going s z mem c) : z.curCtx = c := by rw [State.curCtx, h.alone.cur, h.ctx]

theorem setCtx (h : Going s z mem c) (hcur : s.sched.cur < numCtx) (d : Ctx) : Going s (z.setCtx s.sched.cur d) mem d where
  alone := h.alone.setCtx hcur d
  ctx := State.ctx_setCtx_same _ _ hcur
  mem := (State.setCtx_mem _ _ _).trans h.mem
  stale := (State.setCtx_stale _ _ _).trans h.stale
  ecc := (State.setCtx_ecc _ _ _).trans h.ecc
  unit k := by
    rw [← h.unit k]
    simp only [State.core, State.setCtx_cores]

theorem access (h : Going s z mem c) (ht : AccessEffect z t) (hm : t.mem = z.mem) : Going s t mem c where
  alone := h.alone.trans ht.sameContexts.currentAlone
  ctx := (ht.sameContexts.ctx_eq _).trans h.ctx
  mem := hm.trans h.mem
  stale := ht.stale_eq.trans h.stale
  ecc := ht.ecc_eq.trans h.ecc
  unit k := by rw [ht.core k, ← h.unit k]

/-- Nothing is queued for the matrix unit. -/
theorem matrix (h : Going s z mem c) (hq : Quiet s) (hjob : c.job = s.curCtx.job) (m : MatrixUnit) (hm : z.mxOf s.sched.cur c = some m) :
    m.queue = [] :=
  hq.matrix m ((State.mxOf_congr hq.cur (h.unit _) hjob).symm.trans hm)

end Going

/-- After accesses from s, in a state that holds the contexts of t. -/
theorem going_withCtxs (ht : CurrentSet s t c) (hy : AccessEffect s y) : Going s (y.withCtxs t.ctxs) y.mem c := by
  have hsame : SameContexts t (y.withCtxs t.ctxs) :=
    ⟨rfl, by rw [ht.fields]; exact hy.sameContexts.jobs, by rw [ht.cur]; exact hy.sameContexts.cur⟩
  refine ⟨⟨hy.sameContexts.cur, hy.sameContexts.jobs, fun cx hcx => (hsame.ctx_eq cx).trans (ht.others.2 cx hcx)⟩,
    (hsame.ctx_eq _).trans ht.ctx_cur, rfl, hy.stale_eq, hy.ecc_eq, fun k => ?_⟩
  show (y.core k).mx = _
  rw [hy.core k]

/-! ### Completion (R110, R217) -/

theorem State.completeDue_vmem (hi : VMemOp e.ins m) (hloads : c.loads = []) (hstores : c.stores = [])
    (hmx : ∀ m, t.mxOf cx c = some m → m.queue = []) : t.completeDue cx c e = true := by
  have hdue (acc : List ElemAccess) := State.accessDue_alone hloads hstores hmx e.ord false acc
  unfold State.completeDue
  generalize e.ins = i at hi
  cases hi <;> simp [hdue]

theorem VEntry.lose_eq (e : VEntry) (c : Ctx) (xs : List ElemAccess) : ∃ lost, e.lose c xs = { e with lost := lost } := by
  unfold VEntry.lose
  split
  · exact ⟨e.lost, rfl⟩
  · exact ⟨_, rfl⟩

/-- The marks of errors in the vector registers are all that completion changes beside the effect. -/
theorem Ctx.beats_eq (c : Ctx) (ws : List (VReg × Nat × Nat)) (e : VEntry) :
    ∃ beats, (c.clearBeats ws).poisonBeats e = { c with vecEcc := beats } := by
  have hclear : ∃ beats, c.clearBeats ws = { c with vecEcc := beats } := by
    unfold Ctx.clearBeats
    split
    · exact ⟨c.vecEcc, rfl⟩
    · exact ⟨_, rfl⟩
  obtain ⟨beats, hclear⟩ := hclear
  rw [hclear]
  clear hclear
  unfold Ctx.poisonBeats
  split
  · exact ⟨beats, rfl⟩
  · next m _ =>
    generalize e.lost = lost
    induction lost generalizing beats with
    | nil => exact ⟨beats, rfl⟩
    | cons x lost ih => exact ih _

theorem State.foldl_snoopRead_effect (acc : List ElemAccess) (s : State) :
    AccessEffect s (acc.foldl (fun s a => s.snoopRead a.place a.size) s) ∧
      (acc.foldl (fun s a => s.snoopRead a.place a.size) s).mem = s.mem := by
  refine ⟨.foldl _ (fun s a => s.snoopRead_effect a.place a.size) acc s, ?_⟩
  induction acc generalizing s with
  | nil => rfl
  | cons a acc ih => exact (ih _).trans (s.snoopRead_mem _ _)

/-- The entry completes: reads are noticed, it has its effect, and the queue is empty. -/
theorem execVectorComplete_vmem (hi : VMemOp e.ins m) (hstarted : e.started = true) (hc : t.ctx cx = c) (hvq : c.vq = [e])
    (hloads : c.loads = []) (hstores : c.stores = []) (hmx : ∀ m, t.mxOf cx c = some m → m.queue = []) :
    ∃ z lost, AccessEffect t z ∧ z.mem = t.mem ∧ ∀ w d, z.vEffect cx c { e with lost := lost } = w → w.ctx cx = d →
      ∃ beats, execVectorComplete cx t = .next (w.setCtx cx { d with vecEcc := beats, vq := d.vq.tail }) := by
  have hdue : (e.started && t.completeDue cx c e) = true := by rw [hstarted, State.completeDue_vmem hi hloads hstores hmx]; rfl
  obtain ⟨heffect, hmem⟩ := State.foldl_snoopRead_effect (if e.reads then e.unread else e.accesses) t
  generalize hz : (if e.reads then e.unread else e.accesses).foldl (fun (s : State) a => s.snoopRead a.place a.size) t = z at heffect hmem
  obtain ⟨lost, hlost⟩ := e.lose_eq c ((if e.reads then e.unread else []).filter fun a => z.poisoned a.place)
  refine ⟨z, lost, heffect, hmem, fun w d hw hd => ?_⟩
  obtain ⟨beats, hbeats⟩ := d.beats_eq (({ e with lost := lost } : VEntry).writes c) { e with lost := lost }
  refine ⟨beats, ?_⟩
  simp only [execVectorComplete, hc, hvq, hdue, hz, hlost, hw, if_true, State.modCtx, hd, hbeats]

/-! ### The run -/

/-- What the queue holds of a vector memory instruction that has started with these accesses. -/
def State.vmemEntry (s : State) (i : Instr) (sa sb : Word) (acc : List ElemAccess) (cut : Option Nat) : VEntry :=
  { entryOf i s.curCtx sa sb with accesses := acc, cut := cut }

variable {sa sb : Word} {p : Probe} {cut : Option Nat}

/-- The probe pass answers in the queue what it answers as the instruction issues. -/
theorem State.probeMem_entered (h : Quiet s) : (s.entered (entryOf i s.curCtx sa sb)).probeMem s.sched.cur
      (s.enteredCtx (entryOf i s.curCtx sa sb)) { entryOf i s.curCtx sa sb with started := false } m =
    onCtxs (s.entered (entryOf i s.curCtx sa sb)).ctxs (s.probeMem s.sched.cur s.curCtx (entryOf i s.curCtx sa sb) m) := by
  have hfields := (State.currentSet_entered h (entryOf i s.curCtx sa sb)).fields
  generalize s.entered (entryOf i s.curCtx sa sb) = t at hfields
  rw [show t = s.withCtxs t.ctxs from hfields]
  exact s.probeMem_withCtxs _ _ _ _ _

/-- A vector memory instruction whose probe pass lets it start runs, to the effect that it has once its reads are noticed. -/
theorem runs_vmem (h : Quiet s) (hi : VMemOp i m) (henter : exec i s = .next (s.entered (entryOf i s.curCtx sa sb)))
    (hp : s.probeMem s.sched.cur s.curCtx (entryOf i s.curCtx sa sb) m = (p, y))
    (hpass : ∀ (t u : State) (c : Ctx) (e : VEntry), e.ins = i → t.probeMem s.sched.cur c e m = (p, u) → u.ecc = s.ecc →
      t.probeVMem s.sched.cur c e m = (.pass p.acc cut false, u)) :
    ∃ z lost, Going s z y.mem (s.movingCtx (s.vmemEntry i sa sb p.acc cut)) ∧
      ∀ d, z.vEffect s.sched.cur (s.movingCtx (s.vmemEntry i sa sb p.acc cut)) { s.vmemEntry i sa sb p.acc cut with lost := lost } =
          z.setCtx s.sched.cur d →
        ∃ v beats, Runs i s v ∧ Going s v y.mem { d with vecEcc := beats, vq := d.vq.tail } := by
  have hentered := State.currentSet_entered h (entryOf i s.curCtx sa sb)
  have hy : ProbeEffect s y := by
    have heffect := s.probeMem_effect s.sched.cur s.curCtx (entryOf i s.curCtx sa sb) m
    rwa [hp] at heffect
  have hgoing := going_withCtxs hentered hy.access
  have hprobe := State.probeMem_entered (i := i) (sa := sa) (sb := sb) (m := m) h
  rw [hp] at hprobe
  have hstart := execVectorStart_pass (e := entryOf i s.curCtx sa sb) (c := { s.curCtx with ord := s.curCtx.ord + 1, pc := s.nextPc })
    (acc := p.acc) (cut := cut) (y := y.withCtxs (s.entered (entryOf i s.curCtx sa sb)).ctxs) rfl
    hentered.ctx_cur (by rw [hgoing.ctx, hentered.ctx_cur]) h.undo h.ahead
    (by rw [hentered.ctx_cur]; exact State.not_vHeld_vmem hi rfl h.fences h.loads)
    (by rw [hentered.ctx_cur, State.probe_of_good_beats (by exact h.beats), State.probeOwn_vmem hi]
        exact hpass _ _ _ _ rfl hprobe hgoing.ecc)
  have hstarted := hgoing.setCtx h.cur (s.movingCtx (s.vmemEntry i sa sb p.acc cut))
  obtain ⟨z, lost, heffect, hmem, hcomplete⟩ := execVectorComplete_vmem (e := s.vmemEntry i sa sb p.acc cut) hi rfl hstarted.ctx rfl
    h.loads h.stores (hstarted.matrix h rfl)
  have hz := hstarted.access heffect hmem
  refine ⟨z, lost, hz, fun d hd => ?_⟩
  have hlast := hz.setCtx h.cur d
  obtain ⟨beats, hexec⟩ := hcomplete _ d hd hlast.ctx
  exact ⟨_, beats, ⟨_, _, henter, hstart, hexec⟩, hlast.setCtx h.cur _⟩

end

end Sys2Proof.Machine


/-! PROOFS. Elements of vector registers (R28, R108, R109): a register is read element by element after its elements are written. -/

namespace Sys2Proof.Machine
open Sys2Proof Sys2Proof.Claims

section
variable {v : BitVec 4096} {w i j : Nat}

/-- A number with one digit replaced: what stands above and below stays. -/
theorem replace_digit (V x B W : Nat) :
    V - V / B % W * B + x * B = V / (B * W) * (B * W) + x * B + V % B := by
  have hsplit : V = V / (B * W) * (B * W) + V / B % W * B + V % B := by
    have hlow := Nat.div_add_mod V B
    have hhigh := Nat.div_add_mod (V / B) W
    rw [Nat.div_div_eq_div_mul] at hhigh
    calc V = B * (V / B) + V % B := hlow.symm
      _ = B * (W * (V / (B * W)) + V / B % W) + V % B := by rw [hhigh]
      _ = _ := by ring
  generalize V / (B * W) * (B * W) = hi at hsplit ⊢
  generalize V / B % W * B = mid at hsplit ⊢
  omega

/-- With a digit of w bits replaced a number of n bits is one still. -/
theorem replaced_lt {V n x lo : Nat} (h : i * w + w ≤ n) (hV : V < 2 ^ n) (hx : x < 2 ^ w) (hlo : lo < 2 ^ (i * w)) :
    V / (2 ^ (i * w) * 2 ^ w) * (2 ^ (i * w) * 2 ^ w) + x * 2 ^ (i * w) + lo < 2 ^ n := by
  have hpow : 2 ^ n = 2 ^ (n - (i * w + w)) * (2 ^ (i * w) * 2 ^ w) := by
    rw [← Nat.pow_add, ← Nat.pow_add, Nat.sub_add_cancel h]
  have hhi : V / (2 ^ (i * w) * 2 ^ w) < 2 ^ (n - (i * w + w)) := by
    rwa [Nat.div_lt_iff_lt_mul (by positivity), ← hpow]
  generalize V / (2 ^ (i * w) * 2 ^ w) = hi at *
  generalize 2 ^ (n - (i * w + w)) = H at hpow hhi
  generalize 2 ^ (i * w) = B at *
  generalize 2 ^ w = W at *
  rw [hpow]
  calc hi * (B * W) + x * B + lo < hi * (B * W) + x * B + B := by omega
    _ = hi * (B * W) + (x + 1) * B := by ring
    _ ≤ hi * (B * W) + W * B := Nat.add_le_add_left (Nat.mul_le_mul_right B hx) _
    _ = (hi + 1) * (B * W) := by ring
    _ ≤ H * (B * W) := Nat.mul_le_mul_right _ hhi

/-- Writing an element leaves what stands above and below it. -/
theorem toNat_putElem (h : i * w + w ≤ 4096) (v : BitVec 4096) (x : Nat) : (putElem v w i x).toNat =
    v.toNat / (2 ^ (i * w) * 2 ^ w) * (2 ^ (i * w) * 2 ^ w) + x % 2 ^ w * 2 ^ (i * w) + v.toNat % 2 ^ (i * w) := by
  rw [putElem, elemAt, replace_digit, BitVec.toNat_ofNat]
  exact Nat.mod_eq_of_lt (replaced_lt (n := 4096) h v.isLt (Nat.mod_lt _ (by positivity)) (Nat.mod_lt _ (by positivity)))

theorem elemAt_putElem_same (h : i * w + w ≤ 4096) (v : BitVec 4096) (x : Nat) : elemAt (putElem v w i x) w i = x % 2 ^ w := by
  have hB : 0 < 2 ^ (i * w) := by positivity
  have hlo := Nat.mod_lt v.toNat hB
  rw [elemAt, toNat_putElem h]
  generalize v.toNat / (2 ^ (i * w) * 2 ^ w) = hi
  generalize v.toNat % 2 ^ (i * w) = lo at *
  generalize 2 ^ (i * w) = B at *
  have hdiv : (hi * (B * 2 ^ w) + x % 2 ^ w * B + lo) / B = x % 2 ^ w + 2 ^ w * hi := by
    rw [show hi * (B * 2 ^ w) + x % 2 ^ w * B + lo = lo + B * (x % 2 ^ w + 2 ^ w * hi) by ring, Nat.add_mul_div_left _ _ hB, Nat.div_eq_of_lt hlo,
      Nat.zero_add]
  rw [hdiv, Nat.add_mul_mod_self_left, Nat.mod_mod]

/-- An element below bit n depends on the low bits alone. -/
theorem elemAt_of_low {u : BitVec 4096} {n : Nat} (hj : j * w + w ≤ n) (h : u.toNat % 2 ^ n = v.toNat % 2 ^ n) : elemAt u w j = elemAt v w j := by
  have hlow (t : BitVec 4096) : elemAt t w j = t.toNat % 2 ^ n % (2 ^ (j * w) * 2 ^ w) / 2 ^ (j * w) := by
    rw [elemAt, ← Nat.mod_mul_right_div_self, Nat.mod_mod_of_dvd]
    rw [← Nat.pow_add]
    exact Nat.pow_dvd_pow 2 hj
  rw [hlow, hlow, h]

/-- An element from bit n on depends on the high bits alone. -/
theorem elemAt_of_high {u : BitVec 4096} {n : Nat} (hj : n ≤ j * w) (h : u.toNat / 2 ^ n = v.toNat / 2 ^ n) : elemAt u w j = elemAt v w j := by
  have hhigh (t : BitVec 4096) : elemAt t w j = t.toNat / 2 ^ n / 2 ^ (j * w - n) % 2 ^ w := by
    rw [elemAt, Nat.div_div_eq_div_mul, ← Nat.pow_add, Nat.add_sub_cancel' hj]
  rw [hhigh, hhigh, h]

theorem elemAt_putElem_ne (h : i * w + w ≤ 4096) (hij : j ≠ i) (v : BitVec 4096) (x : Nat) : elemAt (putElem v w i x) w j = elemAt v w j := by
  have hB : 0 < 2 ^ (i * w) := by positivity
  have hlo := Nat.mod_lt v.toNat hB
  have hx : x % 2 ^ w < 2 ^ w := Nat.mod_lt _ (by positivity)
  rcases Nat.lt_or_gt_of_ne hij with hlt | hgt
  · refine elemAt_of_low (n := i * w) ?_ ?_
    · rw [← Nat.succ_mul]
      exact Nat.mul_le_mul_right w hlt
    · rw [toNat_putElem h]
      generalize v.toNat / (2 ^ (i * w) * 2 ^ w) = hi
      generalize 2 ^ (i * w) = B at *
      rw [show hi * (B * 2 ^ w) + x % 2 ^ w * B + v.toNat % B = v.toNat % B + B * (x % 2 ^ w + 2 ^ w * hi) by ring, Nat.add_mul_mod_self_left,
        Nat.mod_mod]
  · refine elemAt_of_high (n := i * w + w) ?_ ?_
    · rw [← Nat.succ_mul]
      exact Nat.mul_le_mul_right w hgt
    · rw [toNat_putElem h, Nat.pow_add]
      generalize hhi : v.toNat / (2 ^ (i * w) * 2 ^ w) = hi
      generalize v.toNat % 2 ^ (i * w) = lo at *
      generalize x % 2 ^ w = y at *
      generalize 2 ^ (i * w) = B at *
      generalize 2 ^ w = W at *
      have hsmall : y * B + lo < B * W := by
        calc y * B + lo < (y + 1) * B := by rw [Nat.succ_mul]; omega
          _ ≤ W * B := Nat.mul_le_mul_right B hx
          _ = B * W := Nat.mul_comm W B
      rw [Nat.add_assoc, Nat.mul_comm hi, Nat.mul_add_div (by omega), Nat.div_eq_of_lt hsmall, Nat.add_zero]

/-- Elements that are not written stay (R109). -/
theorem elemAt_putAll_of_not_mem {xs : List (Nat × Nat)} (hfit : ∀ x ∈ xs, x.1 * w + w ≤ 4096) (h : ∀ x ∈ xs, x.1 ≠ i) (v : BitVec 4096) :
    elemAt (putAll v w xs) w i = elemAt v w i := by
  induction xs generalizing v with
  | nil => rfl
  | cons x xs ih =>
    obtain ⟨hx, hxs⟩ := List.forall_mem_cons.1 hfit
    obtain ⟨hne, hnes⟩ := List.forall_mem_cons.1 h
    exact (ih hxs hnes _).trans (elemAt_putElem_ne hx hne.symm v x.2)

/-- Where no element is written twice, each holds what was written to it (R109). -/
theorem elemAt_putAll_of_mem {xs : List (Nat × Nat)} (hfit : ∀ x ∈ xs, x.1 * w + w ≤ 4096) (hnodup : (xs.map (·.1)).Nodup) {x : Nat × Nat}
    (hx : x ∈ xs) (v : BitVec 4096) : elemAt (putAll v w xs) w x.1 = x.2 % 2 ^ w := by
  induction xs generalizing v with
  | nil => simp at hx
  | cons y xs ih =>
    obtain ⟨hy, hxs⟩ := List.forall_mem_cons.1 hfit
    obtain ⟨hynot, hnodup⟩ := List.nodup_cons.1 hnodup
    rcases List.mem_cons.1 hx with rfl | hx
    · exact (elemAt_putAll_of_not_mem hxs (fun z hz hzx => hynot (List.mem_map.2 ⟨z, hz, hzx⟩)) _).trans (elemAt_putElem_same hy v x.2)
    · exact ih hxs hnodup hx _

end

/-! ### The elements of a vector memory access (R24, R28, R29, R207) -/

section
variable {s : State} {c : Ctx} {e : VEntry} {m : VMem} {mem : Memory} {f : Fmt} {x : ElemAccess}

theorem Memory.readN_lt (m : Memory) (p n : Nat) : m.readN p n < 256 ^ n := by
  induction n generalizing p with
  | zero => simp [Memory.readN]
  | succ n ih =>
    have hbyte : (m.read p).toNat < 256 := (m.read p).isLt
    have hrest := ih (p + 1)
    rw [Memory.readN, Nat.pow_succ]
    omega

/-- Every format but cb4 has whole bytes. -/
theorem elemBytes_bits (h : f ≠ .cb4) : 256 ^ elemBytes f = 2 ^ Fmt.bits f := by
  revert h
  cases f <;> decide

theorem memElem_lt (hx : x.size = elemBytes f) (mem : Memory) : memElem mem f x < 2 ^ Fmt.bits f := by
  have hread := mem.readN_lt x.place x.size
  rw [hx] at hread
  unfold memElem
  rw [hx]
  split
  · next hf =>
    subst hf
    have hread : mem.readN x.place (elemBytes .cb4) < 256 := hread
    show _ < 16
    split <;> omega
  · next hf =>
    rwa [← elemBytes_bits hf]

theorem VMem.nodup_elems : (m.elems e c).Nodup := List.nodup_range.filter _

/-- The elements lie within the register (R29). -/
theorem VMem.elem_fits (h : e.vbits ≤ 4096) {k : Nat} (hk : k ∈ m.elems e c) :
    k * Fmt.bits (Qual.fmt m.q e.vtype) + Fmt.bits (Qual.fmt m.q e.vtype) ≤ 4096 := by
  have hlt : k < e.count (Qual.fmt m.q e.vtype) := List.mem_range.1 (List.mem_filter.1 hk).1
  have hcount : k + 1 ≤ e.vbits / Fmt.bits (Qual.fmt m.q e.vtype) := Nat.le_trans hlt (Nat.min_le_right _ _)
  rw [← Nat.succ_mul]
  exact ((Nat.mul_le_mul_right _ hcount).trans (Nat.div_mul_le_self _ _)).trans h

/-- The elements of a register once the elements of a load are in it. -/
theorem putAll_memElem {acc : List ElemAccess} (hacc : Accesses (m.elems e c) (elemBytes (Qual.fmt m.q e.vtype)) acc) (h : e.vbits ≤ 4096)
    (v : BitVec 4096) (mem : Memory) (w : BitVec 4096)
    (hw : w = putAll v (Fmt.bits (Qual.fmt m.q e.vtype)) (acc.map fun x => (x.idx, memElem mem (Qual.fmt m.q e.vtype) x))) :
    (∀ x ∈ acc, elemAt w (Fmt.bits (Qual.fmt m.q e.vtype)) x.idx = memElem mem (Qual.fmt m.q e.vtype) x) ∧
      ∀ k, (∀ x ∈ acc, x.idx ≠ k) → elemAt w (Fmt.bits (Qual.fmt m.q e.vtype)) k = elemAt v (Fmt.bits (Qual.fmt m.q e.vtype)) k := by
  have hfit : ∀ y ∈ acc.map (fun x => (x.idx, memElem mem (Qual.fmt m.q e.vtype) x)),
      y.1 * Fmt.bits (Qual.fmt m.q e.vtype) + Fmt.bits (Qual.fmt m.q e.vtype) ≤ 4096 :=
    List.forall_mem_map.2 fun x hx => VMem.elem_fits h (hacc.order.subset (List.mem_map_of_mem hx))
  have hnodup : ((acc.map fun x => (x.idx, memElem mem (Qual.fmt m.q e.vtype) x)).map (·.1)).Nodup := by
    rw [List.map_map]
    exact VMem.nodup_elems.sublist hacc.order
  subst hw
  refine ⟨fun x hx => ?_, fun k hk => elemAt_putAll_of_not_mem hfit (List.forall_mem_map.2 hk) v⟩
  have hput := elemAt_putAll_of_mem hfit hnodup (List.mem_map_of_mem hx) v
  rwa [Nat.mod_eq_of_lt (memElem_lt (hacc.size x hx) mem)] at hput

end

end Sys2Proof.Machine


/-! PROOFS. Vector loads (R207, R216, R217, R219): the elements read are memory's, since nothing else of the context is in flight and no copy
lies over what no bank may hold. -/

namespace Sys2Proof.Machine
open Sys2Proof Sys2Proof.Claims

theorem Ctx.vreg_setVreg_same (c : Ctx) (r : VReg) (v : BitVec 4096) : (c.setVreg r v).vreg r = v := FMap.get_set_same _ _ _ _
theorem Ctx.vreg_setVreg_ne (c : Ctx) {r q : VReg} (v : BitVec 4096) (h : q ≠ r) : (c.setVreg r v).vreg q = c.vreg q :=
  FMap.get_set_ne _ _ _ fun e => h (Fin.ext e)

section
variable {s z v : State} {i : Instr} {m : VMem} {c : Ctx} {e : VEntry} {mem : Memory} {cx : Nat} {p : Probe} {a : SReg} {sb : Word}
  {ok : List Fmt} {cut : Option Nat}

theorem State.vEffect_vmem (hi : VMemOp e.ins m) : z.vEffect cx c e =
    if m.write then (if e.handed then z else z.setCtx cx (vStored m e c))
    else z.setCtx cx (vLoaded m e c (e.accesses.map fun a => (a.idx, z.readOf c e a))) := by
  unfold State.vEffect
  generalize e.ins = i at hi
  cases hi <;> rfl

/-- An entry that has read nothing yet, of a context without pending stores, reads memory. -/
theorem State.readOf_of_clean {x : ElemAccess} (hgot : e.got = []) (hstores : c.stores = [])
    (hclean : x.cached = none → ∀ i < x.size, z.stale.find? ((x.place + i) / 64) = none) : z.readOf c e x = z.mem.readN x.place x.size := by
  rw [← State.bytesAt_eq_readN hclean, ← State.ownBytes_eq_bytesAt hstores e.ord, State.readOf, hgot]
  rfl

/-- A load changes one vector register, and VL where it was cut short. -/
theorem vLoaded_eq (m : VMem) (e : VEntry) (c : Ctx) (got : List (Nat × Nat)) : vLoaded m e c got = { c with
    vregs := (c.setVreg m.reg (putAll (c.vreg m.reg) (Fmt.bits (Qual.fmt m.q e.vtype))
      (got.map fun g => (g.1, loadElem (Qual.fmt m.q e.vtype) g.1 g.2)))).vregs
    vl := e.cut.getD c.vl } := by
  unfold vLoaded
  cases e.cut <;> rfl

/-- What a vector load leaves, with VL as it stands then. -/
structure Loaded (s v : State) (m : VMem) (p : Probe) (μ : Memory) (vl : Nat) : Prop where
  mem : v.mem = μ
  bits : PageBits s.mem μ
  vl : v.curCtx.vl = vl
  pc : v.curCtx.pc = s.nextPc
  sregs : v.curCtx.sregs = s.curCtx.sregs
  mregs : v.curCtx.mregs = s.curCtx.mregs
  fflags : v.curCtx.fflags = s.curCtx.fflags
  jobs : v.jobs = s.jobs
  vreg : ∀ r, r ≠ m.reg → v.curCtx.vreg r = s.curCtx.vreg r
  loaded : v.curCtx.vreg m.reg = putAll (s.curCtx.vreg m.reg) (Fmt.bits (Qual.fmt m.q s.curCtx.vtype))
    (p.acc.map fun x => (x.idx, memElem μ (Qual.fmt m.q s.curCtx.vtype) x))

/-- A vector load that may start runs, and delivers its elements (R217). -/
theorem runs_load (hi : VMemOp i m) (hload : m.write = false) (h : ElementsPass s i m sb ok a p mem)
    (henter : exec i s = .next (s.entered (entryOf i s.curCtx (s.curCtx.reg a) sb)))
    (hpass : ∀ (t u : State) (c : Ctx) (e : VEntry), e.ins = i → t.probeMem s.sched.cur c e m = (p, u) → u.ecc = s.ecc →
      t.probeVMem s.sched.cur c e m = (.pass p.acc cut false, u)) :
    ∃ v, Runs i s v ∧ Loaded s v m p mem (cut.getD s.curCtx.vl) := by
  have hprobe : s.probeMem s.sched.cur s.curCtx (entryOf i s.curCtx (s.curCtx.reg a) sb) m = (p, _) := Prod.ext h.probe rfl
  have hbits := (s.probeMem_effect s.sched.cur s.curCtx (entryOf i s.curCtx (s.curCtx.reg a) sb) m).bits
  obtain ⟨z, lost, hz, hruns⟩ := runs_vmem h.quiet hi henter hprobe hpass
  rw [h.memory] at hz hruns hbits
  have heffect := State.vEffect_vmem (z := z) (cx := s.sched.cur) (c := s.movingCtx (s.vmemEntry i (s.curCtx.reg a) sb p.acc cut))
    (e := { s.vmemEntry i (s.curCtx.reg a) sb p.acc cut with lost := lost }) hi
  rw [hload, if_neg Bool.false_ne_true] at heffect
  obtain ⟨v, beats, hexec, hv⟩ := hruns _ heffect
  have hread : ∀ x ∈ p.acc, z.readOf (s.movingCtx (s.vmemEntry i (s.curCtx.reg a) sb p.acc cut))
      { s.vmemEntry i (s.curCtx.reg a) sb p.acc cut with lost := lost } x = mem.readN x.place x.size := fun x hx => by
    rw [← hz.mem]
    refine State.readOf_of_clean rfl h.quiet.stores fun hc j hj => ?_
    rw [hz.stale]
    exact (h.lines x hx hc j hj).1
  rw [vLoaded_eq] at hv
  have hctx := hv.curCtx
  refine ⟨v, hexec, hv.mem, hbits, ?_, ?_, ?_, ?_, ?_, hv.alone.jobs, fun r hr => ?_, ?_⟩ <;> rw [hctx]
  · rfl
  · rfl
  · rfl
  · rfl
  · rfl
  · exact Ctx.vreg_setVreg_ne s.curCtx _ hr
  · refine (Ctx.vreg_setVreg_same s.curCtx m.reg _).trans (congrArg (putAll _ _) ?_)
    rw [List.map_map]
    exact List.map_congr_left fun x hx =>
      congrArg (fun w => (x.idx, loadElem (Qual.fmt m.q s.curCtx.vtype) x.idx w)) (hread x hx)

/-- The elements of a load are the register's, and the other elements stay (R109, R217). -/
theorem Loaded.elements {vl : Nat} (hv : Loaded s v m p mem vl) (h : ElementsPass s i m sb ok a p mem) :
    (∀ x ∈ p.acc, elemAt (v.curCtx.vreg m.reg) (Fmt.bits (Qual.fmt m.q s.curCtx.vtype)) x.idx = memElem mem (Qual.fmt m.q s.curCtx.vtype) x) ∧
      ∀ k, (∀ x ∈ p.acc, x.idx ≠ k) → elemAt (v.curCtx.vreg m.reg) (Fmt.bits (Qual.fmt m.q s.curCtx.vtype)) k =
        elemAt (s.curCtx.vreg m.reg) (Fmt.bits (Qual.fmt m.q s.curCtx.vtype)) k := by
  have hacc := s.probeMem_accesses s.sched.cur s.curCtx (entryOf i s.curCtx (s.curCtx.reg a) sb) m
  rw [h.probe] at hacc
  exact putAll_memElem hacc h.grant _ mem _ hv.loaded

end

/-- A vector load that enters the queue where its format is one it takes delivers its elements (R217). -/
theorem vectorLoads_of_enter {i : Instr} {m : VMem} {sb : Ctx → Word} {ok : List Fmt} {a : SReg} (hi : VMemOp i m) (hload : m.write = false)
    (henter : ∀ s, Quiet s → formatIn m.q ok s.curCtx = true →
      exec i s = .next (s.entered (entryOf i s.curCtx (s.curCtx.reg a) (sb s.curCtx)))) : VectorLoads i m sb ok a := by
  rintro s p mem f rfl h hfail
  obtain ⟨v, hruns, hv⟩ := runs_load (cut := none) hi hload h (henter s h.quiet h.format) fun t u c e _ hp hecc =>
    State.probeVMem_passes hp hfail (hecc.trans h.ecc)
  obtain ⟨helems, hrest⟩ := hv.elements h
  exact ⟨v, hruns, hv.mem, hv.bits, hv.vl, hv.pc, hv.sregs, hv.mregs, hv.fflags, hv.jobs, hv.vreg, helems, fun k _ hk => hrest k hk⟩

/-- The formats of the indexed, strided and broadcast forms (R216). -/
theorem notCb4_of_formatIn {q : Qual} {c : Ctx} (h : formatIn q (fmtAll.filter (· ≠ .cb4)) c = true) : notCb4 (Qual.fmt q c.vtype) = true := by
  unfold formatIn at h
  unfold Qual.fmt
  revert h
  generalize q.fo.getD c.vtype = f
  cases f <;> decide

/-- R216, R217: the five forms. -/
theorem vectorLoadResults : VectorLoadResults := by
  rintro vd vb a b amt q nc rfl
  refine ⟨vectorLoads_of_enter (.vld vd a q) rfl fun s h _ => ?_, vectorLoads_of_enter (.vlds vd a b q) rfl fun s h hf => ?_,
    vectorLoads_of_enter (.vldx vd a vb amt q) rfl fun s h hf => ?_, vectorLoads_of_enter (.vldb vd a q) rfl fun s h hf => ?_,
    vectorLoads_of_enter (.vldff vd a q) rfl fun s h _ => ?_⟩
  · exact State.vMemEnter_of_quiet h (q := q) (ok := fun _ => true) rfl _ a [] 0
  · exact State.vMemEnter_of_quiet h (notCb4_of_formatIn hf) _ a [b] b
  · exact State.vMemEnter_of_quiet h (notCb4_of_formatIn hf) _ a [] 0
  · exact State.vMemEnter_of_quiet h (notCb4_of_formatIn hf) _ a [] 0
  · exact State.vMemEnter_of_quiet h (q := q) (ok := fun _ => true) rfl _ a [] 0

/-! ### VLDFF (R88, R219) -/

section
variable {s t y : State} {i : Instr} {m : VMem} {e : VEntry} {sa sb : Word} {p : Probe} {f : TrapInfo} {cx : Nat} {c : Ctx}

/-- An entry alone in the queue whose probe pass fails is discarded, and its trap is taken (R88). -/
theorem execVectorStart_fail {w : VFail} (hc : t.ctx cx = c) (hfirst : c.vq.find? (fun e => !e.started) = some e)
    (hheld : t.vHeld cx c e = false) (hprobe : t.probe cx c e = (.fail w, y)) (hfree : t.trapHeld cx c.squash = false) :
    execVectorStart cx t = .next (y.vFault cx e w) := by
  simp [execVectorStart, hc, hfirst, hheld, hprobe, hfree]

/-- A trap of user code that is not delegated enters the supervisor (R322). -/
theorem takeTrap_supervisor (hc : t.ctx cx = c) (hmode : c.mode = .user) (hdepth : c.depth = 0)
    (hdeleg : c.deleg.getLsbD f.cause.code = false) (pc : Word) : ∃ d, t.takeTrap cx f pc = t.setCtx cx d ∧ d.mode = .supervisor ∧ d.tepc = pc ∧
      d.tval = f.value ∧ d.tcause.toNat = f.cause.code ∧ d.vregs = c.vregs ∧ d.vq = c.vq ∧ d.vfault = c.vfault := by
  have htop : c.takeTop c.tsp 33 = { c with sregs := (c.takeTop c.tsp 33).sregs, badRegs := (c.takeTop c.tsp 33).badRegs } := by
    unfold Ctx.takeTop
    rw [Ctx.setReg_eq]
  have hcode : f.cause.code < 2 ^ 6 := by
    cases f.cause <;> decide
  have hnot : c.delegates f = false := by simp [Ctx.delegates, hdeleg]
  subst hc
  refine ⟨_, State.takeTrap_user _ _ _ _ hnot (by rw [hdepth]; decide) hmode, rfl, rfl, rfl, ?_, ?_, ?_, ?_⟩
  · exact (BitVec.toNat_ofNat _ _).trans (Nat.mod_eq_of_lt hcode)
  all_goals rw [htop]

/-- A vector memory instruction whose element 0 fails takes its trap as it starts, with VFAULT 0 (R88, R207). -/
theorem vectorStart_faults (h : Quiet s) (hi : VMemOp i m) (hp : s.probeMem s.sched.cur s.curCtx (entryOf i s.curCtx sa sb) m = (p, y))
    (hfail : p.fail = some (0, f)) (hmode : s.curCtx.mode = .user) (hdepth : s.curCtx.depth = 0)
    (hdeleg : s.curCtx.deleg.getLsbD f.cause.code = false) :
    ∃ v, exec (.vectorStart s.sched.cur) (s.entered (entryOf i s.curCtx sa sb)) = .next v ∧ v.curCtx.vfault = 0 ∧
      v.curCtx.mode = .supervisor ∧ v.curCtx.tepc = s.curCtx.pc ∧ v.curCtx.tval = f.value ∧ v.curCtx.tcause.toNat = f.cause.code ∧
      v.curCtx.vregs = s.curCtx.vregs ∧ v.curCtx.vq = [] := by
  have hentered := State.currentSet_entered h (entryOf i s.curCtx sa sb)
  have hy : ProbeEffect s y := by
    have heffect := s.probeMem_effect s.sched.cur s.curCtx (entryOf i s.curCtx sa sb) m
    rwa [hp] at heffect
  have hgoing := going_withCtxs hentered hy.access
  have hprobe := State.probeMem_entered (i := i) (sa := sa) (sb := sb) (m := m) h
  rw [hp] at hprobe
  have hsquash := State.squash_enteredCtx (e := entryOf i s.curCtx sa sb) h rfl
  have hfree := State.not_trapHeld_alone (t := s.entered (entryOf i s.curCtx sa sb)) (cx := s.sched.cur)
    (c := { s.curCtx with ord := s.curCtx.ord + 1 }) h.queue h.guess h.loads h.stores h.ops fun m hm =>
      h.matrix m ((State.mxOf_congr h.cur (by rw [hentered.core]) rfl).symm.trans hm)
  have hstart := execVectorStart_fail (e := { entryOf i s.curCtx sa sb with started := false }) hentered.ctx_cur rfl
    (State.not_vHeld_vmem hi rfl h.fences h.loads)
    ((State.probe_of_good_beats (by exact h.beats)).trans ((State.probeOwn_vmem hi).trans (State.probeVMem_fails hprobe hfail)))
    (by rw [hsquash]; exact hfree)
  generalize y.withCtxs (s.entered (entryOf i s.curCtx sa sb)).ctxs = u at hgoing hstart
  have hfault : u.vFault s.sched.cur { entryOf i s.curCtx sa sb with started := false } { idx := 0, trap := f, sg := 0 } =
      (u.setCtx s.sched.cur s.boundsCtx).takeTrap s.sched.cur f s.curCtx.pc := by
    rw [State.vFault, State.modCtx, hgoing.ctx, hsquash]
    simp [State.boundsCtx, entryOf]
  have hmet := hgoing.setCtx h.cur s.boundsCtx
  obtain ⟨d, htrap, hsuper, htepc, htval, htcause, hvregs, hvq, hvfault⟩ :=
    takeTrap_supervisor (f := f) hmet.ctx hmode hdepth hdeleg s.curCtx.pc
  refine ⟨_, hstart, ?_⟩
  rw [hfault, htrap, (hmet.setCtx h.cur d).curCtx]
  exact ⟨hvfault, hsuper, htepc, htval, htcause, hvregs, hvq.trans h.queue⟩

end

/-- R219: where element 0 passes VLDFF delivers the elements before the first that fails, and sets VL to its index. -/
theorem firstFaultLoads : FirstFaultLoads := by
  rintro vd a q s p m f i t mem rfl rfl h hfail
  have henter := State.vMemEnter_of_quiet h.quiet (q := q) (ok := fun _ => true) rfl (.vldff vd a q) a [] 0
  refine ⟨fun hn => ?_, fun hn hmode hdepth hdeleg => ?_⟩
  · obtain ⟨v, hruns, hv⟩ := runs_load (cut := some i) (.vldff vd a q) rfl h henter fun t u c e he hp hecc =>
      State.probeVMem_cut he hp hfail hn (hecc.trans h.ecc)
    refine ⟨v, hruns, hv.vl, hv.mem, hv.bits, hv.pc, ?_, hv.vreg⟩
    rw [hv.mem]
    exact (hv.elements h).1
  · subst hn
    obtain ⟨v, hstart, hv⟩ := vectorStart_faults h.quiet (.vldff vd a q) (Prod.ext h.probe rfl) hfail hmode hdepth hdeleg
    exact ⟨_, v, henter, hstart, hv⟩

end Sys2Proof.Machine


/-! PROOFS. Pending stores performed one after the other (R201, R202, R217, R225): each puts its bytes at its place, also over a copy that an
earlier one left. -/

namespace Sys2Proof.Machine
open Sys2Proof Sys2Proof.Claims

section
variable {s t u : State}

/-! ### What a store leaves beside its bytes (R201, R202, R385, R428) -/

/-- The cores are the same, no error is new where there was none, and copies stay whole lines. -/
structure PutEffect (s t : State) : Prop where
  cores : t.cores = s.cores
  ecc : s.ecc = [] → t.ecc = []
  lines : ∀ p n, s.FullLines p n → t.FullLines p n

namespace PutEffect

theorem refl (s : State) : PutEffect s s := ⟨rfl, id, fun _ _ => id⟩

theorem trans (h : PutEffect s t) (h' : PutEffect t u) : PutEffect s u :=
  ⟨h'.cores.trans h.cores, fun he => h'.ecc (h.ecc he), fun p n hl => h'.lines p n (h.lines p n hl)⟩

theorem foldl {α : Type} (f : State → α → State) (hf : ∀ s a, PutEffect s (f s a)) (xs : List α) (s : State) : PutEffect s (xs.foldl f s) := by
  induction xs generalizing s with
  | nil => exact refl s
  | cons x xs ih => exact (hf s x).trans (ih (f s x))

end PutEffect

section
variable (s : State) (p n l o : Nat) (bs : List Byte)

theorem State.snoopWrite_putEffect : PutEffect s (s.snoopWrite p n) where
  cores := by rw [(s.snoopWrite_storeEffect p n).fields]
  ecc h := (s.snoopWrite_effect p n).ecc_eq.trans h
  lines _ _ h := h.of_stale_eq (s.snoopWrite_effect p n).stale_eq

theorem State.clearEcc_putEffect : PutEffect s (s.clearEcc p n) where
  cores := rfl
  ecc h := by rw [State.clearEcc, h]; rfl
  lines _ _ h := h.of_stale_eq rfl

theorem State.dirty_putEffect : PutEffect s (s.dirty p o) := by
  unfold State.dirty
  dsimp only
  split
  · next d hd => exact ⟨rfl, id, fun a k h => h.insert rfl fun q hp hq hl => h q hp hq d (hl ▸ hd)⟩
  · exact ⟨rfl, id, fun a k h => h.insert rfl fun _ _ _ _ => by simp [Memory.readBytes]⟩

theorem State.storeBytes_putEffect (o : Option Nat) : PutEffect s (s.storeBytes p o bs) := by
  have hwrite (u : State) : PutEffect u { (u.snoopWrite p bs.length).clearEcc p bs.length with
      mem := ((u.snoopWrite p bs.length).clearEcc p bs.length).mem.writeBytes p bs } :=
    ((u.snoopWrite_putEffect p bs.length).trans (State.clearEcc_putEffect _ p bs.length)).trans ⟨rfl, id, fun _ _ h => h.of_stale_eq rfl⟩
  cases o with
  | none => exact hwrite s
  | some o => exact (s.dirty_putEffect p o).trans (hwrite _)

theorem State.retain_putEffect : PutEffect s (s.retain l) := by
  refine ⟨?_, ?_, fun _ _ h => h.retain l⟩ <;> unfold State.retain <;> split
  · rfl
  · dsimp only
    split
    · rfl
    · split <;> rfl
  · exact id
  · dsimp only
    split
    · exact id
    · split <;> exact id

theorem State.putHome_putEffect (b : Byte) : PutEffect s (s.putHome p b) := by
  refine ⟨?_, ?_, fun _ _ h => h.putHome b⟩ <;> unfold State.putHome <;> split
  · rfl
  · rfl
  · exact id
  · exact id

theorem State.putHomes_putEffect : PutEffect s (s.putHomes p bs) := by
  induction bs generalizing s p with
  | nil => exact .refl s
  | cons b bs ih => exact (s.putHome_putEffect p b).trans (ih _ _)

theorem State.putBytes_putEffect (o : Option Nat) : PutEffect s (s.putBytes p o bs) := by
  cases o with
  | some o =>
    rw [s.putBytes_cached]
    exact s.storeBytes_putEffect p bs (some o)
  | none =>
    have hretain := PutEffect.foldl _ (fun s l => s.retain_putEffect l) (linesAt p bs.length) s
    rw [State.putBytes_none]
    split
    · exact ((hretain.trans (State.snoopWrite_putEffect _ p bs.length)).trans (State.clearEcc_putEffect _ p bs.length)).trans
        (State.putHomes_putEffect _ p bs)
    · exact hretain.trans (State.storeBytes_putEffect _ p bs none)

end

/-- Bytes put where the copies over them are whole lines: they alone change, in the caches or at home (R201, R202). -/
theorem State.putBytes_put_of_fullLines {o : Option Nat} {p : Nat} {bs : List Byte} (h : o = none → s.FullLines p bs.length) :
    BytesPut s (s.putBytes p o bs) o p bs := by
  cases o with
  | some o =>
    rw [s.putBytes_cached]
    exact s.storeBytes_some_put o p bs
  | none =>
    rw [State.putBytes_none]
    split
    · exact (State.putHomes_put (((h rfl).retains _).of_stale_eq (State.stale_opened _ _ _))).of_kept (by simp [State.retains_mem])
        fun q => (State.homeByte_opened _ _ _ q).trans (State.homeByte_retains _ s q)
    · next hu => exact (State.storeBytes_none_put (by simpa using hu)).of_kept (State.retains_mem _ s) (State.homeByte_retains _ s)

/-! ### One pending store of several (R225) -/

/-- Of the issuing context's work the stores ps are left; no memory word has an error. -/
structure Performing (s t : State) (c : Ctx) (ps : List PendStore) : Prop where
  cur : t.sched.cur = s.sched.cur
  ctx : t.ctx s.sched.cur = { c with stores := ps }
  unit : ∀ k, (t.core k).mx = (s.core k).mx
  ecc : t.ecc = []

variable {c : Ctx} {p : PendStore} {ps : List PendStore} {bs : List Byte}

theorem Performing.curCtx (h : Performing s t c ps) : t.curCtx = { c with stores := ps } := by rw [State.curCtx, h.cur, h.ctx]

/-- The oldest of the stores of one instruction is due (R217, R225). -/
theorem storeDue_of_first {cx : Nat} (hloads : c.loads = []) (hvq : c.vq = []) (hstores : c.stores = p :: ps)
    (hmx : ∀ m, t.mxOf cx c = some m → m.queue = []) (hord : ∀ q ∈ ps, q.ord = p.ord) (hrelease : p.release = false) :
    (t.storeDue cx c p && c.elementDue 0 p) = true := by
  have hblocks := State.not_mxBlocks hmx p.ord p.place p.size
  have holder : ∀ q ∈ ps, q.ord < p.ord → overlaps q.place q.size p.place p.size = false := fun q hq hlt =>
    absurd (hord q hq) (Nat.ne_of_lt hlt)
  simpa [State.storeDue, Ctx.elementDue, hblocks, Ctx.olderLoad, Ctx.olderStore, Ctx.olderVec, Ctx.olderAcquire, hloads, hvq, hstores, hrelease]
    using holder

theorem State.filterEcc_of_clean (h : t.ecc = []) (f : Nat × Bool → Bool) : { t with ecc := t.ecc.filter f } = t := by
  have hnone : t.ecc.filter f = t.ecc := by rw [h]; rfl
  rw [hnone]

/-- The oldest store is performed: its bytes are put at its place, and the others are left. -/
theorem performs_first (h : Quiet s) (ht : Performing s t c (p :: ps)) (hloads : c.loads = []) (hvq : c.vq = [])
    (hjob : c.job = s.curCtx.job) (hord : ∀ q ∈ ps, q.ord = p.ord) (hrelease : p.release = false)
    (hstore : (t.setCtx s.sched.cur { c with stores := ps }).performStore p =
      (t.setCtx s.sched.cur { c with stores := ps }).putBytes p.place p.cached bs)
    (hlines : p.cached = none → t.FullLines p.place bs.length) :
    ∃ u, exec (.storePerformed s.sched.cur 0) t = .next u ∧ Performing s u c ps ∧ BytesPut t u p.cached p.place bs ∧
      ∀ q n, t.FullLines q n → u.FullLines q n := by
  have hdue := storeDue_of_first (t := t) (cx := s.sched.cur) (c := { c with stores := p :: ps }) hloads hvq rfl
    (fun m hm => h.matrix m ((State.mxOf_congr h.cur (ht.unit _) hjob).symm.trans hm)) hord hrelease
  have hstale := State.setCtx_stale t s.sched.cur { c with stores := ps }
  have hmem := State.setCtx_mem t s.sched.cur { c with stores := ps }
  have hset : ∀ q n, t.FullLines q n → (t.setCtx s.sched.cur { c with stores := ps }).FullLines q n := fun q n hl => hl.of_stale_eq hstale
  generalize hw : t.setCtx s.sched.cur { c with stores := ps } = w at hstore hstale hmem hset
  have hput := State.putBytes_put_of_fullLines fun hc => hset _ _ (hlines hc)
  have heffect := w.putBytes_putEffect p.place bs p.cached
  have hsame := w.putBytes_sameContexts p.place p.cached bs
  have hclean : (w.putBytes p.place p.cached bs).ecc = [] := heffect.ecc (by rw [← hw, State.setCtx_ecc, ht.ecc])
  have hkept : BytesPut t (w.putBytes p.place p.cached bs) p.cached p.place bs :=
    hput.of_kept hmem fun q => State.homeByte_congr (by rw [hstale]) (by rw [hmem])
  refine ⟨w.putBytes p.place p.cached bs, ?_, ⟨?_, ?_, fun k => ?_, hclean⟩, hkept, fun q n hl => heffect.lines q n (hset q n hl)⟩
  · have hone : w.performOne ps p = w.putBytes p.place p.cached bs := by
      rw [State.performOne, hstore]
      exact State.filterEcc_of_clean hclean _
    show execStorePerformed s.sched.cur 0 t = _
    unfold execStorePerformed
    simp only [ht.ctx, List.getElem?_cons_zero, hdue, if_true, List.eraseIdx_cons_zero, hw, hone]
  · rw [hsame.cur, ← hw, State.setCtx_sched, ht.cur]
  · rw [hsame.ctx_eq, ← hw, State.ctx_setCtx_same _ _ h.cur]
  · rw [← ht.unit k, State.core, heffect.cores, ← hw, State.setCtx_cores]
    rfl

end

end Sys2Proof.Machine


/-! PROOFS. Vector stores (R207, R216 to R218): an instruction hands its elements over as pending stores, and each leaves at its place what its
rule writes there. -/

namespace Sys2Proof.Machine
open Sys2Proof Sys2Proof.Claims

/-! ### An element's store (R217, R218) -/

/-- The pending store of an element. -/
def VEntry.elemStore (e : VEntry) (m : VMem) (c : Ctx) (a : ElemAccess) : PendStore :=
  { ord := e.ord, place := a.place, size := a.size
    kind := VMem.storeKind e.ins (Qual.fmt m.q e.vtype) a.idx (elemAt (c.vreg m.reg) (Fmt.bits (Qual.fmt m.q e.vtype)) a.idx)
    cached := a.cached, release := false, vec := true
    words := (VMem.words e.ins (Qual.fmt m.q e.vtype) e.accesses).filter fun w => decide (a.place < 8 * w + 8) && decide (8 * w < a.place + a.size) }

theorem vStored_eq (m : VMem) (e : VEntry) (c : Ctx) : vStored m e c = { c with stores := c.stores ++ e.accesses.map (e.elemStore m c) } := rfl

/-- The bytes that an element's store leaves where its place holds the number old. -/
def storedBytes (add : Bool) (f : Fmt) (v old : Nat) (x : ElemAccess) : List Byte :=
  if add then bytesOf (vamoSum f old v) x.size
  else if f = .cb4 then [BitVec.ofNat 8 (if x.idx % 2 = 1 then old % 16 + 16 * v else old / 16 * 16 + v)]
  else bytesOf v x.size

/-- An instruction whose elements are added, or stored. -/
def StoresAs (add : Bool) (i : Instr) : Prop :=
  ∀ f j v, VMem.storeKind i f j v = if add then .add f v else if f = .cb4 then .nibble (j % 2 == 1) v else .data (bytesOf v (elemBytes f))

section
variable {s t u v : State} {add : Bool} {f : Fmt} {x : ElemAccess} {i : Instr} {m : VMem} {c : Ctx} {e : VEntry} {w mem : Memory}

theorem length_storedBytes (hx : x.size = elemBytes f) (n old : Nat) : (storedBytes add f n old x).length = x.size := by
  unfold storedBytes
  split
  · exact length_bytesOf _ _
  · split
    · next hf => rw [hx, hf]; rfl
    · exact length_bytesOf _ _

theorem Memory.writeN_eq (w : Memory) (p n k : Nat) : w.writeN p n k = w.writeBytes p (bytesOf k n) := by
  induction n generalizing w p k with
  | zero => rfl
  | succ n ih => exact ih _ _ _

theorem storeElem_eq (hx : x.size = elemBytes f) (n : Nat) (w : Memory) :
    storeElem add f n w x = w.writeBytes x.place (storedBytes add f n (w.readN x.place x.size) x) := by
  unfold storeElem storedBytes
  split
  · exact w.writeN_eq _ _ _
  · split
    · next hf =>
      subst hf
      rw [hx]
      rfl
    · exact w.writeN_eq _ _ _

/-- An element's store puts these bytes at its place. -/
theorem performStore_elemStore (hi : StoresAs add e.ins) (hx : x.size = elemBytes (Qual.fmt m.q e.vtype)) (hecc : t.ecc = []) :
    t.performStore (e.elemStore m c x) = t.putBytes x.place x.cached (storedBytes add (Qual.fmt m.q e.vtype)
      (elemAt (c.vreg m.reg) (Fmt.bits (Qual.fmt m.q e.vtype)) x.idx) (t.bytesAt x.cached x.place x.size) x) := by
  have hkind : (e.elemStore m c x).kind = _ := hi _ _ _
  have hlt : elemAt (c.vreg m.reg) (Fmt.bits (Qual.fmt m.q e.vtype)) x.idx < 2 ^ Fmt.bits (Qual.fmt m.q e.vtype) := Nat.mod_lt _ (by positivity)
  generalize elemAt (c.vreg m.reg) (Fmt.bits (Qual.fmt m.q e.vtype)) x.idx = n at hkind hlt
  have hgood : t.eccAt x.place x.size = false := by simp [State.eccAt, hecc]
  unfold State.performStore storedBytes
  rw [hkind]
  cases add with
  | true => exact if_neg (by rw [show t.eccAt (e.elemStore m c x).place (e.elemStore m c x).size = false from hgood]; decide)
  | false =>
    by_cases hf : Qual.fmt m.q e.vtype = .cb4
    · rw [hf] at hx hlt ⊢
      have hone : t.bytesAt x.cached x.place x.size = (t.byteAt x.cached x.place).toNat := by
        rw [hx]
        exact Nat.add_zero _
      have hsmall : n % 16 = n := Nat.mod_eq_of_lt hlt
      simp only [if_true, Bool.false_eq_true, if_false, hone, hsmall, beq_iff_eq]
      rfl
    · rw [if_neg (by decide), if_neg hf, if_neg (by decide), if_neg hf, hx]
      rfl

/-! ### The stores of an instruction in order (R217) -/

/-- Memory w stands where the accesses are performed, and outside them every byte is as in v. -/
structure Stored (v : State) (acc : List ElemAccess) (t : State) (w : Memory) : Prop where
  inside : ∀ x ∈ acc, ∀ q, x.place ≤ q → q < x.place + x.size → t.byteAt x.cached q = w.read q
  outside : ∀ q, (∀ x ∈ acc, q < x.place ∨ x.place + x.size ≤ q) → t.mem.read q = v.mem.read q ∧ t.homeByte q = v.homeByte q
  lines : ∀ x ∈ acc, x.cached = none → t.FullLines x.place x.size

/-- Accesses to one byte are performed in one place, the caches or the home. -/
def Coherent (acc : List ElemAccess) : Prop :=
  ∀ x ∈ acc, ∀ y ∈ acc, ∀ q, x.place ≤ q → q < x.place + x.size → y.place ≤ q → q < y.place + y.size → x.cached.isSome = y.cached.isSome

theorem State.byteAt_congr {o o' : Option Nat} (h : o.isSome = o'.isSome) (q : Nat) : t.byteAt o q = t.byteAt o' q := by
  rw [State.byteAt, h]
  rfl

theorem State.bytesAt_of_bytes {o : Option Nat} {p n : Nat} (h : ∀ q, p ≤ q → q < p + n → t.byteAt o q = w.read q) :
    t.bytesAt o p n = w.readN p n := by
  induction n generalizing p with
  | zero => rfl
  | succ n ih => rw [State.bytesAt, Memory.readN, h p (Nat.le_refl p) (by omega), ih fun q hp hq => h q (by omega) (by omega)]

/-- One of the accesses has put its bytes. -/
theorem Stored.put {acc : List ElemAccess} {bs : List Byte} (h : Stored v acc t w) (hcoh : Coherent acc) (hx : x ∈ acc) (hlen : bs.length = x.size)
    (hput : BytesPut t u x.cached x.place bs) (hlines : ∀ q n, t.FullLines q n → u.FullLines q n) :
    Stored v acc u (w.writeBytes x.place bs) where
  inside y hy q hp hq := by
    by_cases hin : x.place ≤ q ∧ q < x.place + x.size
    · obtain ⟨hxp, hxq⟩ := hin
      have hi : q - x.place < bs.length := by omega
      have hbyte := (hput.inside _ hi).symm.trans (Memory.read_writeBytes_inside w x.place hi)
      rw [Nat.add_sub_cancel' hxp] at hbyte
      rw [← State.byteAt_congr (hcoh x hx y hy q hxp hxq hp hq)]
      exact Option.some.inj hbyte
    · have hout : q < x.place ∨ x.place + bs.length ≤ q := by omega
      obtain ⟨hread, hhome⟩ := hput.outside q hout
      rw [Memory.read_writeBytes_outside _ _ _ _ hout, ← h.inside y hy q hp hq, State.byteAt, hread, hhome]
      rfl
  outside q hq := by
    obtain ⟨hread, hhome⟩ := hput.outside q (by rw [hlen]; exact hq x hx)
    obtain ⟨hread', hhome'⟩ := h.outside q hq
    exact ⟨hread.trans hread', hhome.trans hhome'⟩
  lines y hy hc := hlines _ _ (h.lines y hy hc)

/-- The stores of the elements xs are performed in their order. -/
theorem performsAll_elemStores (h : Quiet s) (hloads : c.loads = []) (hvq : c.vq = []) (hjob : c.job = s.curCtx.job) (hi : StoresAs add e.ins)
    {acc : List ElemAccess} (hcoh : Coherent acc) (hsize : ∀ x ∈ acc, x.size = elemBytes (Qual.fmt m.q e.vtype)) (d : Ctx)
    (xs : List ElemAccess) (hxs : ∀ x ∈ xs, x ∈ acc) (ht : Performing s t c (xs.map (e.elemStore m d))) (hw : Stored v acc t w) :
    ∃ u, PerformsAll s.sched.cur xs.length t u ∧ Performing s u c [] ∧
      Stored v acc u (xs.foldl (fun w x => storeElem add (Qual.fmt m.q e.vtype)
        (elemAt (d.vreg m.reg) (Fmt.bits (Qual.fmt m.q e.vtype)) x.idx) w x) w) := by
  induction xs generalizing t w with
  | nil => exact ⟨t, rfl, ht, hw⟩
  | cons x xs ih =>
    obtain ⟨hx, hxs⟩ := List.forall_mem_cons.1 hxs
    generalize hn : elemAt (d.vreg m.reg) (Fmt.bits (Qual.fmt m.q e.vtype)) x.idx = n
    have hlen := length_storedBytes (add := add) (hsize x hx) n (w.readN x.place x.size)
    have hold : (t.setCtx s.sched.cur { c with stores := xs.map (e.elemStore m d) }).bytesAt x.cached x.place x.size = w.readN x.place x.size :=
      State.bytesAt_of_bytes fun q hp hq => by
        rw [← hw.inside x hx q hp hq, State.byteAt, State.setCtx_mem,
          State.homeByte_congr (t := t.setCtx _ _) (s := t) (by rw [State.setCtx_stale]) (by rw [State.setCtx_mem])]
        rfl
    have hstore := performStore_elemStore (t := t.setCtx s.sched.cur { c with stores := xs.map (e.elemStore m d) }) (m := m) (c := d) hi
      (hsize x hx) (by rw [State.setCtx_ecc, ht.ecc])
    rw [hn, hold] at hstore
    obtain ⟨u, hexec, hu, hput, hlines⟩ := performs_first h ht hloads hvq hjob
      (fun q hq => by obtain ⟨y, -, rfl⟩ := List.mem_map.1 hq; rfl) rfl hstore fun hc => by rw [hlen]; exact hw.lines x hx hc
    have hstored := hw.put hcoh hx hlen hput hlines
    rw [← storeElem_eq (hsize x hx)] at hstored
    obtain ⟨u', hall, hu', hw'⟩ := ih hxs hu hstored
    refine ⟨u', ⟨u, hexec, hall⟩, hu', ?_⟩
    rwa [List.foldl_cons, hn]

/-- Before the first store the accesses read memory (R201, R202). -/
theorem stored_of_pass {sb : Word} {ok : List Fmt} {a : SReg} {p : Probe} (h : ElementsPass s i m sb ok a p mem) (hv : Going s v mem c) :
    Stored v p.acc v mem where
  inside x hx q hp hq := by
    cases hc : x.cached with
    | some o => exact congrArg (Memory.read · q) hv.mem
    | none =>
      have hclean := (h.lines x hx hc (q - x.place) (by omega)).1
      rw [Nat.add_sub_cancel' hp, ← hv.stale] at hclean
      exact (State.homeByte_of_clean hclean).trans (by rw [hv.mem])
  outside _ _ := ⟨rfl, rfl⟩
  lines x hx hc := State.fullLines_of_clean fun j hj => by
    rw [hv.stale]
    exact (h.lines x hx hc j hj).1

/-- No byte is both in a line that a bank may hold and in one that none may. -/
theorem coherent_of_pass {sb : Word} {ok : List Fmt} {a : SReg} {p : Probe} (h : ElementsPass s i m sb ok a p mem) : Coherent p.acc := by
  have hnone : ∀ x ∈ p.acc, ∀ y ∈ p.acc, ∀ q, x.place ≤ q → q < x.place + x.size → y.place ≤ q → q < y.place + y.size → x.cached = none →
      y.cached = none := fun x hx y hy q hxp hxq hyp hyq hc =>
    (h.lines x hx hc (q - x.place) (by omega)).2 y hy (q - y.place) (by omega) (by rw [Nat.add_sub_cancel' hxp, Nat.add_sub_cancel' hyp])
  intro x hx y hy q hxp hxq hyp hyq
  rw [Bool.eq_iff_iff, ← not_iff_not, Bool.not_eq_true, Bool.not_eq_true, Option.isSome_eq_false_iff, Option.isSome_eq_false_iff,
    Option.isNone_iff_eq_none, Option.isNone_iff_eq_none]
  exact ⟨hnone x hx y hy q hxp hxq hyp hyq, hnone y hy x hx q hyp hyq hxp hxq⟩

/-- A vector store runs, and its elements' stores are pending (R217). -/
theorem runs_store {sb : Word} {ok : List Fmt} {a : SReg} {p : Probe} (hi : VMemOp i m) (hwrite : m.write = true)
    (h : ElementsPass s i m sb ok a p mem) (hfail : p.fail = none)
    (henter : exec i s = .next (s.entered (entryOf i s.curCtx (s.curCtx.reg a) sb))) :
    ∃ v beats, Runs i s v ∧ PageBits s.mem mem ∧ Going s v mem { s.movingCtx (s.vmemEntry i (s.curCtx.reg a) sb p.acc none) with
      stores := p.acc.map ((s.vmemEntry i (s.curCtx.reg a) sb p.acc none).elemStore m s.curCtx), vecEcc := beats, vq := [] } := by
  have hprobe : s.probeMem s.sched.cur s.curCtx (entryOf i s.curCtx (s.curCtx.reg a) sb) m = (p, _) := Prod.ext h.probe rfl
  have hbits := (s.probeMem_effect s.sched.cur s.curCtx (entryOf i s.curCtx (s.curCtx.reg a) sb) m).bits
  obtain ⟨z, lost, hz, hruns⟩ := runs_vmem (cut := none) h.quiet hi henter hprobe fun t u c e _ hp hecc =>
    State.probeVMem_passes hp hfail (hecc.trans h.ecc)
  have heffect := State.vEffect_vmem (z := z) (cx := s.sched.cur) (c := s.movingCtx (s.vmemEntry i (s.curCtx.reg a) sb p.acc none))
    (e := { s.vmemEntry i (s.curCtx.reg a) sb p.acc none with lost := lost }) hi
  rw [if_pos hwrite, if_neg (by exact Bool.false_ne_true), vStored_eq] at heffect
  obtain ⟨v, beats, hexec, hv⟩ := hruns _ heffect
  rw [h.memory] at hv hbits
  refine ⟨v, beats, hexec, hbits, ?_⟩
  have hstores : (s.movingCtx (s.vmemEntry i (s.curCtx.reg a) sb p.acc none)).stores = [] := h.quiet.stores
  rw [hstores] at hv
  exact hv

end

/-- A vector store that enters the queue where its format is one it takes hands its elements over, and they are performed (R217, R218). -/
theorem vectorStores_of_enter {i : Instr} {m : VMem} {add : Bool} {sb : Ctx → Word} {ok : List Fmt} {a : SReg} (hi : VMemOp i m)
    (hwrite : m.write = true) (hadd : StoresAs add i) (henter : ∀ s, Quiet s → formatIn m.q ok s.curCtx = true →
      exec i s = .next (s.entered (entryOf i s.curCtx (s.curCtx.reg a) (sb s.curCtx)))) : VectorStores i m add sb ok a := by
  rintro s p mem f rfl h hfail
  obtain ⟨v, beats, hexec, hbits, hv⟩ := runs_store hi hwrite h hfail (henter s h.quiet h.format)
  have hacc := s.probeMem_accesses s.sched.cur s.curCtx (entryOf i s.curCtx (s.curCtx.reg a) (sb s.curCtx)) m
  rw [h.probe] at hacc
  have hperforming : Performing s v
      { s.movingCtx (s.vmemEntry i (s.curCtx.reg a) (sb s.curCtx) p.acc none) with vecEcc := beats, vq := [] } _ :=
    ⟨hv.alone.cur, hv.ctx, hv.unit, hv.ecc.trans h.ecc⟩
  obtain ⟨u, hall, hu, hw⟩ := performsAll_elemStores (e := s.vmemEntry i (s.curCtx.reg a) (sb s.curCtx) p.acc none) h.quiet
    (by exact h.quiet.loads) (by rfl) (by rfl) hadd (coherent_of_pass h) hacc.size s.curCtx p.acc (fun _ => id) hperforming (stored_of_pass h hv)
  have hvctx := hperforming.curCtx
  have huctx := hu.curCtx
  refine ⟨v, u, _, hexec, hv.mem, hbits, ?_, ?_, ?_, ?_, ?_, hall, ?_, ?_, rfl, hw.inside, fun q hq => ?_⟩
  · rw [hvctx]
    exact List.length_map _
  · rw [hvctx]; rfl
  · rw [hvctx]; rfl
  · rw [hvctx]; rfl
  · rw [hvctx]; rfl
  · rw [huctx]
  · rw [huctx]; rfl
  · obtain ⟨hread, hhome⟩ := hw.outside q hq
    exact ⟨hread.trans (by rw [hv.mem]), hhome.trans (State.homeByte_congr (by rw [hv.stale]) (by rw [hv.mem]))⟩

/-- The formats of VAMOADD (R218). -/
theorem accVamo_of_formatIn {q : Qual} {c : Ctx} (h : formatIn q [.i32, .i64, .f32] c = true) : accVamo (Qual.fmt q c.vtype) = true := by
  unfold formatIn at h
  unfold Qual.fmt
  revert h
  generalize q.fo.getD c.vtype = f
  cases f <;> decide

/-- R216 to R218: the four forms. -/
theorem vectorStoreResults : VectorStoreResults := by
  rintro vd vb a b amt q nc rfl
  refine ⟨vectorStores_of_enter (.vst vd a q) rfl (fun _ _ _ => rfl) fun s h _ => ?_,
    vectorStores_of_enter (.vsts vd a b q) rfl (fun _ _ _ => rfl) fun s h hf => ?_,
    vectorStores_of_enter (.vstx vd a vb amt q) rfl (fun _ _ _ => rfl) fun s h hf => ?_,
    vectorStores_of_enter (.vamoadd vd a vb amt q) rfl (fun _ _ _ => rfl) fun s h hf => ?_⟩
  · exact State.vMemEnter_of_quiet h (q := q) (ok := fun _ => true) rfl _ a [] 0
  · exact State.vMemEnter_of_quiet h (notCb4_of_formatIn hf) _ a [b] b
  · exact State.vMemEnter_of_quiet h (notCb4_of_formatIn hf) _ a [] 0
  · exact State.vMemEnter_of_quiet h (accVamo_of_formatIn hf) _ a [] 0

/-- Settles O21: with nothing else in flight the probe pass answers in the queue as at issue, a load then takes the bytes of memory into its
register, and a store's elements are performed in order, each leaving its bytes at its place. -/
theorem vectorMemoryResults : Obligations.VectorMemoryResults := ⟨vectorLoadResults, firstFaultLoads, vectorStoreResults⟩

end Sys2Proof.Machine
